-- ==== Sys2Proof/Word.lean ====
section
/-! DEFINITION. The word types of the device (R8: little-endian fields, bit 0 the least significant) and their plainest
arithmetic. -/

namespace Sys2Proof

/-- One byte of a record, a line or a frame. -/
abbrev Byte := BitVec 8

/-- A 16-bit field. -/
abbrev Half := BitVec 16

/-- A 32-bit register or field. -/
abbrev Word := BitVec 32

/-- A 64-bit register, argument or field. -/
abbrev DWord := BitVec 64

/-- Bit i of n. -/
def natBit (n i : Nat) : Bool := n / 2 ^ i % 2 == 1

/-- Bits [lo + w - 1 : lo] of n. -/
def natBits (n lo w : Nat) : Nat := n / 2 ^ lo % 2 ^ w

/-- The number of ones among the low w bits of n. -/
def popCount : Nat → Nat → Nat
  | 0, _ => 0
  | w + 1, n => n % 2 + popCount w (n / 2)

end Sys2Proof
end

