-- ==== Sys2Proof/Syntax.lean ====
section
/-! DEFINITION. The commands of the device: one constructor of Instr for each row of spec/opcode_table.json, with the
operands that the row's rule gives the event. What a command finds outside the device (host memory, bit errors, pin and
sensor readings, messages of peers) is an operand (log 5, log 6). -/

namespace Sys2Proof

/-- The seven supply rails of R17. -/
inductive Rail where
  | vddCd | vddCdm | vddHub | vddqMc | vddSer | vddhSer | vddIo18
  deriving DecidableEq, Repr

/-- What host memory answers during one step (R318, R374, R396): the bytes the sender lists, by host address, zero
elsewhere, and the 4 KiB pages that do not translate. log 5. -/
structure HostView where
  bytes    : List (Nat × Byte)
  unmapped : List Nat
  deriving DecidableEq, Repr

/-- The port a mailbox command came through: the admin mailbox, whose registers hold the arguments (R359), or the
sideband mailbox, whose message carries tag and arguments (R514). -/
inductive Via where
  | admin
  | sideband (tag : Byte) (args : List DWord)
  deriving DecidableEq, Repr

/-- A task by its queue and SEQ (R377; SEQ has bit 63 set for a sprout). -/
structure TaskRef where
  queue : Nat
  seq   : Nat
  deriving DecidableEq, Repr

/-- A core by compute die and physical column and row (R252; column 64 is the selvage column). -/
structure CoreAt where
  die : Nat
  col : Nat
  row : Nat
  deriving DecidableEq, Repr

/-- What a module reports to discovery (R312): DRAM density 1-3 as MC_MODULE codes it, ranks, stack (0 1H, 1 2H),
manufacturer and the highest of the four rates it reports (1-4 as MC_STATUS codes them). -/
structure Module where
  density : Nat
  ranks   : Nat
  stack   : Nat
  mfr     : Half
  topRate : Nat
  deriving DecidableEq, Repr

/-- How a channel's training ends (R314): no module, or a module with the highest rate at which its margin check
passes, 0 when it fails at 6,400 MT/s. -/
inductive Training where
  | absent
  | module (m : Module) (passes : Nat)
  deriving DecidableEq, Repr

/-- What one DRAM read meets (R321, R334): the symbols of the line's codeword that read wrong, numbered 0-79, symbol 8 d + k the k-th of
device d of the subchannel; and those of the copy on the mirrored partner, for a read that has to turn to it. -/
structure LineError where
  here    : List Nat
  partner : List Nat
  deriving DecidableEq, Repr

/-- A read that meets no error. -/
def LineError.clean : LineError := { here := [], partner := [] }

/-- A check that fails in a tick, a slot or a checked replay (R437, R439). Cores are named y * 256 + x, links
die * 4096 + router (R454), north-south ones 32768 higher (R253). -/
inductive TickFault where
  | residue (core : Nat)
  | checkRow
  /-- Uncorrectable array words and field-store words that the core cannot give up. -/
  | word (core : Nat) (words fieldWords : List Nat)
  | flit (link : Nat)
  | tickWire
  /-- Weir entry, seam cell, ledger or sequencer word (R437): refused, then mended from its source. -/
  | sram (kind : Nat)
  /-- A checked replay found this core's two passes different. -/
  | passesDiffer (core : Nat)
  deriving DecidableEq, Repr

/-- A correctable error met in the tick (R91, R453): structure code of R367, core, word number. -/
structure Corrected where
  kind : Nat
  core : Nat
  word : Nat
  deriving DecidableEq, Repr

/-- What a boundary meets: failing checks, corrected errors, late cycles from links, DRAM or the hub (R134), and the
host memory its actions read. -/
structure BoundaryEnv where
  faults    : List TickFault
  corrected : List Corrected
  late      : Nat
  host      : HostView
  deriving DecidableEq, Repr

/-- A frame of R276 with its header fields, 240 payload bytes and CRC-32 as received. -/
structure LinkFrame where
  type     : Nat
  dest     : Nat
  src      : Nat
  seq      : Nat
  ack      : Nat
  ackValid : Bool
  count    : Nat
  stream   : Nat
  first    : Nat
  payload  : List Byte
  crc      : Word
  deriving DecidableEq, Repr

/-- A frame as a port receives it, with the codewords that the FEC corrected in it and those it could not correct (R280, R281). -/
structure Arrival where
  frame         : LinkFrame
  corrected     : Nat
  uncorrectable : Nat
  deriving DecidableEq, Repr

/-- ARM of R278. -/
structure ArmMsg where
  tag       : DWord
  shardMask : DWord
  hash16    : List Byte
  seeds     : List DWord
  launch    : DWord
  profile   : Nat
  origin    : Nat
  deriving DecidableEq, Repr

/-- VOTE of R278: kind 0 seam, 1 seal, 2 barrier, 3 launch. -/
structure VoteMsg where
  tag    : DWord
  index  : Nat
  slot   : Nat
  kind   : Nat
  value  : Nat
  origin : Nat
  deriving DecidableEq, Repr

/-- SUM of R278. -/
structure SumMsg where
  tag    : DWord
  tick   : Nat
  origin : Nat
  values : List Int
  deriving DecidableEq, Repr

/-- HEM_ACK of R278. -/
structure HemAckMsg where
  tag   : DWord
  tick  : Nat
  shard : Nat
  slot  : Nat
  buddy : Nat
  deriving DecidableEq, Repr

/-- PEER_LOST of R278. -/
structure LostMsg where
  lost     : Nat
  detector : Nat
  stitch   : DWord
  deriving DecidableEq, Repr

/-- LINK of R278; node 255 for none. -/
structure LinkMsg where
  unit    : DWord
  node    : Nat
  port    : Nat
  latency : Nat
  deriving DecidableEq, Repr

/-- TOPOLOGY of R278: for each port peer node (255 for none), peer port and NL_STATUS.STATE. -/
structure TopoMsg where
  unit     : DWord
  node     : Nat
  sequence : Nat
  ports    : List (Nat × Nat × Nat)
  deriving DecidableEq, Repr

/-- What a Nuthes port's training finds (R275, R281, R298): the lanes that train, measured latency, the peer, and whether the
peer announces a new session. -/
structure PortTraining where
  lanesGood : List Nat
  latency   : Nat
  peer      : LinkMsg
  newSession : Bool
  deriving DecidableEq, Repr

/-- Which debug port a command came through (R522). -/
inductive DebugPort where
  | sideband (tag : Byte)
  | jtag
  deriving DecidableEq, Repr

/-- A debug packet (R266 TYPE 6, R521): a read of a core's array word or field, of a router, a sequencer or an engine
window, a write to a core's array word, or halting and stepping a control core (true: the active one). -/
inductive DebugPacket where
  | readArray (core : CoreAt) (word : Nat)
  | readField (core : CoreAt) (index : Nat)
  | readRouter (core : CoreAt) (entry : Nat)
  | readSequencer (engine addr : Nat)
  | readWindow (engine offset : Nat)
  | writeArray (core : CoreAt) (word : Nat) (value : DWord)
  | halt (active : Bool)
  | stepCore (active : Bool)
  deriving DecidableEq, Repr

/-- A word of the narrow channel with its control bits HEAD, TAIL, VC[1:0] and even PARITY, from the highest down (R266). -/
structure NarrowWord where
  bits    : BitVec 32
  control : BitVec 5
  deriving DecidableEq, Repr

/-- The commands, one for each row of spec/opcode_table.json. -/
inductive Instr where
  -- package, rails and resets (01, 18)
  | porNAssert (lowNs : Nat)
  | resetRelease
  | strapLatch (pins : Byte)
  | railLoss (rail : Rail)
  | hubReferenceLoss
  | pcieReferenceLoss
  | perstNAssert (lowNs : Nat)
  | perstNDeassert
  | pcieLinkTrained (rate width : Nat)
  | surpriseLinkDown
  | linkRetrain
  | functionLevelReset
  -- heat and start-up
  | sensorSample (die : Nat) (readings : List Int)
  | guardEvaluate
  | coldStartRelease
  | hubFirmwareVerified (avsAnswers core0Ok core1Ok : Bool)
  | dramTrainingComplete (channel : Nat) (outcome : Training)
  | enginesIdle (failed : List CoreAt)
  | mbxReadySet
  -- Nuthes Link (09)
  | nlPresentDebounced (port : Nat)
  | nlPortTrained (port : Nat) (found : PortTraining)
  | nlPortDetach (port : Nat) (prsntHigh : Bool)
  | rehost (tag : DWord)
  | flit (port : Nat) (frame : Arrival)
  | bulk (port : Nat) (frame : Arrival)
  | openStream (port : Nat) (frame : Arrival)
  | frameAckTimeout (port : Nat)
  | stitch (port : Nat) (frame : Arrival)
  | arm (port : Nat) (frame : Arrival)
  | vote (port : Nat) (frame : Arrival) (host : HostView)
  | sum (port : Nat) (frame : Arrival)
  | hemAck (port : Nat) (frame : Arrival)
  | peerLost (port : Nat) (frame : Arrival)
  | link (port : Nat) (frame : Arrival)
  | topology (port : Nat) (frame : Arrival)
  | topologyPeriodic
  | launchAttempt (tag : DWord) (host : HostView)
  -- admin mailbox (11, 12, 14, 15, 16)
  | getInfo (via : Via)
  | sessionAttachResume (host : HostView)
  | sessionAttachEnd (host : HostView)
  | apertureSet
  | engRelease (host : HostView)
  | nodeSet (via : Via)
  | memFresh
  | memMirrorSet
  | queueCreate
  | queueDestroy
  | queueQuery
  | queueRearm
  | taskCancel
  | runPause
  | runResume (host : HostView)
  | runStop
  | hangSet
  | fenceAllocate
  | fenceFree
  | fenceClearErr
  | ceChainStart
  | ceChainStop
  | faultLogRead (via : Via)
  | faultRecordRead (via : Via)
  | faultRecordClear (via : Via)
  | fwUpdate
  | fwUpdateNextBoot
  | fwStatus (via : Via)
  | fwConfirm
  | fwAbort
  | rngRead
  | rngStatus (via : Via)
  | powerRead (via : Via)
  | guardSet (via : Via)
  -- registers and BARs (11)
  | cfgCommitGo (host : HostView)
  | cfgCommitDiscard
  | registerWrite (offset width : Nat) (value : DWord)
  | registerReadClear (offset width : Nat)
  | latchingLowRead (offset : Nat)
  | nlCtrlWrite (port : Nat) (value : Word)
  | evtRingTailWrite (value : Word)
  | msixUnmask (vector : Nat)
  | apertureRead (offset length : Nat)
  | apertureWrite (offset : Nat) (data : List Byte)
  | tailWrite (queue : Nat) (value : Word)
  | hswap (queue : Nat) (value : Word)
  | handleTableSwap (queue : Nat)
  | sproutAck (queue : Nat) (value : Word) (host : HostView)
  -- headgate and tasks (12)
  | slotBind (slot queue : Nat)
  | descriptorFetch (slot : Nat) (line : Option (List Byte))
  | fetchRetry (queue : Nat)
  | slotTimeout (slot : Nat)
  | taskAdmit (slot : Nat)
  | taskAgeing (task : TaskRef)
  | nop (task : TaskRef)
  | runAnneal (task : TaskRef) (host : HostView)
  | runScoring (task : TaskRef) (host : HostView)
  | runLearning (task : TaskRef) (host : HostView)
  | runFromCheckpoint (task : TaskRef) (host : HostView)
  | runRehostStart (task : TaskRef) (host : HostView)
  | loadPattern (task : TaskRef)
  | loadArrayPhase (task : TaskRef) (found : List CoreAt)
  | copy (task : TaskRef) (host : HostView)
  | randomFillStates (task : TaskRef) (host : HostView)
  | randomFillBytes (task : TaskRef) (host : HostView)
  | checkpoint (task : TaskRef)
  | fenceSignal (task : TaskRef)
  | fenceWait (task : TaskRef)
  | fenceWaitSatisfied (task : TaskRef)
  | fenceCycleScan
  | hangInterval
  | engineResetTimeout (engine : Nat)
  | taskRetire (task : TaskRef) (host : HostView)
  | chainLinkComplete (engine : Nat) (host : HostView)
  | chainWaitSatisfied (engine : Nat)
  -- ticks (04, 05, 06, 07, 08); engine: any engine of the run
  | tickStart (engine late : Nat)
  | tickBoundary (engine : Nat) (env : BoundaryEnv)
  | ringPoll (engine : Nat) (host : HostView)
  | spoolLoadComplete (engine replica : Nat)
  | weirRebuildComplete (engine rung : Nat)
  | slotIssue (engine slot late : Nat)
  | slotBoundary (engine slot : Nat) (env : BoundaryEnv)
  | runBoundary (engine : Nat) (env : BoundaryEnv)
  | harvestTick (engine late : Nat) (host : HostView)
  | scoringTick (engine late : Nat) (host : HostView)
  | stepBoundary (engine : Nat) (env : BoundaryEnv)
  | learnedImageComplete (engine : Nat)
  | shiftRepairComplete (engine : Nat)
  | wireSteerComplete (engine : Nat)
  -- memory channels (10)
  | dramRead (addr : Nat) (error : LineError)
  | dramWrite (addr : Nat) (data : List Byte)
  | mergeDrainTimeout (channel line : Nat)
  | scrubRead (channel : Nat) (error : LineError)
  | refresh (channel bank : Nat)
  | mr4Poll (channel : Nat) (hot : Bool)
  | selfRefreshEntry
  | selfRefreshExit
  | channelLost (channel : Nat)
  -- power domains and held records (15, 11)
  | domainIdle (domain : Nat)
  | domainWake (domain : Nat)
  | domainWakeComplete (domain : Nat)
  | heldRecordDelivery
  -- control cores and firmware (14, 16)
  | controlCoreTakeover
  | standbyRestore (passes : Bool)
  | soleCoreFailure
  | fwWriteComplete (readBackGood : Bool)
  | fwLoadComplete (verifies : Bool)
  | fwHandover
  | imageConfirm
  | confirmWindowTimeout
  | sequencerReload (engine : Nat)
  -- entropy (16)
  | entropyStartupComplete
  | healthTestFailure (cells : Byte) (test : Nat)
  | retestComplete (passes : Bool)
  | drbgReseed (inst : Nat)
  -- sideband, recovery, debug and JTAG (17)
  | sbRead (tag : Byte) (args : List DWord)
  | alertRead (tag : Byte)
  | alertClear (tag : Byte) (args : List DWord)
  | alertResponseAddress
  | flashRead (tag : Byte) (args : List DWord)
  | flashErase (tag : Byte) (args : List DWord)
  | flashWrite (tag : Byte) (args : List DWord)
  | recoveryReboot (tag : Byte)
  | debugChallenge (port : DebugPort)
  | debugUnlock (port : DebugPort) (token : List Byte)
  | dbgAccess (head source : NarrowWord) (packet : DebugPacket)
  | extest
  | samplePreload (value : Nat)
  | idcode
  | highz
  | clamp
  | extestPulse
  | extestTrain
  | bypass (code : Byte)
  | trstNAssert
  | i3cSetdasa (staticAddr newAddr : Byte)
  | i3cEntdaa (newAddr : Byte)
  | setEndpointId (eid : Byte)
  | getEndpointId
  | getVersionSupport (messageType : Byte)
  | getMessageTypeSupport
  | gettid
  | settid (tid : Byte)
  | getpldmtypes
  | getpdrrepositoryinfo
  | getpdr (record : Nat)
  | getsensorreading (sensor : Nat)
  | getstatesensorreadings (sensor : Nat)
  | seteventreceiver (receiver : Byte)
  | platformeventmessage (sensor : Nat) (value : Int)
  | platformEventResend
  | platformEventAck (sensor : Nat)
  -- attestation (16)
  | getVersion
  | getCapabilities (version : Byte)
  | negotiateAlgorithms (asym hash measurement : Word)
  | getDigests
  | getCertificate (slot offset length : Nat)
  | challenge (slot : Nat) (nonce : List Byte)
  | getMeasurements (index : Nat) (signed : Bool) (nonce : List Byte)
  -- restorations and time-outs
  | railsGood
  | hubReferenceRestored
  | pcieReferenceRestored
  | retrainTimeout (port : Nat)
  | topologyExpiry (unit : DWord)
  | idleFrame (port : Nat) (frame : Arrival)
  | standbyReloadComplete
  | profileChangeComplete
  | atsInvalidation (pages : List Nat)
  | doeDiscovery (index : Nat)
  | mcAlertN (channel : Nat) (retryPasses retrainPasses : Bool)
  deriving DecidableEq, Repr

end Sys2Proof
end

