-- ==== Sys2Proof/Config.lean ====
section
/-! DEFINITION. The free values of the model: what the manual leaves open, or draws from physical noise and secrets. Each
is an opaque constant without a body, so that nothing can be proved of its value. -/

namespace Sys2Proof.Config

/-- Output byte n of DRBG instance i (I0, I1, I2 of R501) since power-up. The output of a DRBG seeded by thermal noise
(R500) is no function of anything the manual states. log 11, DESIGN CHOICE: a free value. -/
opaque drbgByte : Nat → Nat → Byte

/-- The estimate of power domain d, in mW, at free-value index n and stitch count t (R475, PD_POWER: an estimate with a
tolerance only). log 13, DESIGN CHOICE: a free value. -/
opaque domainPower : Nat → Nat → Nat → Word

/-- The energy in mJ since POR_N at free-value index n and stitch count t (R475). log 13, DESIGN CHOICE: a free value. -/
opaque energyMj : Nat → Nat → DWord

/-- Byte k of the certificate chain in slot 0 under the given running-image digest (R497): it rests on UNIT_SECRET and
on keys of Snildo's. log 14, DESIGN CHOICE: a free value. -/
opaque certByte : Nat → Nat → Byte

/-- The length of that chain in bytes (R497). log 14, DESIGN CHOICE: a free value. -/
opaque certLength : Nat → Nat

/-- Byte k of signature number n by the alias key (R497, R499). log 14, DESIGN CHOICE: a free value. -/
opaque signatureByte : Nat → Nat → Byte

/-- Digest byte k of measurement 1, the boot ROM (R498), whose contents the manual does not give. log 14, DESIGN CHOICE:
a free value. -/
opaque romDigestByte : Nat → Byte

/-- The 32-bit subsystem and vendor identifiers of configuration space that the manual leaves to Snildo (R341, R514):
index 0 the PCI vendor ID. log 15, DESIGN CHOICE: a free value. -/
opaque pciVendorId : Half

/-- Byte a of configuration space where the manual leaves it to PCI Express, to Snildo or to the board (R341). log 18, DESIGN
CHOICE: a free value. -/
opaque cfgByte : Nat → Byte

/-- Balls whose level the manual gives at some time (R16, R32-R38, R52, R517), and every other ball, by number. -/
inductive Pin where
  | porN | perstN | thermtripN | sbAlertN
  | strap (k : Nat)
  | nlActN (port : Nat)
  | nlPrsntN (port : Nat)
  | mcResetN (channel : Nat)
  | peLane (lane : Nat)
  | nlLane (port lane : Nat)
  | other (n : Nat)
  deriving DecidableEq, Repr, Inhabited

/-- The ball of cell k of the boundary-scan register (R520: the order is Snildo's BSDL file). log 17, DESIGN CHOICE: a free
value. -/
opaque cellPin : Nat → Pin

/-- Cell k of the boundary-scan register when it captures a pin whose level the manual does not give (R519, R520). log 17, DESIGN
CHOICE: a free value. -/
opaque pinCell : Nat → Nat → Bool

/-- Byte k of record n of the PDR repository (R512): the manual gives the sensors, not the records' bytes. log 17,
DESIGN CHOICE: a free value. -/
opaque pdrByte : Nat → Nat → Byte

/-- What a debug read of a place the manual gives no format for answers (R521: routers, sequencers, the work area of
R94). log 17, DESIGN CHOICE: a free value. -/
opaque debugWord : Nat → Nat → DWord

/-- Byte o of the section that shard n of the run with tag t has in a checkpoint or hem on another device (R428, R430):
what the waves of a resumed run over several devices bring is in no memory of this device. log 33, DESIGN CHOICE: a free
value. -/
opaque peerByte : Nat → Nat → Nat → Byte

/-- The router, as die * 4,160 + column * 64 + row, that holds router plan entry n of the plan at an offset of the DITCH_PLAN section of
the pattern with a hash (R259, R261: the manual says that router entries follow the header and not how they are grouped by
router). log 74, DESIGN CHOICE: a free value. -/
opaque planRouter : List Byte → Nat → Nat → Nat

/-- The same of read-list entry n (R264). log 74, DESIGN CHOICE: a free value. -/
opaque planReader : List Byte → Nat → Nat → Nat

end Sys2Proof.Config
end

