-- ==== Sys2Proof/Machine/Crypto.lean ====
section
/-! DEFINITION. The published functions the manual names: SHA-384 (R73, R426, R487), Philox4x32-10 (R137, R204),
CRC-32 (R276, R482) and ECDSA on brainpoolP384r1 (R485, R522). Their constants are those of the published
standards (PRESUMED, log 8, log 9, log 10). -/

namespace Sys2Proof.Machine

/-- 64-bit wrap. -/
def wrap64 (n : Nat) : Nat := n % 2 ^ 64

/-- The exclusive or of a 64-bit word turned right by two amounts and of a third word. -/
def turnXor (r q x y : Nat) : Nat :=
  let turned := fun (k : Nat) => x >>> k + wrap64 (x <<< (64 - k))
  Nat.xor (turned r) (Nat.xor (turned q) y)

/-- Four round constants of SHA-384 in one number of 256 bits, the first one highest: fractional parts of the cube roots of primes 4 n
to 4 n + 3, counted from 0. -/
def shaQuad (n : Nat) : Nat :=
  match n with
  | 0 => 0x428A2F98D728AE227137449123EF65CDB5C0FBCFEC4D3B2FE9B5DBA58189DBBC
  | 1 => 0x3956C25BF348B53859F111F1B605D019923F82A4AF194F9BAB1C5ED5DA6D8118
  | 2 => 0xD807AA98A303024212835B0145706FBE243185BE4EE4B28C550C7DC3D5FFB4E2
  | 3 => 0x72BE5D74F27B896F80DEB1FE3B1696B19BDC06A725C71235C19BF174CF692694
  | 4 => 0xE49B69C19EF14AD2EFBE4786384F25E30FC19DC68B8CD5B5240CA1CC77AC9C65
  | 5 => 0x2DE92C6F592B02754A7484AA6EA6E4835CB0A9DCBD41FBD476F988DA831153B5
  | 6 => 0x983E5152EE66DFABA831C66D2DB43210B00327C898FB213FBF597FC7BEEF0EE4
  | 7 => 0xC6E00BF33DA88FC2D5A79147930AA72506CA6351E003826F142929670A0E6E70
  | 8 => 0x27B70A8546D22FFC2E1B21385C26C9264D2C6DFC5AC42AED53380D139D95B3DF
  | 9 => 0x650A73548BAF63DE766A0ABB3C77B2A881C2C92E47EDAEE692722C851482353B
  | 10 => 0xA2BFE8A14CF10364A81A664BBC423001C24B8B70D0F89791C76C51A30654BE30
  | 11 => 0xD192E819D6EF5218D69906245565A910F40E35855771202A106AA07032BBD1B8
  | 12 => 0x19A4C116B8D2D0C81E376C085141AB532748774CDF8EEB9934B0BCB5E19B48A8
  | 13 => 0x391C0CB3C5C95A634ED8AA4AE3418ACB5B9CCA4F7763E373682E6FF3D6B2B8A3
  | 14 => 0x748F82EE5DEFB2FC78A5636F43172F6084C87814A1F0AB728CC702081A6439EC
  | 15 => 0x90BEFFFA23631E28A4506CEBDE82BDE9BEF9A3F7B2C67915C67178F2E372532B
  | 16 => 0xCA273ECEEA26619CD186B8C721C0C207EADA7DD6CDE0EB1EF57D4F7FEE6ED178
  | 17 => 0x06F067AA72176FBA0A637DC5A2C898A6113F9804BEF90DAE1B710B35131C471B
  | 18 => 0x28DB77F523047D8432CAAB7B40C724933C9EBE0A15C9BEBC431D67C49C100D4C
  | 19 => 0x4CC5D4BECB3E42B6597F299CFC657E2A5FCB6FAB3AD6FAEC6C44198C4A475817
  | _ => 0

/-- Word i of a number of n words of 64 bits, the first one highest. -/
def wordOf (n big i : Nat) : Nat := natBits big (64 * (n - 1 - i)) 64

/-- The eight words that chaining starts from, in one number: fractional parts of the square roots of the ninth to sixteenth primes. -/
def shaStart : Nat :=
  0xCBBB9D5DC1059ED8629A292A367CD5079159015A3070DD17152FECD8F70E593967332667FFC00B318EB44A8768581511DB0C2E0D64F98FA747B5481DBEFA4FA4

/-- A big-endian number from bytes. -/
def bytesBE (bs : List Byte) : Nat := bs.foldl (fun a b => a * 256 + b.toNat) 0

/-- The low k bytes of n, big-endian. -/
def toBytesBE : Nat → Nat → List Byte
  | 0, _ => []
  | k + 1, n => toBytesBE k (n / 256) ++ [BitVec.ofNat 8 n]

/-- A little-endian number from bytes (R8). -/
def bytesLE : List Byte → Nat
  | [] => 0
  | b :: bs => b.toNat + 256 * bytesLE bs

/-- The low k bytes of n, little-endian (R8). -/
def toBytesLE : Nat → Nat → List Byte
  | 0, _ => []
  | k + 1, n => BitVec.ofNat 8 n :: toBytesLE k (n / 256)

/-- A little-endian field of n bytes at offset a. -/
def fieldOf (bs : List Byte) (a n : Nat) : Nat := bytesLE ((bs.drop a).take n)

/-- k zero bytes. -/
def zeroBytes (k : Nat) : List Byte := List.replicate k 0

/-- Split into groups of n, the last one possibly short; fuel bounds the number of groups. -/
def chunksFuel {α : Type} : Nat → Nat → List α → List (List α)
  | 0, _, _ => []
  | _ + 1, _, [] => []
  | f + 1, n, xs => xs.take n :: chunksFuel f n (xs.drop n)

/-- Split into groups of n. -/
def chunks {α : Type} (n : Nat) (xs : List α) : List (List α) := chunksFuel xs.length n xs

/-- The working words of a compression: the last four values of each of its two recurrences, the newest first. -/
structure ShaTail where
  upper : List Nat
  lower : List Nat
  deriving DecidableEq, Repr

/-- One step of both recurrences with round constant and message word added up in kw. -/
def ShaTail.step (s : ShaTail) (kw : Nat) : ShaTail :=
  let x := fun i => s.upper.getD i 0
  let y := fun i => s.lower.getD i 0
  let pick := Nat.xor (y 2) (y 0 &&& Nat.xor (y 1) (y 2))
  let most := (x 0 &&& (x 1 ||| x 2)) ||| (x 1 &&& x 2)
  let turn := fun (z r : Nat) => z >>> r + wrap64 (z <<< (64 - r))
  let t := y 3 + turnXor 14 18 (y 0) (turn (y 0) 41) + pick + kw
  { upper := wrap64 (t + turnXor 28 34 (x 0) (turn (x 0) 39) + most) :: s.upper.take 3
    lower := wrap64 (x 3 + t) :: s.lower.take 3 }

/-- The message word that follows sixteen words, given oldest first. -/
def nextWord (w : List Nat) : Nat :=
  let g := fun i => w.getD i 0
  wrap64 (g 0 + g 9 + turnXor 1 8 (g 1) (g 1 >>> 7) + turnXor 19 61 (g 14) (g 14 >>> 6))

/-- Steps r and on, k of them; w holds the sixteen message words from word r on. -/
def shaSteps : Nat → Nat → List Nat → ShaTail → ShaTail
  | 0, _, _, s => s
  | k + 1, r, w, s => shaSteps k (r + 1) (w.drop 1 ++ [nextWord w]) (s.step (w.headD 0 + wordOf 4 (shaQuad (r / 4)) (r % 4)))

/-- One block of 128 bytes into the eight chaining words. -/
def shaBlock (hs : List Nat) (block : List Byte) : List Nat :=
  let s := shaSteps 80 0 ((chunks 8 block).map bytesBE) { upper := hs.take 4, lower := hs.drop 4 }
  (hs.zip (s.upper ++ s.lower)).map fun x => wrap64 (x.1 + x.2)

/-- SHA-384 of a byte string, 48 bytes (R73). log 9, PRESUMED: FIPS 180-4. -/
def sha384 (msg : List Byte) : List Byte :=
  let fill := 127 - (msg.length + 16) % 128
  let blocks := chunks 128 (msg ++ 0x80 :: zeroBytes fill ++ toBytesBE 16 (8 * msg.length))
  ((blocks.foldl shaBlock ((List.range 8).map (wordOf 8 shaStart))).take 6).flatMap (toBytesBE 8)

/-- One Philox4x32 round (Salmon et al., SC11): the multipliers 0xD2511F53 and 0xCD9E8D57. log 8, PRESUMED. -/
def philoxRound (k0 k1 : Nat) (c : Nat × Nat × Nat × Nat) : Nat × Nat × Nat × Nat :=
  let p0 := 0xD2511F53 * c.1
  let p1 := 0xCD9E8D57 * c.2.2.1
  (Nat.xor (Nat.xor (p1 / 2 ^ 32) c.2.1) k0, p1 % 2 ^ 32,
   Nat.xor (Nat.xor (p0 / 2 ^ 32) c.2.2.2) k1, p0 % 2 ^ 32)

/-- n Philox rounds, the key bumped by the Weyl constants 0x9E3779B9 and 0xBB67AE85 between them. -/
def philoxRounds : Nat → Nat → Nat → Nat × Nat × Nat × Nat → Nat × Nat × Nat × Nat
  | 0, _, _, c => c
  | n + 1, k0, k1, c =>
    philoxRounds n ((k0 + 0x9E3779B9) % 2 ^ 32) ((k1 + 0xBB67AE85) % 2 ^ 32) (philoxRound k0 k1 c)

/-- Philox4x32-10 (R137). -/
def philox (k0 k1 c0 c1 c2 c3 : Nat) : Nat × Nat × Nat × Nat := philoxRounds 10 k0 k1 (c0, c1, c2, c3)

/-- A bobbin draw (R137): seed word, PURPOSE, SUBJECT, REPLICA and tick index. -/
def bobbin (seed purpose subject replica tick : Nat) : Nat :=
  (philox (seed % 2 ^ 32) (seed / 2 ^ 32 % 2 ^ 32)
    (purpose * 2 ^ 24 + subject % 2 ^ 24) (replica % 2 ^ 12) (tick % 2 ^ 32) (tick / 2 ^ 32 % 2 ^ 16)).1

/-- Z(i) of the state hash (R204). -/
def stateHashTerm (i : Nat) : Nat :=
  let o := philox 0x53544154 0 i 0 0 0
  o.2.1 * 2 ^ 32 + o.1

/-- One byte into the reflected CRC-32 of IEEE 802.3. -/
def crc32Bits : Nat → Nat → Nat
  | 0, c => c
  | k + 1, c => crc32Bits k (if c % 2 = 1 then Nat.xor (c / 2) 0xEDB88320 else c / 2)

/-- CRC-32 with the IEEE 802.3 polynomial 0x04C1_1DB7 (R276, R482), in the standard's bit order, initial value and final
inversion. log 9, PRESUMED. -/
def crc32 (bs : List Byte) : Nat :=
  Nat.xor 0xFFFFFFFF (bs.foldl (fun c b => crc32Bits 8 (Nat.xor c b.toNat)) 0xFFFFFFFF)

/-- One byte into a CRC-8 with polynomial 0x07, highest bit first. -/
def crc8Bits : Nat → Nat → Nat
  | 0, c => c
  | k + 1, c => crc8Bits k (if 128 ≤ c then Nat.xor (2 * c % 256) 7 else 2 * c)

/-- CRC-8, polynomial 0x07, initial value 0 (R256). -/
def crc8 (bs : List Byte) : Nat := bs.foldl (fun c b => crc8Bits 8 (Nat.xor c b.toNat)) 0

/-- The field prime of brainpoolP384r1. log 10, PRESUMED: RFC 5639. -/
def curveP : Nat :=
  0x8CB91E82A3386D280F5D6F7E50E641DF152F7109ED5456B412B1DA197FB71123ACD3A729901D1A71874700133107EC53

/-- The coefficient A of brainpoolP384r1. -/
def curveA : Nat :=
  0x7BC382C63D8C150C3C72080ACE05AFA0C2BEA28E4FB22787139165EFBA91F90F8AA5814A503AD4EB04A8C7DD22CE2826

/-- The coefficient B of brainpoolP384r1. -/
def curveB : Nat :=
  0x04A8C7DD22CE28268B39B55416F0447C2FB77DE107DCD2A62E880EA53EEB62D57CB4390295DBC9943AB78696FA504C11

/-- The base point's x of brainpoolP384r1. -/
def curveGx : Nat :=
  0x1D1C64F068CF45FFA2A63A81B7C13F6B8847A3E77EF14FE3DB7FCAFE0CBD10E8E826E03436D646AAEF87B2E247D4AF1E

/-- The base point's y of brainpoolP384r1. -/
def curveGy : Nat :=
  0x8ABE1D7520F9C2A45CB1EB8E95CFD55262B70B29FEEC5864E19C054FF99129280E4646217791811142820341263C5315

/-- The order of the base point of brainpoolP384r1. -/
def curveN : Nat :=
  0x8CB91E82A3386D280F5D6F7E50E641DF152F7109ED5456B31F166E6CAC0425A7CF3AB6AF6B7FC3103B883202E9046565

/-- b ^ e modulo m by the low k bits of e. -/
def powMod (m : Nat) : Nat → Nat → Nat → Nat → Nat
  | 0, _, _, acc => acc
  | k + 1, b, e, acc => powMod m k (b * b % m) (e / 2) (if e % 2 = 1 then acc * b % m else acc)

/-- The inverse modulo a prime m below 2^384. -/
def invMod (m a : Nat) : Nat := powMod m 384 (a % m) (m - 2) 1

/-- Subtraction modulo m. -/
def subMod (m a b : Nat) : Nat := (a + m - b % m) % m

/-- A point in Jacobian coordinates; z = 0 is the point at infinity. -/
structure CurvePoint where
  x : Nat
  y : Nat
  z : Nat
  deriving DecidableEq, Repr

/-- Point doubling. -/
def curveDouble (q : CurvePoint) : CurvePoint :=
  if q.z = 0 ∨ q.y = 0 then { x := 1, y := 1, z := 0 } else
  let yy := q.y * q.y % curveP
  let s := 4 * q.x * yy % curveP
  let zz := q.z * q.z % curveP
  let m := (3 * q.x * q.x + curveA * (zz * zz % curveP)) % curveP
  let x := subMod curveP (m * m) (2 * s)
  { x := x, y := subMod curveP (m * subMod curveP s x) (8 * yy * yy), z := 2 * q.y * q.z % curveP }

/-- Point addition. -/
def curveAdd (q t : CurvePoint) : CurvePoint :=
  if q.z = 0 then t else if t.z = 0 then q else
  let zz1 := q.z * q.z % curveP
  let zz2 := t.z * t.z % curveP
  let u1 := q.x * zz2 % curveP
  let u2 := t.x * zz1 % curveP
  let s1 := q.y * (zz2 * t.z % curveP) % curveP
  let s2 := t.y * (zz1 * q.z % curveP) % curveP
  if u1 = u2 then (if s1 = s2 then curveDouble q else { x := 1, y := 1, z := 0 }) else
  let h := subMod curveP u2 u1
  let r := subMod curveP s2 s1
  let hh := h * h % curveP
  let hhh := hh * h % curveP
  let v := u1 * hh % curveP
  let x := subMod curveP (subMod curveP (r * r) hhh) (2 * v)
  { x := x, y := subMod curveP (r * subMod curveP v x) (s1 * hhh), z := h * (q.z * t.z % curveP) % curveP }

/-- u1 * G + u2 * q over the top k bits, gpq being G + q. -/
def curveMul2 (g q gpq : CurvePoint) (u1 u2 : Nat) : Nat → CurvePoint → CurvePoint
  | 0, acc => acc
  | k + 1, acc =>
    let d := curveDouble acc
    let b1 := natBits u1 k 1
    let b2 := natBits u2 k 1
    curveMul2 g q gpq u1 u2 k
      (if b1 = 1 then (if b2 = 1 then curveAdd d gpq else curveAdd d g)
       else if b2 = 1 then curveAdd d q else d)

/-- ECDSA verification on brainpoolP384r1 with a 48-byte digest: a public key of 97 bytes 0x04, X, Y and a signature r,
s of 48 bytes each, big-endian (R485, R522). log 10, PRESUMED: the published scheme. -/
def ecdsaVerifies (key digest sig : List Byte) : Bool :=
  let qx := bytesBE ((key.drop 1).take 48)
  let qy := bytesBE ((key.drop 49).take 48)
  let r := bytesBE (sig.take 48)
  let s := bytesBE ((sig.drop 48).take 48)
  let onCurve := qx < curveP && qy < curveP &&
    qy * qy % curveP == (qx * qx % curveP * qx + curveA * qx + curveB) % curveP
  if key.length = 97 ∧ key.head? = some 0x04 ∧ onCurve ∧ 0 < r ∧ r < curveN ∧ 0 < s ∧ s < curveN then
    let w := invMod curveN s
    let u1 := bytesBE digest % curveN * w % curveN
    let u2 := r * w % curveN
    let g : CurvePoint := { x := curveGx, y := curveGy, z := 1 }
    let q : CurvePoint := { x := qx, y := qy, z := 1 }
    let t := curveMul2 g q (curveAdd g q) u1 u2 384 { x := 1, y := 1, z := 0 }
    if t.z = 0 then false
    else
      let zi := invMod curveP t.z
      t.x * (zi * zi % curveP) % curveP % curveN == r
  else false

end Sys2Proof.Machine
end

