-- ==== Sys2Proof/Machine/Arith.lean ====
section
/-! DEFINITION. The arithmetic of the manual: the conversion unit (R108), the scale choices of a load (R114, R116), weir
indices and constants (R144, R179, R180), escape constants (R212), the exchange test (R188), and the learning formulas
(R236-R239). All values are exact integers. -/

namespace Sys2Proof.Machine

/-- convert(x, K, SH) of R108: a product, rounded with ties toward plus infinity when SH is not 0. -/
def convert (x : Int) (k sh : Nat) : Int :=
  if sh = 0 then x * k else (x * k + 2 ^ (sh - 1)) / 2 ^ sh

/-- floor((2x + d) / (2d)) * d of R116: the nearest multiple of d, ties toward plus infinity. -/
def quantise (x : Int) (d : Nat) : Int := (2 * x + d) / (2 * d) * d

/-- The absolute value as a natural number. -/
def absNat (x : Int) : Nat := x.natAbs

/-- The largest of a list of naturals, 0 for none. -/
def maxNat (xs : List Nat) : Nat := xs.foldl max 0

/-- The sum of a list of integers. -/
def sumInt (xs : List Int) : Int := xs.foldl (· + ·) 0

/-- The sum of a list of naturals. -/
def sumNat (xs : List Nat) : Nat := xs.foldl (· + ·) 0

/-- Clip to the range of an eight-bit learning code (R121, R236). -/
def clip127 (x : Int) : Int := if x > 127 then 127 else if x < -127 then -127 else x

/-- A signed value from the low w bits of n. -/
def signed (w n : Nat) : Int := if n % 2 ^ w < 2 ^ (w - 1) then (n % 2 ^ w : Nat) else (n % 2 ^ w : Nat) - 2 ^ w

/-- The low w bits of the two's complement of x. -/
def unsigned (w : Nat) (x : Int) : Nat := (x % 2 ^ w).toNat

/-- The value v of a pair or a term under its coarsest and finest step (R116, R117). -/
def pairValue (src : Int) (dc df tol : Nat) : Int :=
  let v := quantise src dc
  if absNat (v - src) ≤ tol then v
  else
    let v' := quantise src df
    if absNat (v' - src) ≤ tol then v' else src

/-- The code of v at an end of step d with range lim, or the outlier mark (R116, R117). -/
def endCode (v : Int) (d lim : Nat) : Option Int :=
  if v % d = 0 ∧ absNat (v / d) ≤ lim then some (v / d) else none

/-- Leading zeros of a 32-bit word, 32 for 0 (R144). -/
def leadZeros32 (x : Nat) : Nat := if x = 0 then 32 else 31 - Nat.log2 x

/-- idx(U) of R144. -/
def weirIndex (u : Nat) : Nat :=
  if natBit u 31 then
    let v := 2 ^ 32 - 1 - u
    let z := leadZeros32 v
    512 + 16 * (z - 1) + natBits (v * 2 ^ z) 27 4
  else
    let z := leadZeros32 u
    16 * (z - 1) + natBits (u * 2 ^ z) 27 4

/-- Fractional bits of the fixed-point work behind the constants of R179 and R212. -/
def fixBits : Nat := 192

/-- The series y + y^3/3 + y^5/5 + ... of the inverse hyperbolic tangent, n further terms, in fixed point. -/
def atanhSeries (y2 : Nat) : Nat → Nat → Nat → Nat → Nat
  | 0, _, _, acc => acc
  | n + 1, k, p, acc => atanhSeries y2 n (k + 2) (p * y2 / 2 ^ fixBits) (acc + p / k)

/-- 2 * atanh(a / b) in fixed point: the natural logarithm of (b + a) / (b - a). -/
def logRatio (a b : Nat) : Nat :=
  let y := a * 2 ^ fixBits / b
  2 * atanhSeries (y * y / 2 ^ fixBits) 110 1 y 0

/-- The natural logarithm of 2 in fixed point. -/
def fixLn2 : Nat := logRatio 1 3

/-- The natural logarithm of x / 2 ^ fixBits, x positive, in fixed point. -/
def fixLn (x : Nat) : Int :=
  let e := Nat.log2 x
  let one := 2 ^ e
  (e : Int) * fixLn2 - (fixBits : Int) * fixLn2 + logRatio (x - one) (x + one)

/-- -ln u_mid in fixed point (R179): u_mid = (33 + 2g) / 2^(z+6) below one half, 1 minus that from one half on. -/
def negLnMid (idx : Nat) : Nat :=
  let j := idx % 512
  let z := j / 16 + 1
  let a := 33 + 2 * (j % 16)
  let d := 2 ^ (z + 6)
  if idx < 512 then (((z + 6 : Nat) : Int) * fixLn2 - (fixLn (a * 2 ^ fixBits))).toNat
  else logRatio a (2 * d - a)

/-- Round a fixed-point value to the nearest multiple of 2^-k, ties toward plus infinity. -/
def roundFix (x : Int) (k : Nat) : Int := (x + 2 ^ (fixBits - k - 1)) / 2 ^ (fixBits - k)

/-- B(idx) of R179, in units of 2^-24. -/
def weirB (idx : Nat) : Int := roundFix (fixLn (negLnMid idx)) 24

/-- N(idx) of R179, in units of 2^-48. -/
def weirN (idx : Nat) : Nat := (roundFix (negLnMid idx) 48).toNat

/-- Entry idx of a weir row copy built for TEMP (R180). -/
def weirEntry (temp idx : Nat) : Int := (weirB idx * temp + 2 ^ 15) / 2 ^ 16

/-- Terms of e^-x for x in fixed point. -/
def expNegSeries (x : Nat) : Nat → Nat → Int → Int → Int
  | 0, _, _, acc => acc
  | n + 1, k, t, acc => expNegSeries x n (k + 1) (-(t * x / (2 ^ fixBits * k : Nat))) (acc + t)

/-- The n-th power of a fixed-point number below one, by the low k bits of n. -/
def fixPow : Nat → Nat → Nat → Nat → Nat
  | 0, _, _, acc => acc
  | k + 1, b, n, acc => fixPow k (b * b / 2 ^ fixBits) (n / 2) (if n % 2 = 1 then acc * b / 2 ^ fixBits else acc)

/-- X(q) of R212: round(2^32 * e^(-q/16)). -/
def escapeX (q : Nat) : Nat :=
  let e16 := (expNegSeries (2 ^ fixBits / 16) 60 1 (2 ^ fixBits : Nat) 0).toNat
  (roundFix (fixPow 13 e16 q (2 ^ fixBits)) 32).toNat

/-- The rate index q of a candidate (R212). -/
def rateIndex (dE : Int) (temp : Nat) : Nat :=
  if temp = 0 then (if dE ≤ 0 then 0 else 4095) else min 4095 (4096 * dE.toNat / temp)

/-- The test of R188 for a pair with codes ta, tb and energies ea, eb and draw u. -/
def exchangeAccepts (ta tb : Nat) (ea eb : Int) (u : Nat) : Bool :=
  let d := ((tb : Int) - ta) * (eb - ea)
  decide (d ≤ 0) || decide ((weirN (weirIndex u) : Int) * ta * tb > 2 ^ 56 * d)

/-- The gradient code of R236 before clipping. -/
def gradientRaw (d : Int) (gs : Nat) : Int := convert d ((127 * 65536 + gs / 2) / gs) 16

/-- The ceiling of a / b for naturals, b positive. -/
def cdiv (a b : Nat) : Nat := (a + b - 1) / b

/-- The momentum bound b_i of R237. -/
def momentumBound (mu lr qmax ms gs : Nat) : Nat := cdiv (mu * qmax * ms) 256 + cdiv (lr * gs) 65536

/-- mb' of R237 from the block's largest bound. -/
def momentumBlock (maxB : Nat) : Nat := min 65535 (max 1 (cdiv maxB 32385))

/-- mm' of R237. -/
def momentumRow (b mb' : Nat) : Nat := min 255 (max 1 (cdiv b (127 * mb')))

/-- a_i of R237. -/
def momentumA (mu qmax ms ms' : Nat) : Nat := if qmax = 0 then 0 else (mu * ms * 256 + ms' / 2) / ms'

/-- b2_i of R237. -/
def momentumB2 (lr gs ms' : Nat) : Nat := (lr * gs + 127 * ms' / 2) / (127 * ms')

/-- The momentum code of R237 before clipping. -/
def momentumRaw (q g : Int) (a b2 : Nat) : Int :=
  (q * (min a (2 ^ 24 - 1) : Nat) - g * (min b2 (2 ^ 24 - 1) : Nat) + 2 ^ 15) / 2 ^ 16

/-- The coupling target of R238. -/
def couplingTarget (c : Int) (d : Nat) (q' : Int) (ms' : Nat) : Int := 256 * c * d + q' * ms'

/-- EXP_NEXT of R238: the smallest k up to 7 that covers the row's largest target. -/
def exponentFor (sb maxTau : Nat) : Nat :=
  ((List.range 8).find? fun k => 127 * sb * 2 ^ k * 256 ≥ maxTau).getD 7

/-- The coarse code of R239 before clipping; with a momentum code of 0 it is the rescale of R121. -/
def coarseCode (tau : Int) (dc : Nat) : Int := (tau + 128 * dc) / (256 * dc)

/-- m(i) of R223: the smallest power of two that covers maxabs, at most 128. -/
def learnRowScale (maxabs sb : Nat) : Option Nat :=
  ((List.range 8).find? fun k => 127 * 2 ^ k * sb ≥ maxabs).map fun k => 2 ^ k

/-- The arithmetic clock in units of 50 MHz: 30, 22, 30 and 15 for P0-P3 (R464). -/
def clock50 (profile : Nat) : Nat := [30, 22, 30, 15].getD profile 30

/-- The link allowance A_L (R281): the ceiling of 96 ns times the clock. -/
def linkAllowance (profile : Nat) : Nat := cdiv (96 * 50 * clock50 profile) 1000

end Sys2Proof.Machine
end

