-- ==== Sys2Proof/Machine/Grid.lean ====
section
/-! DEFINITION. The grid's part of the state: loaded patterns with the contents of their cores (R73-R105, R184, R197, R224,
R225, R261, R292, R535-R540), and runs (R106, R122, R129-R247, R288-R307, R337). -/

namespace Sys2Proof.Machine

/-! ### Cores -/

/-- A coupling entry of a core (R97, R101): column, code (-128 marks an outlier), gradient and momentum codes, staging
counter (R226). -/
structure Entry where
  index   : Nat
  code    : Int
  grad    : Int
  mom     : Int
  counter : Int
  deriving DecidableEq, Repr

/-- An outlier-table entry (R104): kind 0 pair end, 1 third-order end. -/
structure Outlier where
  kind  : Nat
  row   : Nat
  pos   : Nat
  value : Int
  deriving DecidableEq, Repr

/-- A third-order end (R105). -/
structure TermEnd where
  code  : Int
  colB  : Nat
  colC  : Nat
  owner : Bool
  row   : Nat
  deriving DecidableEq, Repr

/-- The learning row state (R225). -/
structure RowState where
  gmax   : List Nat
  gs     : Nat
  gsNext : Nat
  mm     : Nat
  mmNext : Nat
  mb     : Nat
  mbNext : Nat
  qmax   : Nat
  expNext : Nat
  exp    : Nat
  deriving DecidableEq, Repr

/-- A row of a core: its variable descriptor (R102), logical number, run of entries (R95), check row (R103) and learning row
state. -/
structure Row where
  slot    : Nat
  var     : Nat
  part    : Nat
  visible : Bool
  bias    : Bool
  group   : Option Nat
  h       : Int
  m       : Nat
  first   : Nat
  last    : Nat
  s       : Int
  sDev    : Int
  learn   : RowState
  deriving DecidableEq, Repr

/-- A core of a pattern, by its placement coordinates (R535). cols gives the variable of each column (R98); empty in
whole-cloth, where column c of part p is variable c + 32,768 p (R100). -/
structure Core where
  shard    : Nat
  engine   : Nat
  col      : Nat
  row      : Nat
  rows     : List Row
  entries  : List Entry
  outliers : List Outlier
  ends     : List TermEnd
  cols     : List Nat
  sb       : Nat
  tb       : Nat
  /-- Next word and field pair the scrub reads (R438). -/
  scrubWord : Nat
  scrubPair : Nat
  deriving DecidableEq, Repr

/-- A block record (R535) with its residue word (R120). -/
structure Block where
  num     : Nat
  shard   : Nat
  engine  : Nat
  dblock  : Nat
  residue : Nat
  deriving DecidableEq, Repr

/-! ### Replicas -/

/-- A field of the field store: two copies, selector and pending bit (R106). -/
structure Field where
  a    : Int
  b    : Int
  sel  : Bool
  pend : Bool
  deriving DecidableEq, Repr

/-- One replica: its spin-state bits by logical number, fields by row, product bits by third-order end, V and state hash
(R54, R105, R106, R122, R204). -/
structure Replica where
  spins    : List Bool
  fields   : List Field
  products : List Bool
  v        : Int
  hash     : Nat
  deriving DecidableEq, Repr

/-! ### Patterns -/

/-- Header fields of a pattern (R73). -/
structure Header where
  imageLen  : Nat
  hash      : List Byte
  fwiMinor  : Nat
  mode      : Nat
  form      : Nat
  coding    : Nat
  profile   : Nat
  mask      : Nat
  shards    : Nat
  kinds     : Nat
  race      : Nat
  tickLen   : Nat
  resident  : Nat
  period    : Nat
  rungs     : Nat
  sections  : Nat
  nVars     : Nat
  nGroups   : Nat
  nCouplings : Nat
  nThird    : Nat
  tol       : Nat
  const     : Int
  conv      : DWord
  total     : Nat
  deriving DecidableEq, Repr

/-- A change record of the schedule (R184). -/
structure Change where
  tick : Nat
  rung : Nat
  temp : Nat
  deriving DecidableEq, Repr

/-- The result plan (R197). -/
structure ResultPlan where
  elite   : Nat
  budget  : Nat
  histOn  : Bool
  samples : Bool
  states  : Bool
  shift   : Nat
  period  : Nat
  base    : Int
  first   : Nat
  count   : Nat
  flush   : Nat
  deriving DecidableEq, Repr

/-- A router plan entry (R259) with the router that holds it, as die * 4,160 + column * 64 + row. -/
structure RouterEntry where
  router : Nat
  cycle  : Nat
  inPort : Nat
  outs   : Nat
  lane   : Nat
  op     : Nat
  wave   : Nat
  inputs : Nat
  arg    : Nat
  deriving DecidableEq, Repr

/-- A read-list entry (R264) with the router that holds it: ledger slot, FIRST, and the mask of in-block numbers. -/
structure ReadBlock where
  router : Nat
  slot   : Nat
  first  : Nat
  mask   : Nat
  deriving DecidableEq, Repr

/-- An entry of a ledger slot map (R263): die as shard and engine index, slot, and the block whose moves the slot takes. -/
structure LedgerSlot where
  shard  : Nat
  engine : Nat
  slot   : Nat
  block  : Nat
  deriving DecidableEq, Repr

/-- The ditch plan's header (R261). -/
structure Ditch where
  wN : Nat
  wS : Nat
  wR : Nat
  wH : Nat
  nL : Nat
  capture : Nat
  uMax : Nat
  eOwn : Nat
  eAll : Nat
  xMax : Nat
  edges : List Nat
  entries : Nat
  reads   : Nat
  slots   : Nat
  deriving DecidableEq, Repr

/-- The learning header (R224). -/
structure Learn where
  window  : Nat
  mu      : Nat
  sb      : Nat
  lr      : Nat
  gInit   : Nat
  sweeps  : Nat
  rounds  : Nat
  harvest : Nat
  steps   : Nat
  emit    : Nat
  thrG    : Nat
  thrM    : Nat
  thrC    : Nat
  step0   : Nat
  learnable : Nat
  deriving DecidableEq, Repr

/-- A SPROUT step of a sequencer program (R540). -/
structure SproutStep where
  first  : Nat
  period : Nat
  handle : Nat
  offset : Nat
  deriving DecidableEq, Repr

/-- The SHARDS header (R292). -/
structure ShardPlan where
  hN : Nat
  hS : Nat
  hP : Nat
  dX : Nat
  looseOk : Bool
  deriving DecidableEq, Repr

/-- A loaded pattern: the number that engines name it by, its image, where its shards lie (shard, first engine), and what its
sections hold. -/
structure Pattern where
  id       : Nat
  hash     : List Byte
  tickLen  : Nat
  image    : Nat
  header   : Header
  engines  : List Nat
  places   : List (Nat × Nat)
  e0       : Int
  blocks   : List Block
  cores    : List Core
  temps    : List Nat
  changes  : List Change
  plan     : ResultPlan
  ditch    : Ditch
  learn    : Learn
  joined   : ShardPlan
  programs : List (List SproutStep)
  /-- The router plan, read lists and ledger slot maps of its ditch plans (R259, R263, R264). -/
  routers  : List RouterEntry
  reads    : List ReadBlock
  ledger   : List LedgerSlot
  /-- The pattern shadow in the firmware region: each placed core as the load or the last refresh left it, and whether the last
  refresh is complete (R441). -/
  shadow   : List Core
  shadowed : Bool
  /-- Lanes and replicas as the last run on it left them in the arrays (R89). -/
  left     : List (Nat × Replica)
  deriving DecidableEq, Repr

/-- What a pattern that engines hold no more has left in the arrays of one of them: its cores by row and physical column (R89). -/
structure Left where
  pattern : Pattern
  cores   : List (Nat × Nat × Core)
  deriving DecidableEq, Repr

/-- A load that has passed its check phase and waits for its array phase (R77-R80). -/
structure Load where
  ref    : TaskRef
  image  : Nat
  report : Nat
  shards : Nat
  /-- Engines its array phase takes. -/
  engines : List Nat
  /-- PATTERN_HASH as the check phase found it (R81). -/
  hash   : List Byte
  deriving DecidableEq, Repr

/-! ### Runs -/

/-- A basted move (R148, R155): its block, the flips with their new values, its energy change, rank and label. -/
structure Move where
  block : Nat
  flips : List (Nat × Bool)
  dE    : Int
  rank  : Nat
  label : Nat
  deriving DecidableEq, Repr

/-- The work of one replica in a tick that has not sealed: what its boundary commits (R155-R158, R174, R228, R542). -/
structure Work where
  replica  : Nat
  slot     : Nat
  tick     : Nat
  /-- Free-value index of its race uniforms (R193). -/
  noise    : Nat
  /-- Sealed ahead of the run boundary of the tick before: committed at that boundary (log 31). -/
  sealed   : Bool
  basted   : List Move
  sewn     : List Move
  nulls    : Nat
  extra    : Nat
  escape   : Nat
  dE       : Int
  /-- Loose mode: remote moves that had arrived when the spread began (tick, replica, flips). -/
  remote   : List (Nat × Nat × List (Nat × Bool))
  /-- A harvest tick, and the reloaded replica it installs. -/
  harvest  : Bool
  reload   : Option Replica
  /-- A scored state: its position in the input and its energy. -/
  score    : Option (Nat × Int)
  /-- Cycles of the tick's work (R131, R172, R228, R293). -/
  cycles   : Nat
  deriving DecidableEq, Repr

/-- A copy of a weir row: TEMP, FIRST_TICK, and whether its rebuild has finished (R178, R181). -/
structure WeirCopy where
  rung  : Nat
  temp  : Nat
  first : Nat
  ready : Bool
  deriving DecidableEq, Repr

/-- A best record or elite entry, or an offer (R205-R208). -/
structure Kept where
  energy  : Int
  hash    : Nat
  tick    : Nat
  initial : Bool
  rung    : Nat
  replica : Nat
  ladder  : Nat
  hits    : Nat
  state   : List Bool
  deriving DecidableEq, Repr

/-- A sample record that its tick's boundary writes (R213, R217). -/
structure Sample where
  replica : Nat
  rung    : Nat
  ladder  : Nat
  tick    : Nat
  energy  : Int
  escape  : Nat
  hash    : Nat
  state   : List Bool
  deriving DecidableEq, Repr

/-- A slot that has to run its tick again (R158, R176, R439): the uniforms it reuses, refusals so far, whether a fence or a
steering was made for it, and whether the next replay is a checked one. -/
structure Redo where
  slot     : Nat
  noise    : Nat
  refusals : Nat
  mended   : Bool
  checking : Bool
  /-- Times that it has been run again: refusals, and replays over new routes. -/
  tries    : Nat
  deriving DecidableEq, Repr

/-- A replica's statistics (R209). -/
structure Stats where
  ticks    : Nat
  basted   : Nat
  sewn     : Nat
  unpicked : Nat
  nulls    : Nat
  extra    : Nat
  deriving DecidableEq, Repr

/-- What a run has gathered (R200-R219); hist counts by (replica * 256 + bin), xchg by ladder * 63 + pair. -/
structure Results where
  best      : Option Kept
  elite     : List Kept
  declined  : Nat
  collisions : Nat
  stretched : Nat
  replayed  : Nat
  tchoice   : Nat
  scored    : Nat
  samples   : Nat
  /-- Write sequence (R202). -/
  seq       : Nat
  stats     : List Stats
  xchg      : List (Nat × Nat × Nat)
  hist      : List (Nat × Nat)
  deriving DecidableEq, Repr

/-- The RUN parameter block (R385). -/
structure RunBlock where
  kind   : Nat
  noise  : Bool
  loose  : Bool
  rehost : Bool
  resume : Bool
  settle : Nat
  limit  : Nat
  seeds  : List DWord
  result : Nat
  ring   : Nat
  ringLines : Nat
  init   : Nat
  input  : Nat
  inputLines : Nat
  inputCount : Nat
  spool  : Nat
  spoolLines : Nat
  emit   : Nat
  emitLines : Nat
  resumeAt : Nat
  tag    : DWord
  launch : DWord
  hemPeriod : Nat
  hem    : Nat
  hemLines : Nat
  buddies : List Nat
  deriving DecidableEq, Repr

/-- What a run's next boundary has to carry out (R163, R388, R409, R411, R414, R443). -/
inductive Want where
  /-- A pause of a kind, with the checkpoint address of RUN_CONTROL, 0 for none. -/
  | pause (kind : Nat) (ckpt : Nat)
  | stop
  /-- An end with a status and DETAIL; its results area shows STATE 3. -/
  | kill (status detail : Nat)
  /-- A CHECKPOINT task: destination, and whether the run stays paused. -/
  | checkpoint (task : TaskRef) (dst : Nat) (stay : Bool)
  deriving DecidableEq, Repr

/-- A hem kept in a local slot (R296, R297): its tick, the shards acknowledged, and the run as it stood. -/
structure Hem where
  tick     : Nat
  /-- Which of the two local slots holds its images. -/
  slot     : Nat
  acked    : List Nat
  replicas : List Replica
  rungMap  : List Nat
  pendMap  : Option (Nat × List Nat)
  results  : Results
  cores    : List Core
  deriving DecidableEq, Repr

/-- Times of the slots of a whole-cloth run, in cycles since it last began to tick (R173, R174): when the slots at work issued, each slot's
last boundary, when the last slot issued, the run boundaries by tick, and the time before which none issues. -/
structure SlotClock where
  issued : List (Nat × Nat)
  bound  : List (Nat × Nat)
  last   : Option Nat
  runs   : List (Nat × Nat)
  floor  : Nat
  deriving DecidableEq, Repr

/-- The times of a run whose first slot has still to issue. -/
def SlotClock.start : SlotClock where
  issued := []
  bound := []
  last := none
  runs := []
  floor := 0

/-- A run: a RUN task that has been dispatched and has not retired. -/
structure Run where
  ref      : TaskRef
  pattern  : Nat
  mask     : Nat
  blk      : RunBlock
  program  : Nat
  tag      : DWord
  /-- Armed for launch and not yet launched; launch attempt; this device's vote in it; nodes that take part (R288, R289). -/
  armed    : Bool
  attempt  : Nat
  voted    : Option Nat
  nodes    : List Nat
  /-- Nodes that launched the run; `nodes` holds those that still take part (R299). -/
  launched : List Nat
  /-- Links on its routes, as (node, port, next node), since launch or the last change (R285). -/
  routes   : List (Nat × Nat × Nat)
  /-- Tick 0 has begun. -/
  begun    : Bool
  tick     : Nat
  /-- Ticks sealed since the task started, rewinds included (PROGRESS). -/
  progress : Nat
  /-- A tick is in progress; its lanes' work, and in whole-cloth the slots that have sealed it. -/
  ticking  : Bool
  work     : List Work
  done     : List Nat
  redo     : List Redo
  /-- Offers and sample records of the tick in progress (R206, R213). -/
  offers   : List Kept
  records  : List Sample
  replicas : List Replica
  /-- Replicas in their lanes, and those being loaded (R337). -/
  resident : List Nat
  loading  : List Nat
  rungMap  : List Nat
  pendMap  : Option (Nat × List Nat)
  weir     : List WeirCopy
  due      : List Change
  later    : List Change
  results  : Results
  /-- Cycles by which a hold before propose, a link, DRAM or the hub has made the tick in progress late (R134). -/
  late     : Nat
  /-- Whole-cloth: the tick in progress and the next one are stretched in a slot that has sealed (R174). -/
  held     : Bool
  heldNext : Bool
  /-- Whole-cloth: the slots' times (R173, R174). -/
  clock    : SlotClock
  /-- Records that wait for room in the output ring, oldest first (R215, R216). -/
  queue    : List (List Byte)
  /-- Output ring HEAD; scores not yet in a full line; input vectors consumed since the (re)start and in all. -/
  head     : Nat
  part     : List (Nat × Int)
  taken    : Nat
  inputPos : Nat
  outNo    : Nat
  /-- Streams the run is STARVED on: 1 input, 2 clamp, 3 output ring, 4 sprouts. -/
  starved  : List Nat
  /-- Sprouts made at the boundary before the next tick. -/
  sprouted : Nat
  wants    : List Want
  repairing : Bool
  steering : Bool
  /-- Its results and writes are done but for a learned image: the status and DETAIL it retires with (R248). -/
  ended    : Option (Nat × Nat)
  pauseAt  : Nat
  auditAt  : Nat
  /-- Learning: LEARN_SATURATION raised before, the update interval in progress, the STEP0 of the learned image being written (R247). The saturation
  counters of R243 count and clear within one STEP_BOUNDARY. -/
  saturated : Bool
  updating : Bool
  imaging  : Option Nat
  hems     : List Hem
  /-- Nodes lost and not yet rehosted (R298-R300). -/
  lost     : List Nat
  /-- A pause that waited took effect at a loss: no rehost follows (R303). -/
  noRehost : Bool
  /-- Loose mode: remote moves sewn and not yet applied (tick, replica, flips). -/
  remote   : List (Nat × Nat × List (Nat × Bool))
  /-- Loose mode: moves sewn here and on other devices that the next settle point settles. -/
  sent     : List (Nat × Nat × List (Nat × Bool))
  seen     : List (Nat × Nat × List (Nat × Bool))
  /-- The tick at which the run began here or was set back to, and by link-plan index the flits taken since (log 32); whether one of them
  failed CHECK. -/
  base     : Nat
  flitsIn  : List (Nat × Nat)
  flitBad  : Bool
  /-- A scoring run's lanes with the states that they scored last (R542). -/
  scored   : List (Nat × Replica)
  deriving DecidableEq, Repr

end Sys2Proof.Machine
end

