-- ==== Sys2Proof/Machine/State.lean ====
section
/-! DEFINITION. The state of the device: plain data, one record per unit of the manual, the free-value counter and the
queue of waiting commands. Every collection is a list; sparse memories are lists of (address, byte) in one canonical form
(Machine/Ops.lean). -/

namespace Sys2Proof.Machine

/-- Faults: none. No rule of the manual stops the device: every detected error is corrected, replayed, spared, rewound or
reported (R435, R443), so no meaning raises a fault. -/
inductive Fault where
  deriving DecidableEq, Repr

/-- Refusals. -/
inductive Refusal where
  /-- Raised by an arm of exec whose command has no meaning yet (safe: the machine stops where the device goes on). -/
  | notModelled (mnemonic : String)
  deriving DecidableEq, Repr

/-! ### Board, fuses and boot flash -/

/-- Pins and rails the board drives, and the latched thermal trip (R25-R37, R52). -/
structure Board where
  /-- POR_N is low. -/
  por        : Bool
  /-- PERST_N is low. -/
  perst      : Bool
  /-- Rails below their power-good threshold. -/
  railsBad   : List Rail
  hubRef     : Bool
  pcieRef    : Bool
  /-- THERMTRIP_N driven low: every clock stopped until VDD_IO18 is removed (R37). -/
  tripped    : Bool
  deriving DecidableEq, Repr

/-- Fused values (R477, R19). -/
structure Fuses where
  keyHash0     : List Byte
  keyHash1     : List Byte
  revoke0      : Bool
  rollback     : Nat
  unitSecret   : List Byte
  unitId       : DWord
  gradeX       : Bool
  debugKeyHash : List Byte
  debugDisable : Bool
  /-- The table of each of the eight dies: the VDD_CD in mV that it requires for P0-P3 (R19). -/
  vdd          : List (List Nat)
  deriving DecidableEq, Repr

/-- What survives POR_N and power loss: fuses and boot flash (R477, R480-R482, R455). The flash lists the bytes that are
not 0xFF. -/
structure Nv where
  fuses : Fuses
  flash : List (Nat × Byte)
  /-- HOST_CONFIRM as given with the NEXT_BOOT update whose slot is TRIAL (R492, log 7). -/
  trialHostConfirm : Bool
  deriving DecidableEq, Repr

/-! ### Start-up, control cores, firmware -/

/-- Start-up progress (R25, R32, R39, R41, R43, R511, R526). -/
structure Boot where
  released    : Bool
  straps      : Byte
  latched     : Bool
  /-- The management block serves the sideband at ROM level (R511). -/
  romLevel    : Bool
  fwVerified  : Bool
  enginesIdle : Bool
  /-- Configuration space has been answered since reset release (R39). -/
  cfgAnswered : Bool
  /-- Channels whose training has finished. -/
  trained     : List Nat
  ready       : Bool
  recovery    : Bool
  /-- Cold start: DRAM training and engine start are held (R526). -/
  coldHold    : Bool
  deriving DecidableEq, Repr

/-- A firmware image as loaded into a control core (R485). -/
structure Image where
  slot     : Nat
  svn      : Nat
  major    : Nat
  minor    : Nat
  build    : Nat
  digest   : List Byte
  /-- Digest of its sequencer component (R486, R493). -/
  seqDigest : List Byte
  revokePrev : Bool
  deriving DecidableEq, Repr

/-- An open confirmation window (R490-R492). -/
structure Window where
  /-- Stitch count at which it opened. -/
  openedAt    : Nat
  hostConfirm : Bool
  confirmed   : Bool
  trial       : Bool
  deriving DecidableEq, Repr

/-- An update in progress (R488). -/
structure Update where
  addr        : Nat
  length      : Nat
  hostConfirm : Bool
  nextBoot    : Bool
  slot        : Nat
  image       : Image
  deriving DecidableEq, Repr

/-- Control cores and firmware (R448-R451, R478, R484-R494). -/
structure Fw where
  /-- The image the active core runs; none before the hub image starts. -/
  running   : Option Image
  standby   : Option Image
  active    : Nat
  /-- Cores that failed a test or were taken over and have not been restored. -/
  failed    : List Nat
  noCore    : Bool
  phase     : Nat
  reason    : Nat
  update    : Option Update
  window    : Option Window
  /-- The window ended (time or FW_ABORT): a hand-back waits for a quiet point, with its cause (R491). -/
  handBack  : Option Nat
  /-- The standby is reloading this image (R490, R491). -/
  reloading : Option Image
  /-- Sequencer image digest held by each engine (R493, R498). -/
  sequencers : List (List Byte)
  /-- Engines due a sequencer reload (R493). -/
  reloadDue : List Nat
  /-- A fence scan has completed since the running image took over (R490). -/
  scanned   : Bool
  deriving DecidableEq, Repr

/-! ### Entropy service -/

/-- A consumer that waits for random output (R42, R504). -/
inductive RngWait where
  | mailbox
  | fill (task : TaskRef)
  | debugChallenge (port : DebugPort)
  | spdmChallenge (slot : Nat) (nonce : List Byte)
  | spdmMeasurements (index : Nat) (nonce : List Byte)
  deriving DecidableEq, Repr

/-- One DRBG instance (R501): instantiated, generate calls since its last seeding. -/
structure Drbg where
  up    : Bool
  calls : Nat
  deriving DecidableEq, Repr

/-- The entropy service (R500-R509). -/
structure Rng where
  /-- 0 STARTING, 1 READY, 2 RETESTING, 3 DISABLED (R502). -/
  state     : Nat
  retests   : Nat
  failMask  : Byte
  failTest  : Nat
  failures  : Nat
  reseeds   : Nat
  bytes     : Nat
  lastFail  : Nat
  firstFail : Nat
  drbgs     : List Drbg
  waiting   : List RngWait
  deriving DecidableEq, Repr

/-! ### JTAG and debug -/

/-- TAP instruction in force (R519). -/
inductive TapIr where
  | extest | sample | idcode | highz | clamp | extestPulse | extestTrain | dbgChallenge | dbgToken | dbgAccess | bypass
  deriving DecidableEq, Repr

/-- Debug lock, TAP and boundary scan (R519-R522). -/
structure Dbg where
  /-- 0 LOCKED, 1 OBSERVE, 2 FULL (R521). -/
  level     : Nat
  challenge : Option (List Byte)
  ir        : TapIr
  /-- Capture bit [2]: the last instruction was refused (R519, R520). -/
  refused   : Bool
  /-- Boundary-scan register, 2,944 bits. -/
  bsr       : Nat
  /-- The standby control core is halted (R521). -/
  halted    : Bool
  /-- Instructions the halted standby core has stepped. -/
  stepped   : Nat
  /-- The data register as last captured, bit 0 first. -/
  dr        : Nat
  /-- A debug read that waits for a boundary (R162). -/
  held      : Option DebugPacket
  deriving DecidableEq, Repr

/-! ### Sideband -/

/-- A PlatformEventMessage that waits for its acknowledgement (R513): sensor, value, and the number, kind and place of a
HARD fault-log entry. -/
structure PlatformEvent where
  sensor : Nat
  value  : Int
  detail : List Nat
  deriving DecidableEq, Repr

/-- What the sideband or the DOE mailbox answered last. -/
structure Reply where
  tag    : Byte
  result : Half
  words  : List DWord
  bytes  : List Byte
  deriving DecidableEq, Repr

/-- The sideband port (R510-R518) and the SPDM responder's connection state (R496). -/
structure Sb where
  dynAddr  : Option Byte
  eid      : Byte
  tid      : Byte
  receiver : Option Byte
  events   : List PlatformEvent
  /-- Occasions of R513 for which no message has been sent yet. -/
  due      : List PlatformEvent
  /-- Alert cause mask (R517). -/
  alert    : Byte
  /-- Numeric readings of sensors 1-15 as last refreshed (R512). -/
  readings : List Int
  /-- SPDM: 0 nothing, 1 version known, 2 capabilities exchanged, 3 algorithms negotiated. -/
  spdm     : Nat
  spdmVersion : Byte
  reply    : Option Reply
  /-- Sideband requests held behind one that waits, in arrival order (R515). -/
  held     : List Instr
  deriving DecidableEq, Repr

/-! ### Host port -/

/-- An event record (R366). -/
structure Event where
  stitch : Nat
  seq    : Nat
  cls    : Nat
  code   : Nat
  source : Nat
  lost   : Nat
  tick   : DWord
  detail : List Byte
  deriving DecidableEq, Repr

/-- A completion record held during a detach (R370, R372): queue, SEQ, PASID, address, the 32 bytes, and whether it signals. -/
structure HeldRecord where
  queue  : Nat
  seq    : Nat
  pasid  : Nat
  addr   : Nat
  bytes  : List Byte
  signal : Bool
  deriving DecidableEq, Repr

/-- A register field with a staged value and a value in force (R352). -/
structure Staged where
  staged : Nat
  force  : Nat
  deriving DecidableEq, Repr

/-- An accepted commit that is not yet in force everywhere (R354): engines that have still to reach a boundary, the
snapshot of the bank policies, and the profile that is being changed to. -/
structure Commit where
  engines : List Nat
  banks   : List (Nat × Nat)
  profile : Option Nat
  deriving DecidableEq, Repr

/-- A mailbox command in progress that waits for more than its own step (R360, R370, R411, R42). -/
inductive MbxWait where
  | none
  | destroy (queue : Nat)
  | attachEnd
  | rng
  deriving DecidableEq, Repr

/-- The PCIe endpoint, mailbox, event ring and session (R341-R372). -/
structure HostPort where
  /-- 0 down, 1 training, 2 up. -/
  link       : Nat
  rate       : Nat
  width      : Nat
  /-- Configuration space, bytes that are not zero. -/
  cfg        : List (Nat × Byte)
  /-- MSI-X table in BAR4, bytes that differ from reset; pending bits (vectors). -/
  msixTable  : List (Nat × Byte)
  msixPending : List Nat
  wselClass  : Nat
  wselIndex  : Nat
  aperture   : Nat
  mbxCmd     : Word
  mbxArgs    : List DWord
  busy       : Bool
  overrun    : Bool
  statTag    : Byte
  statResult : Half
  wait       : MbxWait
  refused    : Bool
  fault      : Nat
  faultClass : Nat
  faultIndex : Nat
  commit     : Option Commit
  evtBase    : Staged
  /-- ENABLE is held at 0 by a detach until RESUME or END (R369, R370). -/
  evtOff     : Bool
  evtHead    : Nat
  evtTail    : Nat
  irqMask    : Nat
  evtArmed   : Bool
  held       : List Event
  evtSeq     : Nat
  evtLost    : Nat
  session    : Bool
  attached   : Bool
  cookie     : DWord
  begun      : Nat
  heldRecords : List HeldRecord
  /-- Completion records that SESSION_ATTACH END could not write so far (R370). -/
  unwritten  : Nat
  /-- Host pages whose translation is cached (R318, R341). -/
  atsCache   : List Nat
  /-- For each (source, structure): the time of its last CORRECTED record and the corrections since (R453). -/
  correctedAt : List (Nat × Nat × Nat × Nat)
  /-- Data and poison bit of the last register or aperture read completion. -/
  readData   : List Byte
  readPoison : Bool
  deriving DecidableEq, Repr

/-- Counters and read latches (R286, R424, R351). -/
structure Counters where
  stitch    : Nat
  stitchHi  : Word
  tchoice   : Nat
  tchoiceHi : Word
  stretch   : Nat
  stretchHi : Word
  replay    : Nat
  replayHi  : Word
  tickHi    : List Half
  /-- High halves latched by 32-bit reads of 64-bit RC counts, by register (log 20). -/
  rcHi      : List (Nat × Word)
  deriving DecidableEq, Repr

/-! ### Queues, tasks, fences, slots, copy engines -/

/-- Queue states after creation (R375). -/
inductive QueueState where
  | active | guilty | destroying
  deriving DecidableEq, Repr

/-- A queue that exists (R373-R377, R382, R391, R399, R408). -/
structure Queue where
  num        : Nat
  ringAddr   : Nat
  complAddr  : Nat
  doneAddr   : Nat
  order      : Nat
  pasid      : Nat
  level      : Nat
  ordered    : Bool
  irq        : Bool
  quota      : Nat
  handleBase : Nat
  handles    : Nat
  state      : QueueState
  cause      : Nat
  tail       : Word
  /-- Ring position of HEAD, not reduced (R408). -/
  head       : Nat
  sproutAck  : Word
  doneSeq    : Nat
  sproutDone : Nat
  badDoorbells : Nat
  fetchFaults  : Nat
  copy       : Nat
  hswap      : Option Word
  /-- Descriptors fetched and not yet admitted: ring position, slot that fetched it, bytes. -/
  fetched    : List (Nat × Nat × List Byte)
  /-- Sprouts in the lane, not yet admitted: number k and descriptor (R398). -/
  lane       : List (Nat × List Byte)
  sprouts    : Nat
  /-- Host tasks and sprouts admitted or refused at admission so far. -/
  admitted   : Nat
  admittedSprouts : Nat
  /-- SEQs of tasks that have retired with a status of 0x0100 or above (R390). -/
  failed     : List Nat
  /-- SEQs above DONE_SEQ or SPROUT_DONE that have retired (R406). -/
  retired    : List Nat
  /-- A fetch failed and FETCH_RETRY has not yet come (R374). -/
  backoff    : Bool
  /-- Guilt: descriptors below this ring position are fetched and retired with the guilt status (R414). -/
  purgeTo    : Nat
  /-- QUEUE_DESTROY's outputs so far: tasks retired, descriptors dropped, chains purged. -/
  retiredCount : Nat
  dropped    : Nat
  purged     : Nat
  deriving DecidableEq, Repr

/-- An in-edge whose target has not retired: its index and target (R389, R391). -/
structure Edge where
  index  : Nat
  target : TaskRef
  deriving DecidableEq, Repr

/-- Where a task of the scoreboard stands. -/
inductive Phase where
  | waiting
  | running
  /-- Set to retire: STATUS, DETAIL, and FENCE_ERR. -/
  | ending (status : Nat) (detail : Nat) (fenceErr : Bool)
  deriving DecidableEq, Repr

/-- A task in the scoreboard (R378, R391, R395, R403, R413). -/
structure Task where
  ref        : TaskRef
  opcode     : Nat
  irq        : Bool
  runOnFail  : Bool
  mask       : Nat
  /-- Relocated address of PATTERN and the bytes of its region from there; fences: the fence number. -/
  pattern    : Nat
  patternLen : Nat
  program    : Nat
  /-- Relocated address of the parameter block. -/
  param      : Nat
  fenceValue : Nat
  userTag    : Word
  /-- Handle-table copy it was admitted under (R383). -/
  copy       : Nat
  slot       : Nat
  order      : Nat
  aged       : Bool
  edges      : List Edge
  /-- The task that sprouted it (R392). -/
  sprouter   : Option TaskRef
  phase      : Phase
  progress   : Nat
  engines    : Nat
  still      : Nat
  lastProgress : Nat
  /-- The whole current hang interval was spent RUNNING (R413). -/
  wholeInterval : Bool
  /-- FENCE_WAIT: stitch count at which it registered its wait (R415). -/
  waitSince  : Option Nat
  /-- Parameter block read at dispatch. -/
  block      : List Byte
  deriving DecidableEq, Repr

/-- An allocated fence (R393). -/
structure Fence where
  num   : Nat
  pasid : Nat
  value : Nat
  err   : Bool
  deriving DecidableEq, Repr

/-- A hardware slot (R394, R396). cfg holds ENABLE in bit 2 and LEVEL in bits [1:0]. -/
structure Slot where
  bound    : Option Nat
  cfg      : Staged
  /-- Descriptors fetched in this binding. -/
  burst    : Nat
  fetched  : Nat
  deriving DecidableEq, Repr

/-- What a copy engine is doing (CE_STATUS.STATE, R401). -/
structure CopyEngine where
  state  : Nat
  owner  : Nat
  cfg    : Staged
  link   : Nat
  tag    : Nat
  bytes  : Nat
  task   : Option TaskRef
  /-- A chain that waits its turn behind a task (R401). -/
  chain  : Option (Nat × Nat)
  deriving DecidableEq, Repr

/-- Queues, scoreboard, fences, slots and copy engines (R373-R416). -/
structure Sched where
  queues    : List Queue
  tasks     : List Task
  fences    : List Fence
  slots     : List Slot
  engines   : List CopyEngine
  /-- Queues with work to fetch that are not bound, in the order in which they began to wait (R394). -/
  waiting   : List Nat
  nextOrder : Nat
  hangWatch : Nat
  hangMs    : Nat
  /-- An event of R413 that resets every still count took place in the current interval. -/
  hangReset : Bool
  deriving DecidableEq, Repr

/-! ### Memory -/

/-- One entry of a merge buffer: unit (channel or pair index of R319), line, and the bytes written by offset (R326). -/
structure MergeEntry where
  unit  : Nat
  line  : Nat
  bytes : List (Nat × Byte)
  deriving DecidableEq, Repr

/-- Contents of device DRAM (R315-R327): bytes that are not zero, valid bits, lines stored as poison, merge entries oldest
first, the units of the interleave, TOP, and the units that are lost (R335). -/
structure Mem where
  cells    : List (Nat × Byte)
  valid    : List Nat
  poisoned : List Nat
  merge    : List MergeEntry
  units    : Nat
  top      : Nat
  lost     : List Nat
  deriving DecidableEq, Repr

/-- One operation on device DRAM: a write of bytes at an address, a merge entry's drain, a line stored as poison, the
marking of a range of lines as fresh, the loss of a unit, and the map that training builds. -/
inductive MemOp where
  | write (addr : Nat) (bytes : List Byte)
  | drain (line : Nat)
  | drainAll
  | poison (line : Nat)
  | fresh (first count : Nat)
  | loseUnit (unit : Nat)
  | setMap (units top : Nat)
  | wipe
  deriving DecidableEq, Repr

/-- A memory channel (R311-R335): its window registers and error bookkeeping. -/
structure Channel where
  /-- MC_STATUS.STATE, CAUSE, RATE and MIRROR codes. -/
  state    : Nat
  cause    : Nat
  rate     : Nat
  mirror   : Nat
  module   : Option Module
  period   : Nat
  scrubPos : Nat
  /-- The line the pass read last. -/
  scrubAt  : Option Nat
  passes   : Nat
  corr     : Nat
  uncorr   : Nat
  alerts   : Nat
  devMark  : Nat
  /-- Remap table: line and spare number, newest last (R328). -/
  remap    : List (Nat × Nat)
  sparesUsed : Nat
  /-- Lines (or spares, as 2^48 + number) with one correctable error since POR_N. -/
  erred    : List Nat
  /-- Correctable errors by (subchannel * 2 + rank, device, line), distinct (R322). -/
  sites    : List (Nat × Nat × Nat)
  /-- Stitch counts of uncorrectable failures, newest first (R335). -/
  failures : List Nat
  /-- Refresh interval halved by MR4 (R330). -/
  hot      : Bool
  /-- The bank refreshed last. -/
  bank     : Nat
  deriving DecidableEq, Repr

/-! ### Power and heat -/

/-- A power domain (R458-R463, R474). cfg holds SR_OK in bit 2 and IDLE_POLICY in bits [1:0]; onTime counts stitch counts. -/
structure Domain where
  state  : Nat
  cfg    : Staged
  onTime : Nat
  wakes  : Nat
  deriving DecidableEq, Repr

/-- A die's thermal guard (R467-R471): temperature in 1/16 degC, level, SHUTDOWN_IMMINENT armed, stitch count of its last
THROTTLE. -/
structure Guard where
  temp     : Int
  level    : Nat
  armed    : Bool
  throttled : Option Nat
  deriving DecidableEq, Repr

/-- Power and heat (R458-R476). -/
structure Power where
  domains   : List Domain
  guards    : List Guard
  threshold : Nat
  nextThreshold : Nat
  /-- VDD_CD set point in mV (R18-R20). -/
  vddMv     : Nat
  fastOk    : Bool
  deriving DecidableEq, Repr

/-! ### Fault log -/

/-- A fault-log entry (R454). -/
structure LogEntry where
  stitch   : Nat
  number   : Nat
  kind     : Nat
  source   : Nat
  queue    : Word
  place    : DWord
  deriving DecidableEq, Repr

/-- The fault log (R454). -/
structure FaultLog where
  entries  : List LogEntry
  appended : Nat
  deriving DecidableEq, Repr

/-! ### What the device has sent -/

/-- A message of a CONTROL frame (R278). -/
inductive PeerMsg where
  | stitch (count : DWord) (root hops : Nat)
  | arm (m : ArmMsg)
  | vote (m : VoteMsg)
  | sum (m : SumMsg)
  | hemAck (m : HemAckMsg)
  | peerLost (m : LostMsg)
  | link (m : LinkMsg)
  | topology (m : TopoMsg)
  deriving DecidableEq, Repr

/-- One thing sent out of the device (log 5). -/
inductive Out where
  /-- A memory write toward the host: PASID (none: the function's own space), address, bytes, EP bit. -/
  | hostWrite (pasid : Option Nat) (addr : Nat) (bytes : List Byte) (poison : Bool)
  | msix (vector : Nat)
  | frame (port : Nat) (frame : LinkFrame)
  | platformEvent (event : PlatformEvent)
  /-- An AVSBus set point for VDD_CD, in mV (R18, R19). -/
  | avs (mv : Nat)
  /-- I3C in-band interrupt with the alert mask (R517). -/
  | inBand (mask : Byte)
  deriving DecidableEq, Repr

/-! ### Engines and the grid -/

/-- An engine and its window registers (R351, R272): STATE, HOLD_CAUSE, PAUSE_KIND, the pattern it holds, PROFILE, the
repair registers, and what holds it. Patterns and runs are records of their own (Machine/Grid.lean). -/
structure Engine where
  state     : Nat
  cause     : Nat
  detail    : Nat
  pauseKind : Nat
  /-- Number of the loaded pattern in Grid.patterns. -/
  pattern   : Option Nat
  progress  : Nat
  sel       : Staged
  cur       : Nat
  /-- Fenced cores of the engine's die by (die row, physical column; 64 the selvage core). -/
  fenced    : List (Nat × Nat)
  repaired  : List Nat
  exhausted : List Nat
  remapped  : Nat
  /-- The two banks of the die's flip ledger: slots written in the bank's tick, with their 32-bit entries (R263). -/
  ledger    : List (List (Nat × Nat))
  /-- What former patterns have left in its arrays, newest first (R89). -/
  left      : List Left
  /-- Ticks in which its cores have scrubbed a word and a field pair (R438). -/
  scrub     : Nat
  /-- The task that occupies the engine. -/
  task      : Option TaskRef
  deriving DecidableEq, Repr

/-- Engines, loaded patterns, loads that wait for their array phase, runs, the number the next loaded pattern takes, and the
error books of the package: words with one correctable error and words on a spare (core, word; R92), residue failures and
link CHECK failures (core or link, stitch count; R440, R445), spare wires in use by link, and words that the debug port wrote to
cores of engines without a pattern (die, column, row, word, value; R521). -/
structure Grid where
  engines  : List Engine
  patterns : List Pattern
  loads    : List Load
  runs     : List Run
  nextPattern : Nat
  weakWords : List (Nat × Nat)
  spareWords : List (Nat × Nat)
  residues : List (Nat × Nat)
  linkFails : List (Nat × Nat)
  wires    : List (Nat × Nat)
  scratch  : List (CoreAt × Nat × DWord)
  deriving DecidableEq, Repr

/-! ### Nuthes Link -/

/-- A Nuthes port (R275-R281). -/
structure Port where
  /-- NL_STATUS.STATE. -/
  state    : Nat
  lanes    : Nat
  slow     : Bool
  prsnt    : Bool
  /-- Stitch count at which the peer was last seen to have gone (R461). -/
  goneAt   : Nat
  peerNode : Option Nat
  peerPort : Nat
  peerUnit : DWord
  enable   : Bool
  lanes4   : Bool
  /-- LANES4 as the training in progress took it (R281: a write acts at the next training). -/
  width4   : Bool
  latency  : Nat
  fecCorr  : Nat
  fecUncorr : Nat
  retries  : Nat
  downs    : Nat
  sendSeq  : Nat
  /-- Frames that wait to be sent, in the order in which they came up; SEQ, ACK and CRC are filled in as they leave (R279). -/
  txq      : List LinkFrame
  /-- Frames sent and not acknowledged, oldest first (R280). -/
  replay   : List LinkFrame
  /-- A frame has arrived that no frame sent since has answered with its ACK. -/
  owes     : Bool
  recvSeq  : Nat
  /-- A frame failed: it and later ones are dropped until it is resent. -/
  dropping : Bool
  /-- Failures in a row of the frame expected next; resends in a row without an acknowledgement. -/
  failures : Nat
  resends  : Nat
  retraining : Bool
  deriving DecidableEq, Repr

/-- A TOPOLOGY message with the stitch count at which it was received (R283). -/
structure Heard where
  msg : TopoMsg
  at_ : Nat
  deriving DecidableEq, Repr

/-- An open BULK stream (R277): port, source node and stream number, destination address, length, kind, bytes received. -/
structure OpenStream where
  port   : Nat
  src    : Nat
  stream : Nat
  dest   : Nat
  length : Nat
  kind   : Nat
  got    : Nat
  bytes  : List Byte
  deriving DecidableEq, Repr

/-- A main-ditch flit held in the sluice (R294): port, link-plan index, its 34 bytes. -/
structure SluiceFlit where
  port  : Nat
  index : Nat
  bytes : List Byte
  deriving DecidableEq, Repr

/-- A hem this device holds for another device's shard (R297), or took over for one that it rehosts (R301): run tag, shard, slot,
tick, device address and lines of the slot, complete. -/
structure BuddyHem where
  tag      : DWord
  shard    : Nat
  slot     : Nat
  tick     : Nat
  addr     : Nat
  lines    : Nat
  complete : Bool
  deriving DecidableEq, Repr

/-- What tells apart the messages that are forwarded once (R278): message code, origin, RUN_TAG, tick, and the slot and kind that a
vote or sum names (log 32). -/
structure FloodKey where
  code   : Nat
  origin : Nat
  tag    : Nat
  index  : Nat
  slot   : Nat
  kind   : Nat
  deriving DecidableEq, Repr

/-- Joining devices (R274-R309). -/
structure NuthesLink where
  node    : Option Nat
  ports   : List Port
  heard   : List Heard
  /-- Own TOPOLOGY sequence number. -/
  sequence : Nat
  arms    : List ArmMsg
  votes   : List VoteMsg
  sums    : List SumMsg
  /-- HEM_ACKs, forwarded once each. -/
  acks    : List HemAckMsg
  lost    : List LostMsg
  streams : List OpenStream
  sluice  : List SluiceFlit
  hems    : List BuddyHem
  /-- Flooded messages this device has sent or forwarded (R278). -/
  flooded : List FloodKey
  /-- Root of the stitch domain this device follows. -/
  root    : Option Nat
  /-- This device's own node number clashes (R283). -/
  clashed : Bool
  /-- Counts by which the stitch counter still differs from its root's, and idle counts toward its next correction (R287). -/
  slew    : Int
  slewIn  : Nat
  deriving DecidableEq, Repr

/-- Memory channels (R310-R335). -/
structure Dram where
  channels : List Channel
  /-- Mirrored mode in force (R332). -/
  mirrored : Bool
  /-- The channel of each index of R319; in mirrored mode the even channel of the pair. Empty before training is over. -/
  map      : List Nat
  deriving DecidableEq, Repr

/-! ### The whole device -/

/-- The state of the device. `out` is what it has sent, oldest first; `free` counts free values drawn; `pending` is the
queue of waiting commands, the first one first (log 2, log 5, log 11). -/
structure State where
  board   : Board
  nv      : Nv
  boot    : Boot
  fw      : Fw
  rng     : Rng
  dbg     : Dbg
  sb      : Sb
  host    : HostPort
  cnt     : Counters
  q       : Sched
  grid    : Grid
  nl      : NuthesLink
  mem     : Mem
  dram    : Dram
  pow     : Power
  log     : FaultLog
  /-- DRAM operations of the command being carried out, in order; empty between commands. -/
  ops     : List MemOp
  out     : List Out
  free    : Nat
  pending : List Instr
  deriving DecidableEq, Repr

/-! ### Reset -/

/-- A staged field at its reset value. -/
def Staged.reset (v : Nat) : Staged := { staged := v, force := v }

/-- A memory channel at reset (R310-R335 register tables). -/
def Channel.reset : Channel where
  state := 0
  cause := 0
  rate := 0
  mirror := 0
  module := none
  period := 0x18
  scrubPos := 0
  scrubAt := none
  passes := 0
  corr := 0
  uncorr := 0
  alerts := 0
  devMark := 0
  remap := []
  sparesUsed := 0
  erred := []
  sites := []
  failures := []
  hot := false
  bank := 0

/-- Power domain i at reset: OFF, but the management domain ON; IDLE_POLICY 1 and SR_OK 1 (R475's register maps). SR_OK
is reserved outside the MC domains and reads 0 there. -/
def Domain.reset (i : Nat) : Domain where
  state := if i = 112 then 2 else 0
  cfg := .reset (if 98 ≤ i ∧ i ≤ 105 then 5 else 1)
  onTime := 0
  wakes := 0

/-- An engine at reset (R351). -/
def Engine.reset : Engine where
  state := 0
  cause := 0
  detail := 0
  pauseKind := 0
  pattern := none
  progress := 0
  sel := .reset 0
  cur := 0
  fenced := []
  repaired := []
  exhausted := []
  remapped := 0
  ledger := [[], []]
  left := []
  scrub := 0
  task := none

/-- A Nuthes port at reset (R281's register maps). -/
def Port.reset : Port where
  state := 0
  lanes := 0
  slow := false
  prsnt := false
  goneAt := 0
  peerNode := none
  peerPort := 0
  peerUnit := 0
  enable := false
  lanes4 := false
  width4 := false
  latency := 0
  fecCorr := 0
  fecUncorr := 0
  retries := 0
  downs := 0
  sendSeq := 0
  txq := []
  replay := []
  owes := false
  recvSeq := 0
  dropping := false
  failures := 0
  resends := 0
  retraining := false

/-- Hardware slot i at reset (R396's register maps). -/
def Slot.reset (i : Nat) : Slot where
  bound := none
  cfg := .reset (4 + i / 8)
  burst := 0
  fetched := 0

/-- A copy engine at reset (R401's register maps). -/
def CopyEngine.reset : CopyEngine where
  state := 0
  owner := 0
  cfg := .reset 3
  link := 0
  tag := 0
  bytes := 0
  task := none
  chain := none

/-- A thermal guard at reset (R468, R471). -/
def Guard.reset : Guard where
  temp := 0
  level := 0
  armed := true
  throttled := none

/-- The host port at POR_N (R348, R359, R363, R365, R368). -/
def HostPort.reset : HostPort where
  link := 0
  rate := 0
  width := 0
  cfg := []
  msixTable := []
  msixPending := []
  wselClass := 0
  wselIndex := 0
  aperture := 0
  mbxCmd := 0
  mbxArgs := List.replicate 8 0
  busy := false
  overrun := false
  statTag := 0
  statResult := 0
  wait := .none
  refused := false
  fault := 0
  faultClass := 0
  faultIndex := 0
  commit := none
  evtBase := .reset 0
  evtOff := false
  evtHead := 0
  evtTail := 0
  irqMask := 0x17E
  evtArmed := true
  held := []
  evtSeq := 0
  evtLost := 0
  session := false
  attached := false
  cookie := 0
  begun := 0
  heldRecords := []
  unwritten := 0
  atsCache := []
  correctedAt := []
  readData := []
  readPoison := false

/-- DRAM before training: nothing listed, no unit in the map. -/
def Mem.reset : Mem where
  cells := []
  valid := []
  poisoned := []
  merge := []
  units := 0
  top := 0
  lost := []

/-- The boot state in reset. Until the straps are sampled the strap word is 0, so that the sideband, which serves from the
rails on, is I3C Basic at the lowest static address: the manual names no protocol or address for that time (log 16, DESIGN
CHOICE). -/
def Boot.reset : Boot where
  released := false
  straps := 0
  latched := false
  romLevel := true
  fwVerified := false
  enginesIdle := false
  cfgAnswered := false
  trained := []
  ready := false
  recovery := false
  coldHold := false

/-- Control cores before the boot ROM has started an image (log 16). -/
def Fw.reset : Fw where
  running := none
  standby := none
  active := 0
  failed := []
  noCore := false
  phase := 0
  reason := 0
  update := none
  window := none
  handBack := none
  reloading := none
  sequencers := List.replicate 8 []
  reloadDue := []
  scanned := false

/-- The entropy service at security-domain power-up (R502). -/
def Rng.reset : Rng where
  state := 0
  retests := 0
  failMask := 0
  failTest := 0
  failures := 0
  reseeds := 0
  bytes := 0
  lastFail := 0
  firstFail := 0
  drbgs := List.replicate 3 { up := false, calls := 0 }
  waiting := []

/-- Debug LOCKED, the TAP in Test-Logic-Reset (R519, R521). -/
def Dbg.reset : Dbg where
  level := 0
  challenge := none
  ir := .idcode
  refused := false
  bsr := 0
  halted := false
  stepped := 0
  dr := 0
  held := none

/-- The sideband port after the rails came up (log 17). -/
def Sb.reset : Sb where
  dynAddr := none
  eid := 0
  tid := 0
  receiver := none
  events := []
  due := []
  alert := 0
  readings := List.replicate 15 0
  spdm := 0
  spdmVersion := 0
  reply := none
  held := []

/-- Counters at reset (R286, R424). -/
def Counters.reset : Counters where
  stitch := 0
  stitchHi := 0
  tchoice := 0
  tchoiceHi := 0
  stretch := 0
  stretchHi := 0
  replay := 0
  replayHi := 0
  tickHi := List.replicate 8 0
  rcHi := []

/-- Queues and scoreboard at reset (R373, R396, R401, R408). -/
def Sched.reset : Sched where
  queues := []
  tasks := []
  fences := []
  slots := (List.range 32).map Slot.reset
  engines := List.replicate 4 .reset
  waiting := []
  nextOrder := 0
  hangWatch := 8
  hangMs := 250
  hangReset := false

/-- The links at reset. -/
def NuthesLink.reset : NuthesLink where
  node := none
  ports := List.replicate 4 .reset
  heard := []
  sequence := 0
  arms := []
  votes := []
  sums := []
  acks := []
  lost := []
  streams := []
  sluice := []
  hems := []
  flooded := []
  root := none
  clashed := false
  slew := 0
  slewIn := 0

/-- Power and heat at reset (R18, R458, R472). -/
def Power.reset : Power where
  domains := (List.range 116).map Domain.reset
  guards := List.replicate 9 .reset
  threshold := 1600
  nextThreshold := 1600
  vddMv := 650
  fastOk := false

/-- The state held in reset by POR_N: rails good, both references present, the part unfused and its boot flash erased
(log 1, log 7). -/
def State.reset : State where
  board := { por := true, perst := true, railsBad := [], hubRef := true, pcieRef := true, tripped := false }
  nv :=
    { fuses :=
        { keyHash0 := List.replicate 48 0, keyHash1 := List.replicate 48 0, revoke0 := false, rollback := 0,
          unitSecret := List.replicate 32 0, unitId := 0, gradeX := false, debugKeyHash := List.replicate 48 0,
          debugDisable := false, vdd := List.replicate 8 [700, 650, 700, 600] }
      flash := []
      trialHostConfirm := false }
  boot := .reset
  fw := .reset
  rng := .reset
  dbg := .reset
  sb := .reset
  host := .reset
  cnt := .reset
  q := .reset
  grid :=
    { engines := List.replicate 8 .reset, patterns := [], loads := [], runs := [], nextPattern := 0, weakWords := [],
      spareWords := [], residues := [], linkFails := [], wires := [], scratch := [] }
  nl := .reset
  mem := .reset
  dram := { channels := List.replicate 8 .reset, mirrored := false, map := [] }
  pow := .reset
  log := { entries := [], appended := 0 }
  ops := []
  out := []
  free := 0
  pending := []

end Sys2Proof.Machine
end

