-- ==== Sys2Proof/Machine/Ops.lean ====
section
/-! DEFINITION. The named operations of the machine: sparse byte stores, device DRAM with its merge buffers (R319-R327),
what the device sends (writes, interrupts, events, alerts), the fault log, free values, and the wrapper through which every
meaning acts on the state. -/

namespace Sys2Proof.Machine

/-! ### Sparse byte stores -/

/-- The byte at address a of a store whose unlisted addresses read as d. -/
def cellRead (d : Byte) : List (Nat × Byte) → Nat → Byte
  | [], _ => d
  | (k, v) :: rest, a => if k = a then v else if k < a then cellRead d rest a else d

/-- Write one byte, keeping addresses ascending and no entry equal to d. -/
def cellWrite (d : Byte) : List (Nat × Byte) → Nat → Byte → List (Nat × Byte)
  | [], a, b => if b = d then [] else [(a, b)]
  | (k, v) :: rest, a, b =>
    if k < a then (k, v) :: cellWrite d rest a b
    else
      let tail := if k = a then rest else (k, v) :: rest
      if b = d then tail else (a, b) :: tail

/-- Write bytes from address a upward. -/
def cellWriteList (d : Byte) (cells : List (Nat × Byte)) : Nat → List Byte → List (Nat × Byte)
  | _, [] => cells
  | a, b :: bs => cellWriteList d (cellWrite d cells a b) (a + 1) bs

/-- n bytes from address a. -/
def cellReadList (d : Byte) (cells : List (Nat × Byte)) (a n : Nat) : List Byte :=
  (List.range n).map fun i => cellRead d cells (a + i)

/-- The canonical form: addresses strictly rising, no entry equal to d. -/
def cellsWf (d : Byte) : List (Nat × Byte) → Bool
  | [] => true
  | [(_, v)] => v != d
  | (k, v) :: (k', v') :: rest => v != d && decide (k < k') && cellsWf d ((k', v') :: rest)

/-- Insert into an ascending list without repeats. -/
def insertAsc (x : Nat) : List Nat → List Nat
  | [] => [x]
  | y :: ys => if x < y then x :: y :: ys else if x = y then y :: ys else y :: insertAsc x ys

/-- Strictly ascending. -/
def ascending : List Nat → Bool
  | [] => true
  | [_] => true
  | x :: y :: rest => decide (x < y) && ascending (y :: rest)

/-! ### Small list operations -/

/-- Replace element i by f of it. -/
def modifyAt {α : Type} (f : α → α) : Nat → List α → List α
  | _, [] => []
  | 0, x :: xs => f x :: xs
  | i + 1, x :: xs => x :: modifyAt f i xs

/-- Replace the elements that satisfy p. -/
def modifyIf {α : Type} (p : α → Bool) (f : α → α) (xs : List α) : List α := xs.map fun x => if p x then f x else x

/-- The natural number below n with bit i set where p i. -/
def maskOf (n : Nat) (p : Nat → Bool) : Nat := (List.range n).foldl (fun m i => if p i then m + 2 ^ i else m) 0

/-- One bit as a number. -/
def bit (b : Bool) : Nat := if b then 1 else 0

/-- The numbers below n whose bit is set in m. -/
def bitsOf (n m : Nat) : List Nat := (List.range n).filter (natBit m)

/-- Add x if it is not there. -/
def addNew {α : Type} [BEq α] (x : α) (xs : List α) : List α := if xs.contains x then xs else xs ++ [x]

/-! ### Device DRAM -/

/-- The start of the host window in device addresses (R315). -/
def hostWindow : Nat := 2 ^ 47

/-- The index of R319 that holds device address a over n units. -/
def unitOf (n a : Nat) : Nat :=
  let g := a / 256
  (g + g / n / 4096) % n

/-- The channel-local address of R319. -/
def localAddr (n a : Nat) : Nat := a / 256 / n * 256 + a % 256

/-- Whether a line (number, 64 bytes each) lies on a lost unit (R335). -/
def Mem.lineLost (m : Mem) (line : Nat) : Bool := m.lost.contains (unitOf m.units (64 * line))

/-- Whether a read of a line returns poison (R325, R326, R335). -/
def Mem.linePoisoned (m : Mem) (line : Nat) : Bool := m.poisoned.contains line || m.lineLost line

/-- The merge entry of a line. -/
def Mem.entry (m : Mem) (line : Nat) : Option MergeEntry := m.merge.find? fun e => e.line == line

/-- Byte a as every reader sees it: the merge entry's byte where it has one, else the stored byte (R326). -/
def Mem.byte (m : Mem) (a : Nat) : Byte :=
  match (m.entry (a / 64)).bind (fun e => e.bytes.find? fun b => b.1 == a % 64) with
  | some b => b.2
  | none => cellRead 0 m.cells a

/-- n bytes from device address a. -/
def Mem.bytes (m : Mem) (a n : Nat) : List Byte := (List.range n).map fun i => m.byte (a + i)

/-- A little-endian field of n bytes at a. -/
def Mem.field (m : Mem) (a n : Nat) : Nat := bytesLE (m.bytes a n)

/-- Whether any line of a range reads as poison. -/
def Mem.poisonIn (m : Mem) (a n : Nat) : Bool :=
  (List.range ((a + n + 63) / 64 - a / 64)).any fun i => m.linePoisoned (a / 64 + i)

/-- A write of a whole aligned line (R323, R325, R326). -/
def Mem.writeLine (m : Mem) (line : Nat) (bs : List Byte) : Mem :=
  if m.lineLost line then m
  else
    { m with
      cells := cellWriteList 0 m.cells (64 * line) bs
      valid := insertAsc line m.valid
      poisoned := m.poisoned.filter (· != line)
      merge := m.merge.filter fun e => e.line != line }

/-- Drain one merge entry: a line stored as poison keeps its poison, any other takes the bytes (R326). -/
def Mem.drainEntry (m : Mem) (e : MergeEntry) : Mem :=
  if m.linePoisoned e.line then { m with merge := m.merge.filter fun x => x.line != e.line }
  else
    { m with
      cells := e.bytes.foldl (fun c b => cellWrite 0 c (64 * e.line + b.1) b.2) m.cells
      valid := insertAsc e.line m.valid
      merge := m.merge.filter fun x => x.line != e.line }

/-- Add bytes to an entry, by ascending offset. -/
def mergeBytes : List (Nat × Byte) → Nat → List Byte → List (Nat × Byte)
  | old, _, [] => old
  | old, off, b :: bs =>
    mergeBytes ((old.takeWhile fun p => p.1 < off) ++ [(off, b)] ++ (old.dropWhile fun p => p.1 ≤ off)) (off + 1) bs

/-- The entry of a line, made if there is none; a full buffer of its unit drains its oldest entry first (R326). -/
def Mem.writePart (m : Mem) (line off : Nat) (bs : List Byte) : Mem :=
  if m.lineLost line then m
  else
    match m.entry line with
    | some _ =>
      { m with
        merge := m.merge.map fun e => if e.line = line then { e with bytes := mergeBytes e.bytes off bs } else e }
    | none =>
      let unit := unitOf m.units (64 * line)
      let mine := m.merge.filter fun e => e.unit == unit
      let m' := if mine.length ≥ 32 then (match mine with | e :: _ => m.drainEntry e | [] => m) else m
      { m' with merge := m'.merge ++ [{ unit := unit, line := line, bytes := mergeBytes [] off bs }] }

/-- Split a write into the pieces of its lines. -/
def linePieces : Nat → Nat → List Byte → List (Nat × Nat × List Byte)
  | 0, _, _ => []
  | _, _, [] => []
  | k + 1, a, bs =>
    let n := 64 - a % 64
    (a / 64, a % 64, bs.take n) :: linePieces k (a + n) (bs.drop n)

/-- Write bytes at a device address: whole lines at once, parts of lines through the merge buffer. -/
def Mem.write (m : Mem) (a : Nat) (bs : List Byte) : Mem :=
  (linePieces (bs.length + 1) a bs).foldl
    (fun m p => if p.2.2.length = 64 then m.writeLine p.1 p.2.2 else m.writePart p.1 p.2.1 p.2.2) m

/-- Store a line as poison (R325). -/
def Mem.poisonLine (m : Mem) (line : Nat) : Mem :=
  { m with poisoned := insertAsc line m.poisoned, valid := insertAsc line m.valid }

/-- Mark lines fresh: each reads as zero (R327). -/
def Mem.fresh (m : Mem) (first count : Nat) : Mem :=
  let out := fun line => decide (line < first) || decide (first + count ≤ line)
  { m with
    cells := m.cells.filter fun c => out (c.1 / 64)
    valid := m.valid.filter out
    poisoned := m.poisoned.filter out
    merge := m.merge.filter fun e => out e.line }

/-- One operation on DRAM. -/
def Mem.apply (m : Mem) : MemOp → Mem
  | .write a bs => m.write a bs
  | .drain line => match m.entry line with | some e => m.drainEntry e | none => m
  | .drainAll => m.merge.foldl Mem.drainEntry m
  | .poison line => m.poisonLine line
  | .fresh first count => m.fresh first count
  | .loseUnit unit => { m with lost := addNew unit m.lost, merge := m.merge.filter fun e => e.unit != unit }
  | .setMap units top => { m with units := units, top := top }
  | .wipe => { Mem.reset with units := 0 }

/-- Operations in order. -/
def Mem.applyAll (m : Mem) (ops : List MemOp) : Mem := ops.foldl Mem.apply m

/-- The canonical form of DRAM: bytes ascending and not zero, valid and poisoned lines ascending, every listed byte in a
valid line (R323), every merged byte within its line (R326). -/
def Mem.wf (m : Mem) : Bool :=
  cellsWf 0 m.cells && ascending m.valid && ascending m.poisoned && (m.cells.all fun c => m.valid.contains (c.1 / 64))
    && m.merge.all fun e => e.bytes.all fun b => decide (b.1 < 64)

/-! ### The wrapper of every meaning -/

/-- Carry out one DRAM operation within a command. -/
def State.store (s : State) (op : MemOp) : State := { s with mem := s.mem.apply op, ops := s.ops ++ [op] }

/-- Write bytes to device DRAM within a command. -/
def State.write (s : State) (a : Nat) (bs : List Byte) : State := if bs.isEmpty then s else s.store (.write a bs)

/-- Write a little-endian field to device DRAM. -/
def State.writeField (s : State) (a n v : Nat) : State := s.write a (toBytesLE n v)

/-- Which state sensor 20 shows (R512). -/
def deviceSensor (s : State) : Nat :=
  if s.fw.noCore then 3 else if s.boot.recovery then 2 else if s.boot.ready then 1 else 0

/-- Occasions of R513 that a command makes: state changes of sensors 20, 21 and 22-29, except between RUNNING (3) and
STARVED (4). -/
def stateOccasions (s r : State) : List PlatformEvent :=
  let one := fun (sensor a b : Nat) => if a = b then [] else [{ sensor := sensor, value := (b : Int), detail := [] }]
  one 20 (deviceSensor s) (deviceSensor r) ++ one 21 s.rng.state r.rng.state
    ++ ((s.grid.engines.zip r.grid.engines).zip (List.range 8)).flatMap fun p =>
      let a := p.1.1.state
      let b := p.1.2.state
      if (a = 3 ∧ b = 4) ∨ (a = 4 ∧ b = 3) then [] else one (22 + p.2) a b

/-- Note occasions for event messages once a receiver is named (R513). -/
def State.occasions (s : State) (evs : List PlatformEvent) : State :=
  match s.sb.receiver with
  | none => s
  | some _ => { s with sb := { s.sb with due := s.sb.due ++ evs } }

/-- The state a command leaves when f is its effect and it changes neither fuses nor the debug lock nor the TAP, but for a debug read
that waited and is answered (R162): DRAM moves only by the operations f made, the queue of commands is as it was. -/
def State.run (s : State) (f : State → State) : State :=
  let r := f { s with ops := [] }
  let r := r.occasions (stateOccasions s r)
  { r with
    mem := s.mem.applyAll r.ops
    ops := []
    nv := { r.nv with fuses := s.nv.fuses }
    dbg := { s.dbg with held := r.dbg.held, dr := r.dbg.dr }
    pending := s.pending }

/-- Out of reset: start-up has begun and no clock is stopped. -/
def State.live (s : State) : Bool := s.boot.released && !s.board.tripped

/-- f where the device is out of reset, nothing otherwise. -/
def State.whenLive (s : State) (f : State → State) : State := s.run fun s => if s.live then f s else s

/-- Full service: start-up is complete and a control core runs (R39, R451). -/
def State.serving (s : State) : Bool := s.live && s.boot.ready && !s.fw.noCore

/-! ### What the device sends -/

/-- Send one thing. -/
def State.send (s : State) (o : Out) : State := { s with out := s.out ++ [o] }

/-- A memory write toward the host; it is discarded while the link is down (R49). -/
def State.hostWrite (s : State) (pasid : Option Nat) (addr : Nat) (bs : List Byte) (poison : Bool := false) : State :=
  if s.host.link = 2 then s.send (.hostWrite pasid addr bs poison) else s

/-- Offset of MSI-X message control in configuration space; bit 14 masks the function (log 18, PRESUMED). -/
def msixControl : Nat := 0xB2

/-- The reset value of MSI-X table byte a: each vector masked, as PCI Express resets the table (log 18, PRESUMED). -/
def msixReset (a : Nat) : Byte := if a % 16 = 12 then 1 else 0

/-- MSI-X table byte a, the table being kept as its difference from reset. -/
def HostPort.tableByte (h : HostPort) (a : Nat) : Byte := cellRead 0 h.msixTable a ^^^ msixReset a

/-- Whether vector v is masked, in the table or by the function (R365). -/
def HostPort.masked (h : HostPort) (v : Nat) : Bool :=
  natBit (h.tableByte (16 * v + 12)).toNat 0 || natBit (cellRead 0 h.cfg (msixControl + 1)).toNat 6

/-- Signal an MSI-X vector: a masked one becomes pending (R365). -/
def State.signal (s : State) (v : Nat) : State :=
  if s.host.masked v then { s with host := { s.host with msixPending := insertAsc v s.host.msixPending } }
  else if s.host.link = 2 then s.send (.msix v) else s

/-- The 64 bytes of an event record (R366). -/
def Event.encode (e : Event) : List Byte :=
  toBytesLE 8 e.stitch ++ toBytesLE 8 e.seq ++ toBytesLE 1 e.cls ++ toBytesLE 1 e.code ++ toBytesLE 2 e.source
    ++ toBytesLE 4 e.lost ++ toBytesLE 8 e.tick.toNat ++ (e.detail ++ zeroBytes 32).take 32

/-- Records of the ring in force (R363). -/
def HostPort.ringSize (h : HostPort) : Nat := 64 * 2 ^ (h.evtBase.force % 16)

/-- Whether the event ring can take a record now (R364, R366, R369). -/
def HostPort.ringReady (h : HostPort) : Bool :=
  h.link == 2 && natBit h.evtBase.force 4 && !h.evtOff && decide ((h.evtHead + 2 ^ 32 - h.evtTail) % 2 ^ 32 < h.ringSize)

/-- Write one record into the ring and signal vector 1,024 where it is armed and the class not masked (R364, R365). -/
def State.ringWrite (s : State) (e : Event) : State :=
  let h := s.host
  let base := h.evtBase.force / 4096 * 4096
  let s := s.hostWrite none (base + 64 * (h.evtHead % h.ringSize)) e.encode
  let s := { s with host := { s.host with evtHead := (h.evtHead + 1) % 2 ^ 32 } }
  if h.evtArmed && !natBit h.irqMask e.cls then
    { s with host := { s.host with evtArmed := false } }.signal 1024
  else s

/-- Hold a record: 4,096 at most; a CORRECTED record that finds no room merges into the newest held one of its SOURCE,
any other is dropped and counted (R366). -/
def State.holdEvent (s : State) (e : Event) : State :=
  let h := s.host
  if h.held.length < 4096 then { s with host := { h with held := h.held ++ [e], evtLost := 0 } }
  else
    let same := fun (x : Event) => x.cls == 1 && x.code == 1 && x.source == e.source
    if e.cls = 1 ∧ e.code = 1 ∧ h.held.any same then
      let add := fun (x : Event) =>
        { x with
          detail := x.detail.take 16 ++ toBytesLE 4 (bytesLE ((x.detail.drop 16).take 4) + bytesLE ((e.detail.drop 16).take 4))
            ++ x.detail.drop 20 }
      let back := h.held.reverse
      let before := back.takeWhile fun x => !same x
      let rest := back.dropWhile fun x => !same x
      { s with host := { h with held := (before ++ (match rest with | x :: xs => add x :: xs | [] => [])).reverse } }
    else { s with host := { h with evtLost := h.evtLost + 1 } }

/-- Raise an event (R366, R367): delivered at once when the ring can take it and nothing is held, else held. The record
carries the drops before it in LOST (log 19). -/
def State.event (s : State) (cls code source : Nat) (tick : Option Nat) (detail : List Byte) : State :=
  let e : Event :=
    { stitch := s.cnt.stitch, seq := s.host.evtSeq, cls := cls, code := code, source := source, lost := s.host.evtLost,
      tick := match tick with | some t => BitVec.ofNat 64 t | none => BitVec.allOnes 64
      detail := (detail ++ zeroBytes 32).take 32 }
  let s := { s with host := { s.host with evtSeq := s.host.evtSeq + 1 } }
  if s.host.held.isEmpty && s.host.ringReady then { s.ringWrite e with host := { (s.ringWrite e).host with evtLost := 0 } }
  else s.holdEvent e

/-- SOURCE of an event: kind and instance (R366). -/
def sourceOf (kind instance_ : Nat) : Nat := kind * 4096 + instance_

/-- Set bits of the alert cause mask; in I3C mode an in-band interrupt carries the mask (R517). -/
def State.alert (s : State) (bits : Byte) : State :=
  let mask := s.sb.alert ||| bits
  let s := { s with sb := { s.sb with alert := mask } }
  if natBit s.boot.straps.toNat 0 then s else s.send (.inBand mask)

/-! ### Fault log -/

/-- Severity of a kind of entry: true HARD (R454). -/
def hardKind (kind : Nat) : Bool := !(decide (3 ≤ kind) && decide (kind ≤ 6) || kind == 9)

/-- The 32 bytes of an entry (R454). -/
def LogEntry.encode (e : LogEntry) : List Byte :=
  toBytesLE 8 e.stitch ++ toBytesLE 8 e.number ++ toBytesLE 1 e.kind ++ toBytesLE 1 (if hardKind e.kind then 1 else 0)
    ++ toBytesLE 2 e.source ++ toBytesLE 4 e.queue.toNat ++ toBytesLE 8 e.place.toNat

/-- Where the fault record keeps its entries and its count in boot flash (R481; the layout inside the range is log 7's
choice): entries from 0x3000, the count of entries at 0x3800 as its complement, so that erased flash reads as none. -/
def recordBase : Nat := 0x3000

/-- Flash bytes. -/
def Nv.bytes (n : Nv) (a k : Nat) : List Byte := cellReadList 0xFF n.flash a k

/-- Write boot flash. -/
def Nv.write (n : Nv) (a : Nat) (bs : List Byte) : Nv := { n with flash := cellWriteList 0xFF n.flash a bs }

/-- Entries counted by the fault record, those not copied included (R455). -/
def Nv.recordCount (n : Nv) : Nat := 2 ^ 32 - 1 - bytesLE (n.bytes 0x3800 4)

/-- Copy a HARD entry into the fault record (R455). -/
def Nv.record (n : Nv) (e : LogEntry) : Nv :=
  let k := n.recordCount
  let n := if k < 64 then n.write (recordBase + 32 * k) e.encode else n
  n.write 0x3800 (toBytesLE 4 (2 ^ 32 - 1 - min (k + 1) (2 ^ 32 - 1)))

/-- The log with an entry appended: a full log gives up its oldest SOFT entry, or its oldest (R454). -/
def logAppend (entries : List LogEntry) (e : LogEntry) : List LogEntry :=
  if entries.length < 256 then entries ++ [e]
  else if entries.any fun x => !hardKind x.kind then
    (entries.takeWhile fun x => hardKind x.kind) ++ (entries.dropWhile fun x => hardKind x.kind).drop 1 ++ [e]
  else entries.drop 1 ++ [e]

/-- Append an entry to the fault log; a HARD one is copied into boot flash, asserts SB_ALERT_N and is an occasion for an
event message (R454-R456, R513). -/
def State.logFault (s : State) (kind source : Nat) (queue : Option Nat) (place : Nat) : State :=
  let e : LogEntry :=
    { stitch := s.cnt.stitch, number := s.log.appended, kind := kind, source := source,
      queue := match queue with | some q => BitVec.ofNat 32 q | none => BitVec.allOnes 32
      place := BitVec.ofNat 64 place }
  let s := { s with log := { entries := logAppend s.log.entries e, appended := s.log.appended + 1 } }
  if hardKind kind then
    let s := { s with nv := s.nv.record e }
    (s.alert 1).occasions [{ sensor := 0, value := 0, detail := [e.number, kind, place] }]
  else s

/-! ### Free values -/

/-- The next n bytes of DRBG instance i (R500, R501): free values, one index for each byte ever drawn (log 11). -/
def State.drawBytes (s : State) (i n : Nat) : List Byte × State :=
  ((List.range n).map fun k => Config.drbgByte i (s.free + k), { s with free := s.free + n })

/-- A fresh seeding of instance i (R501). -/
def State.reseed (s : State) (i : Nat) : State :=
  { s with
    rng :=
      { s.rng with
        drbgs := modifyAt (fun d => { d with calls := 0 }) i s.rng.drbgs
        reseeds := s.rng.reseeds + 1 } }

/-- One generate call of instance i; after 2^20 of them it reseeds (R501). -/
def State.countCall (s : State) (i : Nat) : State :=
  let s : State := { s with rng := { s.rng with drbgs := modifyAt (fun d => { d with calls := d.calls + 1 }) i s.rng.drbgs } }
  if (s.rng.drbgs.getD i { up := false, calls := 0 }).calls = 2 ^ 20 then s.reseed i else s

/-! ### Host memory as a step finds it -/

/-- Byte a of host memory. -/
def hostByte (v : HostView) (a : Nat) : Byte := ((v.bytes.find? fun c => c.1 == a).map (·.2)).getD 0

/-- Whether the page of host address a translates: in the cache of translations, or answered by the IOMMU (R318, R341). -/
def translates (cache : List Nat) (v : HostView) (a : Nat) : Bool :=
  cache.contains (a / 4096) || !v.unmapped.contains (a / 4096)

/-- Whether every page of a host range translates. -/
def rangeTranslates (cache : List Nat) (v : HostView) (a n : Nat) : Bool :=
  (List.range ((a + n + 4095) / 4096 - a / 4096)).all fun i => translates cache v ((a / 4096 + i) * 4096)

/-- n bytes at a device address, in DRAM or through the host window (R315). -/
def readAny (m : Mem) (v : HostView) (a n : Nat) : List Byte :=
  if a < hostWindow then m.bytes a n else (List.range n).map fun i => hostByte v (a - hostWindow + i)

/-- The PCIe link is up and admission runs: the host's writes reach the device after READY (R41, R49). -/
def State.hostUp (s : State) : Bool := s.live && s.host.link == 2

/-- Software DRAM ends 2 GiB below TOP (R315). -/
def Mem.softTop (m : Mem) : Nat := m.top - 2 ^ 31

/-- Whether a range lies within software DRAM. -/
def Mem.inSoft (m : Mem) (a n : Nat) : Bool := decide (a + n ≤ m.softTop)

end Sys2Proof.Machine
end

