-- ==== Sys2Proof/Machine/Problem.lean ====
section
/-! DEFINITION. What cores compute of a pattern and a state: quantised values, fields and their changes (R97-R113), energies
and state hashes (R123, R204), state vectors (R70), interactions and one-hot groups (R64, R150). -/

namespace Sys2Proof.Machine

/-- s_i of a spin-state bit (R54). -/
def spinVal (b : Bool) : Int := if b then 1 else -1

/-- s_i of variable v. -/
def spinOf (spins : List Bool) (v : Nat) : Int := spinVal (spins.getD v false)

/-- The sum of f over a list. -/
def sumOver {α : Type} (xs : List α) (f : α → Int) : Int := sumInt (xs.map f)

/-! ### State vectors -/

/-- Bytes of a state vector: whole 64-byte lines (R70). -/
def stateBytes (n : Nat) : Nat := (n + 511) / 512 * 64

/-- The bits of eight variables as a byte. -/
def packByte (bs : List Bool) : Byte := BitVec.ofNat 8 (maskOf8 bs)
where
  maskOf8 : List Bool → Nat
    | [] => 0
    | b :: rest => (if b then 1 else 0) + 2 * maskOf8 rest

/-- The state vector of spins (R70). -/
def packState (spins : List Bool) : List Byte :=
  let bs := (chunks 8 spins).map packByte
  bs ++ zeroBytes (stateBytes spins.length - bs.length)

/-- n spins from a state vector. -/
def unpackState (n : Nat) (bs : List Byte) : List Bool :=
  (bs.flatMap fun b => (List.range 8).map fun k => natBit b.toNat k).take n

/-! ### Cores -/

/-- The variable of column k of a row of core c (R98, R100); 2^24 names none. -/
def Core.colVar (c : Core) (mode part k : Nat) : Nat := if mode = 1 then k + 32768 * part else c.cols.getD k (2 ^ 24)

/-- The entries of a row with their entry numbers (R95, R100). -/
def Core.rowEntries (c : Core) (r : Row) : List (Nat × Entry) :=
  ((c.entries.drop r.first).take (r.last - r.first)).mapIdx fun i e => (r.first + i, e)

/-- The third-order ends of a row with their numbers (R105). -/
def Core.rowEnds (c : Core) (r : Row) : List (Nat × TermEnd) :=
  (c.ends.mapIdx fun i e => (i, e)).filter fun e => e.2.row == r.slot

/-- The value of an outlier of a kind at a position (R104). -/
def Core.outlierAt (c : Core) (kind pos : Nat) : Int :=
  match c.outliers.find? fun o => o.kind == kind && o.pos == pos with | some o => o.value | none => 0

/-- The step d_i = M_i SB of a row (R103). -/
def Core.step (c : Core) (r : Row) : Nat := r.m * c.sb

/-- POSITION of a pair end: its entry number, or its column in whole-cloth (R104). -/
def pairPos (mode n : Nat) (e : Entry) : Nat := if mode = 1 then e.index else n

/-- The quantised coupling of an entry (R103). -/
def Core.entryValue (c : Core) (mode : Nat) (r : Row) (n : Nat) (e : Entry) : Int :=
  if e.code = -128 then c.outlierAt 0 (pairPos mode n e) else e.code * (c.step r : Nat)

/-- The weight of a third-order end (R105). -/
def Core.endValue (c : Core) (n : Nat) (e : TermEnd) : Int := if e.code = -32768 then c.outlierAt 1 n else e.code * (c.tb : Nat)

/-- p of an end's product bit. -/
def prodVal (products : List Bool) (n : Nat) : Int := spinVal (products.getD n false)

/-- The check-row sums of a row: over all partners, and over those that lie on this device (R103). -/
def Core.checkRow (c : Core) (mode : Nat) (here : Nat → Bool) (r : Row) : Int × Int :=
  let vs := (c.rowEntries r).map fun e => (c.colVar mode r.part e.2.index, c.entryValue mode r e.1 e.2)
  (sumOver vs (·.2), sumOver (vs.filter fun v => here v.1) (·.2))

/-! ### Column updates -/

/-- An update: the variables that change, with their new values. -/
abbrev Updates := List (Nat × Bool)

/-- Whether a variable is updated. -/
def updated (ups : Updates) (v : Nat) : Bool := ups.any fun u => u.1 == v

/-- The change of s of a variable: +2, -2, or 0 when it is not updated (R107). -/
def deltaOf (ups : Updates) (v : Nat) : Int :=
  match ups.find? fun u => u.1 == v with | some u => if u.2 then 2 else -2 | none => 0

/-- The accumulator A_i of a row (R107). -/
def Core.accumulate (c : Core) (mode : Nat) (r : Row) (ups : Updates) : Int :=
  sumOver ((c.rowEntries r).filter fun e => e.2.code != -128) fun e =>
    e.2.code * deltaOf ups (c.colVar mode r.part e.2.index)

/-- The outlier hits of a row (R110). -/
def Core.outlierHits (c : Core) (mode : Nat) (r : Row) (ups : Updates) : Int :=
  sumOver ((c.rowEntries r).filter fun e => e.2.code == -128) fun e =>
    c.outlierAt 0 (pairPos mode e.1 e.2) * deltaOf ups (c.colVar mode r.part e.2.index)

/-- Whether exactly one of an end's partners is updated (R111). -/
def Core.endFlips (c : Core) (ups : Updates) (e : TermEnd) : Bool :=
  updated ups (c.colVar 0 0 e.colB) != updated ups (c.colVar 0 0 e.colC)

/-- The third-order changes of a row (R111). -/
def Core.termChange (c : Core) (products : List Bool) (r : Row) (ups : Updates) : Int :=
  sumOver (c.rowEnds r) fun e => if c.endFlips ups e.2 then -2 * c.endValue e.1 e.2 * prodVal products e.1 else 0

/-- The pair part of a field's change (R110, R126): the conversion word is K = M SB, SH = 0 (R109). -/
def Core.pairChange (c : Core) (mode : Nat) (r : Row) (ups : Updates) : Int :=
  convert (c.accumulate mode r ups) (c.step r) 0 + c.outlierHits mode r ups

/-- The change of a row's field by an update (R110). -/
def Core.fieldChange (c : Core) (mode : Nat) (products : List Bool) (r : Row) (ups : Updates) : Int :=
  c.pairChange mode r ups + c.termChange products r ups

/-- The product bits of a core after an update (R111). -/
def Core.newProducts (c : Core) (products : List Bool) (ups : Updates) : List Bool :=
  (c.ends.zip products).map fun e => if c.endFlips ups e.1 then !e.2 else e.2

/-! ### The field store -/

/-- The selected copy (R106). -/
def Field.value (f : Field) : Int := if f.sel then f.b else f.a

/-- A write to the unselected copy, which sets the pending bit (R106). -/
def Field.write (f : Field) (x : Int) : Field := if f.sel then { f with a := x, pend := true } else { f with b := x, pend := true }

/-- A sealed boundary: a pending field flips its selector (R106). -/
def Field.seal (f : Field) : Field := if f.pend then { f with sel := !f.sel, pend := false } else f

/-- A refused tick: the pending bit is cleared, the selector left as it was (R106). -/
def Field.refuse (f : Field) : Field := { f with pend := false }

/-- A field built from nothing. R113 gives its value; that both copies hold it, with selector 0 and no pending bit, is the model's (log 75,
DESIGN CHOICE). -/
def Field.fresh (x : Int) : Field := { a := x, b := x, sel := false, pend := false }

/-! ### Replicas -/

/-- The cores of a pattern that this device holds. -/
def Pattern.here (p : Pattern) : List Core := p.cores.filter fun c => p.places.any fun q => q.1 == c.shard

/-- A flat list cut into lengths. -/
def cutBy {α : Type} : List Nat → List α → List (List α)
  | [], _ => []
  | n :: ns, xs => xs.take n :: cutBy ns (xs.drop n)

/-- A core with its fields and product bits. -/
abbrev CoreView := Core × List Field × List Bool

/-- The cores of a device beside a replica's fields and product bits. -/
def Replica.views (rep : Replica) (cores : List Core) : List CoreView :=
  (cores.zip ((cutBy (cores.map fun c => c.rows.length) rep.fields).zip (cutBy (cores.map fun c => c.ends.length) rep.products))).map
    fun x => (x.1, x.2.1, x.2.2)

/-- The accumulate part of a tick for one replica: every row that an update changes is written to its unselected copy. -/
def accumulateAll (mode : Nat) (cores : List Core) (rep : Replica) (ups : Updates) : Replica :=
  { rep with
    fields := (rep.views cores).flatMap fun v =>
      (v.1.rows.zip v.2.1).map fun rf =>
        let d := v.1.fieldChange mode v.2.2 rf.1 ups
        if d = 0 then rf.2 else rf.2.write (rf.2.value + d) }

/-- The product bits after an update, all cores. -/
def Replica.productsAfter (rep : Replica) (cores : List Core) (ups : Updates) : List Bool :=
  (rep.views cores).flatMap fun v => v.1.newProducts v.2.2 ups

/-- Spin-state bits after an update (R156). -/
def setSpins (spins : List Bool) (ups : Updates) : List Bool :=
  spins.mapIdx fun i b => match ups.find? fun u => u.1 == i with | some u => u.2 | none => b

/-- The fields and product bits of a state, built as R113 lays down: the all-minus state, then every +1 variable as an
update. -/
def buildFields (mode : Nat) (cores : List Core) (spins : List Bool) : List Field × List Bool :=
  let ups : Updates := (spins.mapIdx fun i b => (i, b)).filter (·.2)
  let start := fun (c : Core) (r : Row) => r.h - r.s + sumOver (c.rowEnds r) fun e => c.endValue e.1 e.2
  let fields := cores.flatMap fun c =>
    let ones := c.ends.map fun _ => true
    c.rows.map fun r => Field.fresh (start c r + c.fieldChange mode ones r ups)
  (fields, cores.flatMap fun c => c.newProducts (c.ends.map fun _ => true) ups)

/-- The two lanes of R123 over a device's cores. -/
def energyLanes (cores : List Core) (rep : Replica) : Int × Int :=
  (rep.views cores).foldl (fun acc v =>
    let c := v.1
    let weight := fun (r : Row) => sumOver (c.rowEnds r) fun e => c.endValue e.1 e.2 * prodVal v.2.2 e.1
    let owned := fun (r : Row) => sumOver ((c.rowEnds r).filter fun e => e.2.owner) fun e => c.endValue e.1 e.2 * prodVal v.2.2 e.1
    (c.rows.zip v.2.1).foldl (fun acc rf =>
      let s := spinOf rep.spins rf.1.var
      (acc.1 + s * rf.1.h + s * owned rf.1, acc.2 + s * (rf.2.value - rf.1.h - weight rf.1))) acc) (0, 0)

/-- V of a device's part of a state (R123). -/
def energyOf (cores : List Core) (rep : Replica) : Int :=
  let l := energyLanes cores rep
  l.1 + l.2 / 2

/-- The state hash (R204). -/
def hashOf (spins : List Bool) : Nat :=
  (sumNat ((spins.mapIdx fun i b => (i, b)).map fun x => if x.2 then stateHashTerm x.1 else 0)) % 2 ^ 64

/-- The change of the state hash by an update (R204). -/
def hashChange (ups : Updates) : Nat :=
  ups.foldl (fun h u => (h + if u.2 then stateHashTerm u.1 else 2 ^ 64 - stateHashTerm u.1) % 2 ^ 64) 0

/-- A replica in a state: fields and product bits by R113, V by R123, hash by R204. -/
def Replica.build (mode : Nat) (cores : List Core) (spins : List Bool) : Replica :=
  let f := buildFields mode cores spins
  let rep : Replica := { spins := spins, fields := f.1, products := f.2, v := 0, hash := hashOf spins }
  { rep with v := energyOf cores rep }

/-- Bias variables read +1 in every state of a learning pattern (R222). -/
def Pattern.withBias (p : Pattern) (spins : List Bool) : List Bool :=
  let biased := fun i => p.cores.any fun c => c.rows.any fun r => r.bias && r.var == i
  if p.header.kinds / 4 % 2 = 1 then spins.mapIdx fun i b => b || biased i else spins

/-! ### Rows, groups and interactions -/

/-- Replica k of a run. -/
def Run.replica (r : Run) (k : Nat) : Replica :=
  r.replicas.getD k { spins := [], fields := [], products := [], v := 0, hash := 0 }

/-- Every row of a device with its core, selected field, product bits, in order. -/
def Replica.rowViews (rep : Replica) (cores : List Core) : List (Core × Row × Field × List Bool) :=
  (rep.views cores).flatMap fun v => (v.1.rows.zip v.2.1).map fun rf => (v.1, rf.1, rf.2, v.2.2)

/-- The selected field of a variable; a split row's parts are added (R170). -/
def Replica.fieldOf (rep : Replica) (cores : List Core) (v : Nat) : Int :=
  sumOver ((rep.rowViews cores).filter fun x => x.2.1.var == v) fun x => x.2.2.1.value

/-- The quantised coupling that row r of core c holds for variable v, 0 if there is none. -/
def Core.couplingTo (c : Core) (mode : Nat) (r : Row) (v : Nat) : Int :=
  sumOver ((c.rowEntries r).filter fun e => c.colVar mode r.part e.2.index == v) fun e => c.entryValue mode r e.1 e.2

/-- The members of group g, in logical order (R539). -/
def Pattern.members (p : Pattern) (g : Nat) : List Nat :=
  (List.range p.header.nVars).filter fun v => p.cores.any fun c => c.rows.any fun r => r.var == v && r.group == some g

/-- Whether two variables interact through a nonzero coupling or a nonzero third-order term at a row of the first, or one
group (R150). -/
def rowInteracts (c : Core) (r : Row) (v : Nat) (group : Nat → Option Nat) : Bool :=
  c.couplingTo 0 r v != 0
    || ((c.rowEnds r).any fun e =>
        c.endValue e.1 e.2 != 0 && (c.colVar 0 0 e.2.colB == v || c.colVar 0 0 e.2.colC == v))
    || (r.group.isSome && group v == r.group)

/-- The group of a variable. -/
def Pattern.groupOf (p : Pattern) (v : Nat) : Option Nat :=
  ((p.cores.flatMap fun c => c.rows).find? fun r => r.var == v).bind (·.group)

/-- Whether two moves interact (R150), seen at the first one's cores. -/
def Pattern.interact (p : Pattern) (a b : Updates) : Bool :=
  p.cores.any fun c => c.rows.any fun r => updated a r.var && b.any fun u => rowInteracts c r u.1 p.groupOf

/-- The die-local block number of a core (R535). -/
def Core.dblock (c : Core) : Nat := 16 * (c.row / 8) + c.col / 4

/-- The logical block of a core (R149). -/
def Pattern.blockOf (p : Pattern) (c : Core) : Nat :=
  match p.blocks.find? fun b => b.shard == c.shard && b.engine == c.engine && b.dblock == c.dblock with
  | some b => b.num
  | none => 0

/-- Whether a state has exactly one hot member in each group (R65). -/
def Pattern.oneHot (p : Pattern) (spins : List Bool) : Bool :=
  (List.range p.header.nGroups).all fun g => ((p.members g).filter fun v => spins.getD v false).length == 1

end Sys2Proof.Machine
end

