-- ==== Sys2Proof/Machine/Image.lean ====
section
/-! DEFINITION. The pattern image (R73-R75, R184, R197, R224, R261, R292, R534-R540): its header, directory and sections read
into records, and the checks of their layout. A check is a list of (load result code, DETAIL) that fail. -/

namespace Sys2Proof.Machine

/-- A little-endian reader of an image: offset and bytes. -/
abbrev Reader := Nat → Nat → Nat

/-- The image at a device address. -/
def imageAt (m : Mem) (addr : Nat) : Reader := fun off n => m.field (addr + off) n

/-- The image from an offset on. -/
def Reader.from (g : Reader) (base : Nat) : Reader := fun off n => g (base + off) n

/-- One check. -/
def chk (bad : Bool) (code detail : Nat) : List (Nat × Nat) := if bad then [(code, detail)] else []

/-- DETAIL when nothing is at fault by number. -/
def noDetail : Nat := 0xFFFFFFFF

/-- Whether n bytes at an offset are zero. -/
def Reader.zero (g : Reader) (off n : Nat) : Bool := g off n == 0

/-! ### Header and directory -/

/-- The header (R73). -/
def readHeader (g : Reader) : Header where
  imageLen := g 0x08 8
  hash := toBytesLE 48 (g 0x10 48)
  fwiMinor := g 0x07 1
  mode := g 0x40 1
  form := g 0x41 1
  coding := g 0x42 1
  profile := g 0x43 1
  mask := g 0x44 1
  shards := g 0x45 1
  kinds := g 0x46 1
  race := g 0x47 1
  tickLen := g 0x48 2
  resident := g 0x4A 2
  period := g 0x4C 2
  rungs := g 0x4E 1
  sections := g 0x4F 1
  nVars := g 0x50 4
  nGroups := g 0x54 4
  nCouplings := g 0x58 8
  nThird := g 0x60 4
  tol := g 0x64 4
  const := signed 64 (g 0x68 8)
  conv := BitVec.ofNat 64 (g 0x70 8)
  total := g 0x78 4

/-- e, the engines of each shard (R67). -/
def Header.perShard (h : Header) : Nat := popCount 8 h.mask

/-- A learning pattern (R72). -/
def Header.learning (h : Header) : Bool := natBit h.kinds 2

/-- Parts of a whole-cloth row (R68); 1 in patchwork. -/
def Header.parts (h : Header) : Nat := if h.mode = 1 then cdiv h.nVars 32768 else 1

/-- HEADER checks (R85). -/
def headerFaults (g : Reader) (h : Header) : List (Nat × Nat) :=
  chk (g 0 4 != 0x54505845 || g 4 2 != 1 || h.imageLen % 64 != 0 || decide (h.imageLen < 512) || decide (16 ≤ h.kinds)
    || !g.zero 0x7C 4 || !g.zero 0x88 120 || decide (1 < h.mode) || decide (1 < h.form) || decide (1 < h.coding)
    || decide (1 < h.race) || decide (3 < h.profile) || h.mask == 0 || h.shards == 0 || decide (64 < h.shards)
    || h.sections == 0 || decide (16 < h.sections)) 0x02 noDetail

/-- The directory's entries in use: type, offset, bytes (R74). -/
def readDirectory (g : Reader) (h : Header) : List (Nat × Nat × Nat) :=
  (List.range (min h.sections 16)).map fun i => (g (0x100 + 16 * i) 2, g (0x108 + 16 * i) 8, 64 * g (0x104 + 16 * i) 4)

/-- Whether two ranges overlap. -/
def overlap (a n b m : Nat) : Bool := decide (a < b + m) && decide (b < a + n)

/-- Section types that a header needs (R75). -/
def neededSections (h : Header) : List Nat :=
  [1, 2, 3, 7, 9, 10] ++ (if h.nThird = 0 then [] else [5]) ++ (if h.nGroups = 0 then [] else [6])
    ++ (if natBit h.kinds 0 || natBit h.kinds 2 then [8] else []) ++ (if 1 < h.shards then [11] else [])
    ++ (if h.learning then [12] else [])

/-- Directory checks (R74, R75). -/
def directoryFaults (g : Reader) (h : Header) (dir : List (Nat × Nat × Nat)) : List (Nat × Nat) :=
  (List.range 16).flatMap (fun i =>
      chk (if i < h.sections then g (0x102 + 16 * i) 2 != 0 else !g.zero (0x100 + 16 * i) 16) 0x0E noDetail)
    ++ dir.flatMap (fun d =>
      chk (d.1 == 0 || decide (12 < d.1) || d.2.1 % 64 != 0 || decide (d.2.1 < 0x200) || decide (h.imageLen < d.2.1 + d.2.2)
        || decide (1 < (dir.filter fun x => x.1 == d.1).length)
        || dir.any fun x => x.1 != d.1 && overlap d.2.1 d.2.2 x.2.1 x.2.2) 0x0E d.1)
    ++ (neededSections h).flatMap fun t => chk (!dir.any fun d => d.1 == t) 0x0E t

/-- The section of a type: offset and bytes, zero where there is none. -/
def sectionAt (dir : List (Nat × Nat × Nat)) (t : Nat) : Nat × Nat :=
  match dir.find? fun d => d.1 == t with | some d => d.2 | none => (0, 0)

/-- Whether an image has a section of a type. -/
def present (dir : List (Nat × Nat × Nat)) (t : Nat) : Bool := dir.any fun d => d.1 == t

/-- The section of a type as a reader: nothing beyond its length is read (R534). -/
def section_ (g : Reader) (dir : List (Nat × Nat × Nat)) (t : Nat) : Reader :=
  let s := sectionAt dir t
  fun off n => if off + n ≤ s.2 then g (s.1 + off) n else 0

/-- Whether the bytes from one offset up to another are zero: the padding of R534. -/
def Reader.padded (g : Reader) (off end_ : Nat) : Bool := g.zero off (end_ - off)

/-! ### Shards -/

/-- A per-shard table entry (R292): part offsets, counts, plan offsets. -/
structure ShardEntry where
  placement : Nat
  couplings : Nat
  outliers  : Nat
  third     : Nat
  vars      : Nat
  blocks    : Nat
  entries   : Nat
  outEnds   : Nat
  thirdEnds : Nat
  plans     : List Nat
  deriving DecidableEq, Repr

/-- Entry i of the per-shard table. -/
def readShardEntry (g : Reader) (i : Nat) : ShardEntry :=
  let e := g.from (0x40 + 128 * i)
  { placement := e 0 8, couplings := e 8 8, outliers := e 0x10 8, third := e 0x18 8, vars := e 0x20 4, blocks := e 0x24 4,
    entries := e 0x28 8, outEnds := e 0x30 4, thirdEnds := e 0x34 4, plans := (List.range 8).map fun k => e (0x40 + 8 * k) 8 }

/-- The shards of an image; with one shard, every part begins at its section and the plan at offset 0. -/
def readShards (g : Reader) (h : Header) (dir : List (Nat × Nat × Nat)) : List ShardEntry :=
  if h.shards ≤ 1 then
    [{ placement := 0, couplings := 0, outliers := 0, third := 0, vars := h.nVars, blocks := 0, entries := 0, outEnds := 0,
       thirdEnds := 0, plans := [0] }]
  else (List.range h.shards).map (readShardEntry (section_ g dir 11))

/-- Bytes of part i of a section whose parts begin at some offsets: up to the next part or the section's end (R534). -/
def partLength (dir : List (Nat × Nat × Nat)) (t : Nat) (offs : List Nat) (i : Nat) : Nat :=
  (if i + 1 < offs.length then offs.getD (i + 1) 0 else (sectionAt dir t).2) - offs.getD i 0

/-- Part i of such a section. -/
def partAt (g : Reader) (dir : List (Nat × Nat × Nat)) (t : Nat) (offs : List Nat) (i : Nat) : Reader :=
  (section_ g dir t).from (offs.getD i 0)

/-- The SHARDS header. -/
def readJoined (g : Reader) (h : Header) (dir : List (Nat × Nat × Nat)) : ShardPlan :=
  let s := section_ g dir 11
  if h.shards ≤ 1 then { hN := 0, hS := 0, hP := 0, dX := 0, looseOk := false }
  else { hN := s 0 1, hS := s 1 1, hP := s 2 1, dX := s 3 1, looseOk := natBit (s 6 1) 0 }

/-- The checks of R292 and R534 on the SHARDS section: reserved fields, D_X, part offsets in ascending shard order, plan offsets,
padding. -/
def shardFaults (g : Reader) (h : Header) (dir : List (Nat × Nat × Nat)) : List (Nat × Nat) :=
  if h.shards ≤ 1 || !present dir 11 then []
  else
    let s := section_ g dir 11
    let es := readShards g h dir
    let falling := fun (f : ShardEntry → Nat) => !ascending (es.map f)
    chk (s 3 1 == 0 || decide (8 < s 3 1) || decide (2 ≤ s 6 1) || !s.zero 7 57 || (h.mode == 0 && s 2 1 != 0)
      || decide ((sectionAt dir 11).2 < 0x40 + 128 * h.shards) || !s.padded (0x40 + 128 * h.shards) (sectionAt dir 11).2
      || falling (·.placement) || falling (·.couplings) || (present dir 4 && falling (·.outliers))
      || (h.nThird != 0 && falling (·.third))
      || (List.range h.shards).any fun i =>
        let e := s.from (0x40 + 128 * i)
        (List.range 4).any (fun k => e (8 * k) 8 % 64 != 0) || (!present dir 4 && !e.zero 0x10 8)
          || (h.nThird == 0 && !e.zero 0x18 8) || !e.zero 0x38 8
          || (List.range 8).any fun k => decide (8 / max 1 h.perShard ≤ k) && !e.zero (0x40 + 8 * k) 8) 0x0E 11

/-! ### PLACEMENT -/

/-- A core by engine index, column and row. -/
abbrev CoreKey := Nat × Nat × Nat

/-- The core and the count of a core word (R535). -/
def readCoreWord (w : Nat) : CoreKey × Nat := ((w % 8, natBits w 8 6, natBits w 16 6), natBits w 32 16)

/-- Whether a core word's other bits are 0. -/
def coreWordBad (w : Nat) : Bool :=
  let k := readCoreWord w
  w != k.1.1 + k.1.2.1 * 2 ^ 8 + k.1.2.2 * 2 ^ 16 + k.2 * 2 ^ 32

/-- Placement order of a core (R535). -/
def placementOrder (k : CoreKey) : Nat := 4096 * k.1 + 64 * k.2.2 + k.2.1

/-- A variable record (R535). -/
structure VarRecord where
  var     : Nat
  shard   : Nat
  part    : Nat
  visible : Bool
  bias    : Bool
  key     : CoreKey
  slot    : Nat
  /-- Its reserved bits are 0. -/
  clean   : Bool
  deriving DecidableEq, Repr

/-- Read a variable record. -/
def readVar (shard w : Nat) : VarRecord where
  var := w % 2 ^ 24
  shard := shard
  part := natBits w 26 2
  visible := natBit w 24
  bias := natBit w 25
  key := (natBits w 32 3, natBits w 40 6, natBits w 48 6)
  slot := natBits w 56 5
  clean := natBits w 28 4 == 0 && natBits w 35 5 == 0 && natBits w 46 2 == 0 && natBits w 54 2 == 0 && natBits w 61 3 == 0

/-- What a PLACEMENT part holds. -/
structure PlacementPart where
  blocks  : List Block
  vars    : List VarRecord
  columns : List (CoreKey × List Nat)
  faults  : List (Nat × Nat)
  deriving DecidableEq, Repr

/-- Column records in sequence: a core word, its columns, padding to 8 bytes (R535). -/
def readColumns (g : Reader) : Nat → Nat → List (CoreKey × List Nat)
  | 0, _ => []
  | k + 1, off =>
    let w := readCoreWord (g off 8)
    (w.1, (List.range w.2).map fun i => g (off + 8 + 4 * i) 4) :: readColumns g k (off + 8 + (4 * w.2 + 7) / 8 * 8)

/-- Whether any of these records has a core word with other bits set, or padding that is not zero (R535). -/
def columnsBad (g : Reader) : Nat → Nat → Bool
  | 0, _ => false
  | k + 1, off =>
    let n := (readCoreWord (g off 8)).2
    coreWordBad (g off 8) || (n % 2 == 1 && !g.zero (off + 8 + 4 * n) 4) || columnsBad g k (off + 8 + (4 * n + 7) / 8 * 8)

/-- Strictly rising keys. -/
def rising (xs : List Nat) : Bool := ascending xs

/-- Where some column records end. -/
def columnsEnd (g : Reader) : Nat → Nat → Nat
  | 0, off => off
  | k + 1, off => columnsEnd g k (off + 8 + (4 * (readCoreWord (g off 8)).2 + 7) / 8 * 8)

/-- The part of a shard (R535). len bounds what is read. -/
def readPlacement (g : Reader) (len shard : Nat) : PlacementPart :=
  let nb := g 4 4
  let nv := g 8 4
  let nc := g 0x0C 4
  let bOff := g 0x10 8
  let vOff := g 0x18 8
  let cOff := g 0x20 8
  let fits := decide (bOff + 8 * nb ≤ len) && decide (vOff + 8 * nv ≤ len) && decide (cOff + 8 * nc ≤ len)
  let words := fun off n => if fits then (List.range n).map fun i => g (off + 8 * i) 8 else []
  let bw := words bOff nb
  let vars := (words vOff nv).map (readVar shard)
  let cols := if fits then readColumns g nc cOff else []
  let end_ := max (max 64 (columnsEnd g (if fits then nc else 0) cOff)) (max (bOff + 8 * nb) (vOff + 8 * nv))
  { blocks := bw.map fun w => { num := w % 2 ^ 32, shard := shard, engine := natBits w 40 3, dblock := natBits w 32 7, residue := 0 }
    vars := vars
    columns := cols
    faults :=
      chk (g 0 4 != shard || !fits || !g.zero 0x28 24 || bOff % 64 != 0 || vOff % 64 != 0 || (nc != 0 && cOff % 64 != 0)
          || (nc == 0 && cOff != 0) || (fits && (columnsBad g nc cOff || decide (len < end_) || !g.padded end_ len))) 0x0E 1
        ++ chk (bw.any fun w => natBits w 43 21 != 0 || natBit w 39) 0x0E 1
        ++ chk (!rising (bw.map fun w => w % 2 ^ 32)) 0x0E 1
        ++ chk (!rising (vars.map fun v => 4 * v.var + v.part)) 0x0E 1
        ++ chk (!rising (cols.map fun c => placementOrder c.1)) 0x0E 1
        ++ (vars.filter fun v => !v.clean).flatMap fun v => chk true 0x0E v.var }

/-- The in-block number of a variable record (R263). -/
def inBlock (v : VarRecord) : Nat := 32 * (4 * (v.key.2.2 % 8) + v.key.2.1 % 4) + v.slot

/-- The die-local block number of a core. -/
def keyBlock (k : CoreKey) : Nat := 16 * (k.2.2 / 8) + k.2.1 / 4

/-- Whether the columns of each listed block are consecutive and in ascending in-block order (R264): no column's block
comes back later, and numbers rise within a block. -/
def columnsOrdered (vars : List VarRecord) (cols : List Nat) : Bool :=
  let at_ := cols.map fun c => match vars.find? fun v => v.var == c with
    | some v => ((v.shard * 8 + v.key.1) * 128 + keyBlock v.key, inBlock v)
    | none => (0, 0)
  let rec go : List (Nat × Nat) → List Nat → Bool
    | [], _ => true
    | [_], _ => true
    | a :: b :: rest, seen =>
      if a.1 = b.1 then decide (a.2 < b.2) && go (b :: rest) seen
      else !seen.contains b.1 && go (b :: rest) (a.1 :: seen)
  go at_ []

/-- The parts of PLACEMENT, one for each shard (R534). -/
def readParts (g : Reader) (h : Header) (dir : List (Nat × Nat × Nat)) : List PlacementPart :=
  let offs := (readShards g h dir).map (·.placement)
  if !present dir 1 then []
  else (List.range offs.length).map fun i => readPlacement (partAt g dir 1 offs i) (partLength dir 1 offs i) i

/-- The checks of R535 over all parts; there are none where the section is missing (R75). -/
def placementFaults (h : Header) (parts : List PlacementPart) : List (Nat × Nat) :=
  let vars := parts.flatMap (·.vars)
  let blocks := parts.flatMap (·.blocks)
  let e := h.perShard
  if parts.isEmpty then [] else
  parts.flatMap (·.faults)
    ++ chk (blocks.any fun b => decide (e ≤ b.engine)) 0x06 noDetail
    ++ chk ((List.range blocks.length).any fun b => (blocks.filter fun x => x.num == b).length != 1) 0x0E 1
    ++ chk (blocks.any fun b =>
        decide (1 < (blocks.filter fun x => x.shard == b.shard && x.engine == b.engine && x.dblock == b.dblock).length)) 0x0E 1
    ++ (List.range h.nVars).flatMap (fun v =>
        chk ((List.range h.parts).any fun k => (vars.filter fun x => x.var == v && x.part == k).length != 1) 0x0E v)
    ++ chk (vars.length != h.nVars * h.parts) 0x0E 1
    ++ vars.flatMap (fun v =>
        chk (decide (e ≤ v.key.1)) 0x06 v.var
          ++ chk (h.mode == 1 && v.slot != 0) 0x0E v.var
          ++ chk (h.mode == 1 && vars.any fun x => x.shard == v.shard && x.key == v.key && x != v) 0x06 v.var
          ++ chk (h.mode == 0 && (v.part != 0
              || vars.any fun x => x.shard == v.shard && x.key == v.key && x.slot == v.slot && x != v)) 0x0E v.var
          ++ chk (!blocks.any fun b => b.shard == v.shard && b.engine == v.key.1 && b.dblock == keyBlock v.key) 0x0E v.var
          ++ chk ((v.bias && !v.visible) || (v.visible && !h.learning)) 0x0E v.var)
    ++ parts.flatMap (fun p =>
        let held := h.mode == 0
        chk (if held then (p.vars.any fun v => !p.columns.any fun c => c.1 == v.key)
              || p.columns.any fun c => !p.vars.any fun v => v.key == c.1
            else !p.columns.isEmpty) 0x0E 1
          ++ chk (p.columns.any fun c => decide (10922 < c.2.length) || !c.2.Nodup || c.2.any fun x => decide (h.nVars ≤ x))
              0x0E 1
          ++ chk (p.columns.any fun c => !columnsOrdered vars c.2) 0x0E 1)

/-! ### ONE_HOT -/

/-- Group of each variable (R539). -/
def readGroups (g : Reader) (h : Header) (dir : List (Nat × Nat × Nat)) : List (Option Nat) :=
  if !present dir 6 then List.replicate h.nVars none
  else
    let s := section_ g dir 6
    (List.range h.nVars).map fun v =>
      let w := s (64 + 4 * v) 4
      if natBit w 31 then some (w % 2 ^ 24) else none

/-- The checks of R539, R63 and R151 on a ONE_HOT section, also one of a pattern without groups; the limit of R63 holds for the groups
of the shards that the device hosts. -/
def groupFaults (g : Reader) (h : Header) (dir : List (Nat × Nat × Nat)) (hosted : Nat → Bool) (vars : List VarRecord)
    (groups : List (Option Nat)) : List (Nat × Nat) :=
  chk (decide (h.shards ≤ 1) && decide (131072 < h.nGroups)) 0x0C noDetail ++
  if !present dir 6 then []
  else
    let sec := sectionAt dir 6
    let s := section_ g dir 6
    let here := (vars.filter fun v => hosted v.shard).filterMap fun v => groups.getD v.var none
    let member := fun k => (List.range h.nVars).filter fun v => groups.getD v none == some k
    chk (s 0 4 != h.nGroups || !s.zero 4 60 || decide (sec.2 < 64 + 4 * h.nVars)
        || !s.padded (64 + 4 * h.nVars) sec.2) 0x0E 6
      ++ (List.range h.nVars).flatMap (fun v =>
          let w := s (64 + 4 * v) 4
          chk (natBits w 24 7 != 0 || (!natBit w 31 && w != 0)) 0x0E v
            ++ chk (natBit w 31 && decide (h.nGroups ≤ w % 2 ^ 24)) 0x0C (w % 2 ^ 24))
      ++ chk (decide (131072 < here.length / 2) && decide (131072 < here.eraseDups.length)) 0x0C noDetail
      ++ (List.range h.nGroups).flatMap fun k =>
          let ms := member k
          let place := fun v => (vars.find? fun x => x.var == v).map fun x => (x.shard, x.key.1, keyBlock x.key)
          chk (decide (ms.length < 2) || decide (256 < ms.length)
            || ms.any fun v => match ms with | m :: _ => place v != place m | [] => false) 0x0C k

/-! ### SCHEDULE, RESULT_PLAN, SEQUENCER, LEARNING, DITCH_PLAN -/

/-- TEMP_INIT and the change records (R184). -/
def readSchedule (g : Reader) (dir : List (Nat × Nat × Nat)) : List Nat × List Change :=
  let sec := sectionAt dir 8
  let s := section_ g dir 8
  let n := if 0x140 + 16 * s 0 4 ≤ sec.2 then s 0 4 else 0
  (if sec.2 = 0 then List.replicate 64 0 else (List.range 64).map fun r => s (0x40 + 4 * r) 4,
    (List.range n).map fun i =>
      let e := s.from (0x140 + 16 * i)
      { tick := e 0 6, rung := e 6 1, temp := e 8 4 })

/-- The checks of R185. -/
def scheduleFaults (g : Reader) (h : Header) (dir : List (Nat × Nat × Nat)) : List (Nat × Nat) :=
  let sec := sectionAt dir 8
  if !present dir 8 then []
  else
    let s := section_ g dir 8
    let r := readSchedule g dir
    chk (decide (1048576 < s 0 4) || decide (sec.2 < 0x140 + 16 * s 0 4) || !s.zero 4 60 || !s.padded (0x140 + 16 * s 0 4) sec.2
      || (List.range 64).any (fun k => decide (h.rungs ≤ k) && r.1.getD k 0 != 0)
      || r.2.any (fun c => c.tick == 0 || decide (h.rungs ≤ c.rung))
      || !rising (r.2.map fun c => c.tick * 256 + c.rung)
      || (List.range r.2.length).any fun i => !s.zero (0x147 + 16 * i) 1 || !s.zero (0x14C + 16 * i) 4) 0x0E 8

/-- The result plan (R197). -/
def readPlan (g : Reader) (dir : List (Nat × Nat × Nat)) : ResultPlan :=
  let s := section_ g dir 10
  let f := s 2 1
  { elite := s 0 1, budget := s 1 1, histOn := natBit f 0, samples := natBit f 1, states := natBit f 2, shift := s 3 1,
    period := s 4 4, base := signed 64 (s 8 8), first := s 0x10 2, count := s 0x12 2, flush := s 0x14 4 }

/-- The checks of R198, R220 on the result plan. -/
def planFaults (g : Reader) (h : Header) (dir : List (Nat × Nat × Nat)) (p : ResultPlan) (capture : Nat) : List (Nat × Nat) :=
  let s := section_ g dir 10
  let lines := 1 + if p.states then stateBytes h.nVars / 64 else 0
  if !present dir 10 then [] else
  chk ((sectionAt dir 10).2 == 0 || !s.padded 64 (sectionAt dir 10).2 || decide (64 < p.elite) || p.budget == 0 || decide ((if h.mode = 1 then 8 else 1) < p.budget) || decide (8 ≤ s 2 1)
      || decide (62 < p.shift) || !s.zero 0x18 40
      || (p.samples && (p.period == 0 || p.count == 0 || decide (4096 < p.count) || decide (h.total < p.first + p.count)))
      || (h.learning && (p.elite != 0 || p.samples))) 0x0E 10
    ++ chk (p.samples && p.period != 0 && decide (p.period * h.tickLen < lines * p.count)) 0x06 noDetail
    ++ chk (decide (capture < p.budget)) 0x06 noDetail

/-- The steps of a program up to END (R540). -/
def readSteps (g : Reader) : Nat → Nat → List SproutStep
  | 0, _ => []
  | k + 1, off =>
    if g off 1 = 1 then
      { first := g (off + 8) 8, period := g (off + 0x10) 8, handle := g (off + 0x18) 4, offset := g (off + 0x1C) 4 }
        :: readSteps g k (off + 32)
    else []

/-- The sequencer programs (R540). -/
def readPrograms (g : Reader) (dir : List (Nat × Nat × Nat)) : List (List SproutStep) :=
  let s := section_ g dir 9
  (List.range (min (s 0 4) 256)).map fun i =>
    let e := s.from (s 8 8 + 16 * i)
    readSteps s (min (e 8 4) ((sectionAt dir 9).2 / 32)) (e 0 8)

/-- The checks of R534 and R540 on the SEQUENCER section. Bytes 0x08-0x1F of an END step have no meaning that the manual gives, and are
taken as reserved: they must be 0 (log 75, DESIGN CHOICE). -/
def programFaults (g : Reader) (dir : List (Nat × Nat × Nat)) : List (Nat × Nat) :=
  let sec := sectionAt dir 9
  let s := section_ g dir 9
  let n := s 0 4
  if !present dir 9 then [] else
  let table := s 8 8
  chk (n == 0 || decide (256 < n) || !s.zero 4 4 || !s.zero 0x10 48 || table % 64 != 0 || decide (sec.2 < table + 16 * n)
    || !s.padded (maxNat ((table + 16 * n) :: (List.range (min n 256)).map fun i => s (table + 16 * i) 8 + 32 * s (table + 16 * i + 8) 4))
      sec.2
    || (List.range (min n 256)).any fun i =>
      let e := s.from (table + 16 * i)
      let k := e 8 4
      e 0 8 % 64 != 0 || e 0x0C 4 != 0 || k == 0 || decide (sec.2 < e 0 8 + 32 * k)
        || (List.range (min k (sec.2 / 32))).any fun j =>
          let t := s.from (e 0 8 + 32 * j)
          let kind := t 0 1
          decide (1 < kind) || (kind == 0) != (j + 1 == k) || !t.zero 1 7
            || (kind == 0 && !t.zero 8 24)
            || (kind == 1 && (t 8 8 == 0 || decide (2 ^ 48 ≤ t 8 8) || t 0x1C 4 % 64 != 0))) 0x0E 9

/-- The learning header (R224). -/
def readLearn (g : Reader) (dir : List (Nat × Nat × Nat)) : Learn :=
  let s := section_ g dir 12
  { window := s 0 1, mu := s 1 1, sb := s 2 2, lr := s 4 4, gInit := s 8 2, sweeps := s 0x0A 2, rounds := s 0x0C 2,
    harvest := s 0x0E 2, steps := s 0x10 4, emit := s 0x14 4, thrG := s 0x18 4, thrM := s 0x1C 4, thrC := s 0x20 4,
    step0 := s 0x24 4, learnable := s 0x28 8 }

/-- A learning row state of a CODED image (R225). -/
def readRowState (g : Reader) : RowState where
  gmax := (List.range 8).map fun k => g (2 * k) 2
  gs := g 0x10 2
  gsNext := g 0x12 2
  mm := g 0x14 1
  mmNext := g 0x15 1
  mb := g 0x16 2
  mbNext := g 0x18 2
  qmax := g 0x1A 1
  expNext := g 0x1B 1
  exp := g 0x1C 1

/-- The row state of a fresh row (R224). MM_NEXT and MB_NEXT, which the manual does not start, hold 1 as MM and MB do (log 75, DESIGN
CHOICE). -/
def freshRowState (gInit exp : Nat) : RowState where
  gmax := List.replicate 8 gInit
  gs := gInit
  gsNext := gInit
  mm := 1
  mmNext := 1
  mb := 1
  mbNext := 1
  qmax := 0
  expNext := exp
  exp := exp

/-- The row state of a pattern that does not learn. -/
def noRowState : RowState := freshRowState 0 0

/-- A ditch plan's header (R261). -/
def readDitch (g : Reader) : Ditch where
  wN := g 0 2
  wS := g 2 2
  wR := g 4 2
  wH := g 6 2
  nL := g 8 1
  capture := g 9 1
  uMax := g 0x0A 2
  eOwn := g 0x0C 2
  eAll := g 0x0E 2
  xMax := g 0x10 2
  edges := [g 0x12 1, g 0x13 1, g 0x1E 1, g 0x1F 1]
  entries := g 0x14 4
  reads := g 0x18 4
  slots := g 0x1C 2

end Sys2Proof.Machine
end

