-- ==== Sys2Proof/Machine/Ditch.lean ====
section
/-! DEFINITION. The main ditch (R251-R265): flits with their CHECK and the combines of routers, the ditch plan's router entries, read
lists and ledger slot maps with the checks of R260 and R262, and the flip ledgers. -/

namespace Sys2Proof.Machine

/-! ### Flits (R256, R257) -/

/-- A main-ditch flit by KIND. Entries that FLAGS marks as absent are none. -/
inductive Flit where
  | idle
  | race (entries : List (Option (Int × Nat)))
  | winner (entries : List (Option (Bool × Bool × Nat)))
  | sum (lanes : List (Option Int))
  | max (lanes : List (Option Nat))
  | notice (entries : List (Bool × Nat × Nat))
  | ledger (entries : List (Nat × Nat))
  | colupd (entries : List (Nat × Bool × Nat))
  | state (quarter : Nat) (bits : List Byte)
  | data (upper : Bool) (bytes : List Byte)
  deriving DecidableEq, Repr

/-- The payload bits of some entries of w bits each, entry 0 lowest. -/
def packEntries (w : Nat) (xs : List Nat) : Nat := (xs.mapIdx fun i x => x % 2 ^ w * 2 ^ (w * i)).foldl (· + ·) 0

/-- Which of some entries are present, as FLAGS bits. -/
def validBits {α : Type} (xs : List (Option α)) : Nat := maskOf 4 fun i => ((xs[i]?).bind id).isSome

/-- KIND, FLAGS and payload of a flit. -/
def Flit.fields : Flit → Nat × Nat × Nat
  | .idle => (0, 0, 0)
  | .race es => (1, validBits es, packEntries 80 (es.map fun e => match e with | some x => unsigned 56 x.1 * 2 ^ 24 + x.2 % 2 ^ 24 | none => 0))
  | .winner es =>
    (2, validBits es, packEntries 80 (es.map fun e =>
      match e with | some x => bit x.1 * 2 ^ 25 + bit x.2.1 * 2 ^ 24 + x.2.2 % 2 ^ 24 | none => 0))
  | .sum ls => (3, validBits ls, packEntries 80 (ls.map fun l => match l with | some x => unsigned 80 x | none => 0))
  | .max ls => (4, validBits ls, packEntries 80 (ls.map fun l => l.getD 0))
  | .notice es => (5, es.length, packEntries 40 (es.map fun e => bit e.1 * 2 ^ 38 + e.2.1 % 2 ^ 14 * 2 ^ 24 + e.2.2 % 2 ^ 24))
  | .ledger es => (6, es.length, packEntries 48 (es.map fun e => e.1 % 2 ^ 11 * 2 ^ 37 + e.2 % 2 ^ 32))
  | .colupd es => (7, es.length, packEntries 40 (es.map fun e => e.1 % 2 ^ 24 * 2 ^ 16 + bit e.2.1 * 2 ^ 14 + e.2.2 % 2 ^ 14))
  | .state q b => (8, q % 4, bytesLE (b.take 32))
  | .data u b => (9, bit u, bytesLE (b.take 32))

/-- CHECK of a flit: CRC-8 over KIND and FLAGS as one byte, then the payload from its lowest byte on (R256; the order of the bits is log
32's). -/
def flitCheck (kind flags payload : Nat) : Nat := crc8 (toBytesLE 1 (kind % 16 * 16 + flags % 16) ++ toBytesLE 32 payload)

/-- The 34 bytes of a flit: its control field and its payload (R277). -/
def Flit.encode (f : Flit) : List Byte :=
  let x := f.fields
  toBytesLE 2 (x.1 * 2 ^ 12 + x.2.1 * 2 ^ 8 + flitCheck x.1 x.2.1 x.2.2) ++ toBytesLE 32 x.2.2

/-- The flit in 34 bytes; none where CHECK fails, and none of a reserved KIND, which counts as a failure of CHECK (R256, R257). -/
def Flit.decode (bs : List Byte) : Option Flit :=
  let control := fieldOf bs 0 2
  let p := fieldOf bs 2 32
  let kind := natBits control 12 4
  let flags := natBits control 8 4
  let entry := fun (w n : Nat) => natBits p (w * n) w
  let valid := fun {α : Type} (f : Nat → α) => (List.range 3).map fun n => if natBit flags n then some (f (entry 80 n)) else none
  let counted := fun {α : Type} (most w : Nat) (f : Nat → α) => (List.range (min most (flags % 8))).map fun n => f (entry w n)
  if control % 2 ^ 8 ≠ flitCheck kind flags p then none
  else
    match kind with
    | 0 => some .idle
    | 1 => some (.race (valid fun e => (signed 56 (e / 2 ^ 24), e % 2 ^ 24)))
    | 2 => some (.winner (valid fun e => (natBit e 25, natBit e 24, e % 2 ^ 24)))
    | 3 => some (.sum (valid fun e => signed 80 e))
    | 4 => some (.max (valid fun e => e))
    | 5 => some (.notice (counted 6 40 fun e => (natBit e 38, natBits e 24 14, e % 2 ^ 24)))
    | 6 => some (.ledger (counted 5 48 fun e => (natBits e 37 11, e % 2 ^ 32)))
    | 7 => some (.colupd (counted 6 40 fun e => (natBits e 16 24, natBit e 14, e % 2 ^ 14)))
    | 8 => some (.state (flags % 4) (toBytesLE 32 p))
    | 9 => some (.data (natBit flags 0) (toBytesLE 32 p))
    | _ => none

/-! ### Combines (R258) -/

/-- Two race entries: the smaller KEY, between equal keys the lower VAR; a valid one before an invalid one. -/
def combineRace : Option (Int × Nat) → Option (Int × Nat) → Option (Int × Nat)
  | none, b => b
  | a, none => a
  | some a, some b => if b.1 < a.1 ∨ (b.1 = a.1 ∧ b.2 < a.2) then some b else some a

/-- Two lanes of a sum, modulo 2^80. -/
def combineSum : Option Int → Option Int → Option Int
  | none, b => b
  | a, none => a
  | some a, some b => some (signed 80 (unsigned 80 (a + b)))

/-- Two lanes of a maximum. -/
def combineMax : Option Nat → Option Nat → Option Nat
  | none, b => b
  | a, none => a
  | some a, some b => some (max a b)

/-- What a combine unit makes of two flits of one kind; flits of other kinds do not meet in one. -/
def Flit.combine : Flit → Flit → Option Flit
  | .race a, .race b => some (.race ((List.range 3).map fun i => combineRace (a.getD i none) (b.getD i none)))
  | .sum a, .sum b => some (.sum ((List.range 3).map fun i => combineSum (a.getD i none) (b.getD i none)))
  | .max a, .max b => some (.max ((List.range 3).map fun i => combineMax (a.getD i none) (b.getD i none)))
  | _, _ => none

/-! ### Reading a plan (R259, R261, R264)

The manual lets router entries, read lists and ledger slot maps follow the header line and gives the entries' 64 bits alone. Log 74
(DESIGN CHOICE): the ENTRIES words follow the header; then READ_BLOCKS records of 136 bytes, SLOT and FIRST in two bytes each, four zero
bytes and the mask; then, for each engine index, LEDGER_SLOTS words of 32 bits, each the block of a slot or all ones. The router that holds
an entry is a free value. -/

/-- A router plan entry (R259). -/
def readRouterEntry (router w : Nat) : RouterEntry where
  router := router
  cycle := natBits w 52 12
  inPort := natBits w 48 4
  outs := natBits w 37 11
  lane := natBits w 35 2
  op := natBits w 32 3
  wave := natBits w 28 4
  inputs := natBits w 16 12
  arg := natBits w 0 16

/-- Where a plan's read lists and slot maps begin, and where it ends, for e engines. -/
def Ditch.readsAt (d : Ditch) : Nat := 64 + 8 * d.entries
def Ditch.mapsAt (d : Ditch) : Nat := d.readsAt + 136 * d.reads
def Ditch.endsAt (d : Ditch) (e : Nat) : Nat := d.mapsAt + 4 * d.slots * e

/-- A plan as an image holds it: the reader of its bytes, its length, the engines it is for, its offset in the section, its shard. -/
structure PlanAt where
  read    : Reader
  length  : Nat
  engines : List Nat
  offset  : Nat
  shard   : Nat

/-- The router entries of a plan. -/
def PlanAt.routers (p : PlanAt) (hash : List Byte) : List RouterEntry :=
  let d := readDitch p.read
  (List.range (min d.entries (p.length / 8))).map fun n => readRouterEntry (Config.planRouter hash p.offset n % 33280) (p.read (64 + 8 * n) 8)

/-- The read lists of a plan. -/
def PlanAt.reads (p : PlanAt) (hash : List Byte) : List ReadBlock :=
  let d := readDitch p.read
  (List.range (min d.reads (p.length / 136))).map fun n =>
    let r := p.read.from (d.readsAt + 136 * n)
    { router := Config.planReader hash p.offset n % 33280, slot := r 0 2, first := r 2 2, mask := r 8 128 }

/-- The ledger slot maps of a plan. -/
def PlanAt.ledger (p : PlanAt) : List LedgerSlot :=
  let d := readDitch p.read
  if p.length < d.endsAt p.engines.length then []
  else (List.range p.engines.length).flatMap fun k => (List.range d.slots).filterMap fun n =>
    let b := p.read (d.mapsAt + 4 * (d.slots * k + n)) 4
    if b = 0xFFFFFFFF then none else some { shard := p.shard, engine := k, slot := n, block := b }

/-! ### The checks of R260 and R262 -/

/-- Die, column and row of a router. -/
def routerDie (router : Nat) : Nat := router / 4160 % 8
def routerCol (router : Nat) : Nat := router % 4160 / 64
def routerRow (router : Nat) : Nat := router % 64

/-- The engine that owns a lane at a die (R253). -/
def laneOwner (die lane : Nat) : Nat := lane + die / 4 * 4

/-- Whether an entry uses a lane of an engine that the pattern does not hold, or crosses between the die rows where it does not hold both
dies (R253, R260). -/
def RouterEntry.foreign (engines : List Nat) (x : RouterEntry) : Bool :=
  let die := routerDie x.router
  let row := routerRow x.router
  let uses := fun (a b : Nat) => natBit x.outs a || natBit x.outs b || x.inPort == a || x.inPort == b
  let crosses := if die < 4 then row == 63 && uses 1 5 else row == 0 && uses 2 6
  !engines.contains (laneOwner die x.lane) || (crosses && !(engines.contains die && engines.contains ((die + 4) % 8)))

/-- Whether the hub port of a west-edge router carries more flits in some 64 cycles of a wave than its share, inward or outward
(R262). -/
def pastEdge (share : Nat) (es : List RouterEntry) : Bool :=
  let past := fun (xs : List RouterEntry) => xs.any fun x =>
    decide (share < (xs.filter fun y => y.wave == x.wave && decide (x.cycle ≤ y.cycle) && decide (y.cycle < x.cycle + 64)).length)
  past (es.filter fun x => x.inPort == 9) || past (es.filter fun x => natBit x.outs 9)

/-- The entries of one combine: those of one router, wave, cycle, lane, operation and output (R259, R260). -/
def RouterEntry.joins (x y : RouterEntry) : Bool :=
  x.router == y.router && x.wave == y.wave && x.cycle == y.cycle && x.lane == y.lane && x.op == y.op && x.outs == y.outs
    && decide (1 ≤ x.op) && decide (x.op ≤ 3)

/-- Whether two entries put flits on one output port and lane in one cycle. -/
def RouterEntry.collides (x y : RouterEntry) : Bool :=
  x.router == y.router && x.wave == y.wave && x.cycle == y.cycle && x.lane == y.lane && (x.outs &&& y.outs) != 0 && !x.joins y

/-- A field of an entry outside its range. -/
def RouterEntry.bad (x : RouterEntry) : Bool :=
  decide (10 < x.inPort) || decide (8 < x.wave) || decide (5 < x.op) || (x.op == 0 && x.inputs != 0)
    || (decide (1 ≤ x.op) && decide (x.op ≤ 3) && (x.inputs == 0 || decide (15 < x.inputs))) || (decide (x.op < 4) && x.arg != 0)

/-- Whether some pair of a list, earlier element first, satisfies q. -/
def anyPair {α : Type} (q : α → α → Bool) : List α → Bool
  | [] => false
  | x :: xs => xs.any (q x) || anyPair q xs

/-- The array phase's checks of a plan (R260-R262): CAPACITY and SECTION. -/
def PlanAt.faults (p : PlanAt) (hash : List Byte) : List (Nat × Nat) :=
  let d := readDitch p.read
  let es := p.routers hash
  let rs := p.reads hash
  let ms := p.ledger
  let routers := (es.map (·.router)).eraseDups
  let share := fun (die : Nat) => 16 * (p.engines.filter fun e => e / 4 == die / 4).length
  let used := fun (k : Nat) => (ms.filter fun m => m.engine == k).length
  chk (routers.any (fun r => decide (1024 < (es.filter fun x => x.router == r).length))
      || ((rs.map (·.router)).eraseDups.any fun r => decide (256 < (rs.filter fun x => x.router == r).length))
      || decide (2048 < d.slots)
      || routers.any (fun r => routerCol r == 0 && routerDie r % 4 == 0 && pastEdge (share (routerDie r)) (es.filter fun x => x.router == r))
      || es.any (·.foreign p.engines)) 0x06 noDetail
    ++ chk (decide (p.length < d.endsAt p.engines.length) || es.any (·.bad) || anyPair RouterEntry.collides es
      || es.any (fun x => decide (1 ≤ x.op) && decide (x.op ≤ 3) && (es.filter x.joins).length != x.inputs)
      || rs.any (fun r => decide (2047 < r.slot) || decide (16383 < r.first))
      || (decide (0 < d.slots) && d.slots != maxNat ((List.range p.engines.length).map used))) 0x0E 7

/-! ### Flip ledgers (R263, R264) -/

/-- The in-block number of a variable at its core (R263). -/
def Core.inBlock (c : Core) (r : Row) : Nat := 32 * (4 * (c.row % 8) + c.col % 4) + r.slot

/-- The block of a variable and its in-block number. -/
def Pattern.placeOf (p : Pattern) (v : Nat) : Option (Nat × Nat) :=
  p.cores.findSome? fun c => (c.rows.find? fun r => r.var == v).map fun r => (p.blockOf c, c.inBlock r)

/-- The variable of an in-block number (R263). -/
def Pattern.varInBlock (p : Pattern) (block n : Nat) : Option Nat :=
  p.cores.findSome? fun c => if p.blockOf c = block then (c.rows.find? fun r => c.inBlock r == n).map (·.var) else none

/-- The 32-bit ledger entry of a sewn move: a single flip, or a swap of the member that was hot and the one that becomes so (R263). -/
def Pattern.ledgerEntry (p : Pattern) (flips : Updates) : Nat :=
  let at_ := fun (v : Nat) => match p.placeOf v with | some x => x.2 | none => 0
  match flips with
  | [] => 0
  | [f] => 2 ^ 31 + bit f.2 * 2 ^ 29 + at_ f.1
  | f :: g :: _ => let (old, new) := if f.2 then (g, f) else (f, g); 2 ^ 31 + 2 ^ 30 + at_ new.1 * 2 ^ 10 + at_ old.1

/-- The flips that a ledger entry of a block gives (R263, R264). -/
def Pattern.ledgerFlips (p : Pattern) (block entry : Nat) : Updates :=
  let v := fun (n : Nat) => (p.varInBlock block n).toList
  if !natBit entry 31 then []
  else if natBit entry 30 then
    (v (natBits entry 0 10)).map (fun x => (x, false)) ++ (v (natBits entry 10 10)).map fun x => (x, true)
  else (v (natBits entry 0 10)).map fun x => (x, natBit entry 29)

/-- COLUMN of a variable by a read-list entry, if its mask names the in-block number (R264). -/
def ReadBlock.column (b : ReadBlock) (n : Nat) : Option Nat := if natBit b.mask n then some (b.first + popCount n b.mask) else none

/-- The column updates that a router delivers to its core for the entry of a listed slot (R264). -/
def ReadBlock.updates (b : ReadBlock) (entry : Nat) : List (Nat × Bool) :=
  let one := fun (n : Nat) (v : Bool) => ((b.column n).map fun c => (c, v)).toList
  if !natBit entry 31 then []
  else if natBit entry 30 then one (natBits entry 0 10) false ++ one (natBits entry 10 10) true
  else one (natBits entry 0 10) (natBit entry 29)

/-- The ledger of a die after some slots of a tick's bank are written (R263). -/
def writeSlots (ledger : List (List (Nat × Nat))) (tick : Nat) (xs : List (Nat × Nat)) : List (List (Nat × Nat)) :=
  modifyAt (fun bank => xs.foldl (fun b x => (b.filter fun y => y.1 != x.1) ++ [x]) bank) (tick % 2) ledger

/-- The slots of a die that some moves write, with their entries: (block, flips). -/
def Pattern.slotEntries (p : Pattern) (shard engine : Nat) (moves : List (Nat × Updates)) : List (Nat × Nat) :=
  (p.ledger.filter fun m => m.shard == shard && m.engine == engine).filterMap fun m =>
    (moves.find? fun x => x.1 == m.block).map fun x => (m.slot, p.ledgerEntry x.2)

/-! ### What the parts of a run exchange (R263, R277, R294) -/

/-- The shard of a block. -/
def Pattern.shardOfBlock (p : Pattern) (block : Nat) : Nat := match p.blocks.find? fun b => b.num == block with | some b => b.shard | none => 0

/-- The flits that bring the moves of other shards to the die of an engine index of a shard, in every tick: link-plan index, source shard,
and the slots with their blocks. Five slots of one source shard share a flit, and the flits of die d = shard * e + engine are numbered 512
d, 512 d + 1 and on (log 32, DESIGN CHOICE: the manual gives no layout of the link plan). -/
def Pattern.linkFlits (p : Pattern) (shard engine : Nat) : List (Nat × Nat × List (Nat × Nat)) :=
  let mine := p.ledger.filter fun m => m.shard == shard && m.engine == engine
  let from_ := fun (src : Nat) => (mine.filter fun m => p.shardOfBlock m.block == src).map fun m => (m.slot, m.block)
  let groups := ((List.range p.header.shards).filter (· != shard)).flatMap fun src => (chunks 5 (from_ src)).map fun xs => (src, xs)
  (groups.filter fun x => !x.2.isEmpty).mapIdx fun i x => (512 * (shard * p.header.perShard + engine) + i, x)

/-- The flit of some slots for the moves of a tick: an entry without VALID where a block sewed nothing. -/
def Pattern.flitFor (p : Pattern) (slots : List (Nat × Nat)) (moves : List (Nat × Updates)) : Flit :=
  .ledger (slots.map fun s => (s.1, match moves.find? fun m => m.1 == s.2 with | some m => p.ledgerEntry m.2 | none => 0))

end Sys2Proof.Machine
end

