-- ==== Sys2Proof/Machine/Place.lean ====
section
/-! DEFINITION. Placing a pattern into cores: the COUPLINGS, OUTLIERS, THIRD_ORDER and LINEAR sections (R536-R538), scales,
codes and outliers (R114-R120, R223), the checks of the array phase (R57, R66, R119, R220, R221), and the zero-point terms
(R59, R60). -/

namespace Sys2Proof.Machine

/-- A core record as the image holds it (R537, R538): of a SOURCE pattern, entries and ends carry source values. -/
structure RawCore where
  shard    : Nat
  key      : CoreKey
  scales   : List Nat
  runs     : List Nat
  entries  : List Entry
  outliers : List Outlier
  ends     : List TermEnd
  deriving DecidableEq, Repr

/-- Bytes of one stored entry of a core record (R537). -/
def entrySize (h : Header) : Nat :=
  if h.mode = 1 then (if h.coding = 1 then 1 else 4)
  else if h.coding = 0 then 8
  else if h.learning then 5 else 3

/-- Entry i of a core record; in whole-cloth, column i. -/
def readEntry (g : Reader) (h : Header) (i : Nat) : Entry :=
  let o := 0x80 + entrySize h * i
  let base : Entry := { index := i, code := 0, grad := 0, mom := 0, counter := 0 }
  if h.mode = 1 then { base with code := signed (8 * entrySize h) (g o (entrySize h)) }
  else if h.coding = 0 then { base with index := g o 2, code := signed 32 (g (o + 4) 4) }
  else
    let b : Entry := { base with index := g o 2, code := signed 8 (g (o + 2) 1) }
    if h.learning then { b with grad := signed 8 (g (o + 3) 1), mom := signed 8 (g (o + 4) 1) } else b

/-- The COUPLINGS core records in sequence. In whole-cloth only codes that are not 0 are kept. -/
def readCoreRecords (g : Reader) (h : Header) (shard : Nat) : Nat → Nat → List RawCore
  | 0, _ => []
  | k + 1, off =>
    let r := g.from off
    let w := readCoreWord (r 0 8)
    let n := if h.mode = 1 then 32768 else w.2
    let es := (List.range n).map (readEntry r h)
    { shard := shard, key := w.1, scales := (List.range 32).map fun i => r (8 + i) 1,
      runs := (List.range 33).map fun i => r (0x28 + 2 * i) 2,
      entries := if h.mode = 1 then es.filter fun e => e.code != 0 else es, outliers := [], ends := [] }
      :: readCoreRecords g h shard k (off + (0x80 + entrySize h * n + 63) / 64 * 64)

/-- An outlier entry (R104). -/
def readOutlier (w : Nat) : Outlier where
  kind := natBits w 30 2
  row := natBits w 16 5
  pos := w % 2 ^ 16
  value := signed 32 (w / 2 ^ 32)

/-- A third-order end (R105); of a SOURCE pattern the weight follows its word (R538). -/
def readEnd (g : Reader) (h : Header) (off : Nat) : TermEnd :=
  let w := g off 8
  { code := if h.coding = 1 then signed 16 (w / 2 ^ 48) else signed 32 (g (off + 8) 4)
    colB := natBits w 32 16, colC := natBits w 16 16, owner := natBit w 15, row := w % 32 }

/-- The records of an OUTLIERS or THIRD_ORDER part: core and the words' offsets. -/
def readWordRecords (g : Reader) (size : Nat) : Nat → Nat → List (CoreKey × List Nat)
  | 0, _ => []
  | k + 1, off =>
    let w := readCoreWord (g off 8)
    (w.1, (List.range w.2).map fun i => off + 8 + size * i) :: readWordRecords g size k (off + 8 + size * w.2)

/-- The raw cores of a shard: COUPLINGS with the outliers and third-order ends of their cores. -/
def readRawCores (g : Reader) (h : Header) (dir : List (Nat × Nat × Nat)) (shard : Nat) (e : ShardEntry) : List RawCore :=
  let part := fun t off => (section_ g dir t).from off
  let c := part 3 e.couplings
  let raws := readCoreRecords c h shard (min (c 4 4) 32768) (c 0x10 8)
  let o := part 4 e.outliers
  let outs := if !present dir 4 then [] else readWordRecords o 8 (min (o 4 4) 32768) (o 0x10 8)
  let t := part 5 e.third
  let ends := if !present dir 5 then []
    else readWordRecords t (if h.coding = 1 then 8 else 16) (min (t 4 4) 32768) (t 0x10 8)
  raws.map fun r =>
    { r with
      outliers := ((outs.filter fun x => x.1 == r.key).flatMap (·.2)).map fun off => readOutlier (o off 8)
      ends := ((ends.filter fun x => x.1 == r.key).flatMap (·.2)).map fun off => readEnd t h off }

/-! ### Layout of the parts (R534, R536-R538) -/

/-- Entries of a COUPLINGS core record: in whole-cloth the 32,768 columns (R537). -/
def recordEntries (h : Header) (w : Nat) : Nat := if h.mode = 1 then 32768 else (readCoreWord w).2

/-- Offsets of the COUPLINGS core records in sequence. -/
def coreOffsets (g : Reader) (h : Header) : Nat → Nat → List Nat
  | 0, _ => []
  | k + 1, off =>
    off :: coreOffsets g h k (off + (0x80 + entrySize h * recordEntries h (g off 8) + 63) / 64 * 64)

/-- Offsets of the core records of an OUTLIERS or THIRD_ORDER part in sequence. -/
def wordOffsets (g : Reader) (size : Nat) : Nat → Nat → List Nat
  | 0, _ => []
  | k + 1, off => off :: wordOffsets g size k (off + 8 + size * (readCoreWord (g off 8)).2)

/-- Whether core words are clean, in placement order, and name cores of the shard's variables. -/
def coreWordsBad (vars : List VarRecord) (shard : Nat) (words : List Nat) : Bool :=
  words.any coreWordBad || !rising (words.map fun w => placementOrder (readCoreWord w).1)
    || words.any fun w => !vars.any fun v => v.shard == shard && v.key == (readCoreWord w).1

/-- The COUPLINGS part of a shard in its len bytes (R95, R103, R534, R537): header, block scale words, core words, row run tables, the
slots that hold no variable, reserved fields and padding. -/
def couplingFaults (g : Reader) (h : Header) (len shard blocks : Nat) (vars : List VarRecord) : List (Nat × Nat) :=
  let offs := coreOffsets g h (min (g 4 4) 32768) (g 0x10 8)
  let words := offs.map fun o => g o 8
  let ends := offs.map fun o => o + 0x80 + entrySize h * recordEntries h (g o 8)
  let tables := if h.coding = 1 then [g 0x18 8 + 8 * blocks, g 0x20 8 + 4 * blocks] else []
  let up := fun (n : Nat) => (n + 63) / 64 * 64
  let last := maxNat ((64 :: tables ++ ends).map up)
  chk (g 0 4 != shard || decide (32768 < g 4 4) || g 0x10 8 % 64 != 0 || !g.zero 0x28 24
      || (if h.coding = 1 then g 0x18 8 % 64 != 0 || g 0x20 8 % 64 != 0
            || (List.range blocks).any fun i => g (g 0x18 8 + 8 * i + 4) 4 != 0
          else !g.zero 0x18 16)
      || decide (len < last) || (tables ++ ends).any (fun n => !g.padded n (up n)) || !g.padded last len
      || words.any (fun w => (readCoreWord w).2 != recordEntries h w)
      || sumNat (words.map fun w => (readCoreWord w).2) != g 8 8 || coreWordsBad vars shard words) 0x0E 3
    ++ offs.flatMap fun o =>
      let r := g.from o
      let w := readCoreWord (r 0 8)
      let run := fun (k : Nat) => r (0x28 + 2 * k) 2
      let slot := fun (k : Nat) => vars.find? fun v => v.shard == shard && v.key == w.1 && v.slot == k
      chk (!r.zero 0x6A 22 || (h.coding == 0 && !r.zero 8 32)
          || (if h.mode = 1 then !r.zero 0x28 66 || !r.zero 9 31 else run 0 != 0 || run 32 != w.2)) 0x0E 3
        ++ if h.mode = 1 then [] else (List.range 32).flatMap fun k =>
            chk (decide (run (k + 1) < run k) || ((slot k).isNone && (run (k + 1) != run k || !r.zero (8 + k) 1))
              || (h.coding == 0 && (List.range (run (k + 1) - run k)).any fun i => !r.zero (0x82 + 8 * (run k + i)) 2)) 0x0E
              (match slot k with | some v => v.var | none => 3)

/-- The OUTLIERS or THIRD_ORDER part of a shard in its len bytes (R104, R105, R534, R538): header, core words, the words' reserved
fields, and padding. -/
def wordPartFaults (g : Reader) (len kind shard size : Nat) (vars : List VarRecord) (bad : Reader → Bool) : List (Nat × Nat) :=
  let offs := wordOffsets g size (min (g 4 4) 32768) (g 0x10 8)
  let count := fun (o : Nat) => (readCoreWord (g o 8)).2
  let last := maxNat (64 :: offs.map fun o => o + 8 + size * count o)
  chk (g 0 4 != shard || decide (32768 < g 4 4) || g 0x10 8 % 64 != 0 || !g.zero 0x18 40 || sumNat (offs.map count) != g 8 8
    || coreWordsBad vars shard (offs.map fun o => g o 8) || offs.any (fun o => count o == 0)
    || decide (len < last) || !g.padded last len
    || offs.any fun o => (List.range (count o)).any fun i => bad (g.from (o + 8 + size * i))) 0x0E kind

/-- Reserved bits of an outlier entry, its ROW in whole-cloth, and its end number (R104). -/
def outlierWordBad (h : Header) (g : Reader) : Bool :=
  natBits (g 0 8) 21 9 != 0 || (h.mode == 1 && natBits (g 0 8) 16 5 != 0)
    || (natBits (g 0 8) 30 2 == 1 && decide (95 < natBits (g 0 8) 0 16))

/-- Reserved bits of a third-order end, and what a SOURCE end holds beside its weight (R105, R538). -/
def endWordBad (h : Header) (g : Reader) : Bool :=
  natBits (g 0 8) 5 10 != 0 || (h.coding == 0 && (natBits (g 0 8) 48 16 != 0 || !g.zero 12 4))

/-- A row state of a CODED learning image against the ranges of R225. -/
def rowStateBad (g : Reader) : Bool :=
  g 0x10 2 == 0 || decide (32767 < g 0x10 2) || g 0x14 1 == 0 || g 0x16 2 == 0 || decide (127 < g 0x1A 1) || decide (7 < g 0x1B 1)
    || decide (7 < g 0x1C 1) || !g.zero 0x1D 3

/-- SECTION checks of the layout of the parts of every shard, of LINEAR, and of the row states of a learned image. -/
def layoutFaults (g : Reader) (h : Header) (dir : List (Nat × Nat × Nat)) (shards : List ShardEntry) (blocks : List Block)
    (vars : List VarRecord) : List (Nat × Nat) :=
  let linear := section_ g dir 2
  let learning := section_ g dir 12
  let offs := fun (f : ShardEntry → Nat) => shards.map f
  let part := fun (t : Nat) (f : ShardEntry → Nat) (i : Nat) => (partAt g dir t (offs f) i, partLength dir t (offs f) i)
  let entries := sumNat ((List.range shards.length).map fun i => (part 3 (·.couplings) i).1 8 8)
  let learnEnd := if h.coding = 1 then 64 + 32 * h.nVars else 64 + (entries + 7) / 8
  (List.range shards.length).flatMap (fun i =>
      (if !present dir 3 then [] else
        couplingFaults (part 3 (·.couplings) i).1 h (part 3 (·.couplings) i).2 i (blocks.filter fun b => b.shard == i).length vars)
        ++ (if !present dir 4 then []
          else wordPartFaults (part 4 (·.outliers) i).1 (part 4 (·.outliers) i).2 4 i 8 vars (outlierWordBad h))
        ++ if !present dir 5 then []
          else wordPartFaults (part 5 (·.third) i).1 (part 5 (·.third) i).2 5 i (if h.coding = 1 then 8 else 16) vars (endWordBad h))
    ++ chk (present dir 2 && (linear 0 4 != h.nVars || !linear.zero 4 60 || decide ((sectionAt dir 2).2 < 64 + 4 * h.nVars)
        || !linear.padded (64 + 4 * h.nVars) (sectionAt dir 2).2)) 0x0E 2
    ++ if h.learning && present dir 12 then
        chk (decide ((sectionAt dir 12).2 < learnEnd) || !learning.padded learnEnd (sectionAt dir 12).2
            || (h.coding == 0 && entries % 8 != 0 && learning (learnEnd - 1) 1 / 2 ^ (entries % 8) != 0)) 0x0E 12
          ++ if h.coding = 1 then (List.range h.nVars).flatMap fun v => chk (rowStateBad (learning.from (64 + 32 * v))) 0x0E v else []
      else []

/-- LINEAR (R536). -/
def readLinear (g : Reader) (h : Header) (dir : List (Nat × Nat × Nat)) : List Int :=
  let s := section_ g dir 2
  (List.range h.nVars).map fun v => signed 32 (s (64 + 4 * v) 4)

/-! ### Cores before scales -/

/-- The rows and columns of a raw core: its variables by slot. h, M and check rows come later. -/
def bareCore (h : Header) (vars : List VarRecord) (columns : List (CoreKey × List Nat)) (groups : List (Option Nat))
    (r : RawCore) : Core :=
  let mine := vars.filter fun v => v.shard == r.shard && v.key == r.key
  let slots := (List.range 32).filterMap fun k => mine.find? fun v => v.slot == k
  { shard := r.shard, engine := r.key.1, col := r.key.2.1, row := r.key.2.2
    rows := slots.map fun v =>
      { slot := v.slot, var := v.var, part := v.part, visible := v.visible, bias := v.bias,
        group := groups.getD v.var none, h := 0, m := 1,
        first := if h.mode = 1 then 0 else r.runs.getD v.slot 0
        last := if h.mode = 1 then r.entries.length else r.runs.getD (v.slot + 1) 0
        s := 0, sDev := 0, learn := noRowState }
    entries := r.entries, outliers := r.outliers, ends := r.ends
    cols := if h.mode = 1 then [] else ((columns.find? fun c => c.1 == r.key).map (·.2)).getD []
    sb := 1, tb := 1, scrubWord := 0, scrubPair := 0 }

/-- The core and row that hold the end of variable v toward variable u. -/
def findRow (h : Header) (cores : List Core) (v u : Nat) : Option (Core × Row) :=
  cores.findSome? fun c => (c.rows.find? fun r => r.var == v && r.part == (if h.mode = 1 then u / 32768 else 0)).map fun r => (c, r)

/-- The entry of a row toward variable u, with its number. -/
def entryToward (h : Header) (c : Core) (r : Row) (u : Nat) : Option (Nat × Entry) :=
  (c.rowEntries r).find? fun e => c.colVar h.mode r.part e.2.index == u

/-- The other two ends of a term, as (core, number, end). -/
def otherEnds (cores : List Core) (v b c : Nat) : List (Core × Nat × TermEnd) :=
  cores.flatMap fun k => (k.ends.mapIdx fun i e => (k, i, e)).filter fun x =>
    k.rows.any fun r =>
      r.slot == x.2.2.row && (r.var == b || r.var == c)
        && (let o := if r.var = b then c else b
            let names := [k.colVar 0 0 x.2.2.colB, k.colVar 0 0 x.2.2.colC]
            names.contains v && names.contains o)

/-! ### Structure of the entries (R57, R98, R537, R538) -/

/-- Whether a column of a core is one of its rows' partners or of its terms' other variables (R535). -/
def Core.usesColumn (c : Core) (k : Nat) : Bool :=
  (c.entries.any fun e => e.index == k) || c.ends.any fun e => e.colB == k || e.colC == k

/-- SECTION checks of the entries, columns and ends of every core. The two ends of a pair, and the three of a term, carry one source value
in a SOURCE pattern, so that the quantised problem is symmetric (R58); the manual names no code for one that does not, and SECTION is
taken (log 76, DESIGN CHOICE). -/
def entryFaults (h : Header) (cores : List Core) : List (Nat × Nat) :=
  cores.flatMap fun c =>
    let runs := c.rows.flatMap fun r => [r.first, r.last]
    chk (h.mode == 0 && (runs.any fun k => decide (c.entries.length < k))) 0x0E 3
      ++ (if h.mode = 1 then [] else
          (c.cols.mapIdx fun k v => (k, v)).flatMap fun x => chk (!c.usesColumn x.1) 0x0E x.2)
      ++ c.rows.flatMap (fun r =>
          let es := c.rowEntries r
          let vs := es.map fun e => c.colVar h.mode r.part e.2.index
          chk (!rising (es.map fun e => e.2.index) || vs.contains r.var || vs.any (fun v => decide (h.nVars ≤ v))
            || es.any fun e => match findRow h cores (c.colVar h.mode r.part e.2.index) r.var with
                | some o => match entryToward h o.1 o.2 r.var with
                  | some x => h.coding == 0 && x.2.code != e.2.code
                  | none => true
                | none => true) 0x0E r.var)
      ++ (c.ends.mapIdx fun i e => (i, e)).flatMap (fun e =>
          match c.rows.find? fun r => r.slot == e.2.row with
          | some r =>
            let b := c.colVar 0 0 e.2.colB
            let d := c.colVar 0 0 e.2.colC
            let os := otherEnds cores r.var b d
            chk (b == d || b == r.var || d == r.var || os.length != 2
              || (List.filter (fun x => x) ([e.2.owner] ++ os.map fun o => o.2.2.owner)).length != 1
              || (e.2.owner && (decide (b < r.var) || decide (d < r.var)))
              || (h.coding == 0 && os.any fun o => o.2.2.code != e.2.code)
              || decide (1 < (c.ends.filter fun x =>
                  x.row == e.2.row && ((x.colB == e.2.colB && x.colC == e.2.colC) || (x.colB == e.2.colC && x.colC == e.2.colB))).length))
              0x0E r.var
          | none => chk true 0x0E 5)
      ++ (c.ends.zip (c.ends.drop 1)).flatMap (fun x =>
          let key := fun (e : TermEnd) => e.row * 2 ^ 32 + e.colB * 2 ^ 16 + e.colC
          chk (decide (key x.2 ≤ key x.1)) 0x0E (match c.rows.find? fun r => r.slot == x.2.row with | some r => r.var | none => 5))
      ++ chk (!rising (c.outliers.map fun o => o.kind * 2 ^ 32 + o.row * 2 ^ 16 + o.pos)
          || c.outliers.any fun o => decide (1 < o.kind)) 0x0E 4
      ++ chk (decide (96 < c.ends.length)) 0x06 noDetail
      ++ chk (h.mode == 0 && decide ((if h.learning then 6553 else 10922) < c.entries.length)) 0x06 noDetail

/-- Counts of the header against the records (R534). A whole-cloth record lists every column, also those without a coupling, so that
there no more ends may hold a value than N_COUPLINGS names (log 76). -/
def countFaults (h : Header) (cores : List Core) : List (Nat × Nat) :=
  let ends := sumNat (cores.map fun c => c.entries.length)
  chk (if h.mode = 1 then decide (2 * h.nCouplings < ends) else ends != 2 * h.nCouplings) 0x0E 3
    ++ chk (sumNat (cores.map fun c => c.ends.length) != 3 * h.nThird) 0x0E 5

/-! ### Scales of a SOURCE pattern (R114-R118, R223) -/

/-- Source values of a row. -/
def sourceMax (c : Core) (r : Row) (learnable : Nat → Bool) : Nat :=
  maxNat (((c.rowEntries r).filter fun e => learnable e.1).map fun e => absNat e.2.code)

/-- Whether two cores lie in one block. -/
def sameBlock (a b : Core) : Bool := a.shard == b.shard && a.engine == b.engine && a.dblock == b.dblock

/-- Cores with the scales of R114 in place. -/
def scaleCores (cores : List Core) : List Core :=
  cores.map fun c =>
    let block := cores.filter (sameBlock c)
    let sb := max 1 (cdiv (maxNat (block.flatMap fun k => k.rows.map fun r => sourceMax k r fun _ => true)) 32385)
    let tb := max 1 (cdiv (maxNat (block.flatMap fun k => k.ends.map fun e => absNat e.code)) 32767)
    { c with sb := sb, tb := tb
             rows := c.rows.map fun r => { r with m := max 1 (cdiv (sourceMax c r fun _ => true) (127 * sb)) } }

/-- R115. -/
def sourceFaults (cores : List Core) : List (Nat × Nat) :=
  cores.flatMap fun c =>
    c.rows.flatMap fun r =>
      chk ((c.rowEntries r).any (fun e => decide (2122350975 < absNat e.2.code))
        || (c.rowEnds r).any fun e => decide (2147385345 < absNat e.2.code)) 0x08 r.var

/-- The step of the row at the other end of a pair. -/
def partnerStep (h : Header) (cores : List Core) (v u : Nat) : Nat :=
  match findRow h cores v u with | some o => o.1.step o.2 | none => 1

/-- A core with its codes and outliers chosen by R116 and R117; the source cores carry the scales. The manual orders the outlier entries
of an image only (R538); a core that chooses its own lists pair ends by row and entry, then third-order ends (log 75, DESIGN
CHOICE). -/
def codeCore (h : Header) (cores : List Core) (c : Core) : Core :=
  let coded := c.rows.flatMap fun r => (c.rowEntries r).map fun e =>
    let d := c.step r
    let o := partnerStep h cores (c.colVar h.mode r.part e.2.index) r.var
    let v := pairValue e.2.code (max d o) (min d o) h.tol
    match endCode v d 127 with
    | some k => ({ e.2 with code := k }, ([] : List Outlier))
    | none => ({ e.2 with code := -128 }, [{ kind := 0, row := r.slot, pos := pairPos h.mode e.1 e.2, value := v }])
  let terms := (c.ends.mapIdx fun i e => (i, e)).map fun e =>
    match c.rows.find? fun r => r.slot == e.2.row with
    | some r =>
      let os := otherEnds cores r.var (c.colVar 0 0 e.2.colB) (c.colVar 0 0 e.2.colC)
      let steps := c.tb :: os.map fun (o : Core × Nat × TermEnd) => o.1.tb
      let v := pairValue e.2.code (maxNat steps) (steps.foldl min c.tb) h.tol
      match endCode v c.tb 32767 with
      | some k => ({ e.2 with code := k }, ([] : List Outlier))
      | none => ({ e.2 with code := -32768 }, [{ kind := 1, row := r.slot, pos := e.1, value := v }])
    | none => (e.2, [])
  { c with entries := coded.map (·.1), ends := terms.map (·.1), outliers := coded.flatMap (·.2) ++ terms.flatMap (·.2) }

/-- A block's largest residue, times 256 (R120): source cores against coded ones. -/
def blockResidue (h : Header) (source coded : List Core) (b : Block) : Nat :=
  256 * maxNat ((source.zip coded).flatMap fun x =>
    if x.1.shard = b.shard ∧ x.1.engine = b.engine ∧ x.1.dblock = b.dblock then
      (x.1.rows.zip x.2.rows).flatMap (fun r =>
          ((x.1.rowEntries r.1).zip (x.2.rowEntries r.2)).map fun e =>
            absNat (e.1.2.code - x.2.entryValue h.mode r.2 e.2.1 e.2.2))
        ++ (x.1.ends.zip (x.2.ends.mapIdx fun i e => (i, e))).map fun e => absNat (e.1.code - x.2.endValue e.2.1 e.2.2)
    else [])

/-! ### Learning patterns (R220-R224) -/

/-- Mark of the n-th stored entry of a SOURCE learning pattern: 1 learnable (R224). -/
def readMark (g : Reader) (dir : List (Nat × Nat × Nat)) (n : Nat) : Bool :=
  natBit (section_ g dir 12 (64 + n / 8) 1) (n % 8)

/-- A SOURCE learning pattern's cores (R223): fixed pairs exact at both ends, learnable pairs on the coarse grid, the lower
variable's end the owner. `first` numbers a core's entries in COUPLINGS order. The manual starts the momentum codes at 0 and names no
first GRADIENT code of an owner end: 0 (log 75, DESIGN CHOICE). -/
def learnCores (g : Reader) (h : Header) (dir : List (Nat × Nat × Nat)) (l : Learn) (cores : List Core) :
    List Core × List (Nat × Nat) :=
  let starts := (cores.foldl (fun (acc : List Nat × Nat) c => (acc.1 ++ [acc.2], acc.2 + c.entries.length)) ([], 0)).1
  let mark := fun (k : Nat) (n : Nat) => readMark g dir (starts.getD k 0 + n)
  let scaled := cores.mapIdx fun k c =>
    { c with sb := l.sb, tb := 1
             rows := c.rows.map fun r =>
               let m := (learnRowScale (sourceMax c r (mark k)) l.sb).getD 0
               { r with m := m, learn := freshRowState l.gInit (Nat.log2 m) } }
  let faults := scaled.flatMap fun c => c.rows.flatMap fun r => chk (r.m == 0) 0x08 r.var
  let out := scaled.mapIdx fun k c =>
    let coded := c.rows.flatMap fun r => (c.rowEntries r).map fun e =>
      let u := c.colVar 0 0 e.2.index
      let d := c.step r
      let o := partnerStep h scaled u r.var
      if mark k e.1 then
        let dc := max d o
        let bound : Int := (dc * (127 * min d o / max 1 dc) : Nat)
        let v0 := quantise e.2.code dc
        let v := if v0 > bound then bound else if v0 < -bound then -bound else v0
        ({ e.2 with code := v / d, grad := 0, mom := if r.var < u then 0 else -128 }, ([] : List Outlier))
      else ({ e.2 with code := -128, grad := -128, mom := 0 }, [{ kind := 0, row := r.slot, pos := e.1, value := e.2.code }])
    { c with entries := coded.map (·.1), outliers := coded.flatMap (·.2) }
  (out, faults)

/-- Kinds of learning entry (R221): 0 owner, 1 mirror, 2 fixed, 3 none of them. -/
def entryKind (c : Core) (n : Nat) (r : Row) (u : Nat) (e : Entry) : Nat :=
  if e.grad = -128 then
    (if e.code = -128 ∧ e.mom = 0 ∧ (c.outliers.any fun o => o.kind == 0 && o.pos == n) = true then 2 else 3)
  else if e.code = -128 then 3
  else if r.var < u then (if e.mom = -128 then 3 else 0)
  else if e.mom = -128 ∧ e.grad = 0 then 1 else 3

/-- Array-phase checks of a learning pattern (R220, R221, R224), the block scale words of a CODED one and the number of learnable pairs
among them. -/
def learnFaults (h : Header) (l : Learn) (linear : List Int) (scales : List Nat) (cores : List Core) : List (Nat × Nat) :=
  let owners := sumNat (cores.map fun c => sumNat (c.rows.map fun r =>
    ((c.rowEntries r).filter fun e => entryKind c e.1 r (c.colVar 0 0 e.2.index) e.2 == 0).length))
  (linear.mapIdx fun v x => (v, x)).flatMap (fun x => chk (x.2 != 0) 0x0E x.1)
    ++ chk (owners != l.learnable) 0x0E 12
    ++ chk (scales.any fun w => w % 2 ^ 16 != l.sb || natBits w 16 16 != 1) 0x08 noDetail
    ++ cores.flatMap fun c =>
      chk (c.sb != l.sb || c.tb != 1) 0x08 noDetail
        ++ chk (decide (128 < (c.entries.filter fun e => e.grad == -128).length)) 0x09 noDetail
        ++ c.rows.flatMap fun r =>
          chk (!(List.range 8).any (fun k => r.m == 2 ^ k) || r.learn.exp != Nat.log2 r.m) 0x08 r.var
            ++ (c.rowEntries r).flatMap fun e =>
              let u := c.colVar 0 0 e.2.index
              let mine := entryKind c e.1 r u e.2
              let other := match findRow h cores u r.var with
                | some o => match entryToward h o.1 o.2 r.var with
                  | some x => entryKind o.1 x.1 o.2 r.var x.2
                  | none => 3
                | none => 3
              chk (!((mine == 0 && other == 1) || (mine == 1 && other == 0) || (mine == 2 && other == 2))) 0x08 r.var

/-! ### Assembly -/

/-- The block scale words of a CODED pattern, every block's (R103, R537). -/
def blockScales (g : Reader) (h : Header) (dir : List (Nat × Nat × Nat)) (shards : List ShardEntry) (blocks : List Block) : List Nat :=
  if h.coding = 0 ∨ present dir 3 = false then []
  else (List.range shards.length).flatMap fun i =>
    let part := partAt g dir 3 (shards.map (·.couplings)) i
    (List.range (blocks.filter fun b => b.shard == i).length).map fun k => part (part 0x18 8 + 8 * k) 8

/-- The rows of a CODED core with their row scale codes, and the block's SB and TB (R103, R537). -/
def codedCore (g : Reader) (h : Header) (dir : List (Nat × Nat × Nat)) (shards : List ShardEntry) (blocks : List Block)
    (raw : RawCore) (c : Core) : Core :=
  let part := partAt g dir 3 (shards.map (·.couplings)) c.shard
  let mine := blocks.filter fun b => b.shard == c.shard
  let w := match mine.findIdx? fun b => b.engine == c.engine && b.dblock == c.dblock with
    | some i => part (part 0x18 8 + 8 * i) 8
    | none => 0
  { c with sb := w % 2 ^ 16, tb := natBits w 16 16
           rows := c.rows.map fun r =>
             { r with m := raw.scales.getD (if h.mode = 1 then 0 else r.slot) 0
                      learn := if h.learning then readRowState ((section_ g dir 12).from (64 + 32 * r.var)) else noRowState } }

/-- Residue words of a CODED pattern, from the residue table (R120). -/
def codedResidue (g : Reader) (dir : List (Nat × Nat × Nat)) (shards : List ShardEntry) (blocks : List Block) (b : Block) : Nat :=
  let part := partAt g dir 3 (shards.map (·.couplings)) b.shard
  let mine := blocks.filter fun x => x.shard == b.shard
  match mine.findIdx? fun x => x.num == b.num with
  | some i => part (part 0x20 8 + 4 * i) 4
  | none => 0

/-- R119 on a CODED pattern; outs tells whether it has an OUTLIERS section, without which it may have no outlier (R75). -/
def codedFaults (h : Header) (scales : List Nat) (outs : Bool) (cores : List Core) : List (Nat × Nat) :=
  let marked := cores.any fun c => (c.entries.any fun e => e.code == -128) || c.ends.any fun e => e.code == -32768
  chk (scales.any fun w => w % 2 ^ 16 == 0 || natBits w 16 16 == 0) 0x08 noDetail ++
  if !outs && marked then chk true 0x0E 4 else
  cores.flatMap fun c =>
      c.rows.flatMap fun r =>
        chk (r.m == 0 || decide (255 < r.m)) 0x08 r.var
          ++ (c.rowEntries r).flatMap (fun e =>
              let u := c.colVar h.mode r.part e.2.index
              let other := match findRow h cores u r.var with
                | some o => match entryToward h o.1 o.2 r.var with
                  | some x => o.1.entryValue h.mode o.2 x.1 x.2
                  | none => 0
                | none => 0
              chk ((e.2.code == -128 && !c.outliers.any fun o => o.kind == 0 && o.row == r.slot && o.pos == pairPos h.mode e.1 e.2)
                || c.entryValue h.mode r e.1 e.2 != other) 0x08 r.var)
          ++ (c.rowEnds r).flatMap fun e =>
              chk ((e.2.code == -32768 && !c.outliers.any fun o => o.kind == 1 && o.pos == e.1)
                || (otherEnds cores r.var (c.colVar 0 0 e.2.colB) (c.colVar 0 0 e.2.colC)).any fun o =>
                    o.1.endValue o.2.1 o.2.2 != c.endValue e.1 e.2) 0x08 r.var

/-- Outliers beyond a core's 128 (R118, R119). -/
def outlierFaults (cores : List Core) : List (Nat × Nat) :=
  cores.flatMap fun c => chk (decide (128 < c.outliers.length)) 0x09 noDetail

/-- The sum of a row's quantised pair values. -/
def rowSum (h : Header) (c : Core) (r : Row) : Int := sumOver (c.rowEntries r) fun e => c.entryValue h.mode r e.1 e.2

/-- h of every row (R59, R102): LINEAR for Ising; 2 Q_ii plus the folded row sum for QUBO; 0 in parts other than part 0. -/
def withLinear (h : Header) (linear : List Int) (cores : List Core) : List Core :=
  let sums := cores.flatMap fun c => c.rows.map fun r => (r.var, rowSum h c r)
  cores.map fun c =>
    { c with rows := c.rows.map fun r =>
        let q := linear.getD r.var 0
        { r with h := if r.part ≠ 0 then 0
            else if h.form = 1 then 2 * q + sumOver (sums.filter fun x => x.1 == r.var) (·.2)
            else q } }

/-- Sum of the absolute values of the pairs of a row. -/
def rowAbs (h : Header) (c : Core) (r : Row) : Nat :=
  sumNat ((c.rowEntries r).map fun e => absNat (c.entryValue h.mode r e.1 e.2))

/-- E0 (R59, R60): CONST, and for QUBO the folded pairs and twice the trace. -/
def zeroPoint (h : Header) (linear : List Int) (cores : List Core) : Int :=
  if h.form = 1 then
    sumOver cores (fun c => sumOver c.rows fun r => rowSum h c r) / 2 + 2 * sumInt linear + h.const
  else h.const

/-- The range checks of R66. -/
def rangeFaults (h : Header) (cores : List Core) (e0 : Int) : List (Nat × Nat) :=
  let bound := cores.flatMap fun c => c.rows.map fun r =>
    (r.var, absNat r.h + rowAbs h c r + sumNat ((c.rowEnds r).map fun e => absNat (c.endValue e.1 e.2)))
  let energy := sumNat (cores.flatMap fun c => c.rows.map fun r => absNat r.h)
    + sumNat (cores.flatMap fun c => c.rows.map fun r => rowAbs h c r) / 2
    + sumNat (cores.flatMap fun c =>
        (c.ends.mapIdx fun i e => (i, e)).map fun e => if e.2.owner then absNat (c.endValue e.1 e.2) else 0)
  (List.range h.nVars).flatMap (fun v =>
      chk (decide (2 ^ 31 - 1 < sumNat ((bound.filter fun b => b.1 == v).map (·.2)))) 0x0A v)
    ++ chk (decide (2 ^ 47 - 1 < energy) || decide (2 ^ 62 < absNat e0)) 0x0B noDetail

/-- Check rows (R103): here tells whether a variable lies on this device. -/
def withCheckRows (mode : Nat) (here : Nat → Bool) (cores : List Core) : List Core :=
  cores.map fun c =>
    { c with rows := c.rows.map fun r =>
        let s := c.checkRow mode here r
        { r with s := s.1, sDev := s.2 } }

/-- What the array phase makes of an image: blocks with residues, cores, E0, and the checks that fail: those of the sections' structure
and the limits of R66, which a CODED image decides in the check phase already (R77, R79, R249), and those of R119 and R220. -/
structure Placed where
  blocks : List Block
  cores  : List Core
  e0     : Int
  limits : List (Nat × Nat)
  scale  : List (Nat × Nat)
  deriving DecidableEq, Repr

/-- Every check that fails. -/
def Placed.faults (p : Placed) : List (Nat × Nat) := p.limits ++ p.scale

/-- The array phase's work on an image (R77). -/
def placeImage (g : Reader) (h : Header) (here : Nat → Bool) : Placed :=
  let dir := readDirectory g h
  let shards := readShards g h dir
  let parts := readParts g h dir
  let vars := parts.flatMap (·.vars)
  let blocks := parts.flatMap (·.blocks)
  let groups := readGroups g h dir
  let raws := if !present dir 3 then [] else (shards.mapIdx fun i e => readRawCores g h dir i e).flatMap fun x => x
  let columns := fun s => ((parts[s]?).map (·.columns)).getD []
  let bare := raws.map fun r => bareCore h vars (columns r.shard) groups r
  let linear := readLinear g h dir
  let l := readLearn g dir
  let structural := layoutFaults g h dir shards blocks vars ++ entryFaults h bare ++ countFaults h bare
    ++ chk (present dir 3 && vars.any fun v => !raws.any fun r => r.shard == v.shard && r.key == v.key) 0x0E 3
  let scales := blockScales g h dir shards blocks
  let scaled := scaleCores bare
  let learnt := learnCores g h dir l bare
  let coded :=
    if h.coding = 1 then (raws.zip bare).map fun x => codedCore g h dir shards blocks x.1 x.2
    else if h.learning then learnt.1
    else scaled.map (codeCore h scaled)
  let scale := (if h.coding = 1 then codedFaults h scales (present dir 4) coded
      else sourceFaults bare ++ if h.learning then learnt.2 else [])
    ++ if h.learning then learnFaults h l linear scales coded else []
  let cores := withCheckRows h.mode here (withLinear h linear coded)
  let e0 := zeroPoint h linear cores
  { blocks := blocks.map fun b =>
      { b with residue := if h.coding = 1 then codedResidue g dir shards blocks b else blockResidue h bare coded b }
    cores := cores, e0 := e0, limits := structural ++ outlierFaults coded ++ rangeFaults h cores e0, scale := scale }

end Sys2Proof.Machine
end

