-- ==== Sys2Proof/Machine/Dram.lean ====
section
/-! DEFINITION. Memory channels (R310-R335, R340, R453, R466): training and the map, reads with their errors, writes,
scrub, refresh, self-refresh. A loss of a channel, and the reads that can declare one, are in Machine/Losses.lean. -/

namespace Sys2Proof.Machine

/-- Channel c. -/
def State.channel (s : State) (c : Nat) : Channel := s.dram.channels.getD c .reset

/-- Change channel c. -/
def State.setChannel (s : State) (c : Nat) (f : Channel → Channel) : State :=
  { s with dram := { s.dram with channels := modifyAt f c s.dram.channels } }

/-- Change power domain d. -/
def State.setDomain (s : State) (d : Nat) (f : Domain → Domain) : State :=
  { s with pow := { s.pow with domains := modifyAt f d s.pow.domains } }

/-- Power domain d. -/
def State.domain (s : State) (d : Nat) : Domain := s.pow.domains.getD d (.reset d)

/-! ### Training and the map -/

/-- The usable configurations of R311 as (density code, ranks, stack code). -/
def supportedModules : List (Nat × Nat × Nat) := [(1, 1, 0), (1, 2, 0), (2, 2, 0), (3, 2, 0), (2, 2, 1), (3, 2, 1)]

/-- Whether a module matches a row of R311. -/
def moduleSupported (m : Module) : Bool := supportedModules.contains (m.density, m.ranks, m.stack)

/-- Capacity in GiB (R311): twice the device density in Gb, times ranks and stack height. -/
def moduleGib (m : Module) : Nat := [0, 16, 24, 32].getD m.density 0 * 2 * m.ranks * (m.stack + 1)

/-- What one channel's training ends in (R311, R314). -/
def Channel.train (c : Channel) : Training → Channel
  | .absent => { c with state := 0, cause := 1, module := none }
  | .module m passes =>
    if !moduleSupported m then { c with state := 4, cause := 2, module := some m }
    else if passes = 0 then { c with state := 4, cause := 3, module := some m }
    else { c with state := 2, cause := 0, module := some m, rate := min passes m.topRate }

/-- In-service channels, ascending. -/
def trainedChannels (cs : List Channel) : List Nat := (List.range 8).filter fun i => (cs.getD i .reset).state == 2

/-- The channel of each index (R319, R332): every trained channel, or the even channel of each pair that trained whole. -/
def mapOf (mirrored : Bool) (cs : List Channel) : List Nat :=
  let t := trainedChannels cs
  if mirrored then (List.range 4).map (2 * ·) |>.filter fun e => t.contains e && t.contains (e + 1) else t

/-- The smallest capacity among the modules in the map, in bytes (R317). -/
def smallestModule (cs : List Channel) (members : List Nat) : Nat :=
  match members.map fun i => match (cs.getD i .reset).module with | some m => moduleGib m * 2 ^ 30 | none => 0 with
  | [] => 0
  | c :: rest => rest.foldl min c

/-- TOP (R317). -/
def topOf (mirrored : Bool) (cs : List Channel) : Nat :=
  let map := mapOf mirrored cs
  let members := if mirrored then map.flatMap fun e => [e, e + 1] else map
  let c := smallestModule cs members
  map.length * (c - c / 256)

/-- All channels have finished: rates level at the lowest reached, pairs with one trained module are EXCLUDED, the map
and TOP are built and every valid bit is clear (R314, R317, R323, R332). -/
def State.buildMap (s : State) : State :=
  let mirrored := s.dram.mirrored
  let cs := s.dram.channels
  let t := trainedChannels cs
  let low := t.foldl (fun r i => min r (cs.getD i .reset).rate) 4
  let map := mapOf mirrored cs
  let cs' := (List.range 8).map fun i =>
    let c := cs.getD i .reset
    let c := if c.state = 2 then { c with rate := low } else c
    if mirrored then
      if map.contains (i / 2 * 2) then { c with mirror := 1 }
      else if c.state = 2 then { c with state := 5, cause := 5 } else c
    else c
  let s := { s with dram := { s.dram with channels := cs', map := map } }
  (s.store .wipe).store (.setMap map.length (topOf mirrored cs))

/-- DRAM_TRAINING_COMPLETE (R314): channel c's training ends; the last one builds the map. -/
def execDramTrainingComplete (channel : Nat) (outcome : Training) (s : State) : Host.Outcome State Fault Refusal :=
  .next (s.whenLive fun s =>
    if s.boot.fwVerified && !s.boot.coldHold && decide (channel < 8) && !s.boot.trained.contains channel then
      let s := s.setChannel channel fun c => c.train outcome
      let s := { s with boot := { s.boot with trained := insertAsc channel s.boot.trained } }
      if s.boot.trained.length = 8 then s.buildMap else s
    else s)

/-! ### Self-refresh -/

/-- The member channels of the map (both of each pair in mirrored mode). -/
def Dram.members (d : Dram) : List Nat := if d.mirrored then d.map.flatMap fun e => [e, e + 1] else d.map

/-- Any access wakes every channel from self-refresh (R331, R466). -/
def State.wakeChannels (s : State) : State :=
  (List.range 8).foldl (fun s c =>
    if (s.channel c).state = 3 then
      (s.setChannel c fun ch => { ch with state := 2 }).setDomain (98 + c) fun d =>
        { d with state := 2, wakes := (d.wakes + 1) % 2 ^ 32 }
    else s) s

/-- Write bytes of device DRAM, an access that wakes the channels (R331). -/
def State.writeDram (s : State) (a : Nat) (bs : List Byte) : State := if bs.isEmpty then s else s.wakeChannels.write a bs

/-- The idle conditions of R466, but for their 10 ms (log 4): of the tasks dispatched only runs that neither tick nor update are left. -/
def State.memoryIdle (s : State) : Bool :=
  (s.dram.members.all fun c => natBit (s.domain (98 + c)).cfg.force 2)
    && (s.grid.engines.all fun e => e.state != 3 && e.state != 4)
    && (s.grid.runs.all fun r => !r.updating)
    && (s.q.engines.all fun c => c.state == 0 || c.state == 4)
    && (s.q.tasks.all fun t => t.phase == .waiting || s.grid.runs.any fun r => r.ref == t.ref)
    && s.mem.merge.isEmpty

/-- SELF_REFRESH_ENTRY (R466). -/
def execSelfRefreshEntry (s : State) : Host.Outcome State Fault Refusal :=
  .next (s.whenLive fun s =>
    if s.memoryIdle && !s.dram.map.isEmpty then
      s.dram.members.foldl (fun s c =>
        if (s.channel c).state = 2 then
          (s.setChannel c fun ch => { ch with state := 3 }).setDomain (98 + c) fun d => { d with state := 5 }
        else s) s
    else s)

/-- SELF_REFRESH_EXIT (R331). -/
def execSelfRefreshExit (s : State) : Host.Outcome State Fault Refusal := .next (s.whenLive State.wakeChannels)

/-! ### Errors of a read -/

/-- Count a correction toward its CORRECTED record: at most one record per SOURCE and structure in 10 ms, its COUNT the
corrections merged into it (R453). -/
def State.corrected (s : State) (source structure_ place : Nat) : State :=
  let now := s.cnt.stitch
  let old := s.host.correctedAt.find? fun r => r.1 == source && r.2.1 == structure_
  let others := s.host.correctedAt.filter fun r => !(r.1 == source && r.2.1 == structure_)
  let raise := fun (count : Nat) (s : State) =>
    { s with host := { s.host with correctedAt := (source, structure_, now, 0) :: others } }.event 1 1 source none
      (toBytesLE 1 structure_ ++ zeroBytes 7 ++ toBytesLE 8 place ++ toBytesLE 4 count)
  match old with
  | none => raise 1 s
  | some (_, _, last, acc) =>
    if now ≥ last + 1000000 then raise (acc + 1) s
    else { s with host := { s.host with correctedAt := (source, structure_, last, acc + 1) :: others } }

/-- The channel that reads unit u (R333): the even one of a pair, its partner where the even one is lost. -/
def State.servingChannel (s : State) (u : Nat) : Nat :=
  let c := s.dram.map.getD u 0
  if s.dram.mirrored && (s.channel c).state == 4 then c + 1 else c

/-- Whether unit u is a pair served by both its channels. -/
def State.pairWhole (s : State) (u : Nat) : Bool :=
  let c := s.dram.map.getD u 0
  s.dram.mirrored && (s.channel c).state != 4 && (s.channel (c + 1)).state != 4

/-- Where remapped lines keep their error mark: spare k of a channel stands as line 2^48 + k. -/
def spareLine (k : Nat) : Nat := 2 ^ 48 + k

/-- The place that now serves a line of a channel: its spare, or itself (R328). -/
def Channel.home (c : Channel) (line : Nat) : Nat :=
  match c.remap.find? fun r => r.1 == line with
  | some r => spareLine r.2
  | none => line

/-- A DRAM location of a channel (R320). -/
structure Location where
  subchannel : Nat
  group      : Nat
  bank       : Nat
  burst      : Nat
  chip       : Nat
  rank       : Nat
  row        : Nat
  deriving DecidableEq, Repr

/-- The location of a channel-local address on a module (R320): a 2H module takes a bit for the stack chip ID, a 2-rank module one for the
rank; bank group and bank are XORed with low row bits. -/
def location (m : Module) (la : Nat) : Location :=
  let chipBits := if m.stack = 1 then 1 else 0
  let rankBits := if m.ranks = 2 then 1 else 0
  let row := la / 2 ^ (19 + chipBits + rankBits)
  { subchannel := natBits la 6 1
    group := natBits la 7 3 ^^^ row % 8
    bank := natBits la 10 2 ^^^ row / 8 % 4
    burst := natBits la 12 7
    chip := natBits la 19 chipBits
    rank := natBits la (19 + chipBits) rankBits
    row := row }

/-- The location of a line on channel c. -/
def State.lineAt (s : State) (c line : Nat) : Location :=
  location ((s.channel c).module.getD { density := 0, ranks := 1, stack := 0, mfr := 0, topRate := 0 }) (localAddr s.mem.units (64 * line))

/-- The byte of DEVICE_MARK of a rank of a subchannel (R322). -/
def Location.key (l : Location) : Nat := 2 * l.subchannel + l.rank

/-- The marked device of a rank of a subchannel (R322). -/
def Channel.marked (c : Channel) (key : Nat) : Option Nat :=
  if natBit c.devMark (8 * key + 7) then some (natBits c.devMark (8 * key) 4) else none

/-- Whether RS(80,64) corrects a set of wrong symbols: up to 8 anywhere; with a device marked its symbols are erasures, and up to 4
others (R321, R322). Beyond that the code gives no guarantee: the model takes the line as found uncorrectable (log 78). -/
def corrects (marked : Option Nat) (wrong : List Nat) : Bool :=
  match marked with
  | none => decide (wrong.length ≤ 8)
  | some d => decide ((wrong.filter fun x => x / 8 != d).length ≤ 4)

/-- A correctable error has touched a device on a line: the 16th distinct line of a device position marks it, one device per rank and
subchannel (R322). -/
def State.noteDevice (s : State) (c line : Nat) (l : Location) (device : Nat) : State :=
  let s := s.setChannel c fun ch => { ch with sites := addNew (l.key, device, line) ch.sites }
  let ch := s.channel c
  if (ch.sites.filter fun x => x.1 == l.key && x.2.1 == device).length ≥ 16 ∧ (ch.marked l.key).isNone then
    let word := l.subchannel * 256 + l.rank * 16 + device
    let s := s.setChannel c fun ch => { ch with devMark := ch.devMark + (0x80 + device) * 2 ^ (8 * l.key) }
    (s.event 1 4 (sourceOf 2 c) none (toBytesLE 2 word)).logFault 6 (sourceOf 2 c) none word
  else s

/-- Send a line of channel c to its next free spare, if one is left (R328). -/
def Channel.spareOut (c : Channel) (line : Nat) : Channel :=
  if c.sparesUsed < 64 then
    { c with
      remap := (line, c.sparesUsed) :: c.remap.filter (fun r => r.1 != line)
      sparesUsed := c.sparesUsed + 1
      erred := c.erred.filter (· != c.home line) }
  else c

/-- A line shows a correctable error: the second time it goes to a spare, on both channels of a mirrored pair, each from its own table
(R328, R333). -/
def State.noteErred (s : State) (c line : Nat) : State :=
  let ch := s.channel c
  let home := ch.home line
  if ch.erred.contains home then
    if ch.sparesUsed < 64 then
      let la := localAddr s.mem.units (64 * line)
      let other := if c % 2 = 0 then c + 1 else c - 1
      let s := s.setChannel c fun ch => ch.spareOut line
      let s := if s.pairWhole (unitOf s.mem.units (64 * line)) then s.setChannel other fun ch => ch.spareOut line else s
      (s.event 1 5 (sourceOf 2 c) none (toBytesLE 1 2 ++ zeroBytes 7 ++ toBytesLE 8 la)).logFault 5 (sourceOf 2 c) none la
    else s
  else s.setChannel c fun ch => { ch with erred := ch.erred ++ [home] }

/-- A correctable error of a line: counted, recorded, its devices noted, its line remapped at the second (R322, R324, R328, R453,
R454). -/
def State.correctLine (s : State) (c line : Nat) (wrong : List Nat) : State :=
  let l := s.lineAt c line
  let s := (s.setChannel c fun ch => { ch with corr := (ch.corr + 1) % 2 ^ 64 }).corrected (sourceOf 2 c) 2
    (localAddr s.mem.units (64 * line))
  let s := (wrong.map (· / 8)).eraseDups.foldl (fun s d => s.noteDevice c line l d) s
  s.noteErred c line

/-- Channel c fails a line: its UNCORR rises and the moment counts toward R335. -/
def State.failLine (s : State) (c : Nat) : State :=
  s.setChannel c fun ch => { ch with uncorr := (ch.uncorr + 1) % 2 ^ 32, failures := (s.cnt.stitch :: ch.failures).take 4 }

/-- What a set of wrong symbols comes to on channel c. -/
def State.readable (s : State) (c line : Nat) (wrong : List Nat) : Bool :=
  corrects ((s.channel c).marked (s.lineAt c line).key) wrong

/-- One read of a line by channel c (R323-R326, R334, R453): a line never written returns zero without an access; a line stored as
poison is no new error; wrong symbols within the code are corrected; beyond it the partner's copy is read and written back, or
the line becomes poison. -/
def State.readLine (s : State) (c line : Nat) (error : LineError) : State :=
  let la := localAddr s.mem.units (64 * line)
  if !s.mem.valid.contains line || s.mem.linePoisoned line || error.here.isEmpty then s
  else if s.readable c line error.here then s.correctLine c line error.here
  else
    let other := if c % 2 = 0 then c + 1 else c - 1
    let paired := s.pairWhole (unitOf s.mem.units (64 * line))
    let s := s.failLine c
    if paired && s.readable other line error.partner then
      let s := if error.partner.isEmpty then s else s.correctLine other line error.partner
      (s.setChannel c fun ch => { ch with corr := (ch.corr + 1) % 2 ^ 64 }).corrected (sourceOf 2 c) 2 la
    else
      let s := if paired then s.failLine other else s
      ((s.store (.poison line)).event 1 3 (sourceOf 2 c) none (zeroBytes 8 ++ toBytesLE 8 c)).logFault 7 (sourceOf 2 c) none la

/-- Whether an address is DRAM of the map. -/
def State.inDram (s : State) (a : Nat) : Bool := decide (0 < s.mem.units) && decide (a < s.mem.top)

/-- DRAM_WRITE (R326). -/
def execDramWrite (addr : Nat) (data : List Byte) (s : State) : Host.Outcome State Fault Refusal :=
  .next (s.whenLive fun s =>
    if s.inDram addr && decide (addr + data.length ≤ s.mem.top) then s.wakeChannels.write addr data else s)

/-- MERGE_DRAIN_TIMEOUT (R326). -/
def execMergeDrainTimeout (channel line : Nat) (s : State) : Host.Outcome State Fault Refusal :=
  .next (s.whenLive fun s =>
    match s.mem.entry line with
    | some e =>
      let c := s.dram.map.getD e.unit 8
      if channel = c ∨ (s.dram.mirrored = true ∧ channel = c + 1) then s.store (.drain line) else s
    | none => s)

/-- The valid lines of a channel, ascending (R329). -/
def State.channelLines (s : State) (c : Nat) : List Nat :=
  s.mem.valid.filter fun line =>
    let e := s.dram.map.getD (unitOf s.mem.units (64 * line)) 8
    e == c || (s.dram.mirrored && e + 1 == c)

/-- REFRESH (R330): the bank is refreshed; nothing but the moment of an access changes. -/
def execRefresh (channel bank : Nat) (s : State) : Host.Outcome State Fault Refusal :=
  .next (s.whenLive fun s =>
    if (s.channel channel).state = 2 then s.setChannel channel fun ch => { ch with bank := bank } else s)

/-- MR4_POLL (R330): the refresh interval is 1.95 us while a device reports a high-temperature rate, 3.9 us otherwise. -/
def execMr4Poll (channel : Nat) (hot : Bool) (s : State) : Host.Outcome State Fault Refusal :=
  .next (s.whenLive fun s =>
    if (s.channel channel).state = 2 then s.setChannel channel fun ch => { ch with hot := hot } else s)

end Sys2Proof.Machine
end

