-- ==== Sys2Proof/Machine/Flags.lean ====
section
/-! DEFINITION. The words of the registers, assembled from the fields of State that hold them: BAR0 (R348-R363), the six
window classes (R275, R310, R351, R396, R401, R475) and the doorbell page (R375). -/

namespace Sys2Proof.Machine

/-! ### Engine window -/

/-- Engine e. -/
def State.engine (s : State) (e : Nat) : Engine := s.grid.engines.getD e .reset

/-- The run that occupies engine e, if any. -/
def State.runOf (s : State) (e : Nat) : Option Run :=
  match (s.engine e).task with
  | some t => s.grid.runs.find? fun r => r.ref == t
  | none => none

/-- The pattern with a number. -/
def State.pattern (s : State) (n : Nat) : Option Pattern := s.grid.patterns.find? fun p => p.id == n

/-- The pattern engine e holds. -/
def State.patternOf (s : State) (e : Nat) : Option Pattern := (s.engine e).pattern.bind s.pattern

/-- The words of a core of engine k, by row and physical column, lose their valid bits (R89): what was left there, what the debug port
wrote there and which words had an error since. -/
def State.clearCores (s : State) (k : Nat) (at_ : Nat → Nat → Bool) : State :=
  let word := fun (n : Nat) => n / 16384 % 2 * 4 + n % 256 / 64 == k && at_ (n / 256 % 64) (n % 64)
  { s with
    grid :=
      { s.grid with
        engines := modifyAt (fun g =>
          { g with left := (g.left.map fun x => { x with cores := x.cores.filter fun c => !at_ c.1 c.2.1 }).filter fun x => !x.cores.isEmpty })
          k s.grid.engines
        weakWords := s.grid.weakWords.filter fun w => !word w.1
        scratch := s.grid.scratch.filter fun x => !(x.1.die == k && at_ x.1.row x.1.col) } }

/-- A bank goes OFF: its words are lost (R89, R460). -/
def State.clearBank (s : State) (d : Nat) : State := s.clearCores (d / 12) fun row _ => row / 8 == d % 12

/-- ENG_STATE (R351). -/
def engState (s : State) (e : Nat) : Nat :=
  let g := s.engine e
  (match s.runOf e with | some r => r.mask | none => 0) * 2 ^ 16 + g.pauseKind * 2 ^ 8 + g.state

/-- HOLD_CAUSE (R351): 0 unless HELD. -/
def holdCause (s : State) (e : Nat) : Nat :=
  let g := s.engine e
  if g.state = 6 then g.detail * 2 ^ 16 + g.cause else 0

/-- PATTERN_ID: the first four bytes of the hash (R351). -/
def patternId (s : State) (e : Nat) : Nat :=
  match s.patternOf e with | some p => bytesLE (p.hash.take 4) | none => 0

/-- PROFILE as read: SEL reads its staged value (R351, R352). -/
def profileWord (s : State) (e : Nat) : Nat :=
  let g := s.engine e
  bit s.pow.fastOk * 2 ^ 8 + g.cur * 2 ^ 4 + g.sel.staged

/-- Whether a run is an anneal in whole-cloth mode, whose ticks go by slots. -/
def State.bySlots (s : State) (r : Run) : Bool :=
  r.blk.kind == 0 && s.grid.patterns.any fun p => p.id == r.pattern && p.header.mode == 1

/-- TICK_INDEX of engine e, 0 with no run: the index of the run's next tick, in whole-cloth mode the last tick whose run boundary has passed
(R177, R351; log 56). -/
def tickIndex (s : State) (e : Nat) : Nat := match s.runOf e with | some r => if s.bySlots r then r.tick - 1 else r.tick | none => 0

/-- Die rows of an engine that hold a fence and are still to be shift-repaired. -/
def Engine.toRepair (g : Engine) : List Nat :=
  (List.range 64).filter fun row => (g.fenced.any fun f => f.1 == row) && !g.repaired.contains row && !g.exhausted.contains row

/-- FENCED_MAP (R272). -/
def fencedMap (s : State) (e : Nat) : Nat := maskOf 64 fun r => (s.engine e).fenced.any fun f => f.1 == r

/-- SPARE_USE (R272). -/
def spareUse (s : State) (e : Nat) : Nat :=
  let g := s.engine e
  min g.remapped 0xFFFF * 2 ^ 16 + g.exhausted.length % 128 * 2 ^ 8 + g.repaired.length % 128

/-! ### Memory-channel window -/

/-- MC_STATUS (R310-R335). -/
def mcStatus (c : Channel) : Nat :=
  let cap8 := match c.module with
    | some m => [0, 16, 24, 32].getD m.density 0 * 2 * m.ranks * (m.stack + 1) / 8
    | none => 0
  c.cause * 2 ^ 24 + c.rate * 2 ^ 20 + cap8 % 256 * 2 ^ 8 + c.mirror * 2 ^ 6 + c.state

/-- MC_MODULE. -/
def mcModule (c : Channel) : Nat :=
  match c.module with
  | some m => m.mfr.toNat * 2 ^ 16 + m.stack % 4 * 2 ^ 6 + m.ranks % 4 * 2 ^ 4 + m.density % 16
  | none => 0

/-! ### Peer-port window -/

/-- NL_STATUS (R281). -/
def nlStatus (p : Port) : Nat :=
  (p.peerNode.getD 0) * 2 ^ 16 + p.peerPort % 4 * 2 ^ 14 + bit p.slow * 2 ^ 13 + bit p.prsnt * 2 ^ 12 + p.lanes * 2 ^ 8
    + p.state

/-- NL_CTRL (R281). -/
def nlCtrl (p : Port) : Nat := bit p.lanes4 * 2 + bit p.enable

/-! ### Power-domain window -/

/-- The die of a power domain, 8 for the hub (R458). -/
def domainDie (d : Nat) : Nat := if d < 96 then d / 12 else 8

/-- KIND of PD_STATUS (R475). -/
def domainKind (d : Nat) : Nat := if d < 96 then (if d % 12 < 8 then 0 else d % 12 - 7) else 5

/-- Whether a bank lies in a profile's plan (R464). -/
def bankInPlan (profile k : Nat) : Bool :=
  match profile with
  | 2 => k % 2 == 0
  | 3 => k % 4 == 0
  | _ => true

/-- IN_PLAN: a bank of the running profile's plan, 1 for every other kind. -/
def inPlan (s : State) (d : Nat) : Bool := if domainKind d = 0 then bankInPlan (s.engine 0).cur (d % 12) else true

/-- PD_STATUS (R475). -/
def pdStatus (s : State) (d : Nat) : Nat :=
  domainKind d * 2 ^ 28 + domainDie d * 2 ^ 24 + bit (inPlan s d) * 2 ^ 4 + (s.pow.domains.getD d (.reset d)).state

/-- PD_TEMP (R475). -/
def pdTemp (s : State) (d : Nat) : Nat :=
  let g := s.pow.guards.getD (domainDie d) .reset
  g.level * 2 ^ 24 + unsigned 16 g.temp

/-! ### Hardware-slot and copy-engine windows -/

/-- SLOT_STATUS (R396). -/
def slotStatus (t : Slot) : Nat :=
  bit t.bound.isSome * 2 ^ 31 + t.cfg.force % 4 * 2 ^ 24 + t.bound.getD 0

/-- CE_STATUS (R401). -/
def ceStatus (c : CopyEngine) : Nat := c.state * 2 ^ 28 + c.owner * 2 ^ 16

/-! ### BAR0 -/

/-- Whether WSEL names an instance (R349). -/
def wselValid (cls index : Nat) : Bool :=
  match cls with
  | 1 => decide (index < 8)
  | 2 => decide (index < 8)
  | 3 => decide (index < 4)
  | 4 => decide (index < 32)
  | 5 => decide (index < 116)
  | 6 => decide (index < 4)
  | _ => false

/-- WSEL. -/
def wselWord (h : HostPort) : Nat :=
  bit (!wselValid h.wselClass h.wselIndex) * 2 ^ 31 + h.wselClass * 2 ^ 12 + h.wselIndex

/-- Whether any staged value differs from its value in force (STAGED, R352). -/
def anyStaged (s : State) : Bool :=
  (s.grid.engines.any fun e => e.sel.staged != e.sel.force) || s.host.evtBase.staged != s.host.evtBase.force
    || (s.q.slots.any fun t => t.cfg.staged != t.cfg.force) || (s.pow.domains.any fun d => d.cfg.staged != d.cfg.force)
    || s.q.engines.any fun c => c.cfg.staged != c.cfg.force

/-- CFG_STATUS (R352). -/
def cfgStatus (s : State) : Nat :=
  bit s.host.commit.isSome * 2 ^ 31 + bit (anyStaged s) * 2 ^ 30 + bit s.host.refused * 2 ^ 29 + s.host.fault * 2 ^ 16
    + s.host.faultClass * 2 ^ 12 + s.host.faultIndex

/-- MBX_STAT (R359, R41). -/
def mbxStat (s : State) : Nat :=
  bit s.boot.ready * 2 ^ 31 + bit s.host.busy * 2 ^ 30 + bit s.host.overrun * 2 ^ 29 + s.host.statTag.toNat * 2 ^ 16
    + s.host.statResult.toNat

/-- DEV_REV (R348). -/
def devRev (s : State) : Nat := bit s.nv.fuses.gradeX * 2 ^ 16 + 0x100

/-- LAUNCH_AT (R287): the earliest LAUNCH of this device's armed runs, all ones when none. -/
def launchAt (s : State) : Nat :=
  (s.nl.arms.filter fun a => some a.origin == s.nl.node && s.grid.runs.any fun r => r.armed && r.tag == a.tag).foldl
    (fun m a => min m a.launch.toNat) (2 ^ 64 - 1)

/-! ### Doorbell page -/

/-- The word of a queue state (R375). -/
def queueStateCode : QueueState → Nat
  | .active => 1
  | .guilty => 2
  | .destroying => 3

/-- Offset 0x028 of the doorbell page. -/
def doorbellState (q : Queue) : Nat := q.cause * 2 ^ 8 + queueStateCode q.state

end Sys2Proof.Machine
end

