-- ==== Sys2Proof/Machine/Commit.lean ====
section
/-! DEFINITION. Staged configuration: the agreement checks of a commit (R353, R397, R402, R474), its refusal (R355) and its
acceptance (R354, R364, R465). -/

namespace Sys2Proof.Machine

/-- Whether a power domain may be OFF while the device is out of reset (R458). -/
def domainMayBeOff (d : Nat) : Bool :=
  if d < 96 then d % 12 != 8 && d % 12 != 11
  else (decide (98 ≤ d) && decide (d ≤ 105)) || (decide (107 ≤ d) && decide (d ≤ 110)) || d == 113

/-- The faults of one check: (FAULT, CLASS, INDEX) for the lowest index of 0..n-1 where p holds. -/
def faultAt (code cls n : Nat) (p : Nat → Bool) : List (Nat × Nat × Nat) :=
  match (List.range n).find? p with
  | some i => [(code, cls, i)]
  | none => []

/-- Staged SEL of engine e. -/
def stagedSel (s : State) (e : Nat) : Nat := (s.engine e).sel.staged

/-- Slot i. -/
def State.slot (s : State) (i : Nat) : Slot := s.q.slots.getD i (.reset i)

/-- Copy engine c. -/
def State.copyEngine (s : State) (c : Nat) : CopyEngine := s.q.engines.getD c .reset

/-- Every agreement check but COMMIT_BUSY, lowest FAULT first (R353, R397, R402, R474). -/
def commitFaults (s : State) : List (Nat × Nat × Nat) :=
  let changed := (List.range 8).any fun e => stagedSel s e != (s.engine e).sel.force
  let base := s.host.evtBase.staged
  let size := base % 16
  let mc := (List.range 8).filter fun c => s.dram.members.contains c
  let srOf := fun c => natBit (s.domain (98 + c)).cfg.staged 2
  faultAt 0x01 1 8 (fun e => stagedSel s e != stagedSel s 0)
    ++ (if changed then faultAt 0x02 1 8 fun e => decide (1 < (s.engine e).state) || s.grid.loads.any fun l => l.engines.contains e
        else [])
    ++ faultAt 0x03 1 8 (fun e => stagedSel s e % 2 == 0 && !s.pow.fastOk)
    ++ (if 10 < size ∨ base / 4096 * 4096 % (4096 * 2 ^ size) ≠ 0 then [(0x04, 0, 0)] else [])
    ++ (if (List.range 4).all fun l => (List.range 32).any fun i => (s.slot i).cfg.staged == 4 + l then []
        else faultAt 0x40 4 32 fun i => (s.slot i).cfg.staged != (s.slot i).cfg.force)
    ++ (if (List.range 4).any fun c => natBit (s.copyEngine c).cfg.staged 0 then [] else [(0x50, 6, 0)])
    ++ faultAt 0x51 6 4 (fun c =>
        let ce := s.copyEngine c
        natBit ce.cfg.force 1 && !natBit ce.cfg.staged 1 && (ce.state == 2 || ce.state == 3))
    ++ faultAt 0x60 5 116 (fun d => (s.domain d).cfg.staged % 4 == 2 && !domainMayBeOff d)
    ++ faultAt 0x61 5 116 (fun d => (s.domain d).cfg.staged % 4 == 3)
    ++ (match mc with
        | [] => []
        | c0 :: _ => faultAt 0x62 5 116 fun d => decide (98 ≤ d) && mc.contains (d - 98) && srOf (d - 98) != srOf c0)

/-- A staged field back at its value in force. -/
def Staged.revert (f : Staged) : Staged := { f with staged := f.force }

/-- A staged field in force. -/
def Staged.take (f : Staged) : Staged := { f with force := f.staged }

/-- Every staged value reverts to its value in force (R343, R352, R355). -/
def State.revertStaged (s : State) : State :=
  { s with
    grid := { s.grid with engines := s.grid.engines.map fun e => { e with sel := e.sel.revert } }
    host := { s.host with evtBase := s.host.evtBase.revert }
    q :=
      { s.q with
        slots := s.q.slots.map fun t => { t with cfg := t.cfg.revert }
        engines := s.q.engines.map fun c => { c with cfg := c.cfg.revert } }
    pow := { s.pow with domains := s.pow.domains.map fun d => { d with cfg := d.cfg.revert } } }

/-- Write REFUSED, FAULT, CLASS and INDEX. -/
def State.setFault (s : State) (f : Nat × Nat × Nat) : State :=
  { s with host := { s.host with refused := true, fault := f.1, faultClass := f.2.1, faultIndex := f.2.2 } }

/-- A GO: COMMIT_BUSY decided alone, then the first fault by code (R353, R355). `none` when it passes. -/
def commitRefusal (s : State) : Option (Nat × Nat × Nat) :=
  if s.host.commit.isSome then some (5, 0, 0) else (commitFaults s).head?

/-- The refused commit: only COMMIT_BUSY keeps the staged values (R355). -/
def State.refuseCommit (s : State) (f : Nat × Nat × Nat) : State :=
  if f.1 = 5 then s.setFault f else s.revertStaged.setFault f

/-- The ring register comes into force; a new BASE or SIZE empties the ring (R364). -/
def HostPort.takeRing (h : HostPort) : HostPort :=
  let key := fun v => (v / 4096, v % 16)
  let h' := { h with evtBase := h.evtBase.take }
  if key h.evtBase.staged = key h.evtBase.force then h' else { h' with evtHead := 0, evtTail := 0 }

/-- Bank domains of engine e (die e). -/
def engineBanks (e : Nat) : List Nat := (List.range 8).map fun k => 12 * e + k

/-- The engine takes its bank policies from the snapshot (R354, R474). -/
def State.takeBanks (s : State) (banks : List (Nat × Nat)) (e : Nat) : State :=
  (engineBanks e).foldl (fun s d =>
    match banks.find? fun b => b.1 == d with
    | some b => s.setDomain d fun x => { x with cfg := { x.cfg with force := b.2 } }
    | none => s) s

/-- An accepted commit (R354): hub targets take their values at this dispatch point, engines outside a tick at once, the
engines given as ticking at their boundary; a profile change goes on until PROFILE_CHANGE_COMPLETE. -/
def State.acceptCommit (s : State) (ticking : List Nat) : State :=
  let changed := (List.range 8).any fun e => stagedSel s e != (s.engine e).sel.force
  let profile := if changed then some (stagedSel s 0) else none
  let banks := (List.range 8).flatMap fun e => (engineBanks e).map fun d => (d, (s.domain d).cfg.staged)
  let bankChanged := fun e => (engineBanks e).any fun d => (s.domain d).cfg.staged != (s.domain d).cfg.force
  let waiting := ticking.filter bankChanged
  let s :=
    { s with
      host := { s.host.takeRing with refused := false, fault := 0, faultClass := 0, faultIndex := 0 }
      grid := { s.grid with engines := s.grid.engines.map fun e => { e with sel := e.sel.take } }
      q :=
        { s.q with
          slots := s.q.slots.map fun t => { t with cfg := t.cfg.take }
          engines := s.q.engines.map fun c => { c with cfg := c.cfg.take } } }
  let s := ((List.range 116).filter fun d => domainKind d != 0).foldl
    (fun s d => s.setDomain d fun x => { x with cfg := x.cfg.take }) s
  let s := ((List.range 8).filter fun e => !waiting.contains e).foldl (fun s e => s.takeBanks banks e) s
  if waiting.isEmpty && profile.isNone then s
  else { s with host := { s.host with commit := some { engines := waiting, banks := banks, profile := profile } } }

/-- PENDING clears once nothing of the commit is outstanding (R354). -/
def State.settleCommit (s : State) : State :=
  match s.host.commit with
  | some c =>
    if c.engines.isEmpty && c.profile.isNone then { s with host := { s.host with commit := none } } else s
  | none => s

/-- The engines of a run take an accepted commit at a boundary (row 7 of R158, R354). -/
def State.commitAtBoundary (s : State) (engines : List Nat) : State :=
  match s.host.commit with
  | some c =>
    let s := (c.engines.filter engines.contains).foldl (fun s e => s.takeBanks c.banks e) s
    { s with
      host := { s.host with commit := some { c with engines := c.engines.filter fun e => !engines.contains e } } }.settleCommit
  | none => s

/-- The VDD_CD set point of a profile: the highest that the eight dies' fused tables require (R19), 650 mV where AVSBus does not
answer (R20). -/
def setPoint (f : Fuses) (avs : Bool) (p : Nat) : Nat :=
  if avs then (f.vdd.map fun die => die.getD p 650).foldl max 0 else 650

/-- The set points on the way from voltage v to a target: steps of 5 mV, the last at the target (R19). -/
def avsSteps : Nat → Nat → Nat → List Nat
  | 0, _, mv => [mv]
  | k + 1, v, mv =>
    if v + 5 < mv then (v + 5) :: avsSteps k (v + 5) mv
    else if mv + 5 < v then (v - 5) :: avsSteps k (v - 5) mv
    else if v = mv then []
    else [mv]

/-- Move VDD_CD to a set point over AVSBus, each step sent in turn. -/
def State.moveVdd (s : State) (mv : Nat) : State :=
  let s := (avsSteps (mv + s.pow.vddMv) s.pow.vddMv mv).foldl (fun s v => s.send (.avs v)) s
  { s with pow := { s.pow with vddMv := mv } }

/-- The running profile becomes p: CUR on every engine, the VDD_CD set point of its tables in steps of 5 mV (R19, R20), and the
banks of the new plan (R354, R464, R465). -/
def State.takeProfile (s : State) (p : Nat) : State :=
  let s := { s with grid := { s.grid with engines := s.grid.engines.map fun (e : Engine) => { e with cur := p } } }
  let s := s.moveVdd (setPoint s.nv.fuses s.pow.fastOk p)
  ((List.range 96).filter fun d => domainKind d == 0).foldl (fun s d =>
    let s := s.setDomain d fun x =>
      if bankInPlan p (d % 12) then
        if x.state = 0 then { x with state := 2, wakes := (x.wakes + 1) % 2 ^ 32 } else x
      else { x with state := 0 }
    if bankInPlan p (d % 12) then s else s.clearBank d) s

end Sys2Proof.Machine
end

