-- ==== Sys2Proof/Machine/Registers.lean ====
section
/-! DEFINITION. Register accesses (R10, R11, R41, R345-R352, R359, R424): what a read of any register returns, what a
read clears or latches, and what a write does. -/

namespace Sys2Proof.Machine

/-- One register of a map: offset, bytes, value. -/
abbrev RegRow := Nat × Nat × Nat

/-- BAR0 below the window (R348). -/
def bar0Rows (s : State) : List RegRow :=
  [(0x0000, 4, 0x8140), (0x0004, 4, devRev s), (0x0008, 4, 0x08140B00), (0x0010, 8, s.nv.fuses.unitId.toNat),
    (0x0024, 4, cfgStatus s), (0x0030, 4, wselWord s.host), (0x1000, 4, s.host.mbxCmd.toNat), (0x1004, 4, mbxStat s)]
    ++ ((List.range 8).map fun i => (0x1008 + 8 * i, 8, (s.host.mbxArgs.getD i 0).toNat))
    ++ [(0x2000, 8, s.host.evtBase.staged), (0x2008, 4, s.host.evtHead), (0x200C, 4, s.host.evtTail),
      (0x2010, 4, s.host.irqMask), (0x3000, 8, s.cnt.stitch), (0x3008, 8, launchAt s), (0x3010, 8, s.cnt.tchoice),
      (0x3018, 8, s.cnt.stretch), (0x3020, 8, s.cnt.replay)]

/-- The window of an instance, offsets from 0x8000 (R351, R310-R335, R281, R396, R475, R401). -/
def windowRows (s : State) (cls i : Nat) : List RegRow :=
  match cls with
  | 1 =>
    [(0x00, 4, engState s i), (0x04, 4, holdCause s i), (0x08, 4, patternId s i), (0x0C, 4, profileWord s i),
      (0x10, 4, match s.patternOf i with | some p => p.tickLen | none => 0), (0x18, 8, tickIndex s i),
      (0x20, 8, (s.engine i).progress), (0x28, 8, fencedMap s i), (0x30, 4, spareUse s i)]
  | 2 =>
    let c := s.channel i
    [(0x00, 4, mcStatus c), (0x04, 4, mcModule c), (0x08, 4, c.period), (0x10, 8, c.scrubPos), (0x18, 4, c.passes),
      (0x20, 8, c.corr), (0x28, 4, c.uncorr), (0x2C, 4, c.sparesUsed), (0x30, 4, c.alerts), (0x34, 4, c.devMark)]
  | 3 =>
    let p := s.nl.ports.getD i .reset
    [(0x00, 4, nlStatus p), (0x04, 4, nlCtrl p), (0x08, 8, p.peerUnit.toNat), (0x10, 4, p.latency), (0x18, 8, p.fecCorr),
      (0x20, 4, p.fecUncorr), (0x24, 4, p.retries), (0x28, 4, p.downs)]
  | 4 =>
    let t := s.slot i
    [(0x00, 4, slotStatus t), (0x04, 4, t.cfg.staged), (0x08, 8, t.fetched)]
  | 5 =>
    let d := s.domain i
    [(0x00, 4, pdStatus s i), (0x04, 4, d.cfg.staged), (0x08, 4, (Config.domainPower i s.free s.cnt.stitch).toNat),
      (0x0C, 4, pdTemp s i), (0x10, 8, d.onTime / 100), (0x18, 4, d.wakes)]
  | 6 =>
    let c := s.copyEngine i
    [(0x00, 4, ceStatus c), (0x04, 4, c.cfg.staged), (0x08, 8, c.link), (0x10, 8, c.tag), (0x18, 8, c.bytes)]
  | _ => []

/-- The 32 bits at an offset of a map, 0 where it names none (R11, R348). -/
def halfAt (rows : List RegRow) (off : Nat) : Nat :=
  match rows.find? fun r => decide (r.1 ≤ off) && decide (off < r.1 + r.2.1) with
  | some r => natBits r.2.2 (8 * (off - r.1)) 32
  | none => 0

/-- The identity registers answer before READY (R41). -/
def identityOffset (off : Nat) : Bool := decide (off < 0x000C) || decide (0x0010 ≤ off ∧ off < 0x0018)

/-- The instance that the window shows, if WSEL names one. -/
def shown (s : State) : Option (Nat × Nat) :=
  if wselValid s.host.wselClass s.host.wselIndex then some (s.host.wselClass, s.host.wselIndex) else none

/-- The map, instance and offset that BAR0 offset off reaches. -/
def regTarget (s : State) (off : Nat) : Option (Nat × Nat × Nat) :=
  if off < 0x8000 then some (0, 0, off)
  else if off < 0x10000 then (shown s).map fun w => (w.1, w.2, off - 0x8000)
  else none

/-- The rows of a target. -/
def targetRows (s : State) (cls i : Nat) : List RegRow := if cls = 0 then bar0Rows s else windowRows s cls i

/-- The key of a latched high half. -/
def rcKey (cls i off : Nat) : Nat := cls * 2 ^ 28 + i * 2 ^ 16 + off

/-- 32-bit high halves that return what a read of the low half latched (R287, R351, R424). -/
def latchedHigh (s : State) (cls i off : Nat) : Option Nat :=
  match cls, off with
  | 0, 0x3004 => some s.cnt.stitchHi.toNat
  | 0, 0x3014 => some s.cnt.tchoiceHi.toNat
  | 0, 0x301C => some s.cnt.stretchHi.toNat
  | 0, 0x3024 => some s.cnt.replayHi.toNat
  | 1, 0x1C => some (s.cnt.tickHi.getD i 0).toNat
  | _, _ => (s.cnt.rcHi.find? fun r => r.1 == rcKey cls i off).map fun r => r.2.toNat

/-- What a read of w bytes at an offset of a map returns: the whole register for 8 bytes, latched high halves for 4. -/
def regRead (s : State) (cls i off w : Nat) : Nat :=
  let rows := targetRows s cls i
  if w = 8 then halfAt rows off + halfAt rows (off + 4) * 2 ^ 32
  else match latchedHigh s cls i off with | some v => v | none => halfAt rows off

/-- Writable bytes of configuration space: command, the BARs, and MSI-X message control (R41, R341, R365; log 18). -/
def cfgWritable (a : Nat) : Bool :=
  a == 4 || a == 5 || (decide (0x10 ≤ a) && decide (a < 0x28)) || a == msixControl || a == msixControl + 1

/-- Offsets from which register commands reach configuration space, and those from which they reach BAR2 (log 18). -/
def cfgSpaceBase : Nat := 0x10000
def doorbellBase : Nat := 0x400000

/-- Byte a of configuration space (R341): vendor, device and class identify the function, what software wrote reads back, and
bytes that the manual leaves to PCI Express are free values (log 18). -/
def cfgByte (s : State) (a : Nat) : Byte :=
  if a < 2 then BitVec.ofNat 8 (Config.pciVendorId.toNat / 256 ^ a)
  else if a < 4 then BitVec.ofNat 8 (0x8140 / 256 ^ (a - 2))
  else if 9 ≤ a ∧ a < 12 then BitVec.ofNat 8 (0x120000 / 256 ^ (a - 9))
  else if cfgWritable a then cellRead 0 s.host.cfg a
  else Config.cfgByte a

/-- The doorbell page of a queue (R375): 32-bit reads, and DONE_SEQ also as 64 bits. -/
def doorbellRead (q : Queue) (off w : Nat) : Nat :=
  let rows : List RegRow :=
    [(0x00, 4, q.tail.toNat), (0x08, 4, q.head), (0x10, 8, q.doneSeq), (0x20, 4, q.sproutAck.toNat), (0x28, 4, doorbellState q)]
  if w = 4 then halfAt rows off
  else if off = 0x10 then q.doneSeq % 2 ^ 64
  else 0

/-- What a host read of BAR0, configuration space or a doorbell page returns (R41, R341, R347, R375). -/
def hostRegRead (s : State) (off w : Nat) : Nat :=
  if off % w ≠ 0 ∨ (w ≠ 4 ∧ w ≠ 8) then 0
  else if doorbellBase ≤ off then
    match if s.boot.ready then s.q.queues.find? fun q => q.num == (off - doorbellBase) / 4096 else none with
    | some q => doorbellRead q (off % 4096) w
    | none => 0
  else if cfgSpaceBase ≤ off then bytesLE ((List.range w).map fun k => cfgByte s (off - cfgSpaceBase + k))
  else if s.boot.ready || identityOffset off then
    match regTarget s off with | some (cls, i, o) => regRead s cls i o w | none => 0
  else 0

/-- The RC registers: class, offset, bytes (R310, R281, R396, R401, R475). -/
def rcRegisters : List (Nat × Nat × Nat) :=
  [(2, 0x20, 8), (2, 0x28, 4), (2, 0x30, 4), (3, 0x18, 8), (3, 0x20, 4), (3, 0x24, 4), (3, 0x28, 4), (4, 0x08, 8),
    (5, 0x18, 4), (6, 0x18, 8)]

/-- The value of an RC register. -/
def rcValue (s : State) (cls i off : Nat) : Nat := halfAt (targetRows s cls i) off + halfAt (targetRows s cls i) (off + 4) * 2 ^ 32

/-- An RC register takes a value: 0 as it is read, its low half where only the high half is read. -/
def State.setRc (s : State) (cls i off v : Nat) : State :=
  let port := fun (f : Port → Port) => { s with nl := { s.nl with ports := modifyAt f i s.nl.ports } }
  match cls, off with
  | 2, 0x20 => s.setChannel i fun c => { c with corr := v }
  | 2, 0x28 => s.setChannel i fun c => { c with uncorr := v }
  | 2, 0x30 => s.setChannel i fun c => { c with alerts := v }
  | 3, 0x18 => port fun p => { p with fecCorr := v }
  | 3, 0x20 => port fun p => { p with fecUncorr := v }
  | 3, 0x24 => port fun p => { p with retries := v }
  | 3, 0x28 => port fun p => { p with downs := v }
  | 4, 0x08 => { s with q := { s.q with slots := modifyAt (fun t => { t with fetched := v }) i s.q.slots } }
  | 5, 0x18 => s.setDomain i fun d => { d with wakes := v }
  | 6, 0x18 => { s with q := { s.q with engines := modifyAt (fun c => { c with bytes := v }) i s.q.engines } }
  | _, _ => s

/-- The completion of a host read. -/
def State.answer (s : State) (w v : Nat) : State :=
  { s with host := { s.host with readData := toBytesLE w v, readPoison := false } }

/-- What a read of w bytes at offset o does to one RC register that it touches (R10): a read of the whole register clears it; one of the
low half clears it and latches the high half; one of the high half gives up the latch, or, with none, clears the bits it read
(log 20). -/
def State.readRc (s : State) (cls i o w : Nat) (r : Nat × Nat × Nat) : State :=
  let off := r.2.1
  let drop := fun (k : Nat) => s.cnt.rcHi.filter fun x => x.1 != k
  if r.2.2 = 8 ∧ w = 4 then
    let key := rcKey cls i (off + 4)
    if o = off then
      let high := BitVec.ofNat 32 (halfAt (targetRows s cls i) (off + 4))
      { s with cnt := { s.cnt with rcHi := (key, high) :: drop key } }.setRc cls i off 0
    else if s.cnt.rcHi.any fun x => x.1 == key then { s with cnt := { s.cnt with rcHi := drop key } }
    else s.setRc cls i off (rcValue s cls i off % 2 ^ 32)
  else s.setRc cls i off 0

/-- The RC registers that lie, whole or in part, within w bytes at an offset. -/
def rcWithin (cls o w : Nat) : List (Nat × Nat × Nat) :=
  rcRegisters.filter fun r => r.1 == cls && decide (r.2.1 < o + w) && decide (o < r.2.1 + r.2.2)

/-- REGISTER_READ_CLEAR (R10): the read returns the value, and every RC register within it is cleared. -/
def execRegisterReadClear (offset width : Nat) (s : State) : Host.Outcome State Fault Refusal :=
  .next (s.run fun s =>
    if s.hostUp then
      let s' := s.answer width (hostRegRead s offset width)
      match if s.boot.ready && offset % width == 0 && (width == 4 || width == 8) then regTarget s offset else none with
      | some (cls, i, o) => (rcWithin cls o width).foldl (fun s r => s.readRc cls i o width r) s'
      | none => s'
    else s)

/-- LATCHING_LOW_READ (R287, R351, R424): a 32-bit read of the low half returns it and latches the high half. -/
def execLatchingLowRead (offset : Nat) (s : State) : Host.Outcome State Fault Refusal :=
  .next (s.run fun s =>
    if s.hostUp then
      let s' := s.answer 4 (hostRegRead s offset 4)
      let hi := fun n => BitVec.ofNat 32 (n / 2 ^ 32)
      match if s.boot.ready then regTarget s offset else none with
      | some (0, _, 0x3000) => { s' with cnt := { s'.cnt with stitchHi := hi s.cnt.stitch } }
      | some (0, _, 0x3010) => { s' with cnt := { s'.cnt with tchoiceHi := hi s.cnt.tchoice } }
      | some (0, _, 0x3018) => { s' with cnt := { s'.cnt with stretchHi := hi s.cnt.stretch } }
      | some (0, _, 0x3020) => { s' with cnt := { s'.cnt with replayHi := hi s.cnt.replay } }
      | some (1, i, 0x18) =>
        { s' with cnt := { s'.cnt with tickHi := modifyAt (fun _ => BitVec.ofNat 16 (tickIndex s i / 2 ^ 32)) i s'.cnt.tickHi } }
      | _ => s'
    else s)

/-! ### Writes -/

/-- The admin opcodes of firmware interface version 3 (R361, R408, R455, R475, R494). -/
def adminOpcodes : List Nat :=
  [0x0001, 0x0002, 0x0003, 0x0004, 0x0005, 0x0101, 0x0102, 0x0103, 0x0104, 0x0105, 0x0106, 0x0107, 0x0108, 0x0109, 0x010A,
    0x0201, 0x0202, 0x0301, 0x0401, 0x0402, 0x0403, 0x0404, 0x0410, 0x0411, 0x0501, 0x0502]

/-- The commands that need a session (R368). -/
def needsSession (op : Nat) : Bool :=
  (decide (0x0100 ≤ op) && decide (op ≤ 0x01FF)) || [0x0003, 0x0004, 0x0401, 0x0403, 0x0404].contains op

/-- Complete the mailbox command: outputs, TAG, RESULT, BUSY clear, vector 1,025 (R359). -/
def State.finishMailbox (s : State) (result : Nat) (outs : List (Nat × Nat)) : State :=
  let h := s.host
  let args := outs.foldl (fun a o => modifyAt (fun _ => BitVec.ofNat 64 o.2) o.1 a) h.mbxArgs
  let s :=
    { s with
      host :=
        { h with
          mbxArgs := args
          statTag := BitVec.ofNat 8 (h.mbxCmd.toNat / 2 ^ 16)
          statResult := BitVec.ofNat 16 result
          busy := false
          wait := .none } }
  if natBit h.irqMask 8 then s else s.signal 1025

/-- A 32-bit half of a 64-bit value replaced. -/
def setHalf (old high : Nat) (v : Nat) : Nat :=
  if high = 1 then old % 2 ^ 32 + v * 2 ^ 32 else old / 2 ^ 32 * 2 ^ 32 + v

/-- MBX_DOORBELL.GO: BUSY before any effect; an opcode no version knows completes at once (R359, R360). -/
def State.mailboxGo (s : State) : State :=
  let op := s.host.mbxCmd.toNat % 2 ^ 16
  let s := { s with host := { s.host with busy := true } }
  if adminOpcodes.contains op then s else s.finishMailbox 1 []

/-- EVT_RING_TAIL: a TAIL beyond HEAD is taken as HEAD; the write arms vector 1,024 (R364, R365). -/
def State.writeEvtTail (s : State) (v : Nat) : State :=
  let h := s.host
  let beyond := (v + 2 ^ 32 - h.evtTail) % 2 ^ 32 > (h.evtHead + 2 ^ 32 - h.evtTail) % 2 ^ 32
  { s with host := { h with evtTail := if beyond then h.evtHead else v % 2 ^ 32, evtArmed := true } }

/-- Stage PD_CFG: SR_OK exists on the MC domains only (R475). -/
def stagePd (i v : Nat) (d : Domain) : Domain :=
  { d with cfg := { d.cfg with staged := if 98 ≤ i ∧ i ≤ 105 then v % 8 else v % 4 } }

/-- A 32-bit write at an offset of BAR0 or of an instance's window, for registers without a row of their own. -/
def State.writeHalf (s : State) (cls i off v : Nat) : State :=
  let h := s.host
  let mailbox := fun (f : HostPort → HostPort) =>
    if h.busy then { s with host := { h with overrun := true } } else { s with host := f h }
  match cls with
  | 0 =>
    if off = 0x0030 then { s with host := { h with wselClass := natBits v 12 4, wselIndex := v % 4096 } }
    else if off = 0x1000 then mailbox fun h => { h with mbxCmd := BitVec.ofNat 32 (v % 2 ^ 24) }
    else if off = 0x1004 then (if natBit v 29 then { s with host := { h with overrun := false } } else s)
    else if 0x1008 ≤ off ∧ off < 0x1048 then
      mailbox fun h =>
        { h with
          mbxArgs := modifyAt (fun a => BitVec.ofNat 64 (setHalf a.toNat (off / 4 % 2) v)) ((off - 0x1008) / 8) h.mbxArgs }
    else if off = 0x1048 then
      if h.busy then { s with host := { h with overrun := true } } else if natBit v 0 then s.mailboxGo else s
    else if off = 0x2000 ∨ off = 0x2004 then
      let w := setHalf h.evtBase.staged (off / 4 % 2) v
      { s with host := { h with evtBase := { h.evtBase with staged := w / 4096 * 4096 + w % 32 } } }
    else if off = 0x200C then s.writeEvtTail v
    else if off = 0x2010 then { s with host := { h with irqMask := maskOf 9 fun b => natBit v b && b != 0 && b != 7 } }
    else s
  | 1 =>
    if off = 0x0C then
      { s with
        grid := { s.grid with engines := modifyAt (fun e => { e with sel := { e.sel with staged := v % 4 } }) i s.grid.engines } }
    else s
  | 2 => if off = 0x08 then s.setChannel i fun c => { c with period := min (v % 256) 168 } else s
  | 4 =>
    if off = 0x04 then
      { s with q := { s.q with slots := modifyAt (fun t => { t with cfg := { t.cfg with staged := v % 8 } }) i s.q.slots } }
    else s
  | 5 => if off = 0x04 then s.setDomain i (stagePd i v) else s
  | 6 =>
    if off = 0x04 then
      { s with
        q := { s.q with engines := modifyAt (fun c => { c with cfg := { c.cfg with staged := v % 4 } }) i s.q.engines } }
    else s
  | _ => s

/-- Write configuration space. -/
def State.writeCfg (s : State) (a w v : Nat) : State :=
  let cells := ((List.range w).filter fun k => cfgWritable (a + k)).foldl
    (fun c k => cellWrite 0 c (a + k) (BitVec.ofNat 8 (v / 256 ^ k))) s.host.cfg
  { s with host := { s.host with cfg := cells } }

/-- REGISTER_WRITE (R352): a naturally aligned access of 4 or 8 bytes takes effect at once, low half first, or stages its
value; before READY every write but one to configuration space is ignored (R41, R347). The registers that have rows of
their own (CFG_COMMIT, NL_CTRL, the doorbell pages) take no effect here. -/
def execRegisterWrite (offset width : Nat) (value : DWord) (s : State) : Host.Outcome State Fault Refusal :=
  .next (s.run fun s =>
    let v := value.toNat
    if !s.hostUp || offset % width != 0 || (width != 4 && width != 8) then s
    else if doorbellBase ≤ offset then s
    else if cfgSpaceBase ≤ offset then s.writeCfg (offset - cfgSpaceBase) width v
    else if !s.boot.ready then s
    else
      match regTarget s offset with
      | some (cls, i, o) =>
        let s := s.writeHalf cls i o (v % 2 ^ 32)
        if width = 8 then s.writeHalf cls i (o + 4) (v / 2 ^ 32) else s
      | none => s)

/-- EVT_RING_TAIL_WRITE (R364, R365). -/
def execEvtRingTailWrite (value : Word) (s : State) : Host.Outcome State Fault Refusal :=
  .next (s.run fun s => if s.hostUp && s.boot.ready then s.writeEvtTail value.toNat else s)

/-- CFG_COMMIT_DISCARD (R352): staged values revert and REFUSED clears; FAULT, CLASS and INDEX stay (log 21). -/
def execCfgCommitDiscard (s : State) : Host.Outcome State Fault Refusal :=
  .next (s.run fun s =>
    if s.hostUp && s.boot.ready then
      { s.revertStaged with host := { s.revertStaged.host with refused := false } }
    else s)

/-- MSIX_UNMASK (R365): the vector's mask bit clears, and a pending message is sent. -/
def execMsixUnmask (vector : Nat) (s : State) : Host.Outcome State Fault Refusal :=
  .next (s.run fun s =>
    if s.hostUp && decide (vector < 1056) then
      let a := 16 * vector + 12
      let b := s.host.tableByte a &&& 0xFE
      let s := { s with host := { s.host with msixTable := cellWrite 0 s.host.msixTable a (b ^^^ msixReset a) } }
      if s.host.msixPending.contains vector && !s.host.masked vector then
        { s with host := { s.host with msixPending := s.host.msixPending.filter (· != vector) } }.send (.msix vector)
      else s
    else s)

/-- Deliver held records in order while the ring takes them. -/
def State.deliverHeld : Nat → State → State
  | 0, s => s
  | k + 1, s =>
    match s.host.held with
    | e :: rest =>
      if s.host.ringReady then
        State.deliverHeld k (({ s with host := { s.host with held := rest } }).ringWrite e)
      else s
    | [] => s

/-- HELD_RECORD_DELIVERY (R366). -/
def execHeldRecordDelivery (s : State) : Host.Outcome State Fault Refusal :=
  .next (s.whenLive fun s => s.deliverHeld s.host.held.length)

/-- ATS_INVALIDATION (R341): cached translations of the pages go. -/
def execAtsInvalidation (pages : List Nat) (s : State) : Host.Outcome State Fault Refusal :=
  .next (s.run fun s =>
    if s.hostUp then
      { s with host := { s.host with atsCache := s.host.atsCache.filter fun p => !pages.contains p } }
    else s)

/-- Data object types that DOE Discovery reports, index by index: discovery itself (0x00) and CMA-SPDM (0x01) of the PCI
Special Interest Group, vendor 0x0001 (R341, R496; the encoding is PCI Express's, log 18). -/
def doeObjects : List (Nat × Nat) := [(0x0001, 0x00), (0x0001, 0x01)]

/-- DOE_DISCOVERY (R341): vendor ID [15:0], type [23:16], next index [31:24], 0 after the last. -/
def execDoeDiscovery (index : Nat) (s : State) : Host.Outcome State Fault Refusal :=
  .next (s.run fun s =>
    if s.hostUp then
      let o := doeObjects.getD index (0xFFFF, 0)
      let next := if index + 1 < doeObjects.length then index + 1 else 0
      let w := o.1 + o.2 * 2 ^ 16 + next * 2 ^ 24
      { s with sb := { s.sb with reply := some { tag := 0, result := 0, words := [BitVec.ofNat 64 w], bytes := [] } } }
    else s)

/-! ### BAR4 -/

/-- The bytes of the pending-bit array (R344, R365). -/
def pbaByte (h : HostPort) (k : Nat) : Byte := BitVec.ofNat 8 (maskOf 8 fun b => h.msixPending.contains (8 * k + b))

/-- Where the aperture begins in BAR4 (R344). -/
def apertureAt : Nat := 0x10000

/-- APERTURE_READ (R345, R41, R316, R446): table, pending bits, or device memory; poison completes with the EP bit and all
ones; outside software DRAM reads are zero. -/
def execApertureRead (offset length : Nat) (s : State) : Host.Outcome State Fault Refusal :=
  .next (s.run fun s =>
    if s.hostUp then
      let reply := fun (poison : Bool) (bs : List Byte) => { s with host := { s.host with readData := bs, readPoison := poison } }
      if offset < apertureAt then
        reply false ((List.range length).map fun k =>
          let a := offset + k
          if a < 0x4200 then s.host.tableByte a
          else if 0x8000 ≤ a ∧ a < 0x8088 then pbaByte s.host (a - 0x8000)
          else 0)
      else if !s.boot.ready then reply false (zeroBytes length)
      else
        let d := s.host.aperture + offset - apertureAt
        let n := min length (s.mem.softTop - d)
        if n = 0 then reply false (zeroBytes length)
        else if s.mem.poisonIn d n then (reply true (List.replicate length 0xFF)).wakeChannels
        else (reply false (s.mem.bytes d n ++ zeroBytes (length - n))).wakeChannels
    else s)

/-- APERTURE_WRITE (R345, R41, R316): the MSI-X table, device memory, or discarded. -/
def execApertureWrite (offset : Nat) (data : List Byte) (s : State) : Host.Outcome State Fault Refusal :=
  .next (s.run fun s =>
    if s.hostUp then
      if offset < apertureAt then
        let cells := ((List.range data.length).filter fun k => decide (offset + k < 0x4200)).foldl
          (fun c k => cellWrite 0 c (offset + k) (data.getD k 0 ^^^ msixReset (offset + k))) s.host.msixTable
        { s with host := { s.host with msixTable := cells } }
      else if !s.boot.ready then s
      else
        let d := s.host.aperture + offset - apertureAt
        if d < s.mem.softTop then s.wakeChannels.write d (data.take (s.mem.softTop - d)) else s
    else s)

end Sys2Proof.Machine
end

