-- ==== Sys2Proof/Machine/Firmware.lean ====
section
/-! DEFINITION. Boot flash, firmware images, the boot ROM's choice, in-service update and the control cores (R448-R451,
R457, R477-R495). -/

namespace Sys2Proof.Machine

/-! ### Boot control block -/

/-- A boot control block (R482). -/
structure Bcb where
  generation : Nat
  active  : Nat
  stateA  : Nat
  stateB  : Nat
  svnA    : Nat
  svnB    : Nat
  digestA : List Byte
  digestB : List Byte
  deriving DecidableEq, Repr

/-- The block at copy k, when its MAGIC and CRC are correct (R482, R483). -/
def Nv.bcbCopy (n : Nv) (k : Nat) : Option Bcb :=
  let b := n.bytes (0x1000 * k) 128
  let f := fun (a w : Nat) => bytesLE ((b.drop a).take w)
  if f 0 4 = 0x42435845 ∧ f 0x7C 4 = crc32 (b.take 0x7C) then
    some
      { generation := f 4 4, active := f 8 1, stateA := f 9 1, stateB := f 0xA 1, svnA := f 0xB 1, svnB := f 0xC 1,
        digestA := (b.drop 0x10).take 48, digestB := (b.drop 0x40).take 48 }
  else none

/-- The copy that holds the newest valid block, and the block (R483). -/
def Nv.bcb (n : Nv) : Option (Nat × Bcb) :=
  match n.bcbCopy 0, n.bcbCopy 1 with
  | some a, some b => if b.generation > a.generation then some (1, b) else some (0, a)
  | some a, none => some (0, a)
  | none, some b => some (1, b)
  | none, none => none

/-- The 128 bytes of a block (R482). -/
def Bcb.encode (b : Bcb) : List Byte :=
  let body := toBytesLE 4 0x42435845 ++ toBytesLE 4 b.generation ++ toBytesLE 1 b.active ++ toBytesLE 1 b.stateA
    ++ toBytesLE 1 b.stateB ++ toBytesLE 1 b.svnA ++ toBytesLE 1 b.svnB ++ zeroBytes 3 ++ (b.digestA ++ zeroBytes 48).take 48
    ++ (b.digestB ++ zeroBytes 48).take 48 ++ zeroBytes 12
  body ++ toBytesLE 4 (crc32 body)

/-- Write the block, changed by f, into the copy that does not hold the newest valid one; a device whose copies are both
invalid starts from an empty block (R483). -/
def Nv.writeBcb (n : Nv) (f : Bcb → Bcb) : Nv :=
  let (copy, old) := match n.bcb with
    | some (k, b) => (1 - k, b)
    | none =>
      (0, { generation := 0, active := 0, stateA := 0, stateB := 0, svnA := 0, svnB := 0, digestA := zeroBytes 48,
            digestB := zeroBytes 48 })
  let b := f old
  n.write (0x1000 * copy) (({ b with generation := (old.generation + 1) % 2 ^ 32 } : Bcb).encode ++ List.replicate (0x1000 - 128) 0xFF)

/-- STATE of a slot. -/
def Bcb.slotState (b : Bcb) (slot : Nat) : Nat := if slot = 0 then b.stateA else b.stateB

/-- The block with a slot's STATE set. -/
def Bcb.setState (b : Bcb) (slot v : Nat) : Bcb := if slot = 0 then { b with stateA := v } else { b with stateB := v }

/-- The block with a slot's SVN and digest set. -/
def Bcb.setImage (b : Bcb) (slot : Nat) (i : Image) : Bcb :=
  if slot = 0 then { b with svnA := i.svn, digestA := i.digest } else { b with svnB := i.svn, digestB := i.digest }

/-- Where a slot begins in flash (R481). -/
def slotBase (slot : Nat) : Nat := if slot = 0 then 0x00100000 else 0x01000000

/-- Set a slot's STATE in the boot control block. -/
def State.setSlot (s : State) (slot v : Nat) : State := { s with nv := s.nv.writeBcb fun b => b.setState slot v }

/-! ### Image verification -/

/-- A little-endian field of an image. -/
def imgField (rd : Nat → Nat → List Byte) (a n : Nat) : Nat := bytesLE (rd a n)

/-- Whether n bytes at a are all zero. -/
def imgZero (rd : Nat → Nat → List Byte) (a n : Nat) : Bool := (rd a n).all (· == 0)

/-- A component entry's layout (R486). -/
def componentLayout (rd : Nat → Nat → List Byte) (len k count : Nat) : Bool :=
  let e := 0x100 + 64 * k
  if k < count then
    let t := imgField rd e 2
    let n := imgField rd (e + 4) 4
    let o := imgField rd (e + 8) 8
    decide (1 ≤ t) && decide (t ≤ 4) && imgZero rd (e + 2) 2 && o % 4096 == 0 && decide (0x1000 ≤ o) && decide (o + n ≤ len)
  else imgZero rd e 64

/-- Check 1 of R487. -/
def headerCheck (rd : Nat → Nat → List Byte) : Bool :=
  let len := imgField rd 0x1C 4
  let flags := imgField rd 0xC 1
  let comps := imgField rd 0x1B 1
  imgField rd 0 4 == 0x4D495845 && imgField rd 4 2 == 1 && imgField rd 6 1 == 1 && decide (flags < 2)
    && (flags == 0 || imgField rd 7 1 == 1) && imgZero rd 0xD 3 && decide (1 ≤ comps) && decide (comps ≤ 8)
    && len % 4096 == 0 && decide (0x1000 ≤ len) && decide (len ≤ 15 * 2 ^ 20) && imgZero rd 0x28 24 && imgZero rd 0xA1 95
    && imgZero rd 0x360 3232 && (List.range 8).all fun k => componentLayout rd len k comps

/-- SHA-384 of the signed header (R485). -/
def headerDigest (rd : Nat → Nat → List Byte) : List Byte := sha384 (rd 0 0x300)

/-- Check 4 of R487: the digest of every component. -/
def componentsCheck (rd : Nat → Nat → List Byte) : Bool :=
  (List.range (imgField rd 0x1B 1)).all fun k =>
    let e := 0x100 + 64 * k
    sha384 (rd (imgField rd (e + 8) 8) (imgField rd (e + 4) 4)) == rd (e + 16) 48

/-- The reason code of the first failing check of R487, 0 when all pass; `major` is the running FWI_MAJOR for check 8. -/
def verifyImage (f : Fuses) (major : Option Nat) (rd : Nat → Nat → List Byte) : Nat :=
  let slot := imgField rd 7 1
  if !headerCheck rd then 1
  else if !(decide (slot < 2) && sha384 (rd 0x40 97) == (if slot = 0 then f.keyHash0 else f.keyHash1)
      && !(slot == 0 && f.revoke0)) then 2
  else if !ecdsaVerifies (rd 0x40 97) (headerDigest rd) (rd 0x300 96) then 3
  else if !componentsCheck rd then 4
  else if imgField rd 8 4 ≠ 0x08140B00 then 5
  else if imgField rd 0x10 8 ≠ 0 ∧ imgField rd 0x10 8 ≠ f.unitId.toNat then 6
  else if imgField rd 0x18 1 < f.rollback then 7
  else match major with | some m => if imgField rd 0x19 1 = m then 0 else 8 | none => 0

/-- What a core loads of an image. -/
def readImage (slot : Nat) (rd : Nat → Nat → List Byte) : Image where
  slot := slot
  svn := imgField rd 0x18 1
  major := imgField rd 0x19 1
  minor := imgField rd 0x1A 1
  build := imgField rd 0x20 8
  digest := headerDigest rd
  seqDigest :=
    match (List.range (imgField rd 0x1B 1)).find? fun k => imgField rd (0x100 + 64 * k) 2 == 3 with
    | some k => rd (0x110 + 64 * k) 48
    | none => zeroBytes 48
  revokePrev := natBit (imgField rd 0xC 1) 0

/-- Reading a slot of boot flash. -/
def Nv.slotReader (n : Nv) (slot : Nat) : Nat → Nat → List Byte := fun a k => n.bytes (slotBase slot + a) k

/-! ### The boot ROM -/

/-- The candidates of R484, in order: slot and whether it is tried as TRIAL. -/
def bootCandidates (n : Nv) (bothCores : Bool) : List (Nat × Bool) :=
  match n.bcb with
  | none => [(0, false), (1, false)]
  | some (_, b) =>
    let trial := (([0, 1].filter fun k => b.slotState k == 3 && bothCores).map fun k => (k, true)).take 1
    let a := b.active % 2
    trial ++ ([a, 1 - a].filter fun k => b.slotState k == 4).map fun k => (k, false)

/-- The candidates that verify under checks 1-7. -/
def bootable (n : Nv) (cands : List (Nat × Bool)) : List (Nat × Bool) :=
  cands.filter fun c => verifyImage n.fuses none (n.slotReader c.1) == 0

/-- IMAGE_FALLBACK (R509). -/
def State.imageFallback (s : State) (slot cause reason : Nat) (digest : List Byte) : State :=
  let build := match s.fw.running with | some i => i.build | none => 0
  (s.event 4 3 (sourceOf 0 0) none
    (toBytesLE 1 slot ++ toBytesLE 1 cause ++ toBytesLE 1 reason ++ zeroBytes 5 ++ toBytesLE 8 build
      ++ (digest ++ zeroBytes 16).take 16)).alert 0x10

/-- The boot ROM holds the device in recovery (R43, R479). -/
def State.enterRecovery (s : State) : State := { s with boot := { s.boot with recovery := true } }.alert 8

/-- Mirrored mode as boot flash selects it (R332, R481). -/
def Nv.mirrorWord (n : Nv) : Bool := natBit (bytesLE (n.bytes 0x2004 4)) 0

/-- DRAM training begins on every channel, whose power domains come ON (R39, R313). -/
def State.beginTraining (s : State) : State :=
  { s with
    dram := { s.dram with channels := s.dram.channels.map fun c => { c with state := 1 } }
    pow :=
      { s.pow with
        domains := s.pow.domains.mapIdx fun i d => if 98 ≤ i ∧ i ≤ 105 then { d with state := 2 } else d } }

/-- Whether a port begins to train of itself: enabled, a peer present, the port not in use, the hub firmware running (R39), and the
100 MHz reference there (R31). -/
def State.mayTrain (s : State) (p : Port) : Bool :=
  p.enable && p.prsnt && decide (p.state ≤ 1) && s.boot.fwVerified && s.board.pcieRef

/-- Ports with a peer present begin to train as the hub firmware starts; their power domains wake (R39, R52). -/
def State.trainPresent (s : State) : State :=
  let go := fun i => s.mayTrain (s.nl.ports.getD i .reset)
  { s with
    nl := { s.nl with ports := s.nl.ports.mapIdx fun i p => if go i then { p with state := 2, width4 := p.lanes4 } else p }
    pow :=
      { s.pow with
        domains := s.pow.domains.mapIdx fun i d =>
          if 107 ≤ i ∧ i ≤ 110 ∧ go (i - 107) = true ∧ d.state ≠ 2 then { d with state := 1 } else d } }

/-- The booted image starts: the profile that AVSBus admits and its voltage (R19, R20, R351), the mirrored mode that flash
selects, sequencers loaded in every die, power domains of the hub and the dies on, DRAM training begun unless the package
is cold (R39, R458, R464, R478, R526). -/
def State.startHub (s : State) (avs : Bool) (running : Image) (standby : Option Image) : State :=
  let p := if avs then 0 else 1
  let s : State :=
    { s with
      fw := { s.fw with running := some running, standby := standby, sequencers := List.replicate 8 running.seqDigest }
      boot := { s.boot with fwVerified := true }
      dram := { s.dram with mirrored := s.nv.mirrorWord }
      grid := { s.grid with engines := s.grid.engines.map fun e => { e with sel := .reset p, cur := p } }
      pow :=
        { s.pow with
          fastOk := avs
          domains := s.pow.domains.mapIdx fun i d =>
            if 98 ≤ i ∧ i ≤ 105 ∨ 107 ≤ i ∧ i ≤ 110 then d
            else if domainKind i = 0 ∧ bankInPlan p (i % 12) = false then d
            else { d with state := 2 } } }
  let mv := setPoint s.nv.fuses avs p
  let s : State := { s with pow := { s.pow with vddMv := mv } }
  let s := if avs then s.send (.avs mv) else s
  let s := s.trainPresent
  if s.boot.coldHold then s else s.beginTraining

/-- HUB_FIRMWARE_VERIFIED (R478, R479, R484): the boot ROM selects an image by the boot control block, or holds the device
in recovery. -/
def execHubFirmwareVerified (avsAnswers core0Ok core1Ok : Bool) (s : State) : Host.Outcome State Fault Refusal :=
  .next (s.whenLive fun s =>
    if s.boot.fwVerified || s.boot.recovery || s.fw.noCore || !s.boot.latched then s
    else if !core0Ok && !core1Ok then
      { s with fw := { s.fw with noCore := true, failed := [0, 1] } }.alert 4
    else
      let active := if core0Ok then 0 else 1
      let both := core0Ok && core1Ok
      let s := { s with fw := { s.fw with active := active, failed := if both then [] else [1 - active] } }
      if natBit s.boot.straps.toNat 5 then s.enterRecovery
      else
        let cands := bootCandidates s.nv both
        match bootable s.nv cands with
        | [] => s.enterRecovery
        | (slot, trial) :: rest =>
          let image := readImage slot (s.nv.slotReader slot)
          let other := (rest.filter fun c => !c.2).head?.map fun c => readImage c.1 (s.nv.slotReader c.1)
          let standby := if !both then none else if trial then other else some image
          let s := s.startHub avsAnswers image standby
          let s :=
            if trial then
              { s with
                fw :=
                  { s.fw with
                    window := some { openedAt := 0, hostConfirm := s.nv.trialHostConfirm, confirmed := false, trial := true } } }
            else s
          let s := if both then s else s.logFault 11 (sourceOf 0 (0x100 + (1 - active))) none (1 - active)
          match cands.head? with
          | some c =>
            if c.1 = slot then s
            else
              let rd := s.nv.slotReader c.1
              s.imageFallback c.1 4 (verifyImage s.nv.fuses none rd) (headerDigest rd)
          | none => s)

/-! ### In-service update -/

/-- Abandon an update before the handover: slot REJECTED, IMAGE_FALLBACK with cause 5, the standby role reloaded where phase
3 had taken it (R488). -/
def State.abandonUpdate (s : State) (reason : Nat) : State :=
  match s.fw.update with
  | none => s
  | some u =>
    let reloading := if s.fw.phase = 3 ∧ s.fw.failed.isEmpty then s.fw.running else s.fw.reloading
    let s := s.setSlot u.slot 5
    { s with fw := { s.fw with phase := 0, reason := reason, update := none, reloading := reloading } }.imageFallback
      u.slot 5 reason u.image.digest

/-- FW_WRITE_COMPLETE (R488): the slot reads back as the image in device memory, whose digests must still hold; it becomes
PENDING and loads into the standby, or TRIAL for the next boot (R492). -/
def execFwWriteComplete (readBackGood : Bool) (s : State) : Host.Outcome State Fault Refusal :=
  .next (s.whenLive fun s =>
    match s.fw.update with
    | some u =>
      if s.fw.phase ≠ 2 then s
      else
        let s := s.wakeChannels
        let rd := fun a n => s.mem.bytes (u.addr + a) n
        if readBackGood && headerDigest rd == u.image.digest && componentsCheck rd then
          let image := s.mem.bytes u.addr (imgField rd 0x1C 4)
          let nv := (s.nv.write (slotBase u.slot) image).writeBcb fun b =>
            (b.setImage u.slot u.image).setState u.slot (if u.nextBoot then 3 else 2)
          if u.nextBoot then
            { s with nv := { nv with trialHostConfirm := u.hostConfirm }, fw := { s.fw with phase := 0, update := none } }
          else { s with nv := nv, fw := { s.fw with phase := 3, standby := none } }
        else s.abandonUpdate 0x0A
    | none => s)

/-- FW_LOAD_COMPLETE (R488): the standby core has loaded the slot and verified it again. -/
def execFwLoadComplete (verifies : Bool) (s : State) : Host.Outcome State Fault Refusal :=
  .next (s.whenLive fun s =>
    match s.fw.update with
    | some u =>
      if s.fw.phase ≠ 3 then s
      else
        let major := s.fw.running.map (·.major)
        let reason := verifyImage s.nv.fuses major (s.nv.slotReader u.slot)
        if verifies && reason == 0 then
          { s with fw := { s.fw with phase := 4, standby := some (readImage u.slot (s.nv.slotReader u.slot)) } }
        else s.abandonUpdate (if reason = 0 then 3 else reason)
    | none => s)

/-- The roles of the cores swap (R489). -/
def Fw.swap (f : Fw) : Fw := { f with running := f.standby, standby := f.running, active := 1 - f.active, scanned := false }

/-- The hand-back of R491: the standby's image runs again, the rejected slot is marked, and the core that ran it reloads. -/
def State.handBack (s : State) (cause : Nat) : State :=
  match s.fw.running with
  | none => s
  | some old =>
    let s := { s with fw := { s.fw.swap with phase := 0, window := none, handBack := none, update := none } }
    let s := { s with fw := { s.fw with standby := none, reloading := s.fw.running } }
    ((s.setSlot old.slot 5).imageFallback old.slot cause s.fw.reason old.digest)

/-- Whether an SPDM request waits for random output. -/
def RngWait.spdm : RngWait → Bool
  | .spdmChallenge _ _ => true
  | .spdmMeasurements _ _ => true
  | _ => false

/-- Whether a handover has to wait: a mailbox command, a DOE request or a commit is being carried out, or a whole-cloth run has not reached
its run boundary (R175, R489). -/
def State.handoverWaits (s : State) : Bool :=
  s.host.busy || s.rng.waiting.any RngWait.spdm || s.host.commit.isSome || s.grid.runs.any fun r => s.bySlots r && r.ticking

/-- FW_HANDOVER (R489, R491): at a quiet point the standby becomes active, for phase 4 or for a hand-back that is due. The
hang intervals of running tasks reset (R413). -/
def execFwHandover (s : State) : Host.Outcome State Fault Refusal :=
  .next (s.whenLive fun s =>
    if s.handoverWaits || s.fw.standby.isNone then s
    else
      let s' := { s with q := { s.q with hangReset := true } }
      match s.fw.handBack with
      | some cause => s'.handBack cause
      | none =>
        match s.fw.phase, s.fw.update with
        | 4, some u =>
          { s' with
            fw :=
              { s.fw.swap with
                phase := 5
                window := some { openedAt := s.cnt.stitch, hostConfirm := u.hostConfirm, confirmed := false, trial := false } } }
        | _, _ => s)

/-- The state after a confirmation (R490 steps 1, 4-6); the fuses are blown beside it. -/
def State.confirmImage (s : State) (i : Image) (count : Nat) : State :=
  let s := { s with nv := s.nv.writeBcb fun b => { (b.setImage i.slot i).setState i.slot 4 with active := i.slot } }
  let s := s.event 4 2 (sourceOf 0 0) none
    (toBytesLE 1 i.slot ++ toBytesLE 1 i.svn ++ toBytesLE 1 count ++ toBytesLE 1 i.minor ++ zeroBytes 4 ++ toBytesLE 8 i.build
      ++ i.digest.take 16)
  let stale := (List.range 8).filter fun e => s.fw.sequencers.getD e [] != i.seqDigest
  { s with
    fw :=
      { s.fw with
        phase := 0, window := none, update := none, handBack := none, reloadDue := stale
        reloading := if s.fw.failed.isEmpty then some i else none
        standby := none } }

/-- ROLLBACK after a confirmation: fuses are blown up to the image's SVN and never unwritten (R477, R490). -/
def blownRollback (count svn : Nat) : Nat := max count (min svn 64)

/-- Whether the window of an image is open: that of a trial boot opens at READY (R490, R492). -/
def State.windowOpen (s : State) (w : Window) : Bool := !w.trial || s.boot.ready

/-- IMAGE_CONFIRM (R490): the window's conditions hold: a fence scan has completed, and FW_CONFIRM has arrived where the
update asked for it. -/
def execImageConfirm (s : State) : Host.Outcome State Fault Refusal :=
  match s.fw.window, s.fw.running with
  | some w, some i =>
    if s.live && s.windowOpen w && s.fw.scanned && (!w.hostConfirm || w.confirmed) && s.fw.handBack.isNone then
      let count := blownRollback s.nv.fuses.rollback i.svn
      let r := s.run fun s => s.confirmImage i count
      .next
        { r with
          nv :=
            { r.nv with
              fuses := { s.nv.fuses with rollback := count, revoke0 := s.nv.fuses.revoke0 || i.revokePrev } } }
    else .next s
  | _, _ => .next s

/-- The state when the device enters reset: everything but the board's pins, fuses, flash, the TAP and what it has sent is
discarded (R26, R30, R34, R521); the ROM-level sideband stays with the rails (R511). -/
def State.enterReset (s : State) : State :=
  { State.reset with
    board := s.board
    nv := s.nv
    boot := { Boot.reset with romLevel := s.boot.romLevel }
    dbg := { s.dbg with level := 0, challenge := none, halted := false, stepped := 0, held := none }
    out := s.out
    free := s.free
    pending := s.pending }

/-- CONFIRM_WINDOW_TIMEOUT (R491, R492): 30 s without confirmation: a hand-back falls due, or, for a trial of another major
version or without a standby, the device resets itself and the slot is REJECTED (log 22). -/
def execConfirmWindowTimeout (s : State) : Host.Outcome State Fault Refusal :=
  match s.fw.window, s.fw.running with
  | some w, some i =>
    if !s.live || !s.windowOpen w || s.fw.handBack.isSome then .next s
    else if w.trial && (s.fw.standby.map (·.major)) != some i.major then
      .next { s with nv := s.nv.writeBcb fun b => b.setState i.slot 5 }.enterReset
    else .next (s.run fun s => { s with fw := { s.fw with handBack := some 1 } })
  | _, _ => .next s

/-- SEQUENCER_RELOAD (R493): an engine that holds no task takes the running image's sequencer component. -/
def execSequencerReload (engine : Nat) (s : State) : Host.Outcome State Fault Refusal :=
  .next (s.whenLive fun s =>
    match s.fw.running with
    | some i =>
      if s.fw.reloadDue.contains engine && (s.engine engine).task.isNone then
        { s with
          fw :=
            { s.fw with
              sequencers := modifyAt (fun _ => i.seqDigest) engine s.fw.sequencers
              reloadDue := s.fw.reloadDue.filter (· != engine) } }
      else s
    | none => s)

/-- Reload the stale engines of a mask at a dispatch or a retirement (R493). -/
def State.reloadEngines (s : State) (engines : List Nat) : State :=
  match s.fw.running with
  | some i =>
    { s with
      fw :=
        { s.fw with
          sequencers := (engines.filter s.fw.reloadDue.contains).foldl (fun q e => modifyAt (fun _ => i.seqDigest) e q) s.fw.sequencers
          reloadDue := s.fw.reloadDue.filter fun e => !engines.contains e } }
  | none => s

/-- STANDBY_RELOAD_COMPLETE (R490, R491): the device again has a standby. -/
def execStandbyReloadComplete (s : State) : Host.Outcome State Fault Refusal :=
  .next (s.whenLive fun s =>
    match s.fw.reloading with
    | some i => { s with fw := { s.fw with standby := some i, reloading := none } }
    | none => s)

/-! ### Control cores -/

/-- CONTROL_CORE_TAKEOVER (R448, R449, R457): the standby becomes active with its own image. A fault within the confirmation
window is a fallback with cause 2; one while the standby loads or reloads abandons the update, and the loading core reloads
the running image and takes over. -/
def execControlCoreTakeover (s : State) : Host.Outcome State Fault Refusal :=
  .next (s.whenLive fun s =>
    match s.fw.running with
    | none => s
    | some old =>
      let c := s.fw.active
      -- from phase 3 to the handover, and while it reloads, the other core is no standby
      let loading := s.fw.phase == 3 || s.fw.phase == 4 || s.fw.reloading.isSome
      if s.fw.standby.isNone && !loading then s
      else
        let image := if loading then old else s.fw.standby.getD old
        let inWindow := s.fw.window.isSome
        let s := if s.fw.phase = 2 ∨ s.fw.phase = 3 ∨ s.fw.phase = 4 then s.abandonUpdate 0 else s
        let s :=
          { s with
            fw := { s.fw with running := some image, standby := none, reloading := none, active := 1 - c, failed := [c] } }
        let s := (s.event 1 3 (sourceOf 0 (0x100 + c)) none (zeroBytes 16)).logFault 10 (sourceOf 0 (0x100 + c)) none c
        if inWindow then
          let s := { s with fw := { s.fw with window := none, phase := 0, update := none, handBack := none } }
          (s.setSlot old.slot 5).imageFallback old.slot 2 s.fw.reason old.digest
        else s)

/-- STANDBY_RESTORE (R450): the failed core's test ends; it becomes the standby, or the device runs without one. -/
def execStandbyRestore (passes : Bool) (s : State) : Host.Outcome State Fault Refusal :=
  .next (s.whenLive fun s =>
    match s.fw.failed, s.fw.noCore with
    | c :: _, false =>
      if s.fw.standby.isSome then s
      else if passes then { s with fw := { s.fw with standby := s.fw.running, failed := [] } }
      else s.logFault 11 (sourceOf 0 (0x100 + c)) none c
    | _, _ => s)

/-! ### Firmware commands -/

/-- Check and start an update from arguments (R488, R492, R494): RESULT, outputs, and the state. -/
def State.fwUpdate (s : State) (addr len flags : Nat) : Nat × List (Nat × Nat) × State :=
  let hostConfirm := natBit flags 0
  let nextBoot := natBit flags 1
  match s.fw.running with
  | none => (3, [], s)
  | some run =>
    if s.fw.phase ≠ 0 || s.fw.window.isSome || (s.fw.standby.isNone && !nextBoot) then (3, [], s)
    else if addr % 4096 ≠ 0 ∨ flags ≥ 4 then (2, [], s)
    else if !s.mem.inSoft addr len then (5, [], s)
    else
      let s := s.wakeChannels
      let rd := fun a n => s.mem.bytes (addr + a) n
      let reason0 := verifyImage s.nv.fuses (if nextBoot then none else some run.major) rd
      let reason := if reason0 = 0 ∧ imgField rd 0x1C 4 > len then 1 else reason0
      let reason := if len < 0x1000 then 1 else reason
      if reason ≠ 0 then (0x0400, [(1, reason)], { s with fw := { s.fw with reason := reason } })
      else
        let slot := 1 - run.slot % 2
        let image := readImage slot rd
        let s := s.setSlot slot 1
        (0, [(0, slot)],
          { s with
            fw :=
              { s.fw with
                phase := 2
                update := some
                  { addr := addr, length := len, hostConfirm := hostConfirm, nextBoot := nextBoot, slot := slot, image := image } } })

/-- The words of FW_STATUS (R494). -/
def fwStatusWords (s : State) : List (Nat × Nat) :=
  let f := s.fw
  let bcb := s.nv.bcb.map (·.2)
  let left := match f.window with
    | some w => 30000 - (s.cnt.stitch - w.openedAt) / 100000
    | none => 0
  [(0, (match f.running with | some i => i.slot % 2 | none => 0) + bit f.standby.isSome * 2 + f.phase * 2 ^ 4 + f.reason * 2 ^ 8
      + s.nv.fuses.rollback * 2 ^ 16 + bit s.nv.fuses.revoke0 * 2 ^ 24),
    (1, match f.running with | some i => i.build | none => 0),
    (2, match f.standby with | some i => i.build | none => 0),
    (3, match bcb with | some b => b.stateA + b.stateB * 2 ^ 8 | none => 0),
    (4, left)]

end Sys2Proof.Machine
end

