-- ==== Sys2Proof/Machine/Mailbox.lean ====
section
/-! DEFINITION. How a command comes through the admin mailbox or the sideband mailbox (R359, R360, R368, R514-R516), and the
commands of the management plane: memory, fault log, firmware, random numbers, power (R327, R332, R361, R408, R455, R475,
R494, R501). -/

namespace Sys2Proof.Machine

/-- What a command's own work gives: RESULT, output words by argument number, and the state. -/
abbrev CmdWork := Nat × List (Nat × Nat) × State

/-- Argument k of the admin mailbox. -/
def State.arg (s : State) (k : Nat) : Nat := (s.host.mbxArgs.getD k 0).toNat

/-- Whether the admin mailbox holds command op in progress, not yet begun (R359). -/
def State.adminHolds (s : State) (op : Nat) : Bool :=
  s.serving && s.host.busy && s.host.wait == .none && s.host.mbxCmd.toNat % 2 ^ 16 == op

/-- Carry out an admin command: NO_SESSION where it needs one, its own work otherwise, then its completion (R359, R368). -/
def State.admin (s : State) (op : Nat) (f : State → CmdWork) : State :=
  if s.adminHolds op then
    if needsSession op && !s.host.session then s.finishMailbox 4 []
    else
      let r := f s
      r.2.2.finishMailbox r.1 r.2.1
  else s

/-- Whether the sideband serves at firmware level (R511). -/
def State.sbFirmware (s : State) : Bool := s.live && s.boot.fwVerified && !s.fw.noCore

/-- Whether the sideband serves at ROM level at least; THERMTRIP_N stops it with every clock (R511, R523). -/
def State.sbRom (s : State) : Bool := s.boot.romLevel && !s.board.tripped

/-- The words of a response: outputs up to the highest given. -/
def replyWords (outs : List (Nat × Nat)) : List DWord :=
  (List.range (outs.foldl (fun m o => max m (o.1 + 1)) 0)).map fun k =>
    match outs.find? fun o => o.1 == k with | some o => BitVec.ofNat 64 o.2 | none => 0

/-- Answer a sideband request (R514). -/
def State.sbReply (s : State) (tag : Byte) (result : Nat) (outs : List (Nat × Nat)) : State :=
  { s with sb := { s.sb with reply := some { tag := tag, result := BitVec.ofNat 16 result, words := replyWords outs, bytes := [] } } }

/-- A sideband command of firmware level: STATE where the level does not serve it (R511, R516). -/
def State.sideband (s : State) (tag : Byte) (f : State → CmdWork) : State :=
  if !s.sbRom then s
  else if s.sbFirmware then
    let r := f s
    r.2.2.sbReply tag r.1 r.2.1
  else s.sbReply tag 3 []

/-- The sideband requests that the device holds: a challenge that waits for random output, and those behind it (R515). -/
def State.sbHolds (s : State) : Nat :=
  (s.rng.waiting.countP fun w => match w with | .debugChallenge (.sideband _) => true | _ => false) + s.sb.held.length

/-- A sideband request is carried out in its turn: behind one that waits it waits too, and a fifth is answered at once with STATE
(R515). -/
def State.inTurn (s : State) (tag : Byte) (i : Instr) (f : State → State) : State :=
  if !s.sbRom || s.sbHolds == 0 then f s
  else if 4 ≤ s.sbHolds then s.sbReply tag 3 []
  else { s with sb := { s.sb with held := s.sb.held ++ [i] } }

/-- A command of either mailbox; f takes the arguments. `mine` tells the rows of one opcode apart by their arguments. -/
def State.command (s : State) (via : Via) (i : Via → Instr) (op : Nat) (mine : (Nat → Nat) → Bool) (f : (Nat → Nat) → State → CmdWork) : State :=
  match via with
  | .admin => if mine s.arg then s.admin op (f s.arg) else s
  | .sideband tag args =>
    let arg := fun k => (args.getD k 0).toNat
    if mine arg then s.inTurn tag (i via) fun s => s.sideband tag (f arg) else s

/-! ### Memory -/

/-- MEM_FRESH (R327, R361). -/
def execMemFresh (s : State) : Host.Outcome State Fault Refusal :=
  .next (s.run fun s => s.admin 0x0201 fun s =>
    let a := s.arg 0
    let n := s.arg 1
    if a % 64 ≠ 0 ∨ n % 64 ≠ 0 then (2, [], s)
    else if !s.mem.inSoft a n then (5, [], s)
    else (0, [], if n = 0 then s else s.wakeChannels.store (.fresh (a / 64) (n / 64))))

/-- MEM_MIRROR_SET (R332, R481): the word of boot flash, with bit 0 the mode. -/
def execMemMirrorSet (s : State) : Host.Outcome State Fault Refusal :=
  .next (s.run fun s => s.admin 0x0202 fun s =>
    if s.arg 0 ≥ 2 then (2, [], s)
    else (0, [], { s with nv := s.nv.write 0x2004 (toBytesLE 4 (s.arg 0)) }))

/-- APERTURE_SET (R345, R361): a multiple of 64 KiB within the 48-bit space. -/
def execApertureSet (s : State) : Host.Outcome State Fault Refusal :=
  .next (s.run fun s => s.admin 0x0003 fun s =>
    if s.arg 0 % 65536 ≠ 0 ∨ 2 ^ 48 ≤ s.arg 0 then (2, [], s)
    else (0, [], { s with host := { s.host with aperture := s.arg 0 } }))

/-- HANG_SET (R408, R413): new watch and interval; the intervals begin afresh. -/
def execHangSet (s : State) : Host.Outcome State Fault Refusal :=
  .next (s.run fun s => s.admin 0x0107 fun s =>
    let ms := s.arg 0 / 2 ^ 16
    if ms < 10 ∨ 1000 < ms ∨ natBits (s.arg 0) 8 8 ≠ 0 then (2, [], s)
    else
      (0, [],
        { s with
          q :=
            { s.q with
              hangWatch := s.arg 0 % 256
              hangMs := ms
              hangReset := false
              tasks := s.q.tasks.map fun t => { t with wholeInterval := t.phase == .running } } }))

/-! ### Fault log -/

/-- The 64-bit words of some bytes. -/
def wordsOf (bs : List Byte) : List Nat := (chunks 8 bs).map bytesLE

/-- Outputs 4 and 5 of FAULT_LOG (R455). -/
def faultCounts (s : State) : List (Nat × Nat) := [(4, s.log.appended), (5, s.nv.recordCount)]

/-- Outputs 0-3 of FAULT_LOG: an entry. -/
def entryWords (bs : List Byte) : List (Nat × Nat) := (wordsOf bs).mapIdx fun i w => (i, w)

/-- FAULT_LOG_READ (R455): the entry with a NUMBER the log still holds. -/
def execFaultLogRead (via : Via) (s : State) : Host.Outcome State Fault Refusal :=
  .next (s.run fun s => s.command via .faultLogRead 0x0301 (fun arg => arg 0 / 2 ^ 32 % 4 == 0) fun arg s =>
    if arg 0 ≥ 2 ^ 32 then (2, [], s)
    else
      match s.log.entries.find? fun e => e.number == arg 0 with
      | some e => (0, entryWords e.encode ++ faultCounts s, s)
      | none => (2, [], s))

/-- FAULT_RECORD_READ (R455): an entry of the record in boot flash. -/
def execFaultRecordRead (via : Via) (s : State) : Host.Outcome State Fault Refusal :=
  .next (s.run fun s => s.command via .faultRecordRead 0x0301 (fun arg => arg 0 / 2 ^ 32 % 4 == 1) fun arg s =>
    let k := arg 0 % 2 ^ 32
    if arg 0 ≥ 2 ^ 33 ∨ min s.nv.recordCount 64 ≤ k then (2, [], s)
    else (0, entryWords (s.nv.bytes (recordBase + 32 * k) 32) ++ faultCounts s, s))

/-- FAULT_RECORD_CLEAR (R455). -/
def execFaultRecordClear (via : Via) (s : State) : Host.Outcome State Fault Refusal :=
  .next (s.run fun s => s.command via .faultRecordClear 0x0301 (fun arg => natBit (arg 0) 33) fun arg s =>
    if arg 0 ≥ 2 ^ 34 then (2, [], s)
    else
      let s := { s with nv := s.nv.write recordBase (List.replicate 0x1000 0xFF) }
      (0, faultCounts s, s))

/-! ### Firmware -/

/-- FW_UPDATE (R488, R494): the row without NEXT_BOOT. -/
def execFwUpdate (s : State) : Host.Outcome State Fault Refusal :=
  .next (s.run fun s =>
    if natBit (s.arg 2) 1 then s else s.admin 0x0401 fun s => s.fwUpdate (s.arg 0) (s.arg 1) (s.arg 2))

/-- FW_UPDATE with NEXT_BOOT (R492). -/
def execFwUpdateNextBoot (s : State) : Host.Outcome State Fault Refusal :=
  .next (s.run fun s =>
    if natBit (s.arg 2) 1 then s.admin 0x0401 fun s => s.fwUpdate (s.arg 0) (s.arg 1) (s.arg 2) else s)

/-- FW_STATUS (R494). -/
def execFwStatus (via : Via) (s : State) : Host.Outcome State Fault Refusal :=
  .next (s.run fun s => s.command via .fwStatus 0x0402 (fun _ => true) fun _ s => (0, fwStatusWords s, s))

/-- FW_CONFIRM (R490, R494): STATE unless a window with HOST_CONFIRM is open. -/
def execFwConfirm (s : State) : Host.Outcome State Fault Refusal :=
  .next (s.run fun s => s.admin 0x0403 fun s =>
    match s.fw.window with
    | some w =>
      if w.hostConfirm then (0, [], { s with fw := { s.fw with window := some { w with confirmed := true } } })
      else (3, [], s)
    | none => (3, [], s))

/-- FW_ABORT (R491, R494): in phase 2 or 3 the update is abandoned, in phase 5 a hand-back falls due. -/
def execFwAbort (s : State) : Host.Outcome State Fault Refusal :=
  .next (s.run fun s => s.admin 0x0404 fun s =>
    if s.fw.phase = 2 ∨ s.fw.phase = 3 then (0, [], s.abandonUpdate 0)
    else if s.fw.phase = 5 then (0, [], { s with fw := { s.fw with handBack := some 3 } })
    else (3, [], s))

/-! ### Random numbers -/

/-- The 64 bytes of an RNG_READ, with its reseeding where prediction resistance is asked (R501). -/
def State.rngOutput (s : State) (resist : Bool) : List (Nat × Nat) × State :=
  let s := if resist then s.reseed 1 else s
  let (bs, s) := s.drawBytes 1 64
  let s := s.countCall 1
  ((wordsOf bs).mapIdx fun i w => (i, w), { s with rng := { s.rng with bytes := s.rng.bytes + 64 } })

/-- RNG_READ (R42, R494, R501, R502): served when READY, waits while STARTING, ENTROPY_FAULT otherwise. -/
def execRngRead (s : State) : Host.Outcome State Fault Refusal :=
  .next (s.run fun s =>
    if s.adminHolds 0x0410 then
      if s.arg 0 ≥ 2 then s.finishMailbox 2 []
      else if s.rng.state = 1 then
        let (outs, s) := s.rngOutput (natBit (s.arg 0) 0)
        s.finishMailbox 0 outs
      else if s.rng.state = 0 then
        { s with
          host := { s.host with wait := .rng }
          rng := { s.rng with waiting := s.rng.waiting ++ [.mailbox] } }
      else s.finishMailbox 0x0300 []
    else s)

/-- RNG_STATUS (R494). -/
def execRngStatus (via : Via) (s : State) : Host.Outcome State Fault Refusal :=
  .next (s.run fun s => s.command via .rngStatus 0x0411 (fun _ => true) fun _ s =>
    let r := s.rng
    (0,
      [(0, r.state + r.retests * 2 ^ 4 + r.failMask.toNat * 2 ^ 8 + r.failTest * 2 ^ 16), (1, r.failures), (2, r.reseeds),
        (3, r.bytes), (4, r.lastFail)],
      s))

/-- DRBG_RESEED (R501). -/
def execDrbgReseed (inst : Nat) (s : State) : Host.Outcome State Fault Refusal :=
  .next (s.whenLive fun s => if s.rng.state = 1 ∧ inst < 3 then s.reseed inst else s)

/-! ### Power -/

/-- The package estimate in mW: the sum of every domain's (R475). -/
def packagePower (s : State) : Nat :=
  sumNat ((List.range 116).map fun d => (Config.domainPower d s.free s.cnt.stitch).toNat)

/-- The die with the hottest temperature, the lowest such (R475). -/
def hottestDie (s : State) : Nat :=
  let t := fun d => (s.pow.guards.getD d .reset).temp
  ((List.range 9).find? fun d => (List.range 9).all fun e => decide (t e ≤ t d)).getD 0

/-- POWER_READ (R475). -/
def execPowerRead (via : Via) (s : State) : Host.Outcome State Fault Refusal :=
  .next (s.run fun s => s.command via .powerRead 0x0501 (fun _ => true) fun _ s =>
    let g := fun d => s.pow.guards.getD d .reset
    let hot := hottestDie s
    (0,
      [(0, packagePower s % 2 ^ 32 + s.pow.vddMv * 2 ^ 32), (1, (Config.energyMj s.free s.cnt.stitch).toNat),
        (2, sumNat ((List.range 9).map fun d => (g d).level * 16 ^ d)), (3, unsigned 16 (g hot).temp + hot * 2 ^ 16),
        (4, s.pow.threshold)],
      { s with free := s.free + 1 }))

/-- GUARD_SET (R472, R475): the threshold takes effect at the next evaluation. -/
def execGuardSet (via : Via) (s : State) : Host.Outcome State Fault Refusal :=
  .next (s.run fun s => s.command via .guardSet 0x0502 (fun _ => true) fun arg s =>
    if arg 0 < 1360 ∨ 1600 < arg 0 then (2, [], s)
    else (0, [], { s with pow := { s.pow with nextThreshold := arg 0 } }))

end Sys2Proof.Machine
end

