-- ==== Sys2Proof/Machine/Pins.lean ====
section
/-! DEFINITION. The levels of the device's balls (R32, R33, R37, R38, R52, R517, R520). -/

namespace Sys2Proof.Machine

/-- The level of a ball: driven or tied low or high, high-impedance (an open-drain output let go among them), or not stated by
the manual at that time. -/
inductive Level where
  | low | high | highZ | unstated
  deriving DecidableEq, Repr

/-- Low where b holds, let go otherwise: an open-drain output. -/
def openDrain (b : Bool) : Level := if b then .low else .highZ

/-- The level of a ball as the running device or the board gives it: MCn_RESET_N low and the lanes high-impedance in reset (R33),
NLn_ACT_N low while the port's link is up (R38), THERMTRIP_N (R37), SB_ALERT_N (R517), the tied straps (R32), and the inputs. -/
def State.systemPin (s : State) : Config.Pin → Level
  | .porN => if s.board.por then .low else .high
  | .perstN => if s.board.perst then .low else .high
  | .thermtripN => openDrain s.board.tripped
  | .sbAlertN => openDrain (s.sbRom && s.sb.alert != 0)
  | .strap k => if s.boot.latched then (if natBit s.boot.straps.toNat k then .high else .low) else .unstated
  | .nlActN port =>
    let p := s.nl.ports.getD port .reset
    openDrain (s.live && (p.state == 3 || p.state == 4))
  | .nlPrsntN port => if (s.nl.ports.getD port .reset).prsnt then .low else .unstated
  | .mcResetN _ => if s.boot.released then .unstated else .low
  | .peLane _ => if s.boot.released then .unstated else .highZ
  | .nlLane _ _ => if s.boot.released then .unstated else .highZ
  | .other _ => .unstated

/-- Balls that the device only receives. -/
def inputPin : Config.Pin → Bool
  | .porN => true
  | .perstN => true
  | .strap _ => true
  | .nlPrsntN _ => true
  | .thermtripN => false
  | .sbAlertN => false
  | .nlActN _ => false
  | .mcResetN _ => false
  | .peLane _ => false
  | .nlLane _ _ => false
  | .other _ => false

/-- The level of a ball: under HIGHZ the outputs are let go; under EXTEST, EXTEST_PULSE, EXTEST_TRAIN and CLAMP they are driven
from the boundary-scan register, whose order the manual does not give (R519, R520). -/
def State.pin (s : State) (p : Config.Pin) : Level :=
  if inputPin p then s.systemPin p
  else match s.dbg.ir with
    | .highz => .highZ
    | .extest => .unstated
    | .extestPulse => .unstated
    | .extestTrain => .unstated
    | .clamp => .unstated
    | .sample => s.systemPin p
    | .idcode => s.systemPin p
    | .dbgChallenge => s.systemPin p
    | .dbgToken => s.systemPin p
    | .dbgAccess => s.systemPin p
    | .bypass => s.systemPin p

/-- What cell k of the boundary-scan register captures (R520): the level of its ball where one is driven, else a free value (log
17). -/
def State.captureCell (s : State) (k : Nat) : Bool :=
  match s.pin (Config.cellPin k) with
  | .low => false
  | .high => true
  | .highZ => Config.pinCell k s.free
  | .unstated => Config.pinCell k s.free

end Sys2Proof.Machine
end

