-- ==== Sys2Proof/Machine/Jtag.lean ====
section
/-! DEFINITION. JTAG (R519, R520). The debug port's own work is in Machine/Debug.lean. -/

namespace Sys2Proof.Machine

/-- Cells of the boundary-scan register (R520). -/
def bsrCells : Nat := 2944

/-- What the instruction register captures (R519): 01, refused, unlocked. -/
def irCapture (d : Dbg) : Nat := 1 + bit d.refused * 4 + bit (d.level != 0) * 8

/-- The pins as the boundary-scan register captures them (R520, log 17). -/
def State.capturePins (s : State) : Nat := maskOf bsrCells s.captureCell

/-- The TAP takes an instruction: the data register shows v, and a refused instruction sets capture bit [2]. -/
def State.loadIr (s : State) (ir : TapIr) (refused : Bool) (v : Nat) : State :=
  { s with dbg := { s.dbg with ir := ir, refused := refused, dr := v, held := none } }

/-- Whether the management domain, and with it the TAP, is powered: all rails good and no clock stopped. -/
def State.tapUp (s : State) : Bool := s.board.railsBad.isEmpty && !s.board.tripped

/-- An instruction that drives pins takes effect only while POR_N is low; at any other time it acts as BYPASS and sets
capture bit [2] (R520). -/
def State.loadDriving (s : State) (ir : TapIr) (v : Nat) : State :=
  if !s.tapUp then s else if s.board.por then s.loadIr ir false v else s.loadIr .bypass true 0

/-- EXTEST (R520). -/
def execExtest (s : State) : Host.Outcome State Fault Refusal := .next (s.loadDriving .extest s.dbg.bsr)

/-- EXTEST_PULSE (R520). -/
def execExtestPulse (s : State) : Host.Outcome State Fault Refusal := .next (s.loadDriving .extestPulse s.dbg.bsr)

/-- EXTEST_TRAIN (R520). -/
def execExtestTrain (s : State) : Host.Outcome State Fault Refusal := .next (s.loadDriving .extestTrain s.dbg.bsr)

/-- HIGHZ (R520): bypass register selected. -/
def execHighz (s : State) : Host.Outcome State Fault Refusal := .next (s.loadDriving .highz 0)

/-- CLAMP (R520): bypass register selected, pins held from the boundary-scan register. -/
def execClamp (s : State) : Host.Outcome State Fault Refusal := .next (s.loadDriving .clamp 0)

/-- SAMPLE/PRELOAD (R519): the register captures the pins and takes the value shifted in. -/
def execSamplePreload (value : Nat) (s : State) : Host.Outcome State Fault Refusal :=
  .next (if s.tapUp then
    { s with
      dbg := { s.dbg with ir := .sample, refused := false, dr := s.capturePins, bsr := value % 2 ^ bsrCells, held := none }
      free := s.free + 1 }
    else s)

/-- IDCODE (R519). -/
def execIdcode (s : State) : Host.Outcome State Fault Refusal :=
  .next (if s.tapUp then s.loadIr .idcode false 0x18140ABB else s)

/-- BYPASS, and every instruction code the table does not list (R519). A listed code is another row's. -/
def execBypass (code : Byte) (s : State) : Host.Outcome State Fault Refusal :=
  .next (if s.tapUp && !((decide (code.toNat ≤ 6)) || (decide (0x10 ≤ code.toNat) && decide (code.toNat ≤ 0x12))) then
    s.loadIr .bypass false 0 else s)

/-- TRST_N low (R519): Test-Logic-Reset, which selects IDCODE. -/
def execTrstNAssert (s : State) : Host.Outcome State Fault Refusal :=
  .next (if s.tapUp then s.loadIr .idcode false 0x18140ABB else s)

end Sys2Proof.Machine
end

