-- ==== Sys2Proof/Machine/Heat.lean ====
section
/-! DEFINITION. Sensors and thermal guards (R37, R467-R471, R512, R513, R526) and the power domains' own decisions
(R458-R463). -/

namespace Sys2Proof.Machine

/-- Guard d. -/
def State.guard (s : State) (d : Nat) : Guard := s.pow.guards.getD d .reset

/-- Change guard d. -/
def State.setGuard (s : State) (d : Nat) (f : Guard → Guard) : State :=
  { s with pow := { s.pow with guards := modifyAt f d s.pow.guards } }

/-- The power domain that names a die in THROTTLE and SHUTDOWN_IMMINENT: its grid and routers, the hub's control complex
(R367 names a domain of the die; which, log 23). -/
def dieDomain (d : Nat) : Nat := if d < 8 then 12 * d + 8 else 96

/-- DETAIL of the class 0x5 events (R367). -/
def heatDetail (d : Nat) (temp : Int) : List Byte := toBytesLE 1 d ++ zeroBytes 1 ++ toBytesLE 2 (unsigned 16 temp)

/-- A guard's level becomes g: THROTTLE when it leaves 0 or returns to it, at most once per 10 ms (R470). -/
def State.setLevel (s : State) (d g : Nat) : State :=
  let old := s.guard d
  let s := s.setGuard d fun x => { x with level := g }
  let quiet := match old.throttled with | some t => decide (s.cnt.stitch < t + 1000000) | none => false
  if (old.level == 0) != (g == 0) && !quiet then
    (s.setGuard d fun x => { x with throttled := some s.cnt.stitch }).event 5 1 (sourceOf 5 (dieDomain d)) none
      (heatDetail d old.temp)
  else s

/-- A die at 110 degC or above: level 8 at once, SHUTDOWN_IMMINENT once until it has fallen below 107 degC (R471). -/
def State.overheat (s : State) (d : Nat) : State :=
  let t := (s.guard d).temp
  if 1760 ≤ t then
    let s := s.setLevel d 8
    if (s.guard d).armed then
      ((s.setGuard d fun x => { x with armed := false }).event 5 2 (sourceOf 5 (dieDomain d)) none (heatDetail d t)).alert 2
    else s
  else if t < 1712 then s.setGuard d fun x => { x with armed := true }
  else s

/-- The hottest of some readings. -/
def hottest : List Int → Int
  | [] => 0
  | t :: ts => ts.foldl max t

/-- SENSOR_SAMPLE (R467, R471, R37): the die's temperature is its hottest sensor; at 115 degC THERMTRIP_N goes low, every
clock stops and all state is lost. Sensors are read whenever the management block serves (R511). -/
def execSensorSample (die : Nat) (readings : List Int) (s : State) : Host.Outcome State Fault Refusal :=
  let t := hottest readings
  if !s.sbRom || decide (8 < die) then .next s
  else if 1840 ≤ t then .next { s.enterReset with board := { s.board with tripped := true } }
  else
    .next (s.run fun s =>
      let s := s.setGuard die fun g => { g with temp := t }
      if s.live then s.overheat die else s)

/-- The next level of a guard (R468). -/
def nextLevel (threshold : Nat) (g : Guard) : Nat :=
  if (threshold : Int) ≤ g.temp then min 8 (g.level + 1)
  else if g.temp + 48 < threshold then g.level - 1
  else g.level

/-- The numeric readings of sensors 1-15 (R512). -/
def sensorReadings (s : State) : List Int :=
  (List.range 9).map (fun d => (s.guard d).temp)
    ++ [packagePower s, s.pow.vddMv, maxNat (s.pow.guards.map (·.level)), s.cnt.replay % 2 ^ 32, s.cnt.stretch % 2 ^ 32,
      s.cnt.tchoice % 2 ^ 32].map fun n => (n : Int)

/-- The upper thresholds of a sensor (R512). -/
def sensorThresholds (s : State) (sensor : Nat) : List Int :=
  if 1 ≤ sensor ∧ sensor ≤ 9 then [(s.pow.threshold : Nat), 1760, 1840] else if sensor = 12 then [1] else []

/-- Refresh the readings and note each threshold crossing (R512, R513). -/
def State.refreshReadings (s : State) : State :=
  let new := sensorReadings s
  let crossings := (List.range 15).flatMap fun i =>
    let a := s.sb.readings.getD i 0
    let b := new.getD i 0
    ((sensorThresholds s (i + 1)).filter fun t => decide (t ≤ a) != decide (t ≤ b)).map fun _ =>
      ({ sensor := i + 1, value := b, detail := [] } : PlatformEvent)
  ({ s with sb := { s.sb with readings := new } }).occasions crossings

/-- GUARD_EVALUATE (R468, R470, R472, R512). -/
def execGuardEvaluate (s : State) : Host.Outcome State Fault Refusal :=
  .next (s.run fun s =>
    if !s.sbRom then s
    else if !s.live then s.refreshReadings
    else
      let s := { s with pow := { s.pow with threshold := s.pow.nextThreshold } }
      let s := (List.range 9).foldl (fun s d => s.setLevel d (nextLevel s.pow.threshold (s.guard d))) s
      s.refreshReadings)

/-! ### Power domains -/

/-- Whether engine e has a tick, an update interval or a repair in progress (R461); an array phase begins and ends in one command. -/
def engineActive (s : State) (e : Nat) : Bool :=
  (match s.runOf e with | some r => r.ticking || r.repairing || r.updating | none => false) || !(s.engine e).toRepair.isEmpty

/-- The domains that work on engine e needs: the banks of the running profile's plan, the sequencers and the statistics unit (R460,
R464). -/
def engineNeeds (s : State) (e : Nat) : List Nat := (engineBanks e).filter (inPlan s) ++ [12 * e + 9, 12 * e + 10]

/-- Whether every domain that work on engine e needs is ON: that work begins only then (R460). -/
def State.powered (s : State) (e : Nat) : Bool := (engineNeeds s e).all fun d => (s.domain d).state == 2

/-- Whether domain d may leave ON for GATED or RETAIN (R461). -/
def mayRest (s : State) (d : Nat) : Bool :=
  if d < 96 then
    if d % 12 < 8 then !engineActive s (d / 12)
    else if d % 12 = 9 ∨ d % 12 = 10 then (s.engine (d / 12)).state != 3
    else true
  else if 98 ≤ d ∧ d ≤ 105 then false
  else if 107 ≤ d ∧ d ≤ 110 then !(match (s.nl.ports.getD (d - 107) .reset).state with | 3 => true | 4 => true | _ => false)
  else if d = 113 then s.q.engines.all fun c => c.state == 0 || c.state == 4
  else true

/-- Whether domain d may be OFF (R461): a port's where ENABLE is 0, or where no peer has been present for 1 s of stitch counts. -/
def mayBeOff (s : State) (d : Nat) : Bool :=
  if !domainMayBeOff d then false
  else if d < 96 then
    let e := d / 12
    if d % 12 < 8 then (s.engine e).pattern.isNone || !bankInPlan (s.engine e).cur (d % 12)
    else (s.engine e).pattern.isNone && (s.engine e).task.isNone
  else if d ≤ 105 then !s.dram.members.contains (d - 98)
  else if d ≤ 110 then
    let p := s.nl.ports.getD (d - 107) .reset
    !p.enable || (!p.prsnt && decide (p.goneAt + 10 ^ 8 ≤ s.cnt.stitch))
  else mayRest s 113

/-- Where a domain's controller takes it from ON: as far as activity, R458 and its policy in force allow (R461). -/
def restState (s : State) (d : Nat) : Nat :=
  let policy := (s.domain d).cfg.force % 4
  if policy = 2 ∧ mayBeOff s d = true then 0
  else if mayRest s d then (if policy = 0 || !domainMayBeOff d then 3 else 4)
  else 2

/-- DOMAIN_IDLE (R459, R461): from ON, GATED or RETAIN toward less power, never back. An engine whose sequencer domain goes
OFF reads OFF (R463). -/
def execDomainIdle (domain : Nat) (s : State) : Host.Outcome State Fault Refusal :=
  .next (s.whenLive fun s =>
    let old := (s.domain domain).state
    let new := restState s domain
    let deeper := (old = 2 ∧ new ≠ 2) ∨ (old = 3 ∧ (new = 4 ∨ new = 0)) ∨ (old = 4 ∧ new = 0)
    if domain < 116 ∧ deeper then
      let s := s.setDomain domain fun d => { d with state := new }
      let s := if new = 0 ∧ domain < 96 ∧ domain % 12 < 8 then s.clearBank domain else s
      if new = 0 ∧ domain < 96 ∧ domain % 12 = 9 then
        { s with
          grid := { s.grid with engines := modifyAt (fun e => { e with state := 0 }) (domain / 12) s.grid.engines } }
      else s
    else s)

/-- Whether a domain may leave OFF: a bank in the running profile's plan (R464), a Nuthes port whose ENABLE is 1 (R32). -/
def mayWake (s : State) (d : Nat) : Bool :=
  inPlan s d && (!(decide (107 ≤ d) && decide (d ≤ 110)) || (s.nl.ports.getD (d - 107) .reset).enable)

/-- A domain begins to wake: GATED to ON at once, RETAIN and OFF to WAKING (R460). -/
def State.wakeDomain (s : State) (d : Nat) : State :=
  s.setDomain d fun x =>
    match x.state with
    | 3 => { x with state := 2 }
    | 0 => { x with state := 1 }
    | 4 => { x with state := 1 }
    | _ => x

/-- DOMAIN_WAKE (R32, R460, R462, R464): GATED wakes at once; RETAIN and OFF pass through WAKING. A bank outside the running
profile's plan and a port that is not enabled stay OFF. -/
def execDomainWake (domain : Nat) (s : State) : Host.Outcome State Fault Refusal :=
  .next (s.whenLive fun s =>
    if domain ≥ 116 || ((s.domain domain).state == 0 && !mayWake s domain) then s else s.wakeDomain domain)

/-- DOMAIN_WAKE_COMPLETE (R460, R463): the domain is ON; an engine whose sequencers woke reaches IDLE. -/
def execDomainWakeComplete (domain : Nat) (s : State) : Host.Outcome State Fault Refusal :=
  .next (s.whenLive fun s =>
    if domain < 116 ∧ (s.domain domain).state = 1 then
      let s := s.setDomain domain fun d => { d with state := 2, wakes := (d.wakes + 1) % 2 ^ 32 }
      if domain < 96 ∧ domain % 12 = 9 then
        { s with
          grid :=
            { s.grid with
              engines := modifyAt (fun e => if e.state = 0 then { e with state := 1 } else e) (domain / 12) s.grid.engines } }
      else s
    else s)

end Sys2Proof.Machine
end

