-- ==== Sys2Proof/Machine/Sideband.lean ====
section
/-! DEFINITION. The sideband: MCTP control, PLDM, alerts, recovery, debug unlocking and the SPDM responder (R496-R499,
R510-R518, R521, R522). What the board asks is an operand; the answer stands in State.sb.reply (log 5, log 17). -/

namespace Sys2Proof.Machine

/-! ### Bus and MCTP control -/

/-- Answer with bytes. -/
def State.sbBytes (s : State) (tag : Byte) (result : Nat) (bs : List Byte) : State :=
  { s with sb := { s.sb with reply := some { tag := tag, result := BitVec.ofNat 16 result, words := [], bytes := bs } } }

/-- f where the sideband answers at ROM level or above (R511). -/
def State.whenRom (s : State) (f : State → State) : State := s.run fun s => if s.sbRom then f s else s

/-- The static address (R32): 0x60 + SB_ADDR. -/
def staticAddr (s : State) : Nat := 0x60 + natBits s.boot.straps.toNat 1 3

/-- Whether the bus is I3C (STRAP[0] = 0, R32). -/
def busI3c (s : State) : Bool := !natBit s.boot.straps.toNat 0

/-- I3C SETDASA (R510): the device with that static address takes the dynamic one. -/
def execI3cSetdasa (staticAddr_ newAddr : Byte) (s : State) : Host.Outcome State Fault Refusal :=
  .next (s.whenRom fun s =>
    if busI3c s && staticAddr_.toNat == staticAddr s && s.sb.dynAddr.isNone then
      { s with sb := { s.sb with dynAddr := some newAddr } }
    else s)

/-- I3C ENTDAA (R510): a device without a dynamic address takes part. -/
def execI3cEntdaa (newAddr : Byte) (s : State) : Host.Outcome State Fault Refusal :=
  .next (s.whenRom fun s =>
    if busI3c s && s.sb.dynAddr.isNone then { s with sb := { s.sb with dynAddr := some newAddr } } else s)

/-- ALERT_RESPONSE_ADDRESS (R510): an SMBus alert is answered with the device's address, in bits [7:1]. -/
def execAlertResponseAddress (s : State) : Host.Outcome State Fault Refusal :=
  .next (s.whenRom fun s =>
    if !busI3c s && s.sb.alert != 0 then s.sbBytes 0 0 [BitVec.ofNat 8 (2 * staticAddr s)] else s)

/-- Set Endpoint ID (R510; DSP0236 completion code 0, log 17). -/
def execSetEndpointId (eid : Byte) (s : State) : Host.Outcome State Fault Refusal :=
  .next (s.whenRom fun s => { s with sb := { s.sb with eid := eid } }.sbBytes 0 0 [0, 0, eid, 0])

/-- Get Endpoint ID (R510). -/
def execGetEndpointId (s : State) : Host.Outcome State Fault Refusal :=
  .next (s.whenRom fun s => s.sbBytes 0 0 [0, s.sb.eid, 0, 0])

/-- The message types of R510. -/
def mctpTypes : List Byte := [0x00, 0x01, 0x05, 0x7E]

/-- Get Version Support (R510): one version entry, 1.3.1 of DSP0236, for a supported type, the error code otherwise
(log 17). -/
def execGetVersionSupport (messageType : Byte) (s : State) : Host.Outcome State Fault Refusal :=
  .next (s.whenRom fun s =>
    if mctpTypes.contains messageType || messageType == 0xFF then s.sbBytes 0 0 [0, 1, 0xF1, 0xF3, 0xF1, 0]
    else s.sbBytes 0 0 [0x80])

/-- Get Message Type Support (R510): the types other than control. -/
def execGetMessageTypeSupport (s : State) : Host.Outcome State Fault Refusal :=
  .next (s.whenRom fun s => s.sbBytes 0 0 [0, 3, 0x01, 0x05, 0x7E])

/-! ### PLDM -/

/-- ERROR_NOT_READY of PLDM (R511; DSP0240's completion code). -/
def notReady : Byte := 0x04

/-- A PLDM request of firmware level (R511). -/
def State.pldm (s : State) (f : State → State) : State :=
  s.whenRom fun s => if s.sbFirmware then f s else s.sbBytes 0 0 [notReady]

/-- GetTID (R510). -/
def execGettid (s : State) : Host.Outcome State Fault Refusal := .next (s.pldm fun s => s.sbBytes 0 0 [0, s.sb.tid])

/-- SetTID (R510). -/
def execSettid (tid : Byte) (s : State) : Host.Outcome State Fault Refusal :=
  .next (s.pldm fun s => { s with sb := { s.sb with tid := tid } }.sbBytes 0 0 [0])

/-- GetPLDMTypes (R510): base (0) and monitoring (2). -/
def execGetpldmtypes (s : State) : Host.Outcome State Fault Refusal :=
  .next (s.pldm fun s => s.sbBytes 0 0 (0 :: toBytesLE 8 5))

/-- The sensors of R512. -/
def sensorIds : List Nat := (List.range 15).map (· + 1) ++ (List.range 10).map (· + 20)

/-- Bytes of one PDR in the answers (log 17: the record's bytes are free values). -/
def pdrLength : Nat := 64

/-- GetPDRRepositoryInfo (R510): available, and one record for each sensor. -/
def execGetpdrrepositoryinfo (s : State) : Host.Outcome State Fault Refusal :=
  .next (s.pldm fun s => s.sbBytes 0 0 ([0, 0] ++ toBytesLE 4 sensorIds.length ++ toBytesLE 4 (pdrLength * sensorIds.length)))

/-- GetPDR (R512): record number from 1, with the handle of the next, 0 after the last; an unknown one is an error. -/
def execGetpdr (record : Nat) (s : State) : Host.Outcome State Fault Refusal :=
  .next (s.pldm fun s =>
    if 1 ≤ record ∧ record ≤ sensorIds.length then
      let next := if record = sensorIds.length then 0 else record + 1
      s.sbBytes 0 0 (0 :: toBytesLE 4 next ++ toBytesLE 2 (sensorIds.getD (record - 1) 0)
        ++ (List.range pdrLength).map fun k => Config.pdrByte record k)
    else s.sbBytes 0 0 [0x82])

/-- Numeric sensors served at ROM level (R511). -/
def romSensor (sensor : Nat) : Bool := decide (1 ≤ sensor) && decide (sensor ≤ 9)

/-- GetSensorReading (R512): completion code, then the reading, signed 32-bit, in units of the sensor's resolution. -/
def execGetsensorreading (sensor : Nat) (s : State) : Host.Outcome State Fault Refusal :=
  .next (s.whenRom fun s =>
    if !s.sbFirmware && !romSensor sensor then s.sbBytes 0 0 [notReady]
    else if 1 ≤ sensor ∧ sensor ≤ 15 then
      s.sbBytes 0 0 (0 :: toBytesLE 4 (unsigned 32 (s.sb.readings.getD (sensor - 1) 0)))
    else s.sbBytes 0 0 [0x80])

/-- What a state sensor shows (R512). -/
def stateSensor (s : State) (sensor : Nat) : Option Nat :=
  if sensor = 20 then some (deviceSensor s)
  else if sensor = 21 then some s.rng.state
  else if 22 ≤ sensor ∧ sensor ≤ 29 then some (s.engine (sensor - 22)).state
  else none

/-- GetStateSensorReadings (R512): completion code, one sensor, its state. -/
def execGetstatesensorreadings (sensor : Nat) (s : State) : Host.Outcome State Fault Refusal :=
  .next (s.whenRom fun s =>
    if !s.sbFirmware && sensor != 20 then s.sbBytes 0 0 [notReady]
    else match stateSensor s sensor with
      | some v => s.sbBytes 0 0 [0, 1, BitVec.ofNat 8 v]
      | none => s.sbBytes 0 0 [0x80])

/-- SetEventReceiver (R513). -/
def execSeteventreceiver (receiver : Byte) (s : State) : Host.Outcome State Fault Refusal :=
  .next (s.pldm fun s => { s with sb := { s.sb with receiver := some receiver } }.sbBytes 0 0 [0])

/-- The messages that wait, with one more: a full queue gives up its oldest of the same sensor, or drops it (R513). -/
def queueMessage (q : List PlatformEvent) (e : PlatformEvent) : List PlatformEvent :=
  if q.length < 16 then q ++ [e]
  else if q.any fun x => x.sensor == e.sensor then
    (q.takeWhile fun x => x.sensor != e.sensor) ++ (q.dropWhile fun x => x.sensor != e.sensor).drop 1 ++ [e]
  else q

/-- Whether a message that finds a full queue is dropped (R513). -/
def dropsMessage (q : List PlatformEvent) (e : PlatformEvent) : Bool := decide (16 ≤ q.length) && !q.any fun x => x.sensor == e.sensor

/-- PLATFORMEVENTMESSAGE (R513): the message for an occasion that has arisen. -/
def execPlatformeventmessage (sensor : Nat) (value : Int) (s : State) : Host.Outcome State Fault Refusal :=
  .next (s.whenRom fun s =>
    let is := fun (e : PlatformEvent) => e.sensor == sensor && e.value == value
    match s.sb.due.find? is with
    | some e =>
      let s' : State :=
        { s with
          sb :=
            { s.sb with
              due := s.sb.due.takeWhile (fun x => !is x) ++ (s.sb.due.dropWhile fun x => !is x).drop 1
              events := queueMessage s.sb.events e } }
      if dropsMessage s.sb.events e then s' else s'.send (.platformEvent e)
    | none => s)

/-- PLATFORM_EVENT_RESEND (R513): every message without acknowledgement is sent again, oldest first. -/
def execPlatformEventResend (s : State) : Host.Outcome State Fault Refusal :=
  .next (s.whenRom fun s => s.sb.events.foldl (fun s e => s.send (.platformEvent e)) s)

/-- PLATFORM_EVENT_ACK (R513): the receiver acknowledges the oldest message of a sensor. -/
def execPlatformEventAck (sensor : Nat) (s : State) : Host.Outcome State Fault Refusal :=
  .next (s.whenRom fun s =>
    let is := fun (e : PlatformEvent) => e.sensor == sensor
    { s with
      sb :=
        { s.sb with events := s.sb.events.takeWhile (fun x => !is x) ++ (s.sb.events.dropWhile fun x => !is x).drop 1 } })

/-! ### Alerts, register reads -/

/-- SB_READ (R516): the 64-bit value at an offset of BAR0 below 0x4000 or of an instance's window; RC fields stay, and WSEL
is not used. -/
def execSbRead (tag : Byte) (args : List DWord) (s : State) : Host.Outcome State Fault Refusal :=
  .next (s.run fun s => s.inTurn tag (.sbRead tag args) fun s => s.sideband tag fun s =>
    let a := (args.getD 0 0).toNat
    let cls := natBits a 12 4
    let index := a % 4096
    let off := natBits a 16 16
    if 2 ^ 32 ≤ a then (2, [], s)
    else if cls = 0 ∧ (0x4000 ≤ off ∨ index ≠ 0) then (2, [], s)
    else if cls ≠ 0 ∧ wselValid cls index = false then (2, [], s)
    else (0, [(0, regRead s cls index off 8)], s))

/-- ALERT_READ (R516), at ROM level. -/
def execAlertRead (tag : Byte) (s : State) : Host.Outcome State Fault Refusal :=
  .next (s.whenRom fun s => s.inTurn tag (.alertRead tag) fun s => s.sbReply tag 0 [(0, s.sb.alert.toNat)])

/-- The causes whose condition lasts (R517). -/
def lastingCauses (s : State) : Byte := BitVec.ofNat 8 (bit s.fw.noCore * 4 + bit s.boot.recovery * 8)

/-- ALERT_CLEAR (R517): the named bits, but not those whose condition lasts. -/
def execAlertClear (tag : Byte) (args : List DWord) (s : State) : Host.Outcome State Fault Refusal :=
  .next (s.whenRom fun s => s.inTurn tag (.alertClear tag args) fun s =>
    let bits := (args.getD 0 0).setWidth 8
    { s with sb := { s.sb with alert := (s.sb.alert &&& ~~~bits) ||| (s.sb.alert &&& lastingCauses s) } }.sbReply tag 0 [])

/-! ### Recovery -/

/-- A recovery command: STATE outside recovery (R511, R518). -/
def State.recover (s : State) (tag : Byte) (i : Instr) (f : State → CmdWork) : State :=
  s.whenRom fun s => s.inTurn tag i fun s =>
    if s.boot.recovery then
      let r := f s
      r.2.2.sbReply tag r.1 r.2.1
    else s.sbReply tag 3 []

/-- The bytes of flash that the recovery commands reach (R518). -/
def flashEnd : Nat := 0x02000000

/-- FLASH_READ (R518). -/
def execFlashRead (tag : Byte) (args : List DWord) (s : State) : Host.Outcome State Fault Refusal :=
  .next (s.recover tag (.flashRead tag args) fun s =>
    let a := (args.getD 0 0).toNat
    let n := (args.getD 1 0).toNat
    if n < 1 ∨ 64 < n then (2, [], s)
    else if flashEnd < a + n then (5, [], s)
    else (0, (wordsOf (s.nv.bytes a n)).mapIdx fun i w => (i, w), s))

/-- FLASH_ERASE (R518). -/
def execFlashErase (tag : Byte) (args : List DWord) (s : State) : Host.Outcome State Fault Refusal :=
  .next (s.recover tag (.flashErase tag args) fun s =>
    let a := (args.getD 0 0).toNat
    let k := (args.getD 1 0).toNat
    let size := if k = 0 then 4096 else 65536
    if 1 < k ∨ a % size ≠ 0 then (2, [], s)
    else if flashEnd ≤ a then (5, [], s)
    else
      (0, [],
        { s with nv := { s.nv with flash := s.nv.flash.filter fun c => decide (c.1 < a) || decide (a + size ≤ c.1) } }))

/-- FLASH_WRITE (R518): the bytes stand as written (log 7). -/
def execFlashWrite (tag : Byte) (args : List DWord) (s : State) : Host.Outcome State Fault Refusal :=
  .next (s.recover tag (.flashWrite tag args) fun s =>
    let a := (args.getD 0 0).toNat
    let n := (args.getD 1 0).toNat
    let bs := (((args.drop 2).flatMap fun w => toBytesLE 8 w.toNat) ++ zeroBytes 48).take n
    if n < 1 ∨ 48 < n then (2, [], s)
    else if flashEnd < a + n then (5, [], s)
    else (0, [], { s with nv := s.nv.write a bs }))

/-- RECOVERY_REBOOT (R518): the device resets as at POR_N; no output. -/
def execRecoveryReboot (tag : Byte) (s : State) : Host.Outcome State Fault Refusal :=
  .next (if s.sbRom && s.boot.recovery then s.enterReset
    else s.whenRom fun s => s.inTurn tag (.recoveryReboot tag) fun s => s.sbReply tag 3 [])

/-! ### Debug unlocking -/

/-- The debug lock with nothing but its own fields changed: the wrapper for the commands that move it. -/
def State.runDebug (s : State) (f : State → State × Dbg) : State :=
  let r := f s
  { s.run fun s => (f s).1 with dbg := r.2 }

/-- Answer on a debug port: RESULT and words over the sideband, the data register over JTAG. -/
def State.debugAnswer (s : State) (port : DebugPort) (result : Nat) (bs : List Byte) : State × Dbg :=
  match port with
  | .sideband tag =>
    ({ s with
        sb :=
          { s.sb with
            reply := some { tag := tag, result := BitVec.ofNat 16 result, words := (wordsOf bs).map (BitVec.ofNat 64), bytes := [] } } },
      s.dbg)
  | .jtag => (s, { s.dbg with dr := result + bytesLE bs * 2 ^ 64, held := none })

/-- The JTAG port works in the powered TAP, the sideband port at firmware level (R516, R519). -/
def State.debugPortUp (s : State) (port : DebugPort) : Bool :=
  match port with
  | .sideband _ => s.sbRom && s.sbFirmware
  | .jtag => s.tapUp && s.sbFirmware

/-- Serve a challenge: a draw of 256 bits from I0 replaces the one before (R522). The JTAG answer holds the lock state in
its low 64 bits. -/
def State.giveChallenge (s : State) (port : DebugPort) : State × Dbg :=
  let (bs, s) := s.drawBytes 0 32
  let s := s.countCall 0
  let (s, d) := s.debugAnswer port (match port with | .jtag => s.dbg.level | .sideband _ => 0) bs
  (s, { d with challenge := some bs })

/-- What a debug port asks is carried out in its turn (R515). -/
def State.debugTurn (s : State) (port : DebugPort) (i : Instr) (f : State → State × Dbg) : State × Dbg :=
  match port with
  | .sideband tag => if s.sbHolds = 0 then f s else (s.inTurn tag i id, s.dbg)
  | .jtag => f s

/-- DEBUG_CHALLENGE (R42, R521, R522). -/
def execDebugChallenge (port : DebugPort) (s : State) : Host.Outcome State Fault Refusal :=
  .next (s.runDebug fun s => s.debugTurn port (.debugChallenge port) fun s =>
    if !s.debugPortUp port then
      match port with
      | .sideband tag => if s.sbRom then (s.sbReply tag 3 [], s.dbg) else (s, s.dbg)
      | .jtag => (s, s.dbg)
    else if s.nv.fuses.debugDisable then s.debugAnswer port 3 []
    else if s.rng.state = 1 then s.giveChallenge port
    else if s.rng.state = 0 then
      ({ s with rng := { s.rng with waiting := s.rng.waiting ++ [.debugChallenge port] } }, s.dbg)
    else s.debugAnswer port 0x0300 [])

/-- Whether a token is accepted (R522): key, signature, UNIT_ID, challenge, level. -/
def tokenAccepted (f : Fuses) (challenge : Option (List Byte)) (token : List Byte) : Bool :=
  let at_ := fun a n => (token.drop a).take n
  let key := at_ 0x30 97
  token.length == 256 && sha384 key == f.debugKeyHash && ecdsaVerifies key (sha384 (token.take 0xA0)) (at_ 0xA0 96)
    && bytesLE (at_ 0 8) == f.unitId.toNat && challenge == some (at_ 8 32)
    && (bytesLE (at_ 0x28 1) == 1 || bytesLE (at_ 0x28 1) == 2)

/-- DEBUG_UNLOCK (R521, R522): an accepted token sets the level until POR_N; the challenge is consumed either way. A blown
DEBUG_DISABLE keeps the device LOCKED. -/
def execDebugUnlock (port : DebugPort) (token : List Byte) (s : State) : Host.Outcome State Fault Refusal :=
  .next (s.runDebug fun s => s.debugTurn port (.debugUnlock port token) fun s =>
    if !s.debugPortUp port then
      match port with
      | .sideband tag => if s.sbRom then (s.sbReply tag 3 [], s.dbg) else (s, s.dbg)
      | .jtag => (s, s.dbg)
    else if tokenAccepted s.nv.fuses s.dbg.challenge token && !s.nv.fuses.debugDisable then
      let (s', d) := s.debugAnswer port 0 []
      (s', { d with level := bytesLE ((token.drop 0x28).take 1), challenge := none })
    else
      let (s', d) := s.debugAnswer port 2 []
      (s', { d with challenge := none }))

/-! ### SPDM -/

/-- An SPDM ERROR (DSP0274): 0x7F and the ErrorCode. -/
def spdmError (code : Byte) : List Byte := [0x12, 0x7F, code, 0]

/-- f where the responder is up: over DOE or over the sideband, at firmware level; ERROR_NOT_READY below it (R496, R511). -/
def State.spdm (s : State) (f : State → State) : State :=
  s.run fun s => if s.sbFirmware then f s else if s.sbRom then s.sbBytes 0 0 [notReady] else s

/-- GET_VERSION (R496): versions 1.2 and 1.3; the connection begins anew. -/
def execGetVersion (s : State) : Host.Outcome State Fault Refusal :=
  .next (s.spdm fun s =>
    { s with sb := { s.sb with spdm := 1 } }.sbBytes 0 0 [0x10, 0x04, 0, 0, 0, 2, 0x00, 0x12, 0x00, 0x13])

/-- GET_CAPABILITIES (R496): certificates, challenge and signed measurements; no key exchange. -/
def execGetCapabilities (version : Byte) (s : State) : Host.Outcome State Fault Refusal :=
  .next (s.spdm fun s =>
    if s.sb.spdm = 0 then s.sbBytes 0 0 (spdmError 0x04)
    else if version = 0x12 ∨ version = 0x13 then
      { s with sb := { s.sb with spdm := 2, spdmVersion := version } }.sbBytes 0 0
        ([version, 0x61, 0, 0, 0, 0, 0, 0] ++ toBytesLE 4 0x16)
    else s.sbBytes 0 0 (spdmError 0x41))

/-- NEGOTIATE_ALGORITHMS (R496): ECDSA over NIST P-384 (bit 7), SHA-384 (bit 1), measurement hash SHA-384 (bit 2). -/
def execNegotiateAlgorithms (asym hash measurement : Word) (s : State) : Host.Outcome State Fault Refusal :=
  .next (s.spdm fun s =>
    if s.sb.spdm < 2 then s.sbBytes 0 0 (spdmError 0x04)
    else if natBit asym.toNat 7 && natBit hash.toNat 1 && natBit measurement.toNat 2 then
      { s with sb := { s.sb with spdm := 3 } }.sbBytes 0 0
        ([s.sb.spdmVersion, 0x63, 0, 0] ++ toBytesLE 4 4 ++ toBytesLE 4 0x80 ++ toBytesLE 4 2)
    else s.sbBytes 0 0 (spdmError 0x01))

/-- What the alias key and its certificate are derived from (R497): the running image's digest and SVN. -/
def aliasSource (s : State) : Nat :=
  match s.fw.running with | some i => bytesBE i.digest * 256 + i.svn | none => 0

/-- The chain in slot 0 (R497): free values that rest on UNIT_SECRET and on Snildo's keys (log 14). -/
def certChain (s : State) : List Byte :=
  (List.range (Config.certLength (aliasSource s))).map fun k => Config.certByte (aliasSource s) k

/-- GET_DIGESTS (R496): SHA-384 of the chain in slot 0. -/
def execGetDigests (s : State) : Host.Outcome State Fault Refusal :=
  .next (s.spdm fun s =>
    if s.sb.spdm < 3 then s.sbBytes 0 0 (spdmError 0x04)
    else s.sbBytes 0 0 ([s.sb.spdmVersion, 0x01, 0, 1] ++ sha384 (certChain s)))

/-- GET_CERTIFICATE (R496, R497): a portion of the chain in slot 0, with the lengths of the portion and of the rest. -/
def execGetCertificate (slot offset length : Nat) (s : State) : Host.Outcome State Fault Refusal :=
  .next (s.spdm fun s =>
    let chain := certChain s
    if s.sb.spdm < 3 then s.sbBytes 0 0 (spdmError 0x04)
    else if slot ≠ 0 ∨ chain.length ≤ offset then s.sbBytes 0 0 (spdmError 0x01)
    else
      let part := (chain.drop offset).take length
      s.sbBytes 0 0 ([s.sb.spdmVersion, 0x02, 0, 0] ++ toBytesLE 2 part.length
        ++ toBytesLE 2 (chain.length - offset - part.length) ++ part))

/-- The digest of measurement block i (R498); what the manual gives no bytes for is hashed over the fields it names, in
order (log 14). -/
def measurement (s : State) (i : Nat) : List Byte :=
  let f := s.nv.fuses
  match i with
  | 1 => (List.range 48).map Config.romDigestByte
  | 2 => sha384 (f.keyHash0 ++ f.keyHash1 ++ toBytesLE 1 (bit f.revoke0) ++ toBytesLE 1 f.rollback ++ f.debugKeyHash
      ++ toBytesLE 1 (bit f.debugDisable))
  | 3 => match s.fw.running with | some x => x.digest | none => zeroBytes 48
  | 12 => match s.fw.standby with | some x => x.digest | none => zeroBytes 48
  | 13 => sha384 (s.nv.bytes 0x2000 0x1000)
  | 14 => sha384 (toBytesLE 1 s.dbg.level)
  | _ => s.fw.sequencers.getD (i - 4) []

/-- A measurement block in the DMTF format: index, specification 1, size, type, value size, digest (R498). -/
def measurementBlock (s : State) (i : Nat) : List Byte :=
  [BitVec.ofNat 8 i, 1] ++ toBytesLE 2 51 ++ [0x01] ++ toBytesLE 2 48 ++ measurement s i

/-- The blocks a request names: 0 none (their count), 0xFF all, or one index (R498). -/
def measurementIndices (index : Nat) : Option (List Nat) :=
  let all := (List.range 14).map (· + 1)
  if index = 0 then some [] else if index = 0xFF then some all else if index ≤ 14 then some [index] else none

/-- The body of a MEASUREMENTS response. -/
def measurementsBody (s : State) (index : Nat) (idx : List Nat) : List Byte :=
  let blocks := idx.flatMap (measurementBlock s)
  [s.sb.spdmVersion, 0x60, if index = 0 then 14 else 0, 0, BitVec.ofNat 8 idx.length] ++ toBytesLE 3 blocks.length ++ blocks

/-- A response with responder nonce and signature: nonce and per-signature value are drawn from I0 (R499), the signature is
by the alias key, a free value (log 14). -/
def State.signedReply (s : State) (body : List Byte) : State :=
  let (nonce, s) := s.drawBytes 0 32
  let s := (s.countCall 0).countCall 0
  let sig := (List.range 96).map fun k => Config.signatureByte s.free k
  { s with free := s.free + 1 }.sbBytes 0 0 (body ++ nonce ++ sig)

/-- The CHALLENGE_AUTH body: chain digest and a hash of the measurements (R499). -/
def challengeBody (s : State) : List Byte :=
  [s.sb.spdmVersion, 0x03, 0, 1] ++ sha384 (certChain s)
    ++ sha384 (((List.range 14).map (· + 1)).flatMap (measurementBlock s))

/-- A signed answer: at once when READY, waiting while STARTING, an ERROR Unspecified otherwise (R42, R499, R502). -/
def State.signOrWait (s : State) (body : State → List Byte) (wait : RngWait) : State :=
  if s.rng.state = 1 then s.signedReply (body s)
  else if s.rng.state = 0 then { s with rng := { s.rng with waiting := s.rng.waiting ++ [wait] } }
  else s.sbBytes 0 0 (spdmError 0x05)

/-- CHALLENGE (R499). -/
def execChallenge (slot : Nat) (nonce : List Byte) (s : State) : Host.Outcome State Fault Refusal :=
  .next (s.spdm fun s =>
    if s.sb.spdm < 3 then s.sbBytes 0 0 (spdmError 0x04)
    else if slot ≠ 0 then s.sbBytes 0 0 (spdmError 0x01)
    else s.signOrWait challengeBody (.spdmChallenge slot nonce))

/-- GET_MEASUREMENTS (R498, R499): signed or not. -/
def execGetMeasurements (index : Nat) (signed_ : Bool) (nonce : List Byte) (s : State) : Host.Outcome State Fault Refusal :=
  .next (s.spdm fun s =>
    if s.sb.spdm < 3 then s.sbBytes 0 0 (spdmError 0x04)
    else
      match measurementIndices index with
      | some idx =>
        if signed_ then s.signOrWait (fun s => measurementsBody s index idx) (.spdmMeasurements index nonce)
        else s.sbBytes 0 0 (measurementsBody s index idx)
      | none => s.sbBytes 0 0 (spdmError 0x01))

end Sys2Proof.Machine
end

