-- ==== Sys2Proof/Machine/Sched.lean ====
section
/-! DEFINITION. Queues, the headgate, the scoreboard, dispatch order, completion and fences (R373-R378, R380-R384,
R389-R395, R403-R410). -/

namespace Sys2Proof.Machine

/-! ### Queues -/

/-- Queue n, unless FREE. -/
def State.queue (s : State) (n : Nat) : Option Queue := s.q.queues.find? fun q => q.num == n

/-- Change queue n. -/
def State.setQueue (s : State) (n : Nat) (f : Queue → Queue) : State :=
  { s with q := { s.q with queues := modifyIf (fun q => q.num == n) f s.q.queues } }

/-- Ring descriptors N (R374). -/
def Queue.size (q : Queue) : Nat := 64 * 2 ^ q.order

/-- Whether anything below TAIL is still to be fetched (R394); a GUILTY queue fetches only what stood below TAIL (R414). -/
def Queue.toFetch (q : Queue) : Bool :=
  match q.state with
  | .active => q.tail.toNat != q.head % 2 ^ 32
  | .guilty => decide (q.head < q.purgeTo)
  | .destroying => false

/-- Work to fetch or admit (R394). -/
def Queue.work (q : Queue) : Bool := q.toFetch || !q.lane.isEmpty || !q.fetched.isEmpty

/-- Whether a slot is bound to queue n. -/
def State.boundTo (s : State) (n : Nat) : Bool := s.q.slots.any fun t => t.bound == some n

/-- A queue with work that no slot serves begins to wait for one (R394). -/
def State.noteWork (s : State) (n : Nat) : State :=
  match s.queue n with
  | some q =>
    if q.work && !s.boundTo n && !q.backoff && !s.q.waiting.contains n then
      { s with q := { s.q with waiting := s.q.waiting ++ [n] } }
    else s
  | none => s

/-- A slot releases its queue (R394). -/
def State.releaseSlot (s : State) (slot : Nat) : State :=
  match (s.slot slot).bound with
  | some n =>
    { s with q := { s.q with slots := modifyAt (fun t => { t with bound := none, burst := 0 }) slot s.q.slots } }.noteWork n
  | none => s

/-- The host's doorbell writes reach a queue's page while the link is up and the device READY (R41, R375). -/
def State.doorbell (s : State) (n : Nat) (f : Queue → State → State) : State :=
  if s.hostUp && s.boot.ready then match s.queue n with | some q => f q s | none => s else s

/-- TAIL_WRITE (R376). -/
def execTailWrite (queue : Nat) (value : Word) (s : State) : Host.Outcome State Fault Refusal :=
  .next (s.run fun s => s.doorbell queue fun q s =>
    if (value.toNat + 2 ^ 32 - q.head % 2 ^ 32) % 2 ^ 32 ≤ q.size then
      (s.setQueue queue fun q => { q with tail := value }).noteWork queue
    else s.setQueue queue fun q => { q with badDoorbells := q.badDoorbells + 1 })

/-- HSWAP (R382): a second write before the first swap is ignored. -/
def execHswap (queue : Nat) (value : Word) (s : State) : Host.Outcome State Fault Refusal :=
  .next (s.run fun s => s.doorbell queue fun q s =>
    if q.hswap.isSome then s else s.setQueue queue fun q => { q with hswap := some value })

/-- Whether every descriptor below ring position p has been admitted, modulo 2^32 (R382). -/
def Queue.below (q : Queue) (p : Word) : Bool := decide ((q.admitted + 2 ^ 32 - p.toNat) % 2 ^ 32 < 2 ^ 31)

/-- HANDLE_TABLE_SWAP (R382). -/
def execHandleTableSwap (queue : Nat) (s : State) : Host.Outcome State Fault Refusal :=
  .next (s.whenLive fun s =>
    match s.queue queue with
    | some q =>
      match q.hswap with
      | some p =>
        if q.below p then s.setQueue queue fun q => { q with copy := 1 - q.copy, hswap := none } else s
      | none => s
    | none => s)

/-! ### Handle tables -/

/-- Address of entry h of a copy (R381). -/
def Queue.entryAddr (q : Queue) (copy h : Nat) : Nat := q.handleBase + 16 * q.handles * copy + 16 * h

/-- The region of handle h: address, bytes, WRITE; none when null, out of range or not VALID (R381, R383). -/
def handleRegion (m : Mem) (q : Queue) (copy h : Nat) : Option (Nat × Nat × Bool) :=
  let a := q.entryAddr copy h
  let flags := m.field (a + 12) 1
  if h = 0 ∨ q.handles ≤ h ∨ natBit flags 0 = false then none
  else some (m.field a 8, 64 * m.field (a + 8) 4, natBit flags 1)

/-- Whether a range lies wholly within one VALID region of a copy, with WRITE where it is written (R383). -/
def granted (m : Mem) (q : Queue) (copy a n : Nat) (write : Bool) : Bool :=
  (List.range q.handles).any fun h =>
    match handleRegion m q copy h with
    | some (base, len, w) => decide (base ≤ a) && decide (a + n ≤ base + len) && (w || !write)
    | none => false

/-- Whether a queue's handle table copy reads as poison anywhere (R446). -/
def tablePoisoned (m : Mem) (q : Queue) (copy : Nat) : Bool := m.poisonIn (q.entryAddr copy 0) (16 * q.handles)

/-! ### Tasks -/

/-- The task with a reference, in the scoreboard. -/
def State.task (s : State) (r : TaskRef) : Option Task := s.q.tasks.find? fun t => t.ref == r

/-- Change a task. -/
def State.setTask (s : State) (r : TaskRef) (f : Task → Task) : State :=
  { s with q := { s.q with tasks := modifyIf (fun t => t.ref == r) f s.q.tasks } }

/-- Set a task to retire with a status, unless it already is. -/
def State.endTask (s : State) (r : TaskRef) (status detail : Nat) : State :=
  s.setTask r fun t =>
    match t.phase with
    | .ending _ _ _ => t
    | _ => { t with phase := .ending status detail false }

/-- Whether a SEQ is a sprout's (R377). -/
def isSprout (seq : Nat) : Bool := decide (2 ^ 63 ≤ seq)

/-- Whether the host can be written now: link up and session attached (R49, R369). -/
def State.hostOpen (s : State) : Bool := s.live && s.host.link == 2 && s.host.attached

/-- Where the completion record of a SEQ lies (R403). -/
def Queue.recordAddr (q : Queue) (seq : Nat) : Nat :=
  if isSprout seq then q.complAddr + 32 * q.size + 32 * ((seq - 2 ^ 63 - 1) % 256) else q.complAddr + 32 * ((seq - 1) % q.size)

/-- The 32 bytes of a completion record (R403). -/
def recordBytes (t : Task) (status detail : Nat) (fenceErr : Bool) : List Byte :=
  toBytesLE 8 t.ref.seq ++ toBytesLE 2 status ++ toBytesLE 1 (bit (isSprout t.ref.seq) + 2 * bit fenceErr)
    ++ toBytesLE 1 t.engines ++ toBytesLE 4 t.userTag.toNat ++ toBytesLE 8 t.progress ++ toBytesLE 4 detail ++ zeroBytes 4

/-- Write a record to the host, SEQ last (R406). -/
def State.writeRecord (s : State) (h : HeldRecord) : State :=
  let s := (s.hostWrite (some h.pasid) (h.addr + 8) (h.bytes.drop 8)).hostWrite (some h.pasid) h.addr (h.bytes.take 8)
  if h.signal then s.signal h.queue else s

/-- The largest SEQ of a kind up to which every task has retired, with the SEQs above it that have (R406). -/
def advanceDone : Nat → Nat → List Nat → Nat × List Nat
  | 0, d, seqs => (d, seqs)
  | k + 1, d, seqs => if seqs.contains (d + 1) then advanceDone k (d + 1) (seqs.filter (· != d + 1)) else (d, seqs)

/-- The queue's books after a task retires: failures for edges, DONE_SEQ and SPROUT_DONE (R390, R406). -/
def Queue.retireSeq (q : Queue) (seq status : Nat) : Queue :=
  let failed := if 0x0100 ≤ status then q.failed ++ [seq] else q.failed
  let retired := q.retired ++ [seq]
  let q := { q with failed := failed, retiredCount := q.retiredCount + 1 }
  if isSprout seq then
    let r := advanceDone retired.length (2 ^ 63 + q.sproutDone) retired
    { q with sproutDone := r.1 - 2 ^ 63, retired := r.2 }
  else
    let r := advanceDone retired.length q.doneSeq retired
    { q with doneSeq := r.1, retired := r.2 }

/-- Write the completion words that advanced (R406). -/
def State.writeDone (s : State) (old new : Queue) : State :=
  let s := if new.doneSeq = old.doneSeq then s else s.hostWrite (some new.pasid) new.doneAddr (toBytesLE 8 new.doneSeq)
  if new.sproutDone = old.sproutDone then s
  else s.hostWrite (some new.pasid) (new.doneAddr + 8) (toBytesLE 8 new.sproutDone)

/-- An edge to a task that has retired is satisfied, or its task retires CANCELLED with the edge's index (R389, R390). -/
def Task.resolve (t : Task) (r : TaskRef) (failed : Bool) : Task :=
  match t.phase with
  | .waiting =>
    match t.edges.find? fun e => e.target == r with
    | some e =>
      if failed && !t.runOnFail then { t with phase := .ending 0x0100 e.index false, edges := [] }
      else { t with edges := t.edges.filter fun e => e.target != r }
    | none => t
  | _ => t

/-- Retire a task (R384, R390, R403-R406): its record with SEQ last, the completion word where it advances, the vector; or
the record is held while the host cannot be written (R370). Its scoreboard entry goes and the edges to it resolve. Without
`writes` the completion area does not translate at SESSION_ATTACH END, and the record is counted instead (R370). -/
def State.retire (s : State) (t : Task) (status detail : Nat) (fenceErr : Bool) (writes : Bool := true) : State :=
  match s.queue t.ref.queue with
  | none => s
  | some q =>
    let q' := q.retireSeq t.ref.seq status
    let h : HeldRecord :=
      { queue := q.num, seq := t.ref.seq, pasid := q.pasid, addr := q.recordAddr t.ref.seq,
        bytes := recordBytes t status detail fenceErr, signal := t.irq && q.irq }
    let s := s.setQueue q.num fun _ => q'
    let s :=
      if !writes then { s with host := { s.host with unwritten := s.host.unwritten + 1 } }
      else if s.hostOpen then
        let s := ({ h with signal := false } : HeldRecord) |> s.writeRecord
        let s := s.writeDone q q'
        if h.signal then s.signal q.num else s
      else { s with host := { s.host with heldRecords := s.host.heldRecords ++ [h] } }
    { s with
      q :=
        { s.q with
          tasks := (s.q.tasks.filter fun x => x.ref != t.ref).map fun x => x.resolve t.ref (decide (0x0100 ≤ status)) } }

/-! ### Admission -/

/-- Block bytes of an opcode (R379); none for an unknown one. -/
def blockSize (opcode : Nat) : Option Nat :=
  match opcode with
  | 0x0000 => some 0
  | 0x0001 => some 256
  | 0x0010 => some 32
  | 0x0011 => some 32
  | 0x0012 => some 64
  | 0x0013 => some 32
  | 0x0020 => some 0
  | 0x0021 => some 0
  | _ => none

/-- A fence opcode. -/
def isFence (opcode : Nat) : Bool := opcode == 0x20 || opcode == 0x21

/-- The checks of R380 on a descriptor, by the offset of the field they concern, ascending: true where one fails. -/
def descriptorChecks (q : Queue) (d : List Byte) : List (Nat × Bool) :=
  let op := fieldOf d 0 2
  let nIn := fieldOf d 6 2
  let run := op == 1
  let fence := isFence op
  let unused := if nIn ≤ 4 then nIn else 1
  [(0x00, (blockSize op).isNone || (fence && !q.ordered)),
    (0x02, decide (4 ≤ fieldOf d 2 2)),
    (0x04, run == (fieldOf d 4 1 == 0)),
    (0x05, fieldOf d 5 1 != 0),
    (0x06, decide (1024 < nIn) || (q.ordered && nIn != 0)),
    (0x08, fieldOf d 8 4 != 0 && !(run || op == 0x12 || fence)),
    (0x0C, fieldOf d 0xC 4 != 0 && !run),
    (0x10, op == 0 && fieldOf d 0x10 4 != 0),
    (0x14, (op == 0 && fieldOf d 0x14 4 != 0) || (!fence && fieldOf d 0x14 4 % 64 != 0)),
    (0x1C, decide (4 < nIn) && fieldOf d 0x1C 4 % 8 != 0),
    (0x18 + 8 * unused, ((d.drop (0x18 + 8 * unused)).take (32 - 8 * unused)).any (· != 0)),
    (0x3C, fieldOf d 0x3C 4 != 0)]

/-- DETAIL of CONFIG_REFUSED at admission, if any check fails (R380, R404). -/
def descriptorRefusal (q : Queue) (d : List Byte) : Option Nat :=
  match (descriptorChecks q d).find? (·.2) with
  | some c => some c.1
  | none => none

/-- DETAIL of a translation failure or a poisoned line (R404, R446). -/
def poisonDetail : Nat := 0xFFFFFFFF

/-- A relocated region of at least n bytes from an offset, or DETAIL (R383). -/
def relocate (m : Mem) (q : Queue) (h off n field : Nat) : Except Nat (Nat × Nat) :=
  match handleRegion m q q.copy h with
  | some (a, len, _) => if off + n ≤ len then .ok (a + off, len - off) else .error field
  | none => .error field

/-- The edges of a descriptor as 64-bit words, or DETAIL of HANDLE_INVALID (R378, R383, R446): a list may not lie in the host window (R318,
log 40). -/
def readEdges (m : Mem) (q : Queue) (d : List Byte) : Except Nat (List Nat) :=
  let n := fieldOf d 6 2
  if n ≤ 4 then .ok ((List.range n).map fun i => fieldOf d (0x18 + 8 * i) 8)
  else
    match relocate m q (fieldOf d 0x18 4) (fieldOf d 0x1C 4) (8 * n) 0x18 with
    | .ok (a, _) =>
      if hostWindow ≤ a then .error 0x18
      else if m.poisonIn a (8 * n) = true then .error poisonDetail
      else .ok ((List.range n).map fun i => m.field (a + 8 * i) 8)
    | .error e => .error e

/-- The task an edge names (R389). -/
def edgeTarget (w : Nat) : TaskRef :=
  { queue := w / 2 ^ 54, seq := natBits w 0 53 + if natBit w 53 then 2 ^ 63 else 0 }

/-- Whether an edge's target is known: admitted, retired or not, in a queue of the same PASID (R389). -/
def State.edgeKnown (s : State) (q : Queue) (r : TaskRef) : Bool :=
  match s.queue r.queue with
  | some t =>
    t.pasid == q.pasid
      && if isSprout r.seq then decide (2 ^ 63 < r.seq) && decide (r.seq ≤ 2 ^ 63 + t.admittedSprouts)
        else decide (0 < r.seq) && decide (r.seq ≤ t.admitted)
  | none => false

/-- Whether a known target has retired, and failed. -/
def State.edgeRetired (s : State) (r : TaskRef) : Bool := (s.task r).isNone
def State.edgeFailed (s : State) (r : TaskRef) : Bool :=
  match s.queue r.queue with | some t => t.failed.contains r.seq | none => false

/-- What admission makes of a descriptor: a task for the scoreboard, or a status and DETAIL to retire with at once. A sprout without one
named no whole line of a VALID entry (R540). -/
def State.admission (s : State) (q : Queue) (d : List Byte) (ref : TaskRef) (slot : Nat)
    (sprouter : Option TaskRef) : Task × Option (Nat × Nat) :=
  let op := fieldOf d 0 2
  let flags := fieldOf d 2 2
  let fence := isFence op
  let base : Task :=
    { ref := ref, opcode := op, irq := natBit flags 0, runOnFail := natBit flags 1, mask := fieldOf d 4 1,
      pattern := if fence then fieldOf d 8 4 else 0
      patternLen := 0, program := fieldOf d 0xC 4, param := 0,
      fenceValue := if fence then fieldOf d 0x10 8 else 0
      userTag := BitVec.ofNat 32 (fieldOf d 0x38 4), copy := q.copy, slot := slot, order := s.q.nextOrder, aged := false,
      edges := [], sprouter := sprouter, phase := .waiting, progress := 0, engines := 0, still := 0, lastProgress := 0,
      wholeInterval := false, waitSince := none, block := [] }
  if q.state = .guilty then (base, some (if q.cause = 1 then 0x0102 else 0x0400, 0))
  else if isSprout ref.seq && d.isEmpty then (base, some (0x0201, 0xFFFFFFFF))
  else
    match descriptorRefusal q d with
    | some off => (base, some (0x0200, off))
    | none =>
      if fence then
        match s.q.fences.find? fun f => f.num == base.pattern && f.pasid == q.pasid with
        | some _ => (base, none)
        | none => (base, some (0x0201, 0x08))
      else if (blockSize op).getD 0 ≠ 0 ∧ tablePoisoned s.mem q q.copy = true then (base, some (0x0201, poisonDetail))
      else
        let pat : Except Nat (Nat × Nat) :=
          if op = 1 ∨ op = 0x12 then
            match relocate s.mem q (fieldOf d 8 4) 0 256 0x08 with
            | .error e => if fieldOf d 8 4 = 0 ∧ op = 0x12 then .ok (0, 0) else .error e
            | .ok p => .ok p
          else .ok (0, 0)
        let par := if (blockSize op).getD 0 = 0 then .ok (0, 0)
          else relocate s.mem q (fieldOf d 0x10 4) (fieldOf d 0x14 4) ((blockSize op).getD 0) 0x10
        match pat, par, readEdges s.mem q d with
        | .error e, _, _ => (base, some (0x0201, e))
        | _, .error e, _ => (base, some (0x0201, e))
        | _, _, .error e => (base, some (0x0201, e))
        | .ok p, .ok b, .ok ws =>
          let t := { base with pattern := p.1, patternLen := p.2, param := b.1 }
          let targets := ws.mapIdx fun i w => ({ index := i, target := edgeTarget w } : Edge)
          match targets.find? fun e => !s.edgeKnown q e.target with
          | some e => (t, some (0x0201, 2 ^ 30 + e.index))
          | none =>
            match if t.runOnFail then none else targets.find? fun e => s.edgeFailed e.target with
            | some e => (t, some (0x0100, e.index))
            | none => ({ t with edges := targets.filter fun e => !s.edgeRetired e.target }, none)

/-- Unretired tasks of a queue. -/
def State.unretired (s : State) (n : Nat) : Nat := (s.q.tasks.filter fun t => t.ref.queue == n).length

/-- Whether a bound slot fetches a queue's next descriptor: one that its quota and the bound on SEQ - DONE_SEQ leave room for
beside those already fetched (R391, R394). -/
def State.fetchable (s : State) (q : Queue) : Bool :=
  q.toFetch && decide (q.head + 1 ≤ q.doneSeq + q.size) && decide (s.unretired q.num + q.fetched.length < q.quota)

/-- Edge entries in use. -/
def State.edgesUsed (s : State) : Nat := sumNat (s.q.tasks.map fun t => t.edges.length)

/-- Whether the headgate admits at all: full service, link up, session attached (R49, R369). -/
def State.admitting (s : State) : Bool := s.serving && s.hostOpen

/-- The next descriptor to admit: the sprout lane's first, else the first fetched (which of the two first, log 24). -/
def Queue.nextDescriptor (q : Queue) : Option (Bool × Nat × Nat × List Byte) :=
  match q.lane, q.fetched with
  | (k, d) :: _, _ => some (true, k, 32, d)
  | [], (p, slot, d) :: _ => some (false, p, slot, d)
  | [], [] => none

/-- Change fence n. -/
def State.setFence (s : State) (n : Nat) (f : Fence → Fence) : State :=
  { s with q := { s.q with fences := modifyIf (fun x => x.num == n) f s.q.fences } }

/-- A FENCE_SIGNAL that is not executed sets its fence with ERR when its queue is destroyed or reset (step 6 of R411). -/
def State.breakSignal (s : State) (t : Task) : State :=
  if t.opcode = 0x20 then
    match s.queue t.ref.queue with
    | some q =>
      if s.q.fences.any fun f => f.num == t.pattern && f.pasid == q.pasid then
        s.setFence t.pattern fun f => { f with value := max f.value t.fenceValue, err := true }
      else s
    | none => s
  else s

/-- A descriptor of a GUILTY queue enters the scoreboard only to retire with the guilt status, its records in ascending SEQ
(R411, R414). -/
def State.addEnding (s : State) (t : Task) (status : Nat) : State :=
  { s with q := { s.q with tasks := s.q.tasks ++ [{ t with phase := .ending status 0 false }] } }.breakSignal t

/-- TASK_ADMIT (R380-R383, R389-R391, R414): the bound queue's next descriptor enters the scoreboard, or retires at once;
while it cannot be admitted the slot releases the queue (R394). -/
def execTaskAdmit (slot : Nat) (s : State) : Host.Outcome State Fault Refusal :=
  .next (s.run fun s =>
    if !s.admitting then s
    else
      match (s.slot slot).bound.bind s.queue with
      | none => s
      | some q =>
        match q.nextDescriptor with
        | none => if s.fetchable q then s else s.releaseSlot slot
        | some (sprout, k, from_, d) =>
          let seq := if sprout then 2 ^ 63 + k else k + 1
          let ref : TaskRef := { queue := q.num, seq := seq }
          let sprouter := if sprout then (s.grid.runs.find? fun r => r.ref.queue == q.num).map (·.ref) else none
          let held := !sprout && (match q.hswap with | some p => q.below p | none => false)
          let a := s.admission q d ref (if sprout then slot else from_) sprouter
          let room := decide (s.unretired q.num < q.quota) && decide (s.q.tasks.length < 262144)
            && decide (s.edgesUsed + a.1.edges.length ≤ 1048576)
          let fits := sprout || decide (seq ≤ q.doneSeq + q.size)
          if held || !fits || !room then s.releaseSlot slot
          else
            let s := if (blockSize a.1.opcode).getD 0 ≠ 0 ∨ 4 < fieldOf d 6 2 then s.wakeChannels else s
            let s := s.setQueue q.num fun q =>
              if sprout then { q with lane := q.lane.drop 1, admittedSprouts := k }
              else { q with fetched := q.fetched.drop 1, admitted := k + 1 }
            let s := { s with q := { s.q with nextOrder := s.q.nextOrder + 1 } }
            let s := match a.2 with
              | some (status, detail) =>
                if q.state = QueueState.guilty then s.addEnding a.1 status
                else s.retire a.1 status detail false
              | none => { s with q := { s.q with tasks := s.q.tasks ++ [a.1] } }
            match s.queue q.num with
            | some q' => if q'.work && decide ((s.slot slot).burst < 64 ∨ !q'.fetched.isEmpty) then s else s.releaseSlot slot
            | none => s)

/-! ### Slots -/

/-- SLOT_BIND (R394): a free enabled slot takes the queue of its level that has waited longest. -/
def execSlotBind (slot queue : Nat) (s : State) : Host.Outcome State Fault Refusal :=
  .next (s.run fun s =>
    let t := s.slot slot
    let level := fun n => (s.queue n).map (·.level)
    let first := s.q.waiting.find? fun n => level n == some (t.cfg.force % 4)
    if s.admitting && decide (slot < 32) && t.bound.isNone && natBit t.cfg.force 2 && first == some queue then
      { s with
        q :=
          { s.q with
            slots := modifyAt (fun t => { t with bound := some queue, burst := 0 }) slot s.q.slots
            waiting := s.q.waiting.filter (· != queue) } }
    else s)

/-- DESCRIPTOR_FETCH (R374, R391, R394): up to 64 per binding; a line that does not translate counts in FETCH_FAULTS and releases
the queue, as does a queue with nothing to admit. -/
def execDescriptorFetch (slot : Nat) (line : Option (List Byte)) (s : State) : Host.Outcome State Fault Refusal :=
  .next (s.run fun s =>
    match (s.slot slot).bound.bind s.queue with
    | none => s
    | some q =>
      if !s.admitting || !q.toFetch || decide (64 ≤ (s.slot slot).burst) then s
      else if !s.fetchable q then (if q.nextDescriptor.isNone then s.releaseSlot slot else s)
      else
        match line with
        | none =>
          (s.setQueue q.num fun q => { q with fetchFaults := q.fetchFaults + 1, backoff := true }).releaseSlot slot
        | some d =>
          let s := s.setQueue q.num fun q => { q with fetched := q.fetched ++ [(q.head, slot, d)], head := q.head + 1 }
          { s with
            q :=
              { s.q with
                slots := modifyAt (fun t => { t with burst := t.burst + 1, fetched := (t.fetched + 1) % 2 ^ 64 }) slot s.q.slots } })

/-- FETCH_RETRY (R374): the queue waits for a slot again. -/
def execFetchRetry (queue : Nat) (s : State) : Host.Outcome State Fault Refusal :=
  .next (s.whenLive fun s => (s.setQueue queue fun q => { q with backoff := false }).noteWork queue)

/-- SLOT_TIMEOUT (R394). -/
def execSlotTimeout (slot : Nat) (s : State) : Host.Outcome State Fault Refusal :=
  .next (s.whenLive fun s => s.releaseSlot slot)

/-! ### Dispatch order -/

/-- Whether a task's predecessor in its ORDERED queue has retired (R392). -/
def State.inOrder (s : State) (t : Task) : Bool :=
  match s.queue t.ref.queue with
  | some q =>
    !q.ordered
      || s.q.tasks.all fun u =>
        !(u.ref.queue == t.ref.queue && isSprout u.ref.seq == isSprout t.ref.seq && decide (u.ref.seq < t.ref.seq))
          && some u.ref != t.sprouter
  | none => false

/-- A ready task (R395). -/
def State.isReady (s : State) (t : Task) : Bool :=
  t.phase == .waiting && t.edges.isEmpty && t.waitSince.isNone && s.inOrder t
    && match s.queue t.ref.queue with | some q => q.state == .active | none => false

/-- The level a task is dispatched at: 0 once aged (R395). -/
def State.levelOf (s : State) (t : Task) : Nat :=
  if t.aged then 0 else match s.queue t.ref.queue with | some q => q.level | none => 3

/-- Whether t comes before u in dispatch order (R395). -/
def State.before (s : State) (t u : Task) : Bool :=
  decide (s.levelOf t < s.levelOf u) || (s.levelOf t == s.levelOf u && decide (t.order < u.order))

/-- A free engine (R395); a bank-off engine reading OFF is free for a load only (R463). -/
def engineFree (e : Engine) : Bool := (e.state == 1 || e.state == 2) && e.task.isNone

/-- The copy engines' domain is ON (R460). -/
def State.copyPowered (s : State) : Bool := (s.domain 113).state == 2

/-- The lowest free copy engine that takes tasks (R400), once their domain is ON (R460). -/
def State.freeCopyEngine (s : State) : Option Nat :=
  (List.range 4).find? fun c =>
    let ce := s.copyEngine c
    s.copyPowered && natBit ce.cfg.force 0 && ce.task.isNone && (ce.state == 0 || ce.state == 4)

/-- Whether what a task occupies is free (R379, R395). A RUN dispatched to an engine that is OFF finds no pattern there and
retires (R463), so OFF engines do not hold it back. -/
def State.resourcesFree (s : State) (t : Task) : Bool :=
  match t.opcode with
  | 0x0001 => (bitsOf 8 t.mask).all fun e => engineFree (s.engine e) || ((s.engine e).state == 0 && (s.engine e).task.isNone)
  | 0x0011 => s.freeCopyEngine.isSome
  | 0x0012 => s.freeCopyEngine.isSome
  | 0x0010 => match s.host.commit with | some c => c.profile.isNone | none => true
  | _ => true

/-- Whether the control core dispatches t now: it is ready, what it needs is free and not kept for an aged task before it,
and no other such task comes before it (R369, R395). -/
def State.mayDispatch (s : State) (t : Task) : Bool :=
  let could := fun (u : Task) =>
    s.isReady u && s.resourcesFree u
      && !(s.q.tasks.any fun a => a.aged && s.isReady a && a.opcode == 1 && u.opcode == 1 && a.ref != u.ref && s.before a u
        && (a.mask &&& u.mask) != 0)
  s.admitting && could t && !(s.q.tasks.any fun u => u.ref != t.ref && s.before u t && could u)

/-- Dispatch a task of an opcode: f takes the task. -/
def State.dispatch (s : State) (r : TaskRef) (opcode : Nat) (f : Task → State → State) : State :=
  match s.task r with
  | some t => if t.opcode == opcode && s.mayDispatch t then f t s else s
  | none => s

/-- TASK_AGEING (R395): a ready task that has waited 50 ms is treated as level 0. -/
def execTaskAgeing (task : TaskRef) (s : State) : Host.Outcome State Fault Refusal :=
  .next (s.whenLive fun s =>
    match s.task task with
    | some t => if s.isReady t then s.setTask task fun t => { t with aged := true } else s
    | none => s)

/-- NOP (R379): retires at dispatch. -/
def execNop (task : TaskRef) (s : State) : Host.Outcome State Fault Refusal :=
  .next (s.run fun s => s.dispatch task 0x0000 fun t s => s.retire t 0 0 false)

/-! ### Fences -/

/-- Fence n. -/
def State.fence (s : State) (n : Nat) : Option Fence := s.q.fences.find? fun f => f.num == n

/-- FENCE_SIGNAL (R393). -/
def execFenceSignal (task : TaskRef) (s : State) : Host.Outcome State Fault Refusal :=
  .next (s.run fun s => s.dispatch task 0x0020 fun t s =>
    (s.setFence t.pattern fun f => { f with value := max f.value t.fenceValue }).retire t 0 0 false)

/-- FENCE_WAIT (R393, R415): retires when the fence is there, with FENCE_ERR where ERR is 1; else it registers its wait. -/
def execFenceWait (task : TaskRef) (s : State) : Host.Outcome State Fault Refusal :=
  .next (s.run fun s => s.dispatch task 0x0021 fun t s =>
    match s.fence t.pattern with
    | some f =>
      if t.fenceValue ≤ f.value then s.retire t 0 0 f.err
      else s.setTask task fun t => { t with waitSince := some s.cnt.stitch }
    | none => s.setTask task fun t => { t with waitSince := some s.cnt.stitch })

/-- FENCE_WAIT_SATISFIED (R393). -/
def execFenceWaitSatisfied (task : TaskRef) (s : State) : Host.Outcome State Fault Refusal :=
  .next (s.whenLive fun s =>
    match s.task task with
    | some t =>
      match s.fence t.pattern with
      | some f =>
        if t.opcode = 0x21 ∧ t.waitSince.isSome ∧ t.phase = .waiting ∧ t.fenceValue ≤ f.value then s.retire t 0 0 f.err
        else s
      | none => s
    | none => s)

/-- FENCE_CTL's action (R408). -/
def fenceAction (s : State) : Nat := s.arg 0 % 4

/-- FENCE_CTL, allocate (R393, R408): the lowest fence that is not allocated. -/
def execFenceAllocate (s : State) : Host.Outcome State Fault Refusal :=
  .next (s.run fun s => if fenceAction s ≠ 0 then s else s.admin 0x0108 fun s =>
    if s.arg 0 ≥ 4 ∨ 2 ^ 20 ≤ s.arg 2 then (2, [], s)
    else
      match (List.range 4096).find? fun n => (s.fence n).isNone with
      | some n =>
        (0, [(0, n), (1, 0)],
          { s with q := { s.q with fences := s.q.fences ++ [{ num := n, pasid := s.arg 2, value := 0, err := false }] } })
      | none => (3, [], s))

/-- FENCE_CTL, free (R408). -/
def execFenceFree (s : State) : Host.Outcome State Fault Refusal :=
  .next (s.run fun s => if fenceAction s ≠ 1 then s else s.admin 0x0108 fun s =>
    if s.arg 0 ≥ 4 then (2, [], s)
    else
      match s.fence (s.arg 1) with
      | some f => (0, [(0, f.num), (1, f.value)], { s with q := { s.q with fences := s.q.fences.filter fun x => x.num != f.num } })
      | none => (3, [], s))

/-- FENCE_CTL, clear ERR (R408). Action 3 is no action and returns BAD_ARG here. -/
def execFenceClearErr (s : State) : Host.Outcome State Fault Refusal :=
  .next (s.run fun s => if fenceAction s < 2 then s else s.admin 0x0108 fun s =>
    if s.arg 0 ≠ 2 then (2, [], s)
    else
      match s.fence (s.arg 1) with
      | some f => (0, [(0, f.num), (1, f.value)], s.setFence f.num fun x => { x with err := false })
      | none => (3, [], s))

/-! ### Queue commands -/

/-- QUEUE_CREATE (R373, R408). -/
def execQueueCreate (s : State) : Host.Outcome State Fault Refusal :=
  .next (s.run fun s => s.admin 0x0101 fun s =>
    let a0 := s.arg 0
    let n := a0 % 2 ^ 16
    let order := natBits a0 24 4
    let pasid := natBits (s.arg 4) 0 20
    let quota := natBits (s.arg 4) 32 16
    let handles := s.arg 6
    if 2 ^ 28 ≤ a0 ∨ natBits a0 20 4 ≠ 0 ∨ (1024 ≤ n ∧ n ≠ 0xFFFF) ∨ 10 < order ∨ s.arg 1 % 4096 ≠ 0
        ∨ s.arg 2 % 4096 ≠ 0 ∨ s.arg 3 % 16 ≠ 0 ∨ quota < 1 ∨ 16384 < quota ∨ natBits (s.arg 4) 20 12 ≠ 0
        ∨ 2 ^ 48 ≤ s.arg 4 ∨ s.arg 5 % 64 ≠ 0 ∨ handles < 2 ∨ 65536 < handles then (2, [], s)
    else
      let pick := if n = 0xFFFF then (List.range 1024).find? fun k => (s.queue k).isNone
        else if (s.queue n).isNone then some n else none
      match pick with
      | none => (3, [], s)
      | some k =>
        if !s.mem.inSoft (s.arg 5) (32 * handles) then (5, [], s)
        else
          let q : Queue :=
            { num := k, ringAddr := s.arg 1, complAddr := s.arg 2, doneAddr := s.arg 3, order := order, pasid := pasid,
              level := natBits a0 16 2, ordered := natBit a0 18, irq := natBit a0 19, quota := quota, handleBase := s.arg 5,
              handles := handles, state := .active, cause := 0, tail := 0, head := 0, sproutAck := 0, doneSeq := 0,
              sproutDone := 0, badDoorbells := 0, fetchFaults := 0, copy := 0, hswap := none, fetched := [], lane := [],
              sprouts := 0, admitted := 0, admittedSprouts := 0, failed := [], retired := [], backoff := false, purgeTo := 0,
              retiredCount := 0, dropped := 0, purged := 0 }
          (0, [(0, k)], { s with q := { s.q with queues := s.q.queues ++ [q] } }))

/-- QUEUE_QUERY (R408): a FREE queue shows zeros. -/
def execQueueQuery (s : State) : Host.Outcome State Fault Refusal :=
  .next (s.run fun s => s.admin 0x0103 fun s =>
    if 1024 ≤ s.arg 0 then (2, [], s)
    else
      match s.queue (s.arg 0) with
      | some q =>
        (0,
          [(0, doorbellState q), (1, q.head), (2, q.doneSeq), (3, q.sproutDone), (4, s.unretired q.num), (5, q.badDoorbells),
            (6, q.fetchFaults)],
          s)
      | none => (0, (List.range 7).map fun k => (k, 0), s))

/-- QUEUE_REARM (R414): fetching resumes at HEAD. -/
def execQueueRearm (s : State) : Host.Outcome State Fault Refusal :=
  .next (s.run fun s => s.admin 0x0104 fun s =>
    match s.queue (s.arg 0) with
    | some q =>
      if q.state = .guilty then
        (0, [], (s.setQueue q.num fun q => { q with state := .active, cause := 0 }).noteWork q.num)
      else (3, [], s)
    | none => (3, [], s))

end Sys2Proof.Machine
end

