-- ==== Sys2Proof/Machine/Load.lean ====
section
/-! DEFINITION. LOAD_PATTERN: dispatch, check phase, array phase and load report (R76-R85, R132, R172, R198, R220, R228,
R262, R291-R293, R337, R338, R444, R463, R541). -/

namespace Sys2Proof.Machine

/-! ### Task blocks -/

/-- DETAIL of a parameter-block field (R404). -/
def blockDetail (off : Nat) : Nat := 2 ^ 31 + off

/-- Whether an unmirrored channel is lost, so that no task reaches device DRAM (R447). -/
def State.dramDead (s : State) : Bool := !s.mem.lost.isEmpty

/-- Dispatch a task that has a parameter block: CANCELLED with device DRAM lost (R447), HANDLE_INVALID on a poisoned block
(R446) and on one in the host window, where a block may not lie (R318), else f with the queue and the block, which the task keeps.
Reading it wakes the channels (R331). A RUN with such a block goes on to HELD, its block read as zeros (log 40). -/
def State.dispatchBlock (s : State) (r : TaskRef) (opcode : Nat) (f : Task → Queue → List Byte → State → State) : State :=
  s.dispatch r opcode fun t s =>
    match s.queue t.ref.queue with
    | some q =>
      if s.dramDead then s.endTask r 0x0100 0xFFFFFFFE
      else
        let n := (blockSize opcode).getD 0
        if hostWindow ≤ t.param then
          if opcode = 1 then f t q (zeroBytes n) (s.setTask r fun t => { t with block := zeroBytes n })
          else s.endTask r 0x0201 0x10
        else if s.mem.poisonIn t.param n = true then s.wakeChannels.endTask r 0x0201 poisonDetail
        else
          let b := s.mem.bytes t.param n
          f t q b (s.wakeChannels.setTask r fun t => { t with block := b })
    | none => s

/-- The first failing check of a list of (field offset, failed), as DETAIL. -/
def firstBlockFault (checks : List (Nat × Bool)) : Option Nat := (checks.find? (·.2)).map fun c => blockDetail c.1

/-- The address checks of a parameter block against the task's handle table (R383): (field, address, bytes, write). -/
def State.addressFault (s : State) (q : Queue) (t : Task) (as : List (Nat × Nat × Nat × Bool)) : Option Nat :=
  (as.find? fun a => !granted s.mem q t.copy a.2.1 a.2.2.1 a.2.2.2).map fun a => blockDetail a.1

/-! ### Costs (R131, R172, R228, R293) -/

/-- Engines of a whole run of a pattern, over all devices. -/
def Header.allEngines (h : Header) : Nat := if h.shards ≤ 1 then h.perShard else h.shards * h.perShard

/-- Whether a device that hosts the shards of a mask runs the pattern with other devices. -/
def Header.isJoined (h : Header) (mask : Nat) : Bool := decide (1 < h.shards) && decide (popCount 64 mask < h.shards)

/-- Boundary work without link costs (R131). -/
def boundaryWork (h : Header) : Nat := if 1 < h.allEngines then 26 else 14

/-- A_L where the run is joined, else 0. -/
def linkCost (h : Header) (joined : Bool) : Nat := if joined then linkAllowance h.profile else 0

/-- Cycles of a patchwork tick with n label rounds and u column updates at most (R131, R293). -/
def patchworkCycles (h : Header) (d : Ditch) (j : ShardPlan) (joined : Bool) (n u : Nat) : Nat :=
  let a := linkCost h joined
  let round := d.wN + 6 + (j.hN + j.dX) * a
  (if h.nGroups = 0 then 8 else 10) + round + n * round + 2 + (d.wS + j.hS * a) + (cdiv u 8 + 3) + boundaryWork h + j.dX * a

/-- P of R172 and R293. -/
def slotPath (h : Header) (d : Ditch) (j : ShardPlan) (joined : Bool) : Nat :=
  if joined then d.wR + 32 + (j.hP + 2 * j.dX) * linkCost h joined
  else d.wR + if 1 < h.allEngines then 32 else 20

/-- The harvest budget (R228, R293). -/
def harvestBudget (h : Header) (d : Ditch) (j : ShardPlan) (joined : Bool) : Nat :=
  let a := linkCost h joined
  (d.wH + j.hS * a) + (cdiv d.eOwn 8 + 2) + (d.wS + j.hS * a) + (cdiv d.xMax 8 + 3) + (d.wN + j.dX * a) + boundaryWork h
    + j.dX * a

/-! ### Check phase -/

/-- Physical engines of aligned group g of e engines (R291). -/
def groupEngines (e g : Nat) : List Nat := (List.range e).map fun k => e * g + k

/-- Bytes of the plan at an offset of the DITCH_PLAN section: up to the next plan or the section's end. -/
def planLength (dir : List (Nat × Nat × Nat)) (shards : List ShardEntry) (off : Nat) : Nat :=
  ((shards.flatMap (·.plans)).filter fun x => decide (off < x)).foldl min (sectionAt dir 7).2 - off

/-- The plan of a shard for aligned group k; none where the table gives no plan, or without the section. -/
def planOf (g : Reader) (h : Header) (dir : List (Nat × Nat × Nat)) (shards : List ShardEntry) (shard k : Nat) : Option PlanAt :=
  let at_ := fun (off : Nat) (es : List Nat) => some
    ({ read := (section_ g dir 7).from off, length := planLength dir shards off, engines := es, offset := off, shard := shard } : PlanAt)
  if !present dir 7 then none
  else if h.shards ≤ 1 then at_ 0 (bitsOf 8 h.mask)
  else match shards[shard]? with
    | some e => match e.plans.getD k 0 with
      | 0 => none
      | off => at_ off (groupEngines h.perShard k)
    | none => none

/-- The plans a device may use for the shards of a mask. -/
def plansHere (g : Reader) (h : Header) (dir : List (Nat × Nat × Nat)) (shards : List ShardEntry) (mask : Nat) : List PlanAt :=
  if h.shards ≤ 1 then (planOf g h dir shards 0 0).toList
  else (bitsOf h.shards mask).flatMap fun i =>
    (List.range (8 / max 1 h.perShard)).filterMap fun k => planOf g h dir shards i k

/-- West-edge figures against the share of each die row (R262). -/
def edgeFaults (d : Ditch) (engines : List Nat) : List (Nat × Nat) :=
  let south := 16 * (engines.filter fun e => decide (e < 4)).length
  let north := 16 * (engines.filter fun e => decide (4 ≤ e)).length
  chk (decide (south < d.edges.getD 0 0) || decide (south < d.edges.getD 1 0) || decide (north < d.edges.getD 2 0)
    || decide (north < d.edges.getD 3 0)) 0x06 noDetail

/-- Reserved bytes of a ditch plan's header (R261). -/
def ditchFaults (h : Header) (g : Reader) (d : Ditch) : List (Nat × Nat) :=
  chk (!g.zero 0x20 32 || decide (8 < d.capture) || (h.mode == 0 && d.wR != 0) || (!h.learning && d.wH != 0)
    || d.edges.any fun x => decide (64 < x)) 0x0E 7

/-- The limits of R66 to R68 on header and section counts. A shard of a whole-cloth pattern holds a row part for each variable record, so
that the parts of a row may lie in different shards (R68, R170); S_VARS counts the variables whose part 0 it holds (log 77,
DEDUCED). -/
def limitFaults (g : Reader) (h : Header) (dir : List (Nat × Nat × Nat)) (shards : List ShardEntry) (mask : Nat) :
    List (Nat × Nat) :=
  let e := h.perShard
  let hosted := if h.shards ≤ 1 then [0] else bitsOf h.shards mask
  let part := fun t (off : Nat) => (section_ g dir t).from off
  let records := readParts g h dir
  let rows := fun (i : Nat) => match records[i]? with | some p => p.vars | none => []
  let counts := hosted.map fun i =>
    match shards[i]? with
    | some x =>
      ((if h.mode = 1 then (part 1 x.placement) 8 4 else if h.shards ≤ 1 then h.nVars else x.vars), (part 3 x.couplings) 8 8,
        (part 4 x.outliers) 8 8, (part 5 x.third) 8 8)
    | none => (0, 0, 0, 0)
  let past := fun (f : Nat × Nat × Nat × Nat → Nat) (engine device : Nat) =>
    decide (device < sumNat (counts.map f)) || counts.any fun c => decide (e * engine < f c)
  let perEntry := if h.learning then (26841088, 214728704) else (44736512, 357892096)
  chk (if h.mode = 0 then past (·.1) 131072 1048576 else past (·.1) 4096 32768) 0x06 noDetail
    ++ chk (h.mode == 1 && (decide (131072 < h.nVars) || (decide (h.shards ≤ 1) && decide (4096 * e < h.nVars * h.parts)))) 0x06 noDetail
    ++ chk (decide (h.shards ≤ 1) && h.mode == 0
        && (decide (perEntry.1 * e < 2 * h.nCouplings) || decide (393216 * e < 3 * h.nThird))) 0x06 noDetail
    ++ chk (h.mode == 0 && past (·.2.1) perEntry.1 perEntry.2) 0x06 noDetail
    ++ chk (h.coding == 1 && past (·.2.2.1) 524288 4194304) 0x09 noDetail
    ++ chk (past (·.2.2.2) 393216 3145728) 0x06 noDetail
    ++ chk (h.resident == 0 || decide ((if h.mode = 1 then 256 else 64) < h.resident) || decide (4096 < h.total)
        || (if h.mode = 1 then h.total != h.resident else h.total % max 1 h.resident != 0 || h.total == 0)) 0x06 noDetail
    ++ chk (h.rungs == 0 || decide (64 < h.rungs)) 0x06 noDetail
    ++ chk (decide (h.tickLen < (if h.mode = 1 then 112 else 64)) || decide (4096 < h.tickLen)) 0x06 noDetail
    ++ (if h.shards ≤ 1 || !present dir 11 then [] else
        (List.range h.shards).flatMap fun i =>
          match shards[i]? with
          | some x =>
            chk ((present dir 1 && (((rows i).filter fun v => v.part == 0).length != x.vars || (part 1 x.placement) 4 4 != x.blocks))
              || (present dir 3 && (part 3 x.couplings) 8 8 != x.entries)
              || (if present dir 4 then (part 4 x.outliers) 8 8 != x.outEnds else x.outliers != 0 || x.outEnds != 0)
              || (if present dir 5 then (part 5 x.third) 8 8 != x.thirdEnds else x.third != 0 || x.thirdEnds != 0)) 0x0E 11
          | none => chk true 0x0E 11)

/-- Modes that a pattern may not combine (R61, R69, R96, R195, R220). -/
def modeFaults (h : Header) : List (Nat × Nat) :=
  chk ((h.form == 1 && h.nThird != 0) || (h.mode == 1 && (h.nThird != 0 || h.nGroups != 0 || h.learning))
    || (h.learning && (h.form != 0 || h.nThird != 0 || h.nGroups != 0 || h.period != 0))) 0x07 noDetail

/-- Learning limits of the check phase (R220, R224). -/
def learnHeaderFaults (g : Reader) (h : Header) (dir : List (Nat × Nat × Nat)) (l : Learn) (budget : Nat) : List (Nat × Nat) :=
  if h.learning then
    let s := section_ g dir 12
    chk (h.total != h.resident || h.total % 2 != 0 || decide (16383 < h.total / 2 * l.rounds) || decide (l.harvest < budget)) 0x06
        noDetail
      ++ if !present dir 12 then [] else chk (l.window == 0 || decide (8 < l.window) || l.sb == 0 || l.lr == 0 || l.gInit == 0 || decide (32767 < l.gInit)
        || l.sweeps == 0 || l.rounds == 0 || decide (16383 < l.rounds) || decide (l.harvest < 64) || decide (16384 < l.harvest)
        || !s.zero 0x30 16) 0x0E 12
  else []

/-- Channels in service. -/
def State.channelsServing (s : State) : Nat := (s.dram.channels.filter fun c => c.state == 2 || c.state == 3).length

/-- The spool demand of R338 beyond the channels in service. -/
def spoolFault (s : State) (h : Header) (cores : Nat) : List (Nat × Nat) :=
  let w := if s.dram.mirrored then 2 else 1
  chk (h.mode == 0 && decide (h.resident < h.total)
    && decide (35200000000 * s.channelsServing * h.tickLen < (1 + w) * 64 * (3 * cores) * (clock50 h.profile * 50000000))) 0x06
    noDetail

/-- The running image's FWI_MINOR. -/
def State.fwiMinor (s : State) : Nat := match s.fw.running with | some i => i.minor | none => 0

/-- The hash of an image with its hash field zero (R73). -/
def imageHash (m : Mem) (addr len : Nat) : List Byte :=
  sha384 (m.bytes addr 0x10 ++ zeroBytes 48 ++ m.bytes (addr + 0x40) (len - 0x40))

/-- Shards and engines that do not fit (R85, R291). -/
def engineFaults (h : Header) (mask : Nat) : List (Nat × Nat) :=
  chk (if h.shards ≤ 1 then mask != 1
    else mask == 0 || decide (2 ^ h.shards ≤ mask) || !([1, 2, 4, 8].contains h.perShard)
      || decide (8 < popCount 64 mask * h.perShard)) 0x0D noDetail

/-- Blocks this device would place, as the part headers give (R541). -/
def blocksHere (g : Reader) (h : Header) (dir : List (Nat × Nat × Nat)) (shards : List ShardEntry) (mask : Nat) : Nat :=
  sumNat ((if h.shards ≤ 1 then [0] else bitsOf h.shards mask).map fun i =>
    match shards[i]? with | some x => section_ g dir 1 (x.placement + 4) 4 | none => 0)

/-- The lowest code of some failing checks, with the first DETAIL that carries it (R85). -/
def lowestFault (fs : List (Nat × Nat)) : Option (Nat × Nat) :=
  match fs with
  | [] => none
  | f :: rest =>
    let code := rest.foldl (fun m x => min m x.1) f.1
    fs.find? fun x => x.1 == code

/-- The parts of an image that form 0 of RANDOM_FILL and the check phase both check: PLACEMENT and ONE_HOT; hosted tells the shards
against whose device the limit of R63 holds. -/
def placementChecks (g : Reader) (h : Header) (dir : List (Nat × Nat × Nat)) (hosted : Nat → Bool) :
    List (Nat × Nat) × List VarRecord :=
  let parts := readParts g h dir
  let vars := parts.flatMap (·.vars)
  (placementFaults h parts ++ groupFaults g h dir hosted vars (readGroups g h dir), vars)

/-- Header, directory, hash and interface version (R77). -/
def imageFaults (s : State) (addr : Nat) (h : Header) (minor : Bool) : List (Nat × Nat) :=
  let g := imageAt s.mem addr
  headerFaults g h ++ directoryFaults g h (readDirectory g h)
    ++ chk (s.mem.poisonIn addr h.imageLen || imageHash s.mem addr h.imageLen != h.hash) 0x03 noDetail
    ++ chk (g 6 1 != 3 || (minor && decide (s.fwiMinor < h.fwiMinor))) 0x04 noDetail

/-- Every check of the check phase but the regions (R77). -/
def checkPhase (s : State) (addr mask : Nat) : List (Nat × Nat) :=
  let g := imageAt s.mem addr
  let h := readHeader g
  let dir := readDirectory g h
  let shards := readShards g h dir
  let j := readJoined g h dir
  let joined := h.isJoined mask
  let l := readLearn g dir
  let plans := plansHere g h dir shards mask
  let cores := sumNat ((if h.shards ≤ 1 then [0] else bitsOf h.shards mask).map fun i =>
    match shards[i]? with | some x => section_ g dir 1 (x.placement + 0x0C) 4 | none => 0)
  imageFaults s addr h true
    ++ chk ((if h.shards ≤ 1 then bitsOf 8 h.mask else List.range 8).any (fun e => (s.engine e).cur != h.profile)
        || (h.profile % 2 == 0 && !s.pow.fastOk)) 0x05 noDetail
    ++ limitFaults g h dir shards mask ++ modeFaults h ++ engineFaults h mask
    ++ chk (h.form == 0 && decide (2 ^ 62 < absNat h.const)) 0x0B noDetail
    ++ chk (present dir 7 && plans.isEmpty) 0x0E 7
    ++ plans.flatMap (fun p =>
        let d := readDitch p.read
        edgeFaults d p.engines ++ ditchFaults h p.read d ++ chk (decide (p.length < 64)) 0x0E 7
          ++ planFaults g h dir (readPlan g dir) d.capture
          ++ chk (if h.mode = 0 then d.nL == 0 || decide (h.tickLen < patchworkCycles h d j joined d.nL d.uMax)
              else decide (96 < d.wR) || decide (h.tickLen < max 112 (slotPath h d j joined))) 0x06 noDetail
          ++ learnHeaderFaults g h dir l (harvestBudget h d j joined))
    ++ shardFaults g h dir
    ++ chk (decide (1 < h.shards) && decide (64 * 2890 < section_ g dir 11 4 2 * (50 * clock50 h.profile))) 0x06 noDetail
    ++ spoolFault s h cores
    ++ scheduleFaults g h dir ++ programFaults g dir
    ++ (placementChecks g h dir fun i => decide (h.shards ≤ 1) || natBit mask i).1
    ++ if h.coding = 1 ∧ (headerFaults g h).isEmpty = true then (placeImage g h fun _ => true).limits else []

/-- The region checks of R541: the entry that holds the first 512 bytes holds the image, which lies in software DRAM; the
entry that holds REPORT_ADDR holds the report from there. -/
def regionFault (s : State) (q : Queue) (copy addr report mask : Nat) : Bool :=
  let g := imageAt s.mem addr
  let h := readHeader g
  let dir := readDirectory g h
  let room := fun a n (f : Nat × Nat × Bool → Bool) => (List.range q.handles).any fun k =>
    match handleRegion s.mem q copy k with
    | some r => decide (r.1 ≤ a) && decide (a + n ≤ r.1 + r.2.1) && f r
    | none => false
  let words := blocksHere g h dir (readShards g h dir) mask
  let full := 64 + (4 * words + 63) / 64 * 64
  !(room addr (max 512 h.imageLen) fun _ => true) || !s.mem.inSoft addr h.imageLen
    || !(room report full fun r => r.2.2)

/-- The load report (R84). -/
def reportBytes (code phase detail : Nat) (e0 : Int) (outliers maxRes : Nat) (residues : List Nat) (id : Nat) : List Byte :=
  toBytesLE 1 code ++ toBytesLE 1 phase ++ zeroBytes 2 ++ toBytesLE 4 detail ++ toBytesLE 8 (unsigned 64 e0)
    ++ toBytesLE 4 outliers ++ toBytesLE 4 maxRes ++ toBytesLE 4 residues.length ++ toBytesLE 4 id ++ zeroBytes 32
    ++ (let ws := residues.flatMap fun r => toBytesLE 4 r
        ws ++ zeroBytes ((64 - ws.length % 64) % 64))

/-- Completion status and DETAIL of a load result (R85, R404). -/
def loadStatus (code : Nat) : Nat × Nat :=
  if code ≤ 1 then (0, 0) else if code = 5 then (0x0203, 5) else (0x0202, code)

/-- A refused or finished load: report and end of the task. -/
def State.endLoad (s : State) (r : TaskRef) (report code phase detail id : Nat) : State :=
  let s := s.writeDram report (reportBytes code phase detail 0 0 0 [] id)
  let st := loadStatus code
  s.endTask r st.1 st.2

/-- Whether engine e is free for a load: free, or OFF without a task (R395, R463). -/
def State.freeForLoad (s : State) (e : Nat) : Bool :=
  engineFree (s.engine e) || ((s.engine e).state == 0 && (s.engine e).task.isNone)

/-- Whether an array phase may begin on engine e: it has left OFF and its domains are ON (R460, R463). -/
def State.ready (s : State) (e : Nat) : Bool := (s.engine e).state != 0 && s.powered e

/-- The domains of a load's engines begin to wake (R460, R463). -/
def State.wakeEngines (s : State) (es : List Nat) : State := (es.flatMap (engineNeeds s)).foldl State.wakeDomain s

/-- LOAD_PATTERN (R76, R77, R79, R354, R463, R541): dispatch, the check phase, and either the report, a refusal or the wait for the
array phase; it waits while a profile change is pending; an engine whose sequencer domain is OFF begins to wake. -/
def execLoadPattern (task : TaskRef) (s : State) : Host.Outcome State Fault Refusal :=
  .next (s.run fun s => if s.host.commit.any fun c => c.profile.isSome then s else s.dispatchBlock task 0x0010 fun t q b s =>
    let addr := fieldOf b 0 8
    let report := fieldOf b 8 8
    let mask := fieldOf b 0x10 8
    match firstBlockFault [(0, addr % 64 != 0), (8, report % 64 != 0), (0x18, decide (2 ≤ fieldOf b 0x18 1)),
      (0x19, fieldOf b 0x19 7 != 0)] with
    | some d => s.endTask task 0x0200 d
    | none =>
      match s.addressFault q t [(0, addr, 512, false), (8, report, 64, true)] with
      | some d => s.endTask task 0x0201 d
      | none =>
        if decide (hostWindow ≤ addr) || decide (hostWindow ≤ report) then
          s.endTask task 0x0201 (blockDetail (if hostWindow ≤ addr then 0 else 8))
        else
          let h := readHeader (imageAt s.mem addr)
          let id := bytesLE (h.hash.take 4)
          if regionFault s q t.copy addr report mask then s.endLoad task report 0x0F 0 noDetail id
          else
            match lowestFault (checkPhase s addr mask) with
            | some f => s.endLoad task report f.1 0 f.2 id
            | none =>
              if natBit (fieldOf b 0x18 1) 0 then s.endLoad task report 0x01 0 noDetail id
              else
                let l : Load := { ref := task, image := addr, report := report, shards := mask,
                                  engines := if h.shards ≤ 1 then bitsOf 8 h.mask else [], hash := h.hash }
                let s := { s with grid := { s.grid with loads := s.grid.loads ++ [l] } }.wakeEngines l.engines
                s.setTask task fun t => { t with phase := .running })

/-! ### Array phase -/

/-- The lowest free aligned groups for the shards of a load, in ascending shard order (R291). -/
def chooseGroups (s : State) (e : Nat) : List Nat → List Nat → Option (List (Nat × Nat))
  | [], _ => some []
  | shard :: rest, used =>
    match (List.range (8 / max 1 e)).find? fun g => !used.contains g && (groupEngines e g).all s.freeForLoad with
    | some g => (chooseGroups s e rest (used ++ [g])).map fun xs => (shard, e * g) :: xs
    | none => none

/-- Where a load's shards go, if its engines are free (R78, R291, R463); none while they are not. -/
def loadPlaces (s : State) (h : Header) (l : Load) : Option (List (Nat × Nat)) :=
  if h.shards ≤ 1 then
    if (bitsOf 8 h.mask).all s.freeForLoad then some [(0, 0)] else none
  else chooseGroups s h.perShard (bitsOf h.shards l.shards) []

/-- Physical engines of a pattern. -/
def enginesOf (h : Header) (places : List (Nat × Nat)) : List Nat :=
  if h.shards ≤ 1 then bitsOf 8 h.mask else places.flatMap fun p => (List.range h.perShard).map fun k => p.2 + k

/-- The physical engine of engine index j of a shard. -/
def Pattern.engineOf (p : Pattern) (shard j : Nat) : Nat :=
  if p.header.shards ≤ 1 then p.engines.getD j 0
  else match p.places.find? fun x => x.1 == shard with | some x => x.2 + j | none => 0

/-- Change an engine. -/
def State.setEngine (s : State) (e : Nat) (f : Engine → Engine) : State :=
  { s with grid := { s.grid with engines := modifyAt f e s.grid.engines } }

/-- Change engines. -/
def State.setEngines (s : State) (es : List Nat) (f : Engine → Engine) : State := es.foldl (fun s e => s.setEngine e f) s

/-- The physical column of a core: one further east from the fenced column of a repaired row on (R268). -/
def Engine.physical (g : Engine) (c : Core) : Nat :=
  match g.fenced.find? fun f => f.1 == c.row && g.repaired.contains c.row with
  | some f => if f.2 ≤ c.col then c.col + 1 else c.col
  | none => c.col

/-- The state of a run that cores hold: by lane, the replica in it. -/
abbrev Lanes := List (Nat × Replica)

/-- Replicas in their lanes as of each lane's last seal (R177); in a scoring run the states scored last. -/
def Run.lanes (r : Run) (p : Pattern) : Lanes :=
  let shown := fun (k : Nat) => match r.work.find? fun w => w.sealed && w.replica == k with
    | some w => w.reload.getD (r.replica k)
    | none => r.replica k
  if r.blk.kind = 1 then r.scored else r.resident.map fun k => (k % max 1 p.header.resident, shown k)

/-- The lanes of a pattern here, as sealed: those of its run, or as the last run has left them (R89, R162). -/
def State.lanesOf (s : State) (p : Pattern) : Lanes :=
  match s.grid.runs.find? fun r => r.pattern == p.id && r.begun with
  | some r => r.lanes p
  | none => p.left

/-- What a pattern leaves in the arrays of engine k (R89). -/
def State.leftOf (s : State) (p : Pattern) (k : Nat) : Left where
  pattern := { p with left := s.lanesOf p }
  cores := (p.here.filter fun c => p.engineOf c.shard c.engine == k).map fun c => (c.row, (s.engine k).physical c, c)

/-- Engines lose their pattern and every other engine that held the same load goes to IDLE with it (R79); the words of the arrays stay
(R89). -/
def State.unload (s : State) (es : List Nat) : State :=
  let ids := es.filterMap fun e => (s.engine e).pattern
  let gone := fun (g : Engine) => match g.pattern with | some i => ids.contains i | none => false
  { s with
    grid :=
      { s.grid with
        engines := s.grid.engines.mapIdx fun k g =>
          if gone g || es.contains k then
            { g with
              pattern := none, state := if g.state = 0 then 0 else 1, progress := 0
              left := ((g.pattern.bind s.pattern).toList.map fun p => s.leftOf p k) ++ g.left }
          else g
        patterns := s.grid.patterns.filter fun p => !ids.contains p.id } }

/-- Die rows a pattern places on: physical engine and row. -/
def Pattern.rowsUsed (p : Pattern) : List (Nat × Nat) := p.here.map fun c => (p.engineOf c.shard c.engine, c.row)

/-- The plans of the shards where they are placed. -/
def placedPlans (g : Reader) (h : Header) (places : List (Nat × Nat)) : List PlanAt :=
  let dir := readDirectory g h
  places.filterMap fun p => planOf g h dir (readShards g h dir) p.1 (p.2 / max 1 h.perShard)

/-- The plan that gives the ledger slots of a shard: where it is placed on this device, else its first plan, since every plan of a shard
assigns the slots alike (log 74). -/
def ledgerPlans (g : Reader) (h : Header) (places : List (Nat × Nat)) : List PlanAt :=
  let dir := readDirectory g h
  let shards := readShards g h dir
  (List.range (max 1 h.shards)).filterMap fun i =>
    match places.find? fun p => p.1 == i with
    | some p => planOf g h dir shards i (p.2 / max 1 h.perShard)
    | none => (List.range 8).findSome? fun k => planOf g h dir shards i k

/-- The pattern record of a placed image. -/
def buildPattern (id addr : Nat) (g : Reader) (h : Header) (places : List (Nat × Nat)) (placed : Placed) : Pattern :=
  let dir := readDirectory g h
  let sched := readSchedule g dir
  let plans := placedPlans g h places
  let plan := match plans with | p :: _ => p.read | [] => section_ g dir 7
  let here := placed.cores.filter fun c => places.any fun q => q.1 == c.shard
  { id := id, hash := h.hash, tickLen := h.tickLen, image := addr, header := h, engines := enginesOf h places, places := places,
    e0 := placed.e0, blocks := placed.blocks, cores := placed.cores, temps := sched.1, changes := sched.2,
    plan := readPlan g dir, ditch := readDitch plan, learn := readLearn g dir, joined := readJoined g h dir,
    programs := readPrograms g dir, routers := plans.flatMap (·.routers h.hash), reads := plans.flatMap (·.reads h.hash),
    ledger := (ledgerPlans g h places).flatMap (·.ledger), shadow := here, shadowed := true, left := [] }

end Sys2Proof.Machine
end

