-- ==== Sys2Proof/Machine/Results.lean ====
section
/-! DEFINITION. What a run keeps and returns (R178-R190, R196-R219, R245, R290): rungs and temperatures, the best record and
elite pool, samples, statistics, histograms, the results area, and the rings. -/

namespace Sys2Proof.Machine

/-! ### Runs -/

/-- The run of a task. -/
def State.run? (s : State) (r : TaskRef) : Option Run := s.grid.runs.find? fun x => x.ref == r

/-- Change the run of a task. -/
def State.setRun (s : State) (r : TaskRef) (f : Run → Run) : State :=
  { s with grid := { s.grid with runs := modifyIf (fun x => x.ref == r) f s.grid.runs } }

/-- Engines of a run. -/
def Run.engines (r : Run) : List Nat := bitsOf 8 r.mask

/-- The lowest engine of a run, the SOURCE of its events where a rule names none. -/
def Run.lead (r : Run) : Nat := r.engines.headD 0

/-- Whether a run spans devices: several shards, not all hosted here (R290). -/
def Pattern.spansDevices (p : Pattern) : Bool := decide (1 < p.header.shards) && decide (p.places.length < p.header.shards)

/-- The cores whose fields this device keeps for a run: in Loose mode those of its own shards; otherwise every core, for the
bits of a tick are the same on every device of a run (R166, R302; log 32). -/
def Run.cores (r : Run) (p : Pattern) : List Core := if r.blk.loose then p.here else p.cores

/-- A replica built in a state: V over every core of the run (R113, R123). -/
def Run.build (r : Run) (p : Pattern) (spins : List Bool) : Replica :=
  let rep := Replica.build p.header.mode (r.cores p) spins
  if r.blk.loose ∧ p.spansDevices = true then { rep with v := (Replica.build p.header.mode p.cores spins).v } else rep

/-! ### Rungs and temperatures -/

/-- Rungs of a ladder. -/
def Pattern.rungs (p : Pattern) : Nat := max 1 p.header.rungs

/-- Ladders (R200). -/
def Pattern.ladders (p : Pattern) : Nat := cdiv p.header.total p.rungs

/-- The rung map in force for tick t: position ladder * rungs + rung holds the replica there (R189, R190). -/
def Run.mapAt (r : Run) (t : Nat) : List Nat :=
  match r.pendMap with
  | some (a, m) => if a ≤ t then m else r.rungMap
  | none => r.rungMap

/-- The position of a replica in a rung map. -/
def placeIn (map : List Nat) (rep : Nat) : Nat := (map.findIdx? (· == rep)).getD 0

/-- The rung and the ladder of a replica in tick t. -/
def Run.rungAt (r : Run) (p : Pattern) (rep t : Nat) : Nat × Nat :=
  let k := placeIn (r.mapAt t) rep
  (k % p.rungs, k / p.rungs)

/-- TEMP of a rung in tick t: that of the copy with the greatest FIRST_TICK up to t (R182). -/
def Run.tempAt (r : Run) (rung t : Nat) : Nat :=
  ((r.weir.filter fun w => w.rung == rung && decide (w.first ≤ t)).foldl
    (fun (best : Nat × Nat) w => if best.1 ≤ w.first then (w.first, w.temp) else best) (0, 0)).2

/-- Whether the copy that a rung needs in tick t has been built (R183). -/
def Run.weirReady (r : Run) (rung t : Nat) : Bool :=
  !(r.due ++ r.later).any fun c => c.rung == rung && decide (c.tick ≤ t)

/-- Order of rebuilds: by AT, then by rung (R181). -/
def changeBefore (a b : Change) : Bool := decide (a.tick < b.tick) || (a.tick == b.tick && decide (a.rung < b.rung))

/-- Insert a change by that order. -/
def insertChange (c : Change) : List Change → List Change
  | [] => [c]
  | x :: xs => if changeBefore c x then c :: x :: xs else x :: insertChange c xs

/-- Changes whose rebuild begins at the boundary with new tick index t: a rung's next change, once the copy before it is in
use, so that the other copy is released (R181, R182). Four rebuilds are in progress at once; those wait in order. -/
def Run.releaseWeir (r : Run) (t : Nat) : Run :=
  let inUse := fun (rung : Nat) => !r.due.any fun c => c.rung == rung
  let current := fun (rung : Nat) => (r.weir.filter fun w => w.rung == rung).all fun w => decide (w.first ≤ t)
  let start := fun (c : Change) =>
    inUse c.rung && current c.rung && !(r.later.any fun x => x.rung == c.rung && changeBefore x c)
  let new := r.later.filter start
  { r with later := r.later.filter fun c => !start c
           due := r.due.take 4 ++ (r.due.drop 4 ++ new).foldl (fun acc c => insertChange c acc) [] }

/-- A rebuild ends: the copy exists, and the rung keeps its two newest copies (R178). -/
def Run.builtWeir (r : Run) (c : Change) : Run :=
  let same := r.weir.filter fun w => w.rung == c.rung
  let newest := maxNat (same.map (·.first))
  { r with due := r.due.filter fun x => x != c
           weir := (r.weir.filter fun w => w.rung != c.rung || w.first == newest)
             ++ [{ rung := c.rung, temp := c.temp, first := c.tick, ready := true }] }

/-! ### Replica exchange -/

/-- Decide one pair (R188): accepted, with the draw keyed to rung, ladder and new tick index. -/
def Run.decidePair (r : Run) (ladder rung t a b : Nat) : Bool :=
  exchangeAccepts (r.tempAt rung (t - 1)) (r.tempAt (rung + 1) (t - 1)) (r.replica a).v (r.replica b).v
    (bobbin (r.blk.seeds.getD 1 0).toNat 0x10 rung ladder t)

/-- Count an attempt and its outcome for a pair (R210). -/
def countPair (xs : List (Nat × Nat × Nat)) (key : Nat) (acc : Bool) : List (Nat × Nat × Nat) :=
  let old := match xs.find? fun x => x.1 == key with | some x => x.2 | none => (0, 0)
  (xs.filter fun x => x.1 != key) ++ [(key, old.1 + 1, old.2 + bit acc)]

/-- The exchange at the run boundary with new tick index t (R187-R190). -/
def Run.exchange (r : Run) (p : Pattern) (t : Nat) : Run :=
  let period := p.header.period
  if period = 0 ∨ t % period ≠ 0 then r
  else
    let n := t / period
    let map := r.mapAt t
    let positions := (List.range map.length).filter fun k =>
      k % p.rungs % 2 == n % 2 && decide (k % p.rungs + 1 < p.rungs) && decide (k + 1 < map.length)
    let out := positions.foldl (fun (acc : List Nat × List (Nat × Nat × Nat)) k =>
      let a := map.getD k 0
      let b := map.getD (k + 1) 0
      let yes := r.decidePair (k / p.rungs) (k % p.rungs) t a b
      let m := if yes then modifyAt (fun _ => a) (k + 1) (modifyAt (fun _ => b) k acc.1) else acc.1
      (m, countPair acc.2 (63 * (k / p.rungs) + k % p.rungs) yes)) (map, r.results.xchg)
    { r with pendMap := some (t + 1, out.1), results := { r.results with xchg := out.2 } }

/-- A decided map that is in force by tick t becomes the map (R190). -/
def Run.adoptMap (r : Run) (t : Nat) : Run :=
  match r.pendMap with
  | some (a, m) => if a ≤ t then { r with rungMap := m, pendMap := none } else r
  | none => r

/-! ### Best record and elite pool (R205-R208) -/

/-- Whether the key of a comes before that of b: energy, initial first, tick, replica (R206). -/
def Kept.before (a b : Kept) : Bool :=
  decide (a.energy < b.energy)
    || (a.energy == b.energy
        && ((a.initial && !b.initial)
          || (a.initial == b.initial && (decide (a.tick < b.tick) || (a.tick == b.tick && decide (a.replica < b.replica))))))

/-- Insert into a pool in key order. -/
def insertKept (k : Kept) : List Kept → List Kept
  | [] => [k]
  | x :: xs => if k.before x then k :: x :: xs else x :: insertKept k xs

/-- Order of a group: by energy, then replica (R206). -/
def offerBefore (a b : Kept) : Bool := decide (a.energy < b.energy) || (a.energy == b.energy && decide (a.replica < b.replica))

/-- Insert into a group in that order. -/
def insertOffer (k : Kept) : List Kept → List Kept
  | [] => [k]
  | x :: xs => if offerBefore k x then k :: x :: xs else x :: insertOffer k xs

/-- One offer (R207); the number counts captures of its group. -/
def takeOffer (plan : ResultPlan) (initial : Bool) (acc : Results × Nat) (o : Kept) : Results × Nat :=
  let res := acc.1
  let best := match res.best with | some b => decide (o.energy < b.energy) | none => true
  let full := decide (plan.elite ≤ res.elite.length)
  let pool := decide (0 < plan.elite) && (!full || (match res.elite.getLast? with | some l => o.before l | none => true))
  if !best && !pool then acc
  else if !initial && acc.2 == plan.budget then ({ res with declined := res.declined + 1 }, acc.2)
  else
    let res := if best then { res with best := some o } else res
    if !pool then (res, acc.2 + 1)
    else
      let same := fun (e : Kept) => e.hash == o.hash && e.state == o.state
      if res.elite.any same then
        ({ res with elite := res.elite.map fun e => if same e then { e with hits := e.hits + 1 } else e }, acc.2 + 1)
      else
        let res := if res.elite.any fun e => e.hash == o.hash then { res with collisions := res.collisions + 1 } else res
        ({ res with elite := (insertKept o res.elite).take plan.elite }, acc.2 + 1)

/-- A group of offers (R206, R207). -/
def takeOffers (plan : ResultPlan) (initial : Bool) (group : List Kept) (res : Results) : Results :=
  ((group.foldl (fun acc k => insertOffer k acc) []).foldl (takeOffer plan initial) (res, 0)).1

/-- The offer of replica k's present state, as tick t leaves it (R205). -/
def Run.offer (r : Run) (p : Pattern) (k t : Nat) (initial : Bool) : Kept :=
  let rep := r.replica k
  let pl := r.rungAt p k t
  { energy := rep.v + p.e0, hash := rep.hash, tick := t, initial := initial, rung := pl.1, replica := k, ladder := pl.2,
    hits := 0, state := rep.spins }

/-! ### Statistics and histograms -/

/-- Zero statistics. -/
def Stats.zero : Stats where
  ticks := 0
  basted := 0
  sewn := 0
  unpicked := 0
  nulls := 0
  extra := 0

/-- The bin of an energy (R211). -/
def histBin (plan : ResultPlan) (e : Int) : Nat := (min 255 (max 0 ((e - plan.base) / 2 ^ plan.shift))).toNat

/-- Add 1 to a sparse count. -/
def countOne (xs : List (Nat × Nat)) (key : Nat) : List (Nat × Nat) :=
  if xs.any fun x => x.1 == key then xs.map fun x => if x.1 == key then (x.1, x.2 + 1) else x else xs ++ [(key, 1)]

/-- Count a departure state of a replica, when the histogram is on (R211). -/
def Results.countBin (res : Results) (plan : ResultPlan) (replica : Nat) (e : Int) : Results :=
  if plan.histOn then { res with hist := countOne res.hist (256 * replica + histBin plan e) } else res

/-- Whether tick t samples replica k (R213). -/
def sampled (p : Pattern) (k t : Nat) : Bool :=
  let plan := p.plan
  plan.samples && decide (plan.first ≤ k) && decide (k < plan.first + plan.count)
    && (if p.header.mode = 1 then t % max 1 plan.period == 0 else t / max 1 p.header.total % max 1 plan.period == 0)

/-! ### The results area (R200-R210) -/

/-- A best record or elite entry (R208). -/
def Kept.encode (k : Kept) : List Byte :=
  toBytesLE 8 (unsigned 64 k.energy) ++ toBytesLE 8 k.hash ++ toBytesLE 6 k.tick ++ toBytesLE 1 (1 + 2 * bit k.initial)
    ++ toBytesLE 1 k.rung ++ toBytesLE 2 k.replica ++ toBytesLE 2 k.ladder ++ toBytesLE 4 k.hits ++ zeroBytes 32

/-- Pad to whole lines. -/
def padLine (bs : List Byte) : List Byte := bs ++ zeroBytes ((64 - bs.length % 64) % 64)

/-- Offsets of the variable-length regions: statistics, exchange, histograms, states (R200), packed in that order (log 75, DESIGN
CHOICE). -/
def areaOffsets (p : Pattern) : Nat × Nat × Nat × Nat :=
  let stats := 0x1140
  let xchg := stats + 64 * p.header.total
  let hist := xchg + (16 * 63 * p.ladders + 63) / 64 * 64
  (stats, xchg, hist, hist + if p.plan.histOn then 2048 * p.header.total else 0)

/-- Bytes of a results area (R200). -/
def areaBytes (p : Pattern) : Nat := (areaOffsets p).2.2.2 + 65 * stateBytes p.header.nVars

/-- MODES of a result header (R201). -/
def modesByte (r : Run) (p : Pattern) : Nat :=
  bit r.blk.loose + 2 * bit r.blk.noise + 4 * bit (p.header.race == 0) + 8 * bit (p.header.form == 1)

/-- The result header (R201). -/
def headerBytes (s : State) (r : Run) (p : Pattern) (state : Nat) : List Byte :=
  let o := areaOffsets p
  let res := r.results
  toBytesLE 4 0x52535845 ++ toBytesLE 2 1 ++ toBytesLE 1 3 ++ toBytesLE 1 s.fwiMinor ++ toBytesLE 4 res.seq
    ++ toBytesLE 1 state ++ toBytesLE 1 r.blk.kind ++ toBytesLE 1 (modesByte r p) ++ toBytesLE 1 p.header.profile
    ++ p.hash ++ (r.blk.seeds.flatMap fun w => toBytesLE 8 w.toNat) ++ toBytesLE 8 p.header.conv.toNat
    ++ toBytesLE 8 (unsigned 64 p.e0) ++ toBytesLE 8 r.tick ++ toBytesLE 4 p.header.nVars ++ toBytesLE 2 p.header.total
    ++ toBytesLE 1 p.header.shards ++ toBytesLE 1 p.header.rungs ++ toBytesLE 4 (stateBytes p.header.nVars)
    ++ toBytesLE 1 res.elite.length ++ toBytesLE 1 p.plan.elite ++ zeroBytes 2 ++ toBytesLE 8 res.declined
    ++ toBytesLE 8 res.collisions ++ toBytesLE 8 res.stretched ++ toBytesLE 8 res.replayed ++ toBytesLE 8 res.tchoice
    ++ toBytesLE 8 o.1 ++ toBytesLE 8 o.2.1 ++ toBytesLE 8 (if p.plan.histOn then o.2.2.1 else 0) ++ toBytesLE 8 o.2.2.2
    ++ toBytesLE 8 res.scored ++ toBytesLE 8 res.samples ++ zeroBytes 32

/-- A statistics record (R209); a scoring run fills none (R219). -/
def statsBytes (r : Run) (p : Pattern) (k : Nat) : List Byte :=
  if r.blk.kind = 1 then zeroBytes 64
  else
    let st := r.results.stats.getD k .zero
    let pl := r.rungAt p k r.tick
    toBytesLE 8 st.ticks ++ toBytesLE 8 st.basted ++ toBytesLE 8 st.sewn ++ toBytesLE 8 st.unpicked ++ toBytesLE 8 st.nulls
      ++ toBytesLE 8 st.extra ++ toBytesLE 8 (unsigned 64 ((r.replica k).v + p.e0)) ++ toBytesLE 2 pl.2 ++ toBytesLE 1 pl.1
      ++ zeroBytes 5

/-- Exchange records (R210). -/
def xchgBytes (r : Run) (p : Pattern) : List Byte :=
  (List.range (63 * p.ladders)).flatMap fun k =>
    match r.results.xchg.find? fun x => x.1 == k with
    | some x => toBytesLE 8 x.2.1 ++ toBytesLE 8 x.2.2
    | none => zeroBytes 16

/-- Histograms (R211). -/
def histBytes (r : Run) (p : Pattern) : List Byte :=
  if p.plan.histOn then
    (List.range (256 * p.header.total)).flatMap fun k =>
      toBytesLE 8 (match r.results.hist.find? fun x => x.1 == k with | some x => x.2 | none => 0)
  else []

/-- The whole results area (R200). The state vectors of a missing best record and of unused elite entries are zeros (log 75, DESIGN
CHOICE). -/
def resultsBytes (s : State) (r : Run) (p : Pattern) (state : Nat) : List Byte :=
  let vec := fun (k : Option Kept) => match k with
    | some k => packState k.state
    | none => zeroBytes (stateBytes p.header.nVars)
  headerBytes s r p state
    ++ (match r.results.best with | some b => b.encode | none => zeroBytes 64)
    ++ (List.range 64).flatMap (fun n => match r.results.elite[n]? with | some e => e.encode | none => zeroBytes 64)
    ++ (List.range p.header.total).flatMap (statsBytes r p)
    ++ padLine (xchgBytes r p) ++ histBytes r p ++ vec r.results.best
    ++ (List.range 64).flatMap fun n => vec (r.results.elite[n]?)

/-- Write the results area with a STATE: SEQ is odd while it is written and even after (R202). -/
def State.writeResults (s : State) (ref : TaskRef) (state : Nat) : State :=
  match s.run? ref with
  | some r =>
    match s.pattern r.pattern with
    | some p =>
      let s := s.writeField (r.blk.result + 8) 4 (r.results.seq + 1)
      let r := { r with results := { r.results with seq := (r.results.seq + 2) % 2 ^ 32 } }
      (s.setRun ref fun _ => r).writeDram r.blk.result (resultsBytes s r p state)
    | none => s
  | none => s

/-! ### Rings (R214-R218, R232, R246) -/

/-- Read a 64-bit ring counter. -/
def ringCounter (s : State) (v : HostView) (a : Nat) : Nat := bytesLE (readAny s.mem v a 8)

/-- Write through the device address space: DRAM, or host memory under a PASID (R315). -/
def State.writeAny (s : State) (pasid : Option Nat) (a : Nat) (bs : List Byte) : State :=
  if a < hostWindow then s.writeDram a bs else s.hostWrite pasid (a - hostWindow) bs

/-- The PASID of a run's queue. -/
def State.pasidOf (s : State) (r : Run) : Option Nat := (s.queue r.ref.queue).map (·.pasid)

/-- Free lines of a run's output ring: TAIL above HEAD is taken as HEAD (R214). -/
def State.ringRoom (s : State) (r : Run) : Nat :=
  let tail := min r.head (s.mem.field (r.blk.ring + 8) 8)
  (r.blk.ringLines - 1) - (r.head - tail)

/-- Write a record's lines, then HEAD (R214). -/
def State.ringWriteLines (s : State) (ref : TaskRef) (bs : List Byte) : State :=
  match s.run? ref with
  | some r =>
    let n := r.blk.ringLines - 1
    let s := (chunks 64 bs).zipIdx.foldl (fun s x => s.writeDram (r.blk.ring + 64 * ((r.head + x.2) % n + 1)) x.1) s
    let head := r.head + (chunks 64 bs).length
    (s.setRun ref fun r => { r with head := head }).writeField r.blk.ring 8 head
  | none => s

/-- The records that wait are written as far as they fit, at most n of them (R214). -/
def State.drainRing (s : State) (ref : TaskRef) : Nat → State
  | 0 => s
  | n + 1 =>
    match s.run? ref with
    | none => s
    | some r =>
      match r.queue with
      | [] => s
      | x :: rest =>
        if (chunks 64 x).length ≤ s.ringRoom r then
          ((s.setRun ref fun r => { r with queue := rest }).ringWriteLines ref x).drainRing ref n
        else s

/-- Every record that fits is written. -/
def State.flushRing (s : State) (ref : TaskRef) : State :=
  match s.run? ref with | some r => s.drainRing ref r.queue.length | none => s

/-- A record leaves for the output ring; one that does not fit waits for room (R214, R215). -/
def State.ringPut (s : State) (ref : TaskRef) (bs : List Byte) : State :=
  (s.setRun ref fun r => { r with queue := r.queue ++ [bs] }).flushRing ref

/-- A sample record (R217). -/
def Sample.encode (x : Sample) (states : Bool) (number : Nat) : List Byte :=
  toBytesLE 8 x.tick ++ toBytesLE 2 x.replica ++ toBytesLE 2 x.ladder ++ toBytesLE 1 x.rung ++ toBytesLE 1 (bit states)
    ++ zeroBytes 2 ++ toBytesLE 8 (unsigned 64 x.energy) ++ toBytesLE 8 x.escape ++ toBytesLE 8 x.hash ++ toBytesLE 8 number
    ++ zeroBytes 16 ++ if states then packState x.state else []

/-- Write the sample records that wait, in replica order (R213). -/
def State.writeSamples (s : State) (ref : TaskRef) : State :=
  match s.run? ref with
  | some r =>
    match s.pattern r.pattern with
    | some p =>
      let order := (List.range p.header.total).flatMap fun k => r.records.filter fun x => x.replica == k
      let s := order.foldl (fun s x =>
        match s.run? ref with
        | some r =>
          (s.ringPut ref (x.encode p.plan.states r.outNo)).setRun ref fun r =>
            { r with outNo := r.outNo + 1, results := { r.results with samples := r.results.samples + 1 } }
        | none => s) s
      s.setRun ref fun r => { r with records := [] }
    | none => s
  | none => s

/-- Full lines of score records leave; the rest waits for its line (R218). Unused records of a padded line have ENERGY 0 (log 75, DESIGN
CHOICE). -/
def State.writeScores (s : State) (ref : TaskRef) (flush : Bool) : State :=
  match s.run? ref with
  | some r =>
    let one := fun (x : Nat × Int) => toBytesLE 8 x.1 ++ toBytesLE 8 (unsigned 64 x.2)
    let n := r.part.length / 4 * 4
    let whole := r.part.take n
    let rest := r.part.drop n
    let s := (chunks 4 whole).foldl (fun s line => s.ringPut ref (line.flatMap one)) s
    if flush && !rest.isEmpty then
      let fill := (List.range (4 - rest.length)).flatMap fun _ => List.replicate 8 (0xFF : Byte) ++ zeroBytes 8
      (s.ringPut ref (rest.flatMap one ++ fill)).setRun ref fun r => { r with part := [] }
    else s.setRun ref fun r => { r with part := rest }
  | none => s

/-- Lines of one sample record. -/
def sampleLines (p : Pattern) : Nat := 1 + if p.plan.states then stateBytes p.header.nVars / 64 else 0

/-- Lines per vector of an input or clamp ring (R232). -/
def vectorLines (p : Pattern) : Nat := max 1 (stateBytes p.header.nVars / 64)

/-- Vectors that stand ready in the input ring: HEAD below TAIL is taken as TAIL (R214). -/
def State.inputReady (s : State) (v : HostView) (r : Run) (p : Pattern) : Nat :=
  let head := ringCounter s v r.blk.input
  (head - r.taken * vectorLines p) / vectorLines p

/-- Device addresses of the lines of the k-th vector after TAIL (R214). -/
def inputLines (r : Run) (p : Pattern) (k : Nat) : List Nat :=
  (List.range (vectorLines p)).map fun i =>
    r.blk.input + 64 * ((((r.taken + k) * vectorLines p) + i) % max 1 (r.blk.inputLines - 1) + 1)

/-- The k-th vector after TAIL. -/
def State.inputVector (s : State) (v : HostView) (r : Run) (p : Pattern) (k : Nat) : List Bool :=
  unpackState p.header.nVars ((inputLines r p k).flatMap fun a => readAny s.mem v a 64)

/-- Whether a line of the k-th vector reads as poison, or its page does not translate (R396, R446). -/
def State.inputBad (s : State) (v : HostView) (r : Run) (p : Pattern) (k : Nat) : Bool :=
  (inputLines r p k).any fun a =>
    if a < hostWindow then s.mem.poisonIn a 64 else !translates s.host.atsCache v (a - hostWindow)

/-- TAIL of an input ring moves past n vectors (R232). -/
def State.advanceInput (s : State) (ref : TaskRef) (n : Nat) : State :=
  match s.run? ref with
  | some r =>
    match s.pattern r.pattern with
    | some p =>
      let taken := r.taken + n
      (s.setRun ref fun r => { r with taken := taken, inputPos := r.inputPos + n }).writeAny (s.pasidOf r) (r.blk.input + 8)
        (toBytesLE 8 (taken * vectorLines p))
    | none => s
  | none => s

end Sys2Proof.Machine
end

