-- ==== Sys2Proof/Machine/Race.lean ====
section
/-! DEFINITION. The work of a tick (R129-R157, R164-R172, R193, R212, R213, R228-R231, R305, R542): candidates, races, the
seam, sewn moves, the escape sum, harvests, and what they cost in cycles. -/

namespace Sys2Proof.Machine

/-- A candidate of a race (R142): the number that breaks ties, its flips and its energy change. -/
structure Candidate where
  num   : Nat
  flips : Updates
  dE    : Int
  deriving DecidableEq, Repr

/-- P, the replicas of each phase of a learning run (R227). -/
def Pattern.phase (p : Pattern) : Nat := p.header.total / 2

/-- Whether a run may change a row's variable in replica k: bias variables never (R222), visible variables not in a
positive replica of a learning run (R228). -/
def Run.free (r : Run) (p : Pattern) (k : Nat) (row : Row) : Bool :=
  !(p.header.learning && row.bias) && !(r.blk.kind == 2 && decide (k < p.phase) && row.visible)

/-- A race uniform (R139-R141, R144): a bobbin draw of purpose 0x01, or 0x02 for a null candidate; in physical noise four
bytes of the DRBG, kept for the tick by their free-value index (R193, log 11). -/
def Run.uniform (r : Run) (p : Pattern) (noise replica t : Nat) (null : Bool) (subject : Nat) : Nat :=
  if r.blk.noise then
    bytesLE ((List.range 4).map fun i =>
      Config.drbgByte 2 (noise + 4 * (if null then p.header.nVars + subject else subject) + i))
  else bobbin (r.blk.seeds.getD 0 0).toNat (if null then 2 else 1) subject replica t

/-- Free values that one replica's tick keeps for its uniforms. -/
def noiseSpan (p : Pattern) : Nat := 4 * (p.header.nVars + max 1 p.blocks.length)

/-- The race key (R145). -/
def raceKey (temp u : Nat) (dE : Int) : Int := weirEntry temp (weirIndex u) + 2 ^ 16 * max 0 dE

/-- The single flip of a variable with field f (R143). -/
def flipOf (spins : List Bool) (v : Nat) (f : Int) : Candidate :=
  { num := v, flips := [(v, !spins.getD v false)], dE := -2 * spinOf spins v * f }

/-- Rows of a block with their cores, fields and product bits. -/
abbrev RowView := Core × Row × Field × List Bool

/-- The correction of a swap at the row of the member that becomes hot: 4 J_hk + 4 times the sum of W_e p_e over the ends
there whose term holds h (R143). -/
def swapShared (x : RowView) (h : Nat) : Int :=
  4 * x.1.couplingTo 0 x.2.1 h
    + 4 * sumOver ((x.1.rowEnds x.2.1).filter fun e => x.1.colVar 0 0 e.2.colB == h || x.1.colVar 0 0 e.2.colC == h)
        fun e => x.1.endValue e.1 e.2 * prodVal x.2.2.2 e.1

/-- The candidates of some rows (R142, R143): single flips of ungrouped variables, and for each group one swap to each member
that is not hot. -/
def blockCandidates (r : Run) (p : Pattern) (k : Nat) (spins : List Bool) (rows : List RowView) : List Candidate :=
  let one := fun (x : RowView) => flipOf spins x.2.1.var x.2.2.1.value
  rows.flatMap fun x =>
    match x.2.1.group with
    | none => if r.free p k x.2.1 then [one x] else []
    | some g =>
      if spins.getD x.2.1.var false then []
      else
        match rows.find? fun y => y.2.1.group == some g && spins.getD y.2.1.var false with
        | some h =>
          [{ num := x.2.1.var, flips := [(h.2.1.var, false), (x.2.1.var, true)]
             dE := (one h).dE + (one x).dE - swapShared x h.2.1.var }]
        | none => []

/-- The winner of a race (R145): smallest key, then the lowest number. -/
def raceWinner (key : Candidate → Int) (cs : List Candidate) : Option Candidate :=
  cs.foldl (fun best c =>
    match best with
    | none => some c
    | some b => if key c < key b ∨ (key c = key b ∧ c.num < b.num) then some c else some b) none

/-- What a block's race bastes: its winner, or in a Metropolis race nothing where the null candidate has the smallest key
(R145, R146). -/
def raceBlock (r : Run) (p : Pattern) (noise k t temp nullNum : Nat) (cs : List Candidate) : Option Candidate × Nat :=
  let key := fun (c : Candidate) => raceKey temp (r.uniform p noise k t false c.num) c.dE
  let w := raceWinner key cs
  if p.header.race = 0 then (w, 0)
  else
    let null := raceKey temp (r.uniform p noise k t true nullNum) 0
    match w with
    | some c => if key c ≤ null then (some c, 0) else (none, 1)
    | none => (none, 1)

/-- rank(b, t) of R149. -/
def seamRank (blocks b t : Nat) : Nat := (b + blocks - t % 1024 % max 1 blocks) % max 1 blocks

/-- One label round (R152): each label and the labels of the moves that interact with it. -/
def labelRound (p : Pattern) (ms : List Move) : List Move :=
  ms.map fun m =>
    { m with
      label := ((ms.filter fun x => x.block != m.block && p.interact m.flips x.flips).map (·.label)).foldl min m.label }

/-- The seam (R152, R153): the notice round is one label round over the ranks; label rounds follow while labels fall or, after the
notice round, while any notice interacted. Gives the moves with their settled labels and the label rounds made. -/
def seamRounds (p : Pattern) : Nat → List Move → List Move × Nat
  | 0, ms => (ms, 0)
  | fuel + 1, ms =>
    let next := labelRound p ms
    if next = ms then (ms, 1)
    else
      let r := seamRounds p fuel next
      (r.1, r.2 + 1)

/-- Whether any two moves of different blocks interact. -/
def anyInteract (p : Pattern) (ms : List Move) : Bool :=
  ms.any fun m => ms.any fun x => x.block != m.block && p.interact m.flips x.flips

/-- The settled seam of some basted moves. -/
def settleSeam (p : Pattern) (ms : List Move) : List Move × Nat :=
  if anyInteract p ms then seamRounds p (p.blocks.length + 1) (labelRound p ms) else (ms, 0)

/-- A tick's work before anything is in it. -/
def Work.start (replica slot tick noise : Nat) : Work where
  replica := replica
  slot := slot
  tick := tick
  noise := noise
  sealed := false
  basted := []
  sewn := []
  nulls := 0
  extra := 0
  escape := 0
  dE := 0
  remote := []
  harvest := false
  reload := none
  score := none
  cycles := 0

/-- All flips of some moves. -/
def allFlips (ms : List Move) : Updates := ms.flatMap (·.flips)

/-- The escape sum of some candidates in a rejection-free race (R212); 0 in a Metropolis race. -/
def escapeSum (p : Pattern) (temp : Nat) (cs : List Candidate) : Nat :=
  if p.header.race = 0 then sumNat (cs.map fun c => escapeX (rateIndex c.dE temp)) % 2 ^ 64 else 0

/-- The largest number of column updates at one core (R131). -/
def updatesPerCore (cores : List Core) (ups : Updates) : Nat :=
  maxNat (cores.map fun c => (c.cols.filter fun v => updated ups v).length)

/-- Remote moves that have arrived for a replica and are still to be applied (R305). -/
def Run.arrived (r : Run) (k : Nat) : List (Nat × Nat × List (Nat × Bool)) :=
  if r.blk.loose then r.remote.filter fun x => x.2.1 == k else []

/-- The work of a patchwork anneal tick for replica k (R129-R157): every block races, the seam settles, the survivors are
sewn. -/
def Run.raceWork (r : Run) (p : Pattern) (k t noise : Nat) : Work :=
  let cores := r.cores p
  let rep := r.replica k
  let temp := r.tempAt (r.rungAt p k t).1 t
  let views := rep.rowViews cores
  let mine := if r.blk.loose then p.blocks.filter fun b => p.places.any fun x => x.1 == b.shard else p.blocks
  let races := mine.map fun b =>
    let cs := blockCandidates r p k rep.spins (views.filter fun x => p.blockOf x.1 == b.num)
    (b.num, cs, raceBlock r p noise k t temp b.num cs)
  let basted := races.filterMap fun x =>
    x.2.2.1.map fun c =>
      let rank := seamRank p.blocks.length x.1 t
      ({ block := x.1, flips := c.flips, dE := c.dE, rank := rank, label := rank } : Move)
  let seam := settleSeam p basted
  let sewn := seam.1.filter fun m => m.label == m.rank
  let remote := r.arrived k
  let u := updatesPerCore cores (allFlips sewn ++ remote.flatMap (·.2.2))
  { Work.start k 0 t noise with
    basted := seam.1
    sewn := sewn
    nulls := sumNat (races.map fun x => x.2.2.2)
    extra := seam.2 - p.ditch.nL
    escape := escapeSum p temp (races.flatMap fun x => x.2.1)
    dE := sumOver sewn (·.dE)
    remote := remote
    cycles := patchworkCycles p.header p.ditch p.joined (p.spansDevices && !r.blk.loose) seam.2 u }

/-- The work of one whole-cloth lane (R167-R170): one race over every variable, no seam. -/
def Run.laneWork (r : Run) (p : Pattern) (k t noise : Nat) : Work :=
  let rep := r.replica k
  let temp := r.tempAt (r.rungAt p k t).1 t
  let views := rep.rowViews (r.cores p)
  let cs := (views.filter fun x => x.2.1.part == 0).map fun x =>
    flipOf rep.spins x.2.1.var (sumOver (views.filter fun y => y.2.1.var == x.2.1.var) fun y => y.2.2.1.value)
  let w := raceBlock r p noise k t temp 0 cs
  let moves := match w.1 with
    | some c => [({ block := 0, flips := c.flips, dE := c.dE, rank := 0, label := 0 } : Move)]
    | none => []
  { Work.start k (k / 3) t noise with
    basted := moves
    sewn := moves
    nulls := w.2
    escape := escapeSum p temp cs
    dE := sumOver moves (·.dE)
    cycles := slotPath p.header p.ditch p.joined p.spansDevices }

/-! ### Learning ticks (R227-R231) -/

/-- Ticks of a turn, a round and a step (R227). -/
def Pattern.turn (p : Pattern) : Nat := 2 * p.phase
def Pattern.roundTicks (p : Pattern) : Nat := (p.learn.sweeps + 1) * p.turn
def Pattern.stepTicks (p : Pattern) : Nat := p.learn.rounds * p.roundTicks

/-- Whether tick t is a harvest tick. -/
def Pattern.harvestAt (p : Pattern) (t : Nat) : Bool := decide (p.learn.sweeps * p.turn ≤ t % max 1 p.roundTicks)

/-- The step of tick t, from 0, and its round. -/
def Pattern.stepOf (p : Pattern) (t : Nat) : Nat := t / max 1 p.stepTicks
def Pattern.roundOf (p : Pattern) (t : Nat) : Nat := t % max 1 p.stepTicks / max 1 p.roundTicks

/-- Whether the harvest tick t loads a clamp vector (R230): a positive replica's, and not the last harvest of the final
step. -/
def Pattern.reloads (p : Pattern) (t : Nat) : Bool :=
  decide (t % max 1 p.header.total < p.phase)
    && !(decide (p.learn.steps ≠ 0 ∧ p.stepOf t + 1 = p.learn.steps) && p.roundOf t + 1 == p.learn.rounds)

/-- A positive replica's state from a clamp vector (R230, R231): visible bits, bias +1, hidden by purpose 0x30. -/
def Run.clampState (r : Run) (p : Pattern) (k t : Nat) (vector : List Bool) : List Bool :=
  let rows := p.cores.flatMap fun c => c.rows
  (List.range p.header.nVars).map fun v =>
    match rows.find? fun x => x.var == v with
    | some x =>
      if x.bias then true
      else if x.visible then vector.getD v false
      else natBit (bobbin (r.blk.seeds.getD 3 0).toNat 0x30 v k t) 31
    | none => false

/-- An owner end of a learnable pair (R221). -/
def Entry.owner (e : Entry) : Bool := e.grad != -128 && e.mom != -128

/-- Count the owner ends of a core for a harvest (R229). -/
def Core.harvest (c : Core) (spins : List Bool) (positive : Bool) : Core :=
  let rowOf := fun (n : Nat) => c.rows.find? fun r => decide (r.first ≤ n) && decide (n < r.last)
  { c with
    entries := c.entries.mapIdx fun n e =>
      if e.owner then
        match rowOf n with
        | some r =>
          let s := spinOf spins r.var * spinOf spins (c.colVar 0 r.part e.index)
          { e with counter := if positive then e.counter + s else e.counter - s }
        | none => e
      else e }

/-- The work of a harvest tick (R228-R230); a vector that it loads is given. -/
def Run.harvestWork (r : Run) (p : Pattern) (t : Nat) (vector : Option (List Bool)) : Work :=
  let k := t % max 1 p.header.total
  let reload := vector.map fun v => r.build p (r.clampState p k t v)
  let a := linkCost p.header p.spansDevices
  let own := maxNat ((r.cores p).map fun c => (c.entries.filter Entry.owner).length)
  let x := match reload with
    | some rep => maxNat ((r.cores p).map fun c => (c.cols.filter fun v => rep.spins.getD v false).length)
    | none => 0
  { Work.start k 0 t 0 with
    harvest := true
    reload := reload
    cycles := (p.ditch.wH + p.joined.hS * a) + (cdiv own 8 + 2)
      + (if reload.isSome then (p.ditch.wS + p.joined.hS * a) + (cdiv x 8 + 3) + (p.ditch.wN + p.joined.dX * a) else 0)
      + boundaryWork p.header + p.joined.dX * a }

/-! ### Scoring ticks (R542) -/

/-- Cycles of a scoring tick's own work: each lane's state is delivered and its fields built as a harvest tick's reload is, then V is
formed for every lane, and the boundary work follows (R113, R123, R131, R228, R542; log 46, DEDUCED: the manual gives the parts and not
their cycles). -/
def Run.scoreCycles (r : Run) (p : Pattern) (states : List (List Bool)) : Nat :=
  let a := linkCost p.header p.spansDevices
  let most := fun (spins : List Bool) => maxNat ((r.cores p).map fun c => (c.cols.filter fun v => spins.getD v false).length)
  sumNat (states.map fun x => p.ditch.wS + p.joined.hS * a + (cdiv (most x) 8 + 3)) + p.ditch.wN + boundaryWork p.header + p.joined.dX * a

/-- The work of a scoring tick: one entry per lane with its state's position, energy and lane. -/
def Run.scoreWork (r : Run) (p : Pattern) (t : Nat) (states : List (List Bool)) : List Work :=
  let cycles := r.scoreCycles p states
  states.mapIdx fun k spins =>
    let rep := r.build p (p.withBias spins)
    { Work.start k 0 t 0 with
      score := some (t * p.header.resident + k, rep.v + p.e0)
      reload := some rep
      cycles := cycles }

/-- Nominal cycles of tick t of a run: HARVEST_LEN for a harvest tick (R228). -/
def Run.tickLen (r : Run) (p : Pattern) (t : Nat) : Nat :=
  if r.blk.kind = 2 ∧ p.harvestAt t = true then p.learn.harvest else p.header.tickLen

end Sys2Proof.Machine
end

