-- ==== Sys2Proof/Machine/Ckpt.lean ====
section
/-! DEFINITION. Checkpoints (R425-R431): the image of a run at a boundary, its checks, and a run's state from an image. -/

namespace Sys2Proof.Machine

/-! ### Writing -/

/-- Variables of a shard, ascending. -/
def Pattern.shardVars (p : Pattern) (n : Nat) : List Nat :=
  (List.range p.header.nVars).filter fun v => p.cores.any fun c => c.shard == n && c.rows.any fun r => r.var == v && r.part == 0

/-- Cores of a shard, in placement order as the COUPLINGS section lists them. -/
def Pattern.shardCores (p : Pattern) (n : Nat) : List Core := p.cores.filter fun c => c.shard == n

/-- Shards this device hosts, ascending. -/
def Pattern.hosted (p : Pattern) : List Nat := (List.range 64).filter fun n => p.places.any fun x => x.1 == n

/-- The 5 bytes of a learning entry (R101) with its staging counter and a reserved byte (R428). -/
def Entry.encode (e : Entry) : List Byte :=
  toBytesLE 2 e.index ++ toBytesLE 1 (unsigned 8 e.code) ++ toBytesLE 1 (unsigned 8 e.grad) ++ toBytesLE 1 (unsigned 8 e.mom)
    ++ toBytesLE 2 (unsigned 16 e.counter) ++ zeroBytes 1

/-- The 32 bytes of a learning row state (R225). -/
def RowState.encode (r : RowState) : List Byte :=
  (r.gmax.flatMap fun g => toBytesLE 2 g) ++ toBytesLE 2 r.gs ++ toBytesLE 2 r.gsNext ++ toBytesLE 1 r.mm ++ toBytesLE 1 r.mmNext
    ++ toBytesLE 2 r.mb ++ toBytesLE 2 r.mbNext ++ toBytesLE 1 r.qmax ++ toBytesLE 1 r.expNext ++ toBytesLE 1 r.exp ++ zeroBytes 3

/-- Entries of a shard in COUPLINGS order: core records, slots in order, ascending INDEX (R428). -/
def Pattern.shardEntries (p : Pattern) (n : Nat) : List Entry :=
  (p.shardCores n).flatMap fun c => c.rows.flatMap fun r => (c.rowEntries r).map (·.2)

/-- Rows of a shard by ascending logical number. -/
def Pattern.shardRows (p : Pattern) (n : Nat) : List Row :=
  (p.shardVars n).filterMap fun v => ((p.shardCores n).flatMap (·.rows)).find? fun r => r.var == v

/-- Offsets within a shard section: states, entries, row states, end (R428, R429). -/
def sectionLayout (p : Pattern) (kind n : Nat) : Nat × Nat × Nat × Nat :=
  let states := 64
  let entries := states + p.header.total * stateBytes (p.shardVars n).length
  let rows := entries + (8 * (p.shardEntries n).length + 63) / 64 * 64
  if kind = 2 then (states, entries, rows, rows + (32 * (p.shardVars n).length + 63) / 64 * 64) else (states, 0, 0, entries)

/-- The section of shard n (R428). -/
def shardSection (r : Run) (p : Pattern) (n : Nat) : List Byte :=
  let vs := p.shardVars n
  let l := sectionLayout p r.blk.kind n
  let learn := r.blk.kind == 2
  toBytesLE 1 n ++ zeroBytes 3 ++ toBytesLE 4 vs.length ++ toBytesLE 4 (stateBytes vs.length) ++ zeroBytes 4
    ++ toBytesLE 8 (if learn then (p.shardEntries n).length else 0) ++ toBytesLE 8 l.1 ++ toBytesLE 8 l.2.1 ++ toBytesLE 8 l.2.2.1
    ++ zeroBytes 16
    ++ ((List.range p.header.total).flatMap fun k => packState (vs.map fun v => (r.replica k).spins.getD v false))
    ++ if learn then
        padLine ((p.shardEntries n).flatMap Entry.encode) ++ padLine ((p.shardRows n).flatMap fun x => x.learn.encode)
      else []

/-- A rung map in the layout of R427. -/
def mapBytes (p : Pattern) (map : List Nat) : List Byte :=
  (List.range p.ladders).flatMap fun l => (List.range 64).flatMap fun k =>
    toBytesLE 2 (if k < p.rungs then map.getD (l * p.rungs + k) 0xFFFF else 0xFFFF)

/-- Lines of the global part (R427). -/
def globalLines (p : Pattern) : Nat :=
  ((areaBytes p + 63) / 64 * 64 + 256 * p.ladders + 64 + (16 * p.header.total + 63) / 64 * 64) / 64

/-- The global part (R427); its results area shows the run paused. -/
def globalPart (s : State) (r : Run) (p : Pattern) : List Byte :=
  let pend := match r.pendMap with | some (a, m) => if r.tick < a then (a, m) else (0, m) | none => (0, r.rungMap)
  padLine (resultsBytes s r p 1) ++ mapBytes p (r.mapAt r.tick) ++ toBytesLE 8 pend.1 ++ zeroBytes 56
    ++ mapBytes p (if pend.1 = 0 then r.mapAt r.tick else pend.2)
    ++ padLine ((List.range p.header.total).flatMap fun k =>
        toBytesLE 8 (unsigned 64 (r.replica k).v) ++ toBytesLE 8 (r.replica k).hash)

/-- Stream records written so far (R426). -/
def Run.streamNo (r : Run) : Nat := if r.blk.kind = 1 then r.results.scored else r.outNo

/-- The checkpoint image of a run as it stands (R426-R428). -/
def checkpointBytes (s : State) (r : Run) (p : Pattern) : List Byte :=
  let glob := globalPart s r p
  let secs := p.hosted.map fun n => (n, shardSection r p n)
  let starts := (secs.foldl (fun (acc : List (Nat × Nat × Nat) × Nat) x =>
    (acc.1 ++ [(x.1, acc.2, x.2.length / 64)], acc.2 + x.2.length)) ([], 0x500 + glob.length))
  let step := max 1 p.stepTicks
  let head := fun (hash : List Byte) =>
    toBytesLE 4 0x50435845 ++ toBytesLE 2 1 ++ toBytesLE 1 3 ++ toBytesLE 1 r.blk.kind ++ toBytesLE 8 starts.2 ++ hash ++ p.hash
      ++ (r.blk.seeds.flatMap fun w => toBytesLE 8 w.toNat) ++ toBytesLE 8 r.tick
      ++ toBytesLE 8 (if 1 < p.header.shards then r.tag.toNat else 0) ++ toBytesLE 1 (modesByte r p) ++ toBytesLE 1 p.header.profile
      ++ toBytesLE 1 p.header.shards
      ++ toBytesLE 1 (bit r.saturated + 2 * bit (r.blk.kind == 2 && r.tick % step != 0))
      ++ toBytesLE 4 (if r.blk.loose then r.blk.settle else 0)
      ++ toBytesLE 8 (if r.blk.kind = 2 then p.learn.step0 + r.tick / step else 0) ++ toBytesLE 8 r.inputPos
      ++ toBytesLE 8 r.streamNo ++ toBytesLE 8 (maskOf 64 p.hosted.contains) ++ toBytesLE 8 0x500
      ++ toBytesLE 8 (glob.length / 64) ++ zeroBytes 40
      ++ (List.range 64).flatMap fun n =>
          match starts.1.find? fun x => x.1 == n with
          | some x => toBytesLE 8 x.2.1 ++ toBytesLE 8 x.2.2
          | none => zeroBytes 16
  let body := glob ++ secs.flatMap (·.2)
  head (sha384 (head (zeroBytes 48) ++ body)) ++ body

/-- CKPT_LEN of a checkpoint of a run (R429). -/
def checkpointLength (r : Run) (p : Pattern) : Nat :=
  0x500 + 64 * globalLines p + sumNat (p.hosted.map fun n => (sectionLayout p r.blk.kind n).2.2.2)

/-! ### Reading -/

/-- CKPT_HASH over an image (R426). -/
def checkpointHash (m : Mem) (a len : Nat) : List Byte :=
  sha384 (m.bytes a 0x10 ++ zeroBytes 48 ++ m.bytes (a + 0x40) 0x98 ++ zeroBytes 16 ++ m.bytes (a + 0xE8) (len - 0xE8))

/-- The sum that R429 gives for an image: header and directory, global part, sections. -/
def checkpointSum (g : Reader) : Nat :=
  0x500 + 64 * g 0xD0 8 + sumNat ((bitsOf 64 (g 0xC0 8)).map fun n => 64 * g (0x108 + 16 * n) 8)

/-- Whether a checkpoint does not fit a run and its pattern: PATTERN_CHECK (R430). -/
def checkpointBad (m : Mem) (a : Nat) (r : Run) (p : Pattern) : Bool :=
  let g := imageAt m a
  let len := g 8 8
  g 0 4 != 0x50435845 || g 4 2 != 1 || g 6 1 != 3 || m.poisonIn a len || checkpointHash m a len != m.bytes (a + 0x10) 48
    || m.bytes (a + 0x40) 48 != p.hash || g 0xA1 1 != p.header.profile || g 0xA2 1 != p.header.shards
    || g 7 1 != r.blk.kind || g 0xA4 4 != (if r.blk.loose then r.blk.settle else 0)
    || natBit (g 0xA0 1) 0 != r.blk.loose || natBit (g 0xA0 1) 1 != r.blk.noise
    || decide (len < checkpointSum g) || (decide (1 < p.header.shards) && g 0x98 8 != r.tag.toNat)
    || (g 0xD8 8 != 0 && decide (g 0xD8 8 ≤ g 0x90 8))

/-- Whether a shard this device hosts has no section: SHARD_MISSING (R430). -/
def checkpointLacks (m : Mem) (a : Nat) (p : Pattern) : Bool :=
  p.hosted.any fun n => !natBit (imageAt m a 0xC0 8) n

/-- The section of shard n in an image with its offsets; the bytes of a section that another device holds are free values
(log 33). -/
def sectionReader (g : Reader) (tag : Nat) (p : Pattern) (kind n : Nat) : Reader × Nat × Nat × Nat :=
  if natBit (g 0xC0 8) n then
    let sec := g.from (g (0x100 + 16 * n) 8)
    (sec, sec 0x18 8, sec 0x20 8, sec 0x28 8)
  else
    let l := sectionLayout p kind n
    (fun off k => bytesLE ((List.range k).map fun i => Config.peerByte tag n (off + i)), l.1, l.2.1, l.2.2.1)

/-- The states of every replica from an image: each shard's variables in ascending order (R428). -/
def checkpointStates (g : Reader) (tag kind : Nat) (p : Pattern) : List (List Bool) :=
  let parts := (List.range (max 1 p.header.shards)).map fun n => (p.shardVars n, sectionReader g tag p kind n)
  (List.range p.header.total).map fun k =>
    let bits := parts.flatMap fun x =>
      let sb := stateBytes x.1.length
      x.1.mapIdx fun i v => (v, natBit (x.2.1 (x.2.2.1 + sb * k + i / 8) 1) (i % 8))
    (List.range p.header.nVars).map fun v => match bits.find? fun b => b.1 == v with | some b => b.2 | none => false

/-- A best record or elite entry from a results area. -/
def readKept (g : Reader) (n : Nat) (off stateOff : Nat) : Option Kept :=
  if natBit (g (off + 0x16) 1) 0 then
    some
      { energy := signed 64 (g off 8), hash := g (off + 8) 8, tick := g (off + 0x10) 6, initial := natBit (g (off + 0x16) 1) 1,
        rung := g (off + 0x17) 1, replica := g (off + 0x18) 2, ladder := g (off + 0x1A) 2, hits := g (off + 0x1C) 4,
        state := (List.range n).map fun v => natBit (g (stateOff + v / 8) 1) (v % 8) }
  else none

/-- The results of a results area (R200-R210); SEQ starts at 0 when the run that takes them starts (R202). -/
def readResults (g : Reader) (p : Pattern) : Results :=
  let o := areaOffsets p
  let n := p.header.nVars
  let vec := fun k => o.2.2.2 + k * stateBytes n
  { best := readKept g n 0x100 (vec 0)
    elite := (List.range (min 64 (g 0x84 1))).filterMap fun k => readKept g n (0x140 + 64 * k) (vec (k + 1))
    declined := g 0x88 8
    collisions := g 0x90 8
    stretched := g 0x98 8
    replayed := g 0xA0 8
    tchoice := g 0xA8 8
    scored := g 0xD0 8
    samples := g 0xD8 8
    seq := 0
    stats := (List.range p.header.total).map fun k =>
      let e := g.from (o.1 + 64 * k)
      { ticks := e 0 8, basted := e 8 8, sewn := e 0x10 8, unpicked := e 0x18 8, nulls := e 0x20 8, extra := e 0x28 8 }
    xchg := (List.range (63 * p.ladders)).filterMap fun k =>
      let e := g.from (o.2.1 + 16 * k)
      if e 0 8 = 0 then none else some (k, e 0 8, e 8 8)
    hist := if p.plan.histOn then
        (List.range (256 * p.header.total)).filterMap fun k =>
          let c := g (o.2.2.1 + 8 * k) 8
          if c = 0 then none else some (k, c)
      else [] }

/-- A rung map from the layout of R427. -/
def readMap (g : Reader) (p : Pattern) (off : Nat) : List Nat :=
  (List.range p.header.total).map fun k => g (off + 128 * (k / p.rungs) + 2 * (k % p.rungs)) 2

/-- A learning entry from its record. -/
def readEntryRecord (g : Reader) (off : Nat) (e : Entry) : Entry :=
  { index := e.index, code := signed 8 (g (off + 2) 1), grad := signed 8 (g (off + 3) 1), mom := signed 8 (g (off + 4) 1),
    counter := signed 16 (g (off + 5) 2) }

/-- Where each core's first entry stands among its shard's. -/
def entryStarts (cores : List Core) : List Nat :=
  (cores.foldl (fun (acc : List Nat × Nat) c => (acc.1 ++ [acc.2], acc.2 + c.entries.length)) ([], 0)).1

/-- The cores of a learning run from an image: entries, row states, M and check rows (R430 step 2). -/
def checkpointCores (g : Reader) (tag : Nat) (p : Pattern) : List Core :=
  let here := fun v => p.here.any fun c => c.rows.any fun r => r.var == v
  let cores := (List.range (max 1 p.header.shards)).flatMap fun n =>
    let sec := sectionReader g tag p 2 n
    let mine := p.shardCores n
    let vars := p.shardVars n
    (mine.zip (entryStarts mine)).map fun x =>
      { x.1 with
        entries := x.1.entries.mapIdx fun i e => readEntryRecord sec.1 (sec.2.2.1 + 8 * (x.2 + i)) e
        rows := x.1.rows.map fun r =>
          let st := readRowState (sec.1.from (sec.2.2.2 + 32 * (vars.findIdx? (· == r.var)).getD 0))
          { r with learn := st, m := 2 ^ st.exp } }
  withCheckRows p.header.mode here (p.cores.map fun c =>
    (cores.find? fun k => k.shard == c.shard && k.engine == c.engine && k.col == c.col && k.row == c.row).getD c)

/-- The 64 rows of the weir as the schedule stands at tick t (R178): each rung's copy in force, and the changes still to come (R181, R430). -/
def Run.startWeir (r : Run) (p : Pattern) (t : Nat) : Run :=
  let past := p.changes.filter fun c => decide (c.tick ≤ t)
  let copies := (List.range 64).map fun k =>
    match (past.filter fun c => c.rung == k).getLast? with
    | some c => ({ rung := k, temp := c.temp, first := c.tick, ready := true } : WeirCopy)
    | none => { rung := k, temp := p.temps.getD k 0, first := 0, ready := true }
  { r with weir := copies, due := [], later := p.changes.filter fun c => decide (t < c.tick) }.releaseWeir t

/-- A run restored from an image, with its pattern's cores (R430 steps 1-6); none where the rebuilt V or hash
of a replica differs from the replica table. A scoring run keeps no replica (R218). -/
def Run.restore (r : Run) (p : Pattern) (g : Reader) : Option (Run × List Core) :=
  let cores := if r.blk.kind = 2 then checkpointCores g r.tag.toNat p else p.cores
  let p' := { p with cores := cores }
  let area := g.from (g 0xC8 8)
  let rungOff := (areaBytes p + 63) / 64 * 64
  let pendOff := rungOff + 128 * p.ladders
  let repOff := pendOff + 64 + 128 * p.ladders
  let reps := (checkpointStates g r.tag.toNat r.blk.kind p).map fun spins => r.build p' spins
  let agree := r.blk.kind == 1 || (reps.mapIdx fun k rep => (k, rep)).all fun x =>
    x.2.v == signed 64 (area (repOff + 16 * x.1) 8) && x.2.hash == area (repOff + 16 * x.1 + 8) 8
  if agree || decide (p.spansDevices) then
    let reps := if agree then reps else reps.mapIdx fun k rep =>
      { rep with v := signed 64 (area (repOff + 16 * k) 8), hash := area (repOff + 16 * k + 8) 8 }
    let r :=
      { r with
        blk := { r.blk with seeds := (List.range 4).map fun i => BitVec.ofNat 64 (g (0x70 + 8 * i) 8) }
        tick := g 0x90 8
        replicas := if r.blk.kind = 1 then [] else reps
        rungMap := readMap area p rungOff
        pendMap := if area pendOff 8 = 0 then none else some (area pendOff 8, readMap area p (pendOff + 64))
        results := readResults area p
        inputPos := g 0xB0 8
        outNo := g 0xB8 8
        saturated := natBit (g 0xA3 1) 0
        pauseAt := g 0xD8 8
        auditAt := g 0xE0 8 }
    some (r.startWeir p r.tick, cores)
  else none

/-! ### Hems (R296, R297) -/

/-- Clamp or input vectors that the ticks before t have taken (R231, R542). -/
def Pattern.vectorsBefore (p : Pattern) (kind inputCount t : Nat) : Nat :=
  match kind with
  | 0 => 0
  | 1 => if inputCount = 0 then t * p.header.resident else min inputCount (t * p.header.resident)
  | _ =>
    let round := max 1 p.roundTicks
    let all := p.phase + t / round * p.phase + min p.phase (t % round - p.learn.sweeps * p.turn)
    if p.learn.steps = 0 then all else min all (p.learn.steps * p.learn.rounds * p.phase)

/-- Lines of the hem of shard n: the header line, the global part and the section of the shard (R296; the layout of the body is that
of a checkpoint, log 34). -/
def hemLines (p : Pattern) (kind n : Nat) : Nat := 1 + globalLines p + (sectionLayout p kind n).2.2.2 / 64

/-- The header line of a hem (R297). -/
def hemHeader (r : Run) (p : Pattern) (n : Nat) (complete : Bool) : List Byte :=
  toBytesLE 4 0x4D454845 ++ toBytesLE 2 1 ++ toBytesLE 1 n ++ toBytesLE 1 (bit complete) ++ toBytesLE 8 r.tag.toNat
    ++ toBytesLE 8 r.tick ++ toBytesLE 8 (hemLines p r.blk.kind n) ++ (p.hash ++ zeroBytes 16).take 16
    ++ toBytesLE 8 (r.tick / max 1 r.blk.hemPeriod) ++ zeroBytes 8

/-- The image of the hem of shard n of a run as it stands, not yet marked COMPLETE (R296, R297). -/
def hemImage (s : State) (r : Run) (p : Pattern) (n : Nat) : List Byte :=
  hemHeader r p n false ++ globalPart s r p ++ shardSection r p n

/-- The replicas' states with the variables of some shards as an image holds them. -/
def shardStates (g : Reader) (tag kind : Nat) (p : Pattern) (shards : List Nat) (old : List (List Bool)) : List (List Bool) :=
  old.mapIdx fun k spins =>
    shards.foldl (fun spins n =>
      let sec := sectionReader g tag p kind n
      let sb := stateBytes (p.shardVars n).length
      setSpins spins ((p.shardVars n).mapIdx fun i v => (v, natBit (sec.1 (sec.2.1 + sb * k + i / 8) 1) (i % 8)))) spins

/-- The pattern with the check rows of the shards it has here (R103). -/
def Pattern.recheck (p : Pattern) : Pattern :=
  let here := fun v => p.here.any fun c => c.rows.any fun r => r.var == v
  { p with cores := withCheckRows p.header.mode here p.cores }

/-- A set of hems of one tick, by shard and device address, read as the checkpoint that they make together: the global part of the
first one at 0x500, the section of shard n at 2^40 (n + 1). The places in the streams follow from the tick. -/
def hemReader (m : Mem) (r : Run) (p : Pattern) (hems : List (Nat × Nat)) (t : Nat) : Reader := fun off k =>
  let body := 64 + 64 * globalLines p
  let home := ((hems.head?).map (·.2)).getD 0
  let at_ := fun (n : Nat) => ((hems.find? fun h => h.1 == n).map (·.2)).getD 0
  if off < 0x500 then
    match off with
    | 0x90 => t
    | 0xB0 => p.vectorsBefore r.blk.kind r.blk.inputCount t
    | 0xB8 => if r.blk.kind = 0 then m.field (home + 64 + 0xD8) 8 else p.stepOf t
    | 0xC0 => maskOf 64 fun n => hems.any fun h => h.1 == n
    | 0xC8 => 0x500
    | _ =>
      if 0x70 ≤ off ∧ off < 0x90 then (r.blk.seeds.getD ((off - 0x70) / 8) 0).toNat
      else if 0x100 ≤ off ∧ off % 16 = 0 then 2 ^ 40 * ((off - 0x100) / 16 + 1)
      else 0
  else if off < 2 ^ 40 then m.field (home + 64 + (off - 0x500)) k
  else m.field (at_ (off / 2 ^ 40 - 1) + body + off % 2 ^ 40) k

end Sys2Proof.Machine
end

