-- ==== Sys2Proof/Machine/Wire.lean ====
section
/-! DEFINITION. Frames on Nuthes Link (R276-R281): their bytes, the messages of CONTROL frames (R278), and how a port queues, numbers,
sends and holds them for replay (R279, R280). -/

namespace Sys2Proof.Machine

/-- Port i. -/
def State.port (s : State) (i : Nat) : Port := s.nl.ports.getD i .reset

/-- Change port i. -/
def State.setPort (s : State) (i : Nat) (f : Port → Port) : State :=
  { s with nl := { s.nl with ports := modifyAt f i s.nl.ports } }

/-- The node number as messages carry it: 0xFF for none. -/
def State.nodeCode (s : State) : Nat := s.nl.node.getD 255

/-! ### The bytes of a frame (R276) -/

/-- The 64-bit header of a frame. -/
def LinkFrame.header (f : Sys2Proof.LinkFrame) : Nat :=
  f.type % 16 * 2 ^ 60 + f.dest % 16 * 2 ^ 56 + f.src % 16 * 2 ^ 52 + f.seq % 4096 * 2 ^ 40 + f.ack % 4096 * 2 ^ 28
    + bit f.ackValid * 2 ^ 27 + f.count % 8 * 2 ^ 24 + f.stream % 256 * 2 ^ 16 + f.first % 65536

/-- Bytes 0-247 of a frame, over which its CRC runs. -/
def LinkFrame.body (f : Sys2Proof.LinkFrame) : List Byte :=
  toBytesLE 8 (LinkFrame.header f) ++ (f.payload ++ zeroBytes 240).take 240

/-- The 256 bytes of a frame. -/
def LinkFrame.bytes (f : Sys2Proof.LinkFrame) : List Byte := LinkFrame.body f ++ toBytesLE 4 f.crc.toNat ++ zeroBytes 4

/-- Whether the CRC-32 of a frame as received is right (R280). -/
def LinkFrame.good (f : Sys2Proof.LinkFrame) : Bool := f.crc.toNat == crc32 (LinkFrame.body f)

/-- A frame that has not left yet: its payload filled to 240 bytes, no SEQ, ACK or CRC. -/
def newFrame (type dest src stream count first : Nat) (payload : List Byte) : Sys2Proof.LinkFrame :=
  { type := type, dest := dest % 16, src := src % 16, seq := 0, ack := 0, ackValid := false, count := count, stream := stream,
    first := first, payload := (payload ++ zeroBytes 240).take 240, crc := 0 }

/-! ### CONTROL messages (R278) -/

/-- The message code of byte 0. -/
def PeerMsg.code : PeerMsg → Nat
  | .stitch _ _ _ => 1
  | .arm _ => 2
  | .vote _ => 3
  | .sum _ => 4
  | .hemAck _ => 5
  | .peerLost _ => 6
  | .link _ => 7
  | .topology _ => 8

/-- Bytes from 0x08 on of a CONTROL payload. -/
def PeerMsg.fields : PeerMsg → List Byte
  | .stitch count root hops => toBytesLE 8 count.toNat ++ toBytesLE 1 root ++ toBytesLE 1 hops
  | .arm m =>
    toBytesLE 8 m.tag.toNat ++ toBytesLE 8 m.shardMask.toNat ++ (m.hash16 ++ zeroBytes 16).take 16
      ++ ((List.range 4).flatMap fun i => toBytesLE 8 (m.seeds.getD i 0).toNat) ++ toBytesLE 8 m.launch.toNat
      ++ toBytesLE 1 m.profile ++ toBytesLE 1 m.origin
  | .vote m =>
    toBytesLE 8 m.tag.toNat ++ toBytesLE 8 m.index ++ toBytesLE 2 m.slot ++ toBytesLE 1 m.kind ++ toBytesLE 1 m.value
      ++ toBytesLE 1 m.origin
  | .sum m =>
    toBytesLE 8 m.tag.toNat ++ toBytesLE 8 m.tick ++ toBytesLE 1 m.origin ++ toBytesLE 1 m.values.length ++ zeroBytes 6
      ++ m.values.flatMap fun x => toBytesLE 8 (unsigned 64 x)
  | .hemAck m => toBytesLE 8 m.tag.toNat ++ toBytesLE 8 m.tick ++ toBytesLE 1 m.shard ++ toBytesLE 1 m.slot ++ toBytesLE 1 m.buddy
  | .peerLost m => toBytesLE 1 m.lost ++ toBytesLE 1 m.detector ++ zeroBytes 6 ++ toBytesLE 8 m.stitch.toNat
  | .link m => toBytesLE 8 m.unit.toNat ++ toBytesLE 1 m.node ++ toBytesLE 1 m.port ++ toBytesLE 2 m.latency
  | .topology m =>
    toBytesLE 8 m.unit.toNat ++ toBytesLE 1 m.node ++ toBytesLE 1 m.sequence ++ zeroBytes 6
      ++ m.ports.flatMap fun p => toBytesLE 1 p.1 ++ toBytesLE 1 p.2.1 ++ toBytesLE 1 p.2.2 ++ zeroBytes 1

/-- The payload of a CONTROL frame. -/
def PeerMsg.encode (m : PeerMsg) : List Byte := ((toBytesLE 1 m.code ++ zeroBytes 7 ++ m.fields) ++ zeroBytes 240).take 240

/-- The message of a CONTROL payload; reserved codes, and a SUM whose count is not 1-16, carry none. -/
def PeerMsg.decode (b : List Byte) : Option PeerMsg :=
  let f := fieldOf b
  let tag := BitVec.ofNat 64 (f 8 8)
  match f 0 1 with
  | 1 => some (.stitch (BitVec.ofNat 64 (f 8 8)) (f 0x10 1) (f 0x11 1))
  | 2 =>
    some (.arm
      { tag := tag, shardMask := BitVec.ofNat 64 (f 0x10 8), hash16 := (b.drop 0x18).take 16,
        seeds := (List.range 4).map fun i => BitVec.ofNat 64 (f (0x28 + 8 * i) 8), launch := BitVec.ofNat 64 (f 0x48 8),
        profile := f 0x50 1, origin := f 0x51 1 })
  | 3 => some (.vote { tag := tag, index := f 0x10 8, slot := f 0x18 2, kind := f 0x1A 1, value := f 0x1B 1, origin := f 0x1C 1 })
  | 4 =>
    let n := f 0x19 1
    if 1 ≤ n ∧ n ≤ 16 then
      some (.sum
        { tag := tag, tick := f 0x10 8, origin := f 0x18 1, values := (List.range n).map fun i => signed 64 (f (0x20 + 8 * i) 8) })
    else none
  | 5 => some (.hemAck { tag := tag, tick := f 0x10 8, shard := f 0x18 1, slot := f 0x19 1, buddy := f 0x1A 1 })
  | 6 => some (.peerLost { lost := f 8 1, detector := f 9 1, stitch := BitVec.ofNat 64 (f 0x10 8) })
  | 7 => some (.link { unit := BitVec.ofNat 64 (f 8 8), node := f 0x10 1, port := f 0x11 1, latency := f 0x12 2 })
  | 8 =>
    some (.topology
      { unit := BitVec.ofNat 64 (f 8 8), node := f 0x10 1, sequence := f 0x11 1,
        ports := (List.range 4).map fun p => (f (0x18 + 4 * p) 1, f (0x19 + 4 * p) 1, f (0x1A + 4 * p) 1) })
  | _ => none

/-- What a flooded message is told apart by; none for a message that is not flooded. A vote is also told apart by its slot, its kind and
which try or wish it carries, and a sum by its slot and try, since a launch vote of attempt 0 and the seal votes of tick 0 share the rest
(log 32). -/
def PeerMsg.key : PeerMsg → Option FloodKey
  | .stitch _ _ _ => none
  | .arm m => some { code := 2, origin := m.origin, tag := m.tag.toNat, index := 0, slot := 0, kind := 0 }
  | .vote m => some { code := 3, origin := m.origin, tag := m.tag.toNat, index := m.index, slot := m.slot,
                                kind := m.kind + 4 * (if m.kind = 1 then m.value / 8 else if m.kind = 2 then m.value % 4 else 0) }
  | .sum m =>
    some { code := 4, origin := m.origin, tag := m.tag.toNat, index := m.tick, slot := unsigned 64 (m.values.headD 0), kind := 0 }
  | .hemAck m => some { code := 5, origin := 0, tag := m.tag.toNat, index := m.tick, slot := m.shard, kind := 0 }
  | .peerLost m => some { code := 6, origin := m.detector, tag := m.lost, index := m.stitch.toNat, slot := 0, kind := 0 }
  | .link _ => none
  | .topology m => some { code := 8, origin := 0, tag := m.unit.toNat, index := m.sequence, slot := 0, kind := 0 }

/-! ### Queueing and sending (R279, R280) -/

/-- Ports over which CONTROL frames pass: STATE 3 or 4 (R281). -/
def State.openPorts (s : State) : List Nat := (List.range 4).filter fun i => (s.port i).state == 3 || (s.port i).state == 4

/-- A frame waits to be sent on a port that is up, or that retrains with its peer kept (R280). -/
def State.queueFrame (s : State) (i : Nat) (f : Sys2Proof.LinkFrame) : State :=
  s.setPort i fun p => if 2 ≤ p.state ∧ p.state ≤ 4 then { p with txq := p.txq ++ [f] } else p

/-- A CONTROL message for the peer on a port; it needs no route, and its DEST and SRC are the two node numbers, 0 for none (log 32). -/
def State.sendControl (s : State) (i : Nat) (m : PeerMsg) : State :=
  s.queueFrame i (newFrame 4 ((s.port i).peerNode.getD 0) (s.nl.node.getD 0) 0 0 0 m.encode)

/-- Flood a message on every open port but one: once for each key (R278). -/
def State.flood (s : State) (except : Option Nat) (m : PeerMsg) : State :=
  let s := match m.key with
    | some k => { s with nl := { s.nl with flooded := addNew k s.nl.flooded } }
    | none => s
  (s.openPorts.filter fun i => some i != except).foldl (fun s i => s.sendControl i m) s

/-- A flooded message that came on a port goes on, unless it has been sent or forwarded before. -/
def State.forward (s : State) (port : Nat) (m : PeerMsg) : State :=
  match m.key with
  | some k => if s.nl.flooded.contains k then s else s.flood (some port) m
  | none => s

/-- The rank of a frame type: CONTROL, then FLIT, then OPEN and BULK (R279). -/
def typeRank (type : Nat) : Nat := if type = 4 then 0 else if type = 1 then 1 else 2

/-- Take the first element that satisfies q out of a list. -/
def takeFirst {α : Type} (q : α → Bool) : List α → Option (α × List α)
  | [] => none
  | x :: xs => if q x then some (x, xs) else (takeFirst q xs).map fun r => (r.1, x :: r.2)

/-- The frame that a port sends next, and what then waits: CONTROL before FLIT before streams, each in order; in STATE 4 CONTROL
alone (R279, R281). -/
def Port.pick (p : Port) : Option (Sys2Proof.LinkFrame × List Sys2Proof.LinkFrame) :=
  let rank := fun (k : Nat) => takeFirst (fun (f : Sys2Proof.LinkFrame) => typeRank f.type == k) p.txq
  if p.state = 4 then rank 0
  else match rank 0 with
    | some x => some x
    | none => match rank 1 with
      | some x => some x
      | none => rank 2

/-- A frame as it leaves: SEQ, ACK, the stitch count of a STITCH message at the frame's first byte, and the CRC (R276, R278). -/
def Port.stamp (p : Port) (stitch : Nat) (f : Sys2Proof.LinkFrame) : Sys2Proof.LinkFrame :=
  let payload := if f.type = 4 ∧ fieldOf f.payload 0 1 = 1 then f.payload.take 8 ++ toBytesLE 8 stitch ++ f.payload.drop 16 else f.payload
  let f := { f with seq := p.sendSeq, ack := (p.recvSeq + 4095) % 4096, ackValid := true, payload := payload }
  { f with crc := BitVec.ofNat 32 (crc32 (LinkFrame.body f)) }

/-- One frame time of a port: its next frame leaves and joins the replay buffer of 512 while that has room; with none to send, an
IDLE frame carries an ACK that is owed (R276, R279, R280). -/
def State.sendNext (s : State) (i : Nat) : State :=
  let p := s.port i
  if p.state ≠ 3 ∧ p.state ≠ 4 then s
  else
    match if p.replay.length < 512 then p.pick else none with
    | some (f, rest) =>
      let f := p.stamp s.cnt.stitch f
      (s.setPort i fun p =>
        { p with txq := rest, sendSeq := (p.sendSeq + 1) % 4096, replay := p.replay ++ [f], owes := false }).send (.frame i f)
    | none =>
      if p.owes then
        let f := p.stamp s.cnt.stitch (newFrame 0 (p.peerNode.getD 0) (s.nl.node.getD 0) 0 0 0 [])
        (s.setPort i fun p => { p with owes := false }).send (.frame i f)
      else s

/-- The frames that every port sends in one stitch count of 10 ns: four frame times of 2.42 ns (R277, R279; log 2). -/
def State.pump (s : State) : State :=
  (List.range 4).foldl (fun s i => (((s.sendNext i).sendNext i).sendNext i).sendNext i) s

/-- Frames that were not acknowledged are sent again, from the first one on (R280). -/
def State.resend (s : State) (i : Nat) : State := (s.port i).replay.foldl (fun s f => s.send (.frame i f)) s

/-- Queue a frame of a source for a port (R276). -/
def State.passFrame (s : State) (port src type dest stream count first : Nat) (payload : List Byte) : State :=
  s.queueFrame port (newFrame type dest src stream count first payload)

/-- Queue a frame of this device. -/
def State.sendFrame (s : State) (port type dest stream count first : Nat) (payload : List Byte) : State :=
  s.passFrame port s.nodeCode type dest stream count first payload

end Sys2Proof.Machine
end

