-- ==== Sys2Proof/Machine/Peers.lean ====
section
/-! DEFINITION. The graph and its routes (R282-R285) and the launch of a run over several devices (R288, R289). -/

namespace Sys2Proof.Machine

/-! ### The graph (R283, R284) -/

/-- TOPOLOGY messages that still count: at most 300 ms old (R283), of other devices. -/
def State.fresh (s : State) : List TopoMsg :=
  (s.nl.heard.filter fun h => decide (s.cnt.stitch ≤ h.at_ + 30000000) && h.msg.unit != s.nv.fuses.unitId).map (·.msg)

/-- Node numbers as devices show them, with their UNIT_IDs: in the TOPOLOGY messages that count, and, by this device's own state, at its
ports and in its own number (R283). -/
def State.claims (s : State) : List (Nat × DWord) :=
  s.fresh.map (fun m => (m.node, m.unit))
    ++ (s.nl.ports.filterMap fun p => p.peerNode.map fun n => (n, p.peerUnit))
    ++ s.nl.node.toList.map fun n => (n, s.nv.fuses.unitId)

/-- Node numbers that two devices with different UNIT_IDs claim (R283). -/
def State.clashes (s : State) : List Nat :=
  (List.range 16).filter fun n => decide (1 < ((s.claims.filter fun c => c.1 == n).map (·.2)).eraseDups.length)

/-- Whether this device's own number clashes. -/
def State.selfClash (s : State) : Bool := match s.nl.node with | some n => s.clashes.contains n | none => false

/-- Own TOPOLOGY message. -/
def State.ownTopology (s : State) : TopoMsg :=
  { unit := s.nv.fuses.unitId, node := s.nodeCode, sequence := s.nl.sequence % 256
    ports := s.nl.ports.map fun p => (p.peerNode.getD 255, p.peerPort, p.state) }

/-- Flood a TOPOLOGY message about a change: its sequence number rises (R278, R283). -/
def State.announce (s : State) : State :=
  let s := { s with nl := { s.nl with sequence := (s.nl.sequence + 1) % 256 } }
  if s.nl.node.isSome then s.flood none (.topology s.ownTopology) else s

/-- The newest message of each node, of those given oldest first. -/
def newestOf : List TopoMsg → List TopoMsg
  | [] => []
  | m :: rest => if rest.any fun x => x.node == m.node then newestOf rest else m :: newestOf rest

/-- The links that devices without a clash report, own ones included, as (node, port, peer node), where the port's STATE is as asked
(R283, R284). The newest message of a device stands until its next one: the 300 ms of R283 bound the clash alone (log 35). -/
def State.linksWhere (s : State) (state : Nat → Bool) : List (Nat × Nat × Nat) :=
  let others := newestOf ((s.nl.heard.map (·.msg)).filter fun m => m.unit != s.nv.fuses.unitId && some m.node != s.nl.node)
  let all := (if s.nl.node.isSome then [s.ownTopology] else []) ++ others
  (all.filter fun m => !s.clashes.contains m.node).flatMap fun m =>
    ((m.ports.mapIdx fun i p => (i, p)).filter fun x =>
      state x.2.2.2 && decide (x.2.1 < 16) && !s.clashes.contains x.2.1).map fun x => (m.node, x.1, x.2.1)

/-- The edges of the graph: ports in STATE 3 (R284). -/
def State.edges (s : State) : List (Nat × Nat × Nat) := s.linksWhere (· == 3)

/-- The links that are up, or retrain with their peer kept, by which nothing is lost (R280). -/
def State.keptEdges (s : State) : List (Nat × Nat × Nat) := s.linksWhere fun st => st == 3 || st == 2

/-- Nodes reached from some nodes in at most k hops. -/
def reachIn (edges : List (Nat × Nat × Nat)) : Nat → List Nat → List Nat
  | 0, ns => ns
  | k + 1, ns => reachIn edges k ((ns ++ (edges.filter fun e => ns.contains e.1).map fun e => e.2.2).eraseDups)

/-- Distance from a node to another over the graph, if it is reached within 16 hops. -/
def hopsTo (edges : List (Nat × Nat × Nat)) (src dst : Nat) : Option Nat :=
  (List.range 16).find? fun k => (reachIn edges k [src]).contains dst

/-- The first link of the route from a node to another: shortest path, ties to the lower next-hop node, then to the lower port
(R284). -/
def firstLink (edges : List (Nat × Nat × Nat)) (src dst : Nat) : Option (Nat × Nat × Nat) :=
  let mine := (edges.filter fun e => e.1 == src).filterMap fun e => (hopsTo edges e.2.2 dst).map fun h => (h, e.2.2, e.2.1)
  let best := mine.foldl (fun (b : Option (Nat × Nat × Nat)) x =>
    match b with
    | none => some x
    | some y => if x.1 < y.1 ∨ (x.1 = y.1 ∧ (x.2.1 < y.2.1 ∨ (x.2.1 = y.2.1 ∧ x.2.2 < y.2.2))) then some x else some y) none
  best.map fun x => (src, x.2.2, x.2.1)

/-- The links of the route from a node to another, at most k. -/
def routeLinks (edges : List (Nat × Nat × Nat)) : Nat → Nat → Nat → List (Nat × Nat × Nat)
  | 0, _, _ => []
  | k + 1, src, dst =>
    if src = dst then []
    else match firstLink edges src dst with
      | some l => l :: routeLinks edges k l.2.2 dst
      | none => []

/-- The links of the routes between some nodes. -/
def routesAmong (edges : List (Nat × Nat × Nat)) (nodes : List Nat) : List (Nat × Nat × Nat) :=
  (nodes.flatMap fun a => nodes.flatMap fun b => routeLinks edges 16 a b).eraseDups

/-- The port of the route toward a node over some links. -/
def State.portOver (s : State) (links : List (Nat × Nat × Nat)) (dst : Nat) : Option Nat :=
  match s.nl.node with
  | none => none
  | some me => (firstLink links me dst).map fun x => x.2.1

/-- The port of the route toward a node over the graph as it stands. -/
def State.routePort (s : State) (dst : Nat) : Option Nat := s.portOver s.edges dst

/-- The port of a run's route toward a node: its routes stay as they were at its launch, its last rehost or its last loss of a link
(R285, R308). -/
def State.runPort (s : State) (r : Run) (dst : Nat) : Option Nat :=
  if r.routes.isEmpty then s.routePort dst else s.portOver r.routes dst

/-- The port on which a frame of a source goes on toward its destination: by the routes of a run that both take part in, else by the
graph (R285). -/
def State.wayOn (s : State) (src dst : Nat) : Option Nat :=
  match s.grid.runs.find? fun r => r.begun && r.nodes.contains src && r.nodes.contains dst with
  | some r => s.runPort r dst
  | none => s.routePort dst

/-! ### Streams (R277) -/

/-- Queue a stream to a node on a port: OPEN, then BULK frames of 240 bytes. -/
def State.streamTo (s : State) (port node stream dest kind : Nat) (bs : List Byte) : State :=
  let open_ := toBytesLE 8 dest ++ toBytesLE 8 bs.length ++ toBytesLE 1 kind
  (chunks 240 bs).foldl (fun s c => s.sendFrame port 2 node stream 0 0 c) (s.sendFrame port 3 node stream 0 0 open_)

/-- A stream to a node of a run over the run's route (R285). -/
def State.streamFor (s : State) (r : Run) (node stream dest kind : Nat) (bs : List Byte) : State :=
  match s.runPort r node with
  | some port => s.streamTo port node stream dest kind bs
  | none => s

/-- The header line of a gather: RUN_TAG, tick, shard, and what it gathers, 0 the state vectors of the results, 1 a learned image
(R247, R290; the layout is log 32's). -/
def gatherLine (tag tick shard what : Nat) : List Byte :=
  toBytesLE 8 tag ++ toBytesLE 8 tick ++ toBytesLE 1 shard ++ toBytesLE 1 what ++ zeroBytes 46

/-- The state vectors a results area shows, best first (R208). -/
def Results.kept (x : Results) : List Kept := x.best.toList ++ x.elite

/-- Send each hosted shard's part of the state vectors to every other device of the run, as streams of kind 2 (R290). -/
def State.gatherResults (s : State) (ref : TaskRef) : State :=
  match s.run? ref with
  | none => s
  | some r =>
    match s.pattern r.pattern with
    | none => s
    | some p =>
      if p.header.shards ≤ 1 then s
      else
        let part := fun (n : Nat) => gatherLine r.tag.toNat r.tick n 0
          ++ r.results.kept.flatMap fun k => packState ((p.shardVars n).map fun v => k.state.getD v false)
        (r.nodes.filter fun n => some n != s.nl.node).foldl (fun s node =>
          p.hosted.foldl (fun s n => s.streamFor r node (128 + n) 0 2 (part n)) s) s

/-! ### Launch (R288, R289) -/

/-- ARMs of a run that this device holds, its own included. -/
def State.armsOf (s : State) (tag : DWord) : List ArmMsg := s.nl.arms.filter fun a => a.tag == tag

/-- The lowest shard that no ARM claims, or that several do. -/
def State.badShard (s : State) (tag : DWord) (shards : Nat) : Option Nat :=
  (List.range shards).find? fun n => ((s.armsOf tag).filter fun a => natBit a.shardMask.toNat n).length != 1

/-- This device's launch vote (R283, R288, R297): a clash gives 2 whatever the ARMs cover, since R283 asks it of every launch vote. -/
def State.launchVote (s : State) (r : Run) (p : Pattern) : Nat :=
  let arms := s.armsOf r.tag
  let agree := match arms with
    | a :: rest => rest.all fun x => x.hash16 == a.hash16 && x.seeds == a.seeds && x.profile == a.profile && x.launch == a.launch
    | [] => true
  let buddies := p.hosted.all fun n => arms.any fun a => a.origin == r.blk.buddies.getD n 255
  let clash := s.selfClash || arms.any fun a => s.clashes.contains a.origin
  if clash then 2
  else if (s.badShard r.tag p.header.shards).isSome then 0
  else if !agree || !buddies then 2
  else 1

/-- A vote of this device is flooded and kept (R278). -/
def State.castVote (s : State) (v : VoteMsg) : State :=
  { s with nl := { s.nl with votes := addNew v s.nl.votes } }.flood none (.vote v)

/-- The votes and sums of a run are forgotten, with the book of those sent and forwarded but for rewinds: the ticks after a rewind are voted
afresh (log 32). -/
def State.forgetRun (s : State) (tag : DWord) : State :=
  { s with
    nl :=
      { s.nl with
        votes := s.nl.votes.filter fun v => v.tag != tag || (v.kind == 2 && v.value == 1)
        sums := s.nl.sums.filter fun v => v.tag != tag
        flooded := s.nl.flooded.filter fun k => !(k.tag == tag.toNat && ((k.code == 3 && k.kind != 6) || k.code == 4))
        sluice := [] } }

/-- The launch votes of an attempt that this device holds. -/
def State.launchVotes (s : State) (r : Run) : List VoteMsg :=
  s.nl.votes.filter fun v => v.kind == 3 && v.tag == r.tag && v.index == r.attempt

end Sys2Proof.Machine
end

