-- ==== Sys2Proof/Machine/Turn.lean ====
section
/-! DEFINITION. What happens to a run at a boundary once its tick is settled (row 9 of R158, R159-R163, R194, R215, R233,
R336, R337, R398, R399, R409, R431, R443, R446, R506, R540, R542): holds, pauses, ends, sprouts, starvation, spool. -/

namespace Sys2Proof.Machine

/-- Write the results area and gather the state vectors of a run over several devices (R202, R290). -/
def State.publish (s : State) (ref : TaskRef) (state : Nat) : State := (s.writeResults ref state).gatherResults ref

/-! ### Engine states of a run -/

/-- Every engine of a run takes a state; HOLD_CAUSE and PAUSE_KIND with it (R351). A moment that is not RUNNING spoils the
task's hang interval (R413), and the slots of a whole-cloth run begin their times afresh. -/
def State.setRunState (s : State) (r : Run) (st cause detail kind : Nat) : State :=
  let s := (s.setEngines r.engines fun e => { e with state := st, cause := cause, detail := detail, pauseKind := kind }).setTask r.ref
    fun t => if st = 3 then t else { t with wholeInterval := false }
  if st = 3 then s else s.setRun r.ref fun r => { r with clock := .start }

/-- HELD, once for each engine in ascending order (R367); a run that has not begun has no tick yet. -/
def State.holdRun (s : State) (ref : TaskRef) (cause detail : Nat) : State :=
  match s.run? ref with
  | some r =>
    r.engines.foldl (fun s e => s.event 2 1 (sourceOf 1 e) (if r.begun then some r.tick else none)
      (toBytesLE 1 cause ++ zeroBytes 1 ++ toBytesLE 2 ref.queue ++ toBytesLE 2 detail)) (s.setRunState r 6 cause detail 0)
  | none => s

/-- RUNNING: RESUMED for each engine that leaves STARVED, PAUSED or HELD (R367). -/
def State.goRun (s : State) (ref : TaskRef) : State :=
  match s.run? ref with
  | some r =>
    let old := r.engines.map fun e => (e, (s.engine e).state)
    let s := (s.setRunState r 3 0 0 0).setRun ref fun r => { r with starved := [] }
    (old.filter fun x => decide (4 ≤ x.2)).foldl (fun s x =>
      s.event 2 3 (sourceOf 1 x.1) (some r.tick) (toBytesLE 1 x.2)) s
  | none => s

/-- STARVED on some streams; the event names the first, a sprout lane as stream 3 (R367, R399). Scores that wait leave
(R218). -/
def State.starveRun (s : State) (ref : TaskRef) (streams : List Nat) : State :=
  match s.run? ref with
  | some r =>
    let fresh := r.engines.filter fun e => (s.engine e).state != 4
    let s := (s.setRunState r 4 0 0 0).setRun ref fun r => { r with starved := streams }
    let s := if r.part.isEmpty then s else s.writeScores ref true
    fresh.foldl (fun s e => s.event 2 2 (sourceOf 1 e) (some r.tick)
      (toBytesLE 1 (min 3 (streams.headD 0)) ++ zeroBytes 1 ++ toBytesLE 2 ref.queue)) s
  | none => s

/-! ### Ends -/

/-- The CHECKPOINT tasks that wait for a run end CANCELLED (R388, R404). -/
def State.dropCheckpoints (s : State) (r : Run) : State :=
  r.wants.foldl (fun s w =>
    match w with
    | .checkpoint t _ _ => s.endTask t 0x0100 0xFFFFFFFD
    | _ => s) s

/-- The engines of a run that ends return to LOADED, those of a learning run to IDLE with no pattern (R411, R544); its task is
set to retire; the run is gone. -/
def State.releaseRun (s : State) (ref : TaskRef) (status detail : Nat) : State :=
  match s.run? ref with
  | some r =>
    let s := s.setEngines r.engines fun e =>
      { e with state := 2, cause := 0, detail := 0, pauseKind := 0, progress := 0, task := none }
    let keep := fun (p : Pattern) => { p with left := if r.begun then r.lanes p else p.left }
    let s := { s with grid := { s.grid with patterns := modifyIf (fun p => p.id == r.pattern) keep s.grid.patterns } }
    let s := if r.blk.kind = 2 then s.unload r.engines else s
    let s := s.setTask ref fun t => { t with progress := r.progress, engines := r.mask }
    let s := s.endTask ref status detail
    { s with
      grid := { s.grid with runs := s.grid.runs.filter fun x => x.ref != ref }
      nl :=
        { s.nl with
          arms := s.nl.arms.filter fun a => !(a.tag == r.tag && (r.armed || !r.nodes.isEmpty) && a.origin == s.nodeCode)
          votes := s.nl.votes.filter fun v => !(v.tag == r.tag && (r.armed || !r.nodes.isEmpty))
          sums := s.nl.sums.filter fun v => !(v.tag == r.tag && (r.armed || !r.nodes.isEmpty)) } }
  | none => s

/-- A run ends: waiting scores leave, the results area shows STATE, and the run is released, a learned image that is being
written first (R202, R218, R248). -/
def State.finishRun (s : State) (ref : TaskRef) (status detail state : Nat) : State :=
  match s.run? ref with
  | some r =>
    let s := (if r.part.isEmpty then s else s.writeScores ref true).publish ref state
    let s := (s.dropCheckpoints r).setRun ref fun r => { r with wants := [] }
    if r.imaging.isSome then s.setRun ref fun r => { r with ended := some (status, detail), ticking := false, work := [] }
    else s.releaseRun ref status detail
  | none => s

/-- A run over several devices that this device leaves before it completes: the others are told that this device is lost to it (R298, R303,
R371, R412, R416, R443; log 35). -/
def State.leaveRun (s : State) (ref : TaskRef) : State :=
  match s.run? ref with
  | some r =>
    if r.begun && decide (1 < r.nodes.length) then
      s.flood none (.peerLost { lost := s.nodeCode, detector := s.nodeCode, stitch := BitVec.ofNat 64 s.cnt.stitch })
    else s
  | none => s

/-- End a run before it completes (R411, R414, R443). -/
def State.breakRun (s : State) (ref : TaskRef) (status detail state : Nat) : State :=
  (s.leaveRun ref).finishRun ref status detail state

/-- DONE, or DONE_SATURATED after a LEARN_SATURATION (R244, R405). -/
def Run.doneStatus (r : Run) : Nat := if r.saturated then 1 else 0

/-- A run that cannot continue on its engines, on one device (R443): results with STATE 3, CANCELLED with DETAIL
0xFFFFFFFE. -/
def State.cannotContinue (s : State) (ref : TaskRef) : State :=
  match s.run? ref with
  | some r =>
    if r.begun then s.breakRun ref 0x0100 0xFFFFFFFE 3 else s.releaseRun ref 0x0100 0xFFFFFFFE
  | none => s

/-! ### Pauses -/

/-- Write a checkpoint of a run at an address (R425). -/
def State.writeCheckpoint (s : State) (ref : TaskRef) (addr : Nat) : State :=
  match s.run? ref with
  | some r => match s.pattern r.pattern with
    | some p => s.writeDram addr (checkpointBytes s r p)
    | none => s
  | none => s

/-- A run pauses with a kind: scores leave, results with STATE 1 (R202, R218, R409); one that has paused at this boundary
already only takes the kind. -/
def State.pauseRun (s : State) (ref : TaskRef) (kind : Nat) : State :=
  match s.run? ref with
  | some r =>
    if (s.engine r.lead).state = 5 then s.setRunState r 5 0 0 kind
    else
      let s := (if r.part.isEmpty then s else s.writeScores ref true).publish ref 1
      s.setRunState r 5 0 0 kind
  | none => s

/-! ### Sprouts (R398, R399, R540) -/

/-- Steps of a run's program that sprout before tick t, in order. -/
def Run.sproutSteps (r : Run) (p : Pattern) (t : Nat) : List SproutStep :=
  (p.programs.getD r.program []).filter fun x =>
    if x.period = 0 then t == x.first else decide (x.first ≤ t) && (t - x.first) % x.period == 0

/-- The 64 bytes of a sprouted descriptor, as they stand when the sprout is due; none when HANDLE and OFFSET name no whole line
of a VALID entry. -/
def sproutLine (m : Mem) (q : Queue) (copy : Nat) (x : SproutStep) : Option (List Byte) :=
  match handleRegion m q copy x.handle with
  | some (a, len, _) => if x.offset + 64 ≤ len then some (m.bytes (a + x.offset) 64) else none
  | none => none

/-- The sprouts due before the next tick that have not been made enter the lane while SPROUT_ACK allows; answers whether all
have (R399). A bad one enters without a descriptor, and retires at admission with HANDLE_INVALID (R540). -/
def State.makeSprouts (s : State) (ref : TaskRef) : State × Bool :=
  match s.run? ref with
  | none => (s, true)
  | some r =>
    match s.pattern r.pattern, s.queue ref.queue, s.task ref with
    | some p, some q, some t =>
      let steps := (r.sproutSteps p r.tick).drop r.sprouted
      let room := q.sproutAck.toNat + 256 - q.sprouts
      let now := steps.take room
      let ds := now.mapIdx fun i x => (q.sprouts + i + 1, (sproutLine s.mem q t.copy x).getD [])
      let s := (s.setQueue q.num fun q => { q with lane := q.lane ++ ds, sprouts := q.sprouts + ds.length }).noteWork q.num
      (s.setRun ref fun r => { r with sprouted := r.sprouted + ds.length }, decide (steps.length ≤ room))
    | _, _, _ => (s, true)

/-! ### The spool (R336, R337) -/

/-- A core's logical name y * 256 + x (R454): dies 0-3 in the southern row, four columns of 64. -/
def Pattern.coreName (p : Pattern) (c : Core) : Nat :=
  let e := p.engineOf c.shard c.engine
  (64 * (e / 4) + c.row) * 256 + 64 * (e % 4) + c.col

/-- Whether a run spools. -/
def Pattern.spools (p : Pattern) : Bool := p.header.mode == 0 && decide (p.header.resident < p.header.total)

/-- Cores of the spool image with their place in it: ascending 256 y + x. -/
def Pattern.spoolOrder (p : Pattern) : List (Nat × Core) :=
  let names := p.here.map p.coreName
  p.here.map fun c => ((names.filter fun n => decide (n < p.coreName c)).length, c)

/-- REPLICA_LINES. -/
def Pattern.replicaLines (p : Pattern) : Nat := 3 * p.here.length

/-- The three lines of a core (R336). -/
def spoolRecord (spins : List Bool) (v : CoreView) : List Byte :=
  let slot := fun (k : Nat) => ((v.1.rows.zip v.2.1).find? fun x => x.1.slot == k)
  ((List.range 32).flatMap fun k => toBytesLE 4 (match slot k with | some x => unsigned 32 x.2.value | none => 0))
    ++ toBytesLE 4 (maskOf 32 fun k => match slot k with | some x => spins.getD x.1.var false | none => false)
    ++ toBytesLE 12 (maskOf 96 fun k => v.2.2.getD k false) ++ zeroBytes 48

/-- Write out the image of replica k. -/
def State.spoolOut (s : State) (r : Run) (p : Pattern) (k : Nat) : State :=
  let rep := r.replica k
  ((rep.views (r.cores p)).filter fun v => p.here.contains v.1).foldl (fun s v =>
    match p.spoolOrder.find? fun x => x.2 == v.1 with
    | some x => s.writeDram (r.blk.spool + 64 * k * p.replicaLines + 192 * x.1) (spoolRecord rep.spins v)
    | none => s) s

/-- Replica k as its image holds it: fields, spins and product bits of the cores of this device (R337). -/
def Run.spoolIn (r : Run) (p : Pattern) (m : Mem) (k : Nat) : Replica :=
  let rep := r.replica k
  let at_ := fun (c : Core) => (p.spoolOrder.find? fun x => x.2 == c).map fun x =>
    r.blk.spool + 64 * k * p.replicaLines + 192 * x.1
  let views := rep.views (r.cores p)
  let bits := p.here.flatMap fun c =>
    match at_ c with
    | some a => c.rows.map fun row => (row.var, natBit (m.field (a + 128) 4) row.slot)
    | none => []
  { rep with
    spins := rep.spins.mapIdx fun v b => match bits.find? fun x => x.1 == v with | some x => x.2 | none => b
    fields := views.flatMap fun v =>
      match at_ v.1 with
      | some a => v.1.rows.map fun row => Field.fresh (signed 32 (m.field (a + 4 * row.slot) 4))
      | none => v.2.1
    products := views.flatMap fun v =>
      match at_ v.1 with
      | some a => (List.range v.1.ends.length).map fun e => natBit (m.field (a + 132) 12) e
      | none => v.2.2 }

/-- The turnover after tick t: its replica is written out, the one served RESIDENT ticks later begins to load (R337). -/
def State.turnover (s : State) (ref : TaskRef) (t : Nat) : State :=
  match s.run? ref with
  | some r =>
    match s.pattern r.pattern with
    | some p =>
      if p.spools ∧ r.blk.kind = 0 then
        let total := max 1 p.header.total
        let k := t % total
        (s.spoolOut r p k).setRun ref fun r =>
          { r with resident := r.resident.filter (· != k), loading := r.loading ++ [(k + p.header.resident) % total] }
      else s
    | none => s
  | none => s

/-! ### What the next tick needs -/

/-- Whether a run streams records: samples, scores or step records. -/
def Run.streams (r : Run) (p : Pattern) : Bool := decide (1 ≤ r.blk.kind) || p.plan.samples

/-- Lines of records that tick t will write (R213, R215, R218, R246). -/
def Run.linesOf (r : Run) (p : Pattern) (t : Nat) : Nat :=
  match r.blk.kind with
  | 0 => if r.blk.loose && t % max 1 r.blk.settle != 0 then 0
    else
      let ks := if p.header.mode = 1 then List.range p.header.total else [t % max 1 p.header.total]
      sampleLines p * (ks.filter fun k => sampled p k t).length
  | 1 =>
    let n := if r.blk.inputCount = 0 then p.header.resident else min p.header.resident (r.blk.inputCount - r.results.scored)
    cdiv (r.part.length + n) 4
  | _ => if (t + 1) % max 1 p.stepTicks = 0 then 3 else 0

/-- Input states or vectors that tick t takes (R230-R233, R542). -/
def Run.vectorsOf (r : Run) (p : Pattern) (t : Nat) : Nat :=
  match r.blk.kind with
  | 0 => 0
  | 1 => if r.blk.inputCount = 0 then p.header.resident else min p.header.resident (r.blk.inputCount - r.results.scored)
  | _ => if r.inputPos < p.phase then p.phase else if p.harvestAt t && p.reloads t then 1 else 0

/-- Streams that the next tick lacks: 1 input, 2 clamp, 3 output ring (R160, R215, R233, R542). A run never waits for more room than its
ring has: where a tick writes more lines, its later records wait in turn (R216). -/
def State.lacking (s : State) (v : HostView) (r : Run) (p : Pattern) : List Nat :=
  let need := r.vectorsOf p r.tick
  let lines := r.linesOf p r.tick
  (if need = 0 ∨ need ≤ s.inputReady v r p then [] else [r.blk.kind])
    ++ if r.queue.isEmpty && (lines = 0 || decide (min lines (r.blk.ringLines - 1) ≤ s.ringRoom r)) then [] else [3]

/-- Whether the page of an input ring's counters does not translate (R396). -/
def State.counterFails (s : State) (v : HostView) (r : Run) (p : Pattern) : Bool :=
  decide (0 < r.vectorsOf p r.tick) && decide (hostWindow ≤ r.blk.input)
    && !translates s.host.atsCache v (r.blk.input - hostWindow)

/-- Whether a line that the next tick takes reads as poison, or its page does not translate (R396, R446). -/
def State.inputFails (s : State) (v : HostView) (r : Run) (p : Pattern) : Bool :=
  (List.range (r.vectorsOf p r.tick)).any fun k => s.inputBad v r p k

/-- The first clamp vectors of a learning run (R231): replicas 0 to P - 1 take vectors 0 to P - 1, hidden bits with tick
index 0. -/
def State.firstClamps (s : State) (v : HostView) (ref : TaskRef) : State :=
  match s.run? ref with
  | some r =>
    match s.pattern r.pattern with
    | some p =>
      if r.blk.kind = 2 ∧ r.inputPos < p.phase then
        let reps := r.replicas.mapIdx fun k rep =>
          if k < p.phase then r.build p (r.clampState p k 0 (s.inputVector v r p k)) else rep
        (s.setRun ref fun r => { r with replicas := reps }).advanceInput ref p.phase
      else s
    | none => s
  | none => s

/-! ### Row nine -/

/-- Whether a run has come to its end at the boundary before its next tick (R159, R385, R430, R542). -/
def Run.complete (r : Run) (p : Pattern) : Bool :=
  decide (2 ^ 48 ≤ r.tick)
    || match r.blk.kind with
      | 0 => r.blk.limit != 0 && decide (r.blk.limit ≤ r.tick)
      | 1 => r.blk.inputCount != 0 && decide (r.blk.inputCount ≤ r.results.scored)
      | _ => p.learn.steps != 0 && decide (p.learn.steps * p.stepTicks ≤ r.tick)

/-- The first kill among a run's wants. -/
def firstKill (ws : List Want) : Option (Nat × Nat) := ws.findSome? fun w => match w with | .kill st d => some (st, d) | _ => none

/-- The pause a run's wants ask for: the host's before a detach's (R372), with every checkpoint address named. -/
def wantedPause (ws : List Want) : Option (Nat × List Nat) :=
  let ps := ws.filterMap fun w => match w with | .pause k c => some (k, c) | _ => none
  match ps with
  | [] => none
  | p :: rest => some (if (p :: rest).any fun x => x.1 == 1 then 1 else p.1, ((p :: rest).map (·.2)).filter (· != 0))

/-- Loose mode: whether the boundary before tick t is a settle point; every boundary is one otherwise. The end at TICK_LIMIT is one too,
for its results are written there (R307; log 32). -/
def Run.settles (r : Run) (t : Nat) : Bool :=
  !r.blk.loose || t % max 1 r.blk.settle == 0 || (r.blk.limit != 0 && decide (r.blk.limit ≤ t)) || decide (2 ^ 48 ≤ t)

/-- The pause that this device wishes, as its seal vote carries it: 0 none, 1 the host's, 3 a detach's or link-down (R163, R369; log
32). -/
def Run.wish (r : Run) : Nat := match wantedPause r.wants with | some w => if w.1 = 1 then 1 else 3 | none => 0

/-- The pause that the votes of a run over several devices lay on this boundary: every device sees the same votes, those of slot 0 of the
tick that has just sealed, or in Loose mode of the settle point (R163, R369, R432; log 32). -/
def State.barrierPause (s : State) (r : Run) : Option Nat :=
  let mine := s.nl.votes.filter fun v => v.tag == r.tag && v.slot == 0
  if mine.any fun v => v.kind == 2 && v.index == r.tick && v.value == 4 then none
  else
    let wish := fun (v : VoteMsg) =>
      if v.kind = 1 ∧ v.index + 1 = r.tick then v.value / 2 % 4 else if v.kind = 2 ∧ v.index = r.tick ∧ v.value % 4 = 2 then v.value / 4 % 4 else 0
    (mine.find? fun v => wish v != 0).map wish

/-- Carry out the CHECKPOINT tasks that wait for this boundary: the run pauses for them; answers whether any leaves it PAUSED
(R388). -/
def State.takeCheckpoints (s : State) (ref : TaskRef) : State × Bool :=
  match s.run? ref with
  | some r =>
    let cs := r.wants.filterMap fun w => match w with | .checkpoint t dst stay => some (t, dst, stay) | _ => none
    if cs.isEmpty then (s, false)
    else
      let s := cs.foldl (fun s c => (s.writeCheckpoint ref c.2.1).endTask c.1 0 0) (s.pauseRun ref 1)
      (s.setRun ref fun r => { r with wants := r.wants.filter fun w => match w with | .checkpoint _ _ _ => false | _ => true },
        cs.any (·.2.2))
  | none => (s, false)

/-- What the run does once nothing stops or pauses it: physical noise held back, sprouts, missing streams, poisoned or unmapped
input, the first clamp vectors, and then the next tick may begin (R194, R399, R215, R233, R446, R506). -/
def State.proceed (s : State) (v : HostView) (ref : TaskRef) : State :=
  match s.run? ref with
  | none => s
  | some r =>
    match s.pattern r.pattern with
    | none => s
    | some p =>
      if r.blk.noise && s.rng.state != 1 then s.holdRun ref 4 0
      else
        let made := s.makeSprouts ref
        let s := made.1
        let lack := s.lacking v r p ++ if made.2 then [] else [4]
        if s.counterFails v r p then s.holdRun ref 7 0
        else if !lack.isEmpty then s.starveRun ref lack
        else if s.inputFails v r p then s.holdRun ref 7 0
        else (s.firstClamps v ref).goRun ref

/-- Row 9 of R158 at the boundary before a run's next tick: an end, a stop, checkpoints, a pause, or the next tick; in Loose mode only at
a settle point (R307). A run that is complete waits for the room that its last records need; a stop or an end drops them. -/
def State.rowNine (s : State) (v : HostView) (ref : TaskRef) : State :=
  let s := s.flushRing ref
  match s.run? ref with
  | none => s
  | some r =>
    match s.pattern r.pattern with
    | none => s
    | some p =>
      if !r.settles r.tick then s.proceed v ref
      else
      match firstKill r.wants with
      | some k => s.breakRun ref k.1 k.2 3
      | none =>
        if r.complete p && r.queue.isEmpty then s.finishRun ref r.doneStatus 0 2
        else if r.wants.contains .stop then
          if r.complete p then s.finishRun ref r.doneStatus 0 2 else s.breakRun ref r.doneStatus 0 2
        else if r.complete p then s.starveRun ref [3]
        else
          let taken := s.takeCheckpoints ref
          let s := taken.1
          let joined := p.spansDevices
          let wanted := wantedPause r.wants
          let audit := r.pauseAt != 0 && decide (r.pauseAt ≤ r.tick)
          let land := fun (kind : Nat) (addrs : List Nat) =>
            ((addrs ++ if audit then [r.auditAt] else []).foldl (fun s a => s.writeCheckpoint ref a) (s.pauseRun ref kind)).setRun ref
              fun r =>
                { r with
                  wants := r.wants.filter fun x => match x with | .pause _ _ => false | _ => true
                  pauseAt := if audit then 0 else r.pauseAt }
          let addrs := match wanted with | some w => w.2 | none => []
          match s.barrierPause r, wanted with
          | none, none => if audit then land 1 [] else if taken.2 then s else s.proceed v ref
          | none, some w => if joined && decide (r.tick ≠ 0) && !audit then s.proceed v ref else land w.1 addrs
          | some b, w => land (match w with | some x => x.1 | none => b) addrs

end Sys2Proof.Machine
end

