-- ==== Sys2Proof/Machine/Start.lean ====
section
/-! DEFINITION. Starting a run (R138, R186, R191, R192, R195, R206, R214, R216, R231, R288, R297, R304, R318, R337, R339,
R356, R383, R385, R386, R396, R430, R446, R507): the parameter block, the checks of dispatch, the holds, and tick 0. -/

namespace Sys2Proof.Machine

/-- The RUN parameter block (R385). -/
def readRunBlock (b : List Byte) : RunBlock where
  kind := fieldOf b 0 1
  noise := natBit (fieldOf b 1 1) 0
  loose := natBit (fieldOf b 1 1) 1
  rehost := natBit (fieldOf b 1 1) 2
  resume := natBit (fieldOf b 1 1) 3
  settle := fieldOf b 4 4
  limit := fieldOf b 8 8
  seeds := (List.range 4).map fun i => BitVec.ofNat 64 (fieldOf b (0x10 + 8 * i) 8)
  result := fieldOf b 0x30 8
  ring := fieldOf b 0x38 8
  ringLines := fieldOf b 0x40 8
  init := fieldOf b 0x48 8
  input := fieldOf b 0x50 8
  inputLines := fieldOf b 0x58 8
  inputCount := fieldOf b 0x60 8
  spool := fieldOf b 0x68 8
  spoolLines := fieldOf b 0x70 8
  emit := fieldOf b 0x78 8
  emitLines := fieldOf b 0x80 8
  resumeAt := fieldOf b 0x88 8
  tag := BitVec.ofNat 64 (fieldOf b 0x90 8)
  launch := BitVec.ofNat 64 (fieldOf b 0x98 8)
  hemPeriod := if fieldOf b 0xA0 4 = 0 then 4096 else fieldOf b 0xA0 4
  hem := fieldOf b 0xA8 8
  hemLines := fieldOf b 0xB0 8
  buddies := (List.range 64).map fun i => fieldOf b (0xC0 + i) 1

/-- The checks of the block, ascending (R385, R386); shards is LOGICAL_SHARDS of the pattern named, and streams whether the run writes a
stream: one that writes none ignores RING_ADDR and RING_LINES (R216). -/
def runBlockChecks (b : List Byte) (shards : Nat) (streams : Bool) : List (Nat × Bool) :=
  let k := readRunBlock b
  let joined := decide (1 < shards)
  let off := fun (used : Bool) (x : Nat) => !used && x != 0
  let addr := fun (used : Bool) (x : Nat) => x % 64 != 0 || off used x
  let fresh := !k.resume
  [(0x00, decide (2 < k.kind)), (0x01, decide (16 ≤ fieldOf b 1 1)), (0x02, fieldOf b 2 2 != 0), (0x04, off k.loose k.settle),
    (0x08, decide (2 ^ 48 ≤ k.limit) || off (k.kind == 0) k.limit), (0x10, off fresh (fieldOf b 0x10 8)),
    (0x18, off fresh (fieldOf b 0x18 8)), (0x20, off fresh (fieldOf b 0x20 8)), (0x28, off fresh (fieldOf b 0x28 8)),
    (0x30, k.result % 64 != 0), (0x38, streams && k.ring % 64 != 0), (0x48, addr (k.kind != 1 && fresh) k.init),
    (0x50, addr (k.kind != 0) k.input), (0x58, off (k.kind != 0) k.inputLines), (0x60, off (k.kind == 1) k.inputCount),
    (0x68, addr (k.kind == 0) k.spool), (0x70, off (k.kind == 0) k.spoolLines), (0x78, addr (k.kind == 2) k.emit),
    (0x80, off (k.kind == 2) k.emitLines), (0x88, addr (k.resume || k.rehost) k.resumeAt),
    (0xA0, joined && (decide (k.hemPeriod < 64) || decide (2 ^ 24 < k.hemPeriod))), (0xA4, fieldOf b 0xA4 4 != 0),
    (0xA8, joined && k.hem % 64 != 0), (0xB8, fieldOf b 0xB8 8 != 0)]

/-! ### Regions (R339, R383) -/

/-- The named regions of a start: field, address, bytes, written. -/
def runRegions (m : Mem) (k : RunBlock) (p : Pattern) : List (Nat × Nat × Nat × Bool) :=
  let one := fun (used : Bool) (x : Nat × Nat × Nat × Bool) => if used then [x] else []
  [(0x30, k.result, areaBytes p, true)]
    ++ one (decide (1 ≤ k.kind) || p.plan.samples) (0x38, k.ring, 64 * k.ringLines, true)
    ++ one (k.kind != 1 && !k.resume && !k.rehost) (0x48, k.init, p.header.total * stateBytes p.header.nVars, false)
    ++ one (k.kind != 0) (0x50, k.input, 64 * k.inputLines, true)
    ++ one (k.kind == 0 && p.spools) (0x68, k.spool, 64 * k.spoolLines, true)
    ++ one (k.kind == 2) (0x78, k.emit, 64 * k.emitLines, true)
    ++ one (k.resume || (k.rehost && k.resumeAt != 0)) (0x88, k.resumeAt, max 0x500 (m.field (k.resumeAt + 8) 8), false)
    ++ one (decide (1 < p.header.shards)) (0xA8, k.hem, 64 * k.hemLines, true)

/-- Whether two of some regions overlap. -/
def anyOverlap : List (Nat × Nat × Nat × Bool) → Bool
  | [] => false
  | x :: rest => (rest.any fun y => overlap x.2.1 x.2.2.1 y.2.1 y.2.2.1) || anyOverlap rest

/-! ### Holds -/

/-- Race uniforms per tick of physical noise (R192). -/
def noiseDemand (p : Pattern) (kind : Nat) : Nat :=
  let h := p.header
  if h.mode = 1 then h.nVars * h.resident + (if h.race = 0 then 0 else h.resident)
  else
    let rows := p.cores.flatMap fun c => c.rows
    let bias := fun (r : Row) => h.learning && r.bias
    let _ := kind
    (rows.filter fun r => r.group.isNone && !bias r).length + ((rows.filter fun r => r.group.isSome).length - h.nGroups)
      + if h.race = 0 then 0 else p.blocks.length

/-- Bits of noise per second times TICK_LEN, of one run: 32 D f (R192). -/
def noiseRate (p : Pattern) (kind : Nat) : Nat := 32 * noiseDemand p kind * (clock50 p.header.profile * 50000000)

/-- The part of the DRBG's supply that other physical-noise runs take, over a common TICK_LEN (R507). -/
def State.noiseFits (s : State) (ref : TaskRef) (p : Pattern) (kind : Nat) : Bool :=
  let others := (s.grid.runs.filter fun r => r.blk.noise && r.ref != ref && r.begun).filterMap fun r =>
    (s.pattern r.pattern).map fun q => (noiseRate q r.blk.kind, q.header.tickLen)
  let all := (noiseRate p kind, p.header.tickLen) :: others
  let len := all.foldl (fun l x => l * max 1 x.2) 1
  decide (sumNat (all.map fun x => x.1 * (len / max 1 x.2)) ≤ 6400000000 * len)

/-- Lines of the largest record a run writes, plus the control line (R216). -/
def ringFloor (k : RunBlock) (p : Pattern) : Nat :=
  match k.kind with
  | 0 => if p.plan.samples then 1 + sampleLines p else 0
  | 1 => 2
  | _ => 4

/-- The initial state vector of replica i, as its bytes stand (R70, R222). -/
def State.initState (s : State) (v : HostView) (k : RunBlock) (p : Pattern) (i : Nat) : List Bool :=
  p.withBias (unpackState p.header.nVars (readAny s.mem v (k.init + i * stateBytes p.header.nVars) (stateBytes p.header.nVars)))

/-- The causes of HELD, in the order R396 lists their rules: cause and HOLD_CAUSE.DETAIL of the first that holds. A hem region must hold
two slots of the smallest hem of a shard that another device hosts: which shards the device buddies is not known at a start (R297,
R385; log 34). -/
def State.startHold (s : State) (v : HostView) (r : Run) (p : Pattern) (slot : Nat) : Option (Nat × Nat) :=
  let k := r.blk
  let h := p.header
  let initBytes := h.total * stateBytes h.nVars
  let readsInit := k.kind != 1 && !k.resume && !k.rehost
  let image := k.resume || (k.rehost && k.resumeAt != 0)
  let away := ((List.range h.shards).filter fun n => !p.hosted.contains n).map (hemLines p k.kind)
  let slots := match away with | x :: xs => 2 * xs.foldl min x | [] => 0
  let regions := runRegions s.mem k p
  let hostOk := fun (f : Nat) => f == 0x48 || f == 0x50
  let inHost := fun (a : Nat) => decide (hostWindow ≤ a)
  let f := s.host
  let mismatch := f.refused && (f.faultClass == 0 || (f.faultClass == 1 && natBit r.mask f.faultIndex)
    || (f.faultClass == 5 && decide (domainDie f.faultIndex < 8) && natBit r.mask (domainDie f.faultIndex))
    || (f.faultClass == 4 && f.faultIndex == slot))
  let hold := fun (b : Bool) (c d : Nat) => if b then [(c, d)] else []
  let stray := match s.task r.ref with | some t => decide (hostWindow ≤ t.param) || decide (hostWindow ≤ t.pattern) | none => false
  let floor := ringFloor k p
  (hold (k.noise && !natBit h.kinds 3) 3 0
    ++ hold (k.noise && !s.noiseFits r.ref p k.kind) 3 0
    ++ hold (k.loose && h.mode == 1) 3 0
    ++ hold (decide (1 < h.shards) && ((p.hosted.any fun n =>
        let b := k.buddies.getD n 255
        decide (15 < b) || some b == s.nl.node) || decide (k.hemLines < slots))) 7 0
    ++ hold (k.loose && (!p.joined.looseOk || k.kind == 2 || k.settle == 0 || k.settle % max 1 h.total != 0
        || h.period % max 1 k.settle != 0 || k.hemPeriod % max 1 k.settle != 0 || p.plan.flush % max 1 k.settle != 0)) 3 0
    ++ hold (stray || (regions.any fun x => inHost x.2.1 && !hostOk x.1)
        || (readsInit && inHost k.init && !rangeTranslates f.atsCache v (k.init - hostWindow) initBytes)) 7 0
    ++ hold (k.kind == 0 && p.spools && decide (k.spoolLines < h.total * p.replicaLines)) 7 0
    ++ hold (anyOverlap regions || regions.any fun x =>
        if inHost x.2.1 then decide (2 ^ 48 < x.2.1 + x.2.2.1) else !s.mem.inSoft x.2.1 x.2.2.1) 7 0
    ++ hold mismatch 1 f.fault
    ++ hold ((floor != 0 && decide (k.ringLines < floor)) || (k.kind != 0 && decide (k.inputLines < 1 + vectorLines p))) 7 0
    ++ hold (!natBit h.kinds k.kind) 3 0
    ++ hold (readsInit && !inHost k.init && s.mem.poisonIn k.init initBytes) 7 0
    ++ hold (readsInit && (List.range h.total).any fun i => !p.oneHot (s.initState v k p i)) 7 0
    ++ hold (image && checkpointBad s.mem k.resumeAt r p) 7 0
    ++ hold (image && checkpointLacks s.mem k.resumeAt p) 6 ((p.hosted.find? fun n =>
        !natBit (imageAt s.mem k.resumeAt 0xC0 8) n).getD 0)
    ++ hold (k.noise && s.rng.state != 1) 4 0).head?

/-! ### Tick 0 -/

/-- Results of a run that begins (R202, R209). -/
def Results.zero (total : Nat) : Results where
  best := none
  elite := []
  declined := 0
  collisions := 0
  stretched := 0
  replayed := 0
  tchoice := 0
  scored := 0
  samples := 0
  seq := 0
  stats := List.replicate total .zero
  xchg := []
  hist := []

/-- A run record at dispatch. -/
def newRun (ref : TaskRef) (p : Pattern) (mask program : Nat) (k : RunBlock) : Run where
  ref := ref
  pattern := p.id
  mask := mask
  blk := k
  program := program
  tag := k.tag
  armed := false
  attempt := 0
  voted := none
  nodes := []
  launched := []
  routes := []
  begun := false
  tick := 0
  progress := 0
  ticking := false
  work := []
  done := []
  redo := []
  offers := []
  records := []
  replicas := []
  resident := []
  loading := []
  rungMap := List.range p.header.total
  pendMap := none
  weir := []
  due := []
  later := []
  results := .zero p.header.total
  late := 0
  held := false
  heldNext := false
  clock := .start
  queue := []
  head := 0
  part := []
  taken := 0
  inputPos := 0
  outNo := 0
  starved := []
  sprouted := 0
  wants := []
  repairing := false
  steering := false
  ended := none
  pauseAt := 0
  auditAt := 0
  saturated := false
  updating := false
  imaging := none
  hems := []
  lost := []
  noRehost := false
  remote := []
  sent := []
  seen := []
  base := 0
  flitsIn := []
  flitBad := false
  scored := []

/-- Output ring HEAD and TAIL 0, input ring TAIL 0 (R214). -/
def State.resetRings (s : State) (r : Run) (p : Pattern) : State :=
  let s := if r.streams p then s.writeDram r.blk.ring (zeroBytes 16) else s
  if r.blk.kind = 0 then s else s.writeAny (s.pasidOf r) (r.blk.input + 8) (zeroBytes 8)

/-- Replicas in their lanes at the boundary before tick t (R337). -/
def residentAt (p : Pattern) (t : Nat) : List Nat :=
  if p.spools then (List.range p.header.resident).map fun i => (t + i) % max 1 p.header.total else List.range p.header.total

/-- The complete hems of a shard that this device holds and can read: a slot stored as poison is passed over (R297, R446). -/
def State.hemsHeld (s : State) (tag : DWord) (n : Nat) : List BuddyHem :=
  s.nl.hems.filter fun b => b.tag == tag && b.shard == n && b.complete && !s.mem.poisonIn b.addr (64 * b.lines)

/-- The newest tick of which this device holds a complete hem for each of some shards (R300, R301). -/
def State.hemTick (s : State) (tag : DWord) (shards : List Nat) : Option Nat :=
  let of := fun (n : Nat) => (s.hemsHeld tag n).map (·.tick)
  match (of (shards.headD 0)).filter fun t => shards.all fun n => (of n).contains t with
  | [] => none
  | ts => some (maxNat ts)

/-- Where those hems of a tick lie, by shard. -/
def State.hemPlaces (s : State) (tag : DWord) (shards : List Nat) (t : Nat) : List (Nat × Nat) :=
  shards.filterMap fun n => ((s.hemsHeld tag n).find? fun b => b.tick == t).map fun b => (n, b.addr)

/-- A run's start (R186, R206, R214, R231, R337, R430): its replicas are built or restored, the initial offers taken, the rings
reset, the spool written; then the boundary before its first tick. A checkpoint whose replica table differs holds it. -/
def State.beginRun (s : State) (v : HostView) (ref : TaskRef) : State :=
  match s.run? ref with
  | none => s
  | some r =>
    match s.pattern r.pattern with
    | none => s
    | some p =>
      let go := fun (r : Run) (cores : List Core) (s : State) =>
        let r := { r with begun := true, armed := false, resident := residentAt p r.tick, progress := 0, base := r.tick }
        let s := (s.setRun ref fun _ => r)
        let s := { s with grid := { s.grid with patterns := modifyIf (fun x => x.id == p.id) (fun x => { x with cores := cores }) s.grid.patterns } }
        let s := s.resetRings r p
        let s := if p.spools && r.blk.kind == 0 then
            ((List.range p.header.total).filter fun k => !r.resident.contains k).foldl (fun s k => s.spoolOut r p k) s
          else s
        let s := s.setEngines r.engines fun e => { e with progress := 0 }
        s.rowNine v ref
      if r.blk.resume || (r.blk.rehost && r.blk.resumeAt != 0) then
        match r.restore p (imageAt s.mem r.blk.resumeAt) with
        | some x => go x.1 x.2 s
        | none => s.holdRun ref 7 0
      else if r.blk.rehost then
        match s.hemTick r.tag p.hosted with
        | none => s
        | some t =>
          match r.restore p (hemReader s.mem r p (s.hemPlaces r.tag p.hosted t) t) with
          | some x => go x.1 x.2 s
          | none => s.holdRun ref 6 0
      else if r.blk.kind = 1 then go r p.cores s
      else
        let r := { r with replicas := (List.range p.header.total).map fun i => r.build p (s.initState v r.blk p i) }
        let r := r.startWeir p 0
        let r :=
          if r.blk.kind = 0 then
            { r with results := takeOffers p.plan true ((List.range p.header.total).map fun i => r.offer p i 0 true) r.results }
          else r
        go r p.cores s

/-- ARM of a run (R278, R288). -/
def armOf (s : State) (r : Run) (p : Pattern) : ArmMsg :=
  { tag := r.tag, shardMask := BitVec.ofNat 64 (maskOf 64 p.hosted.contains), hash16 := p.hash.take 16, seeds := r.blk.seeds,
    launch := r.blk.launch, profile := p.header.profile, origin := s.nodeCode }

/-- Nodes that armed a shard of a run, as far as this device holds their ARMs. -/
def State.armNodes (s : State) (tag : DWord) : List Nat := ((s.armsOf tag).map (·.origin)).eraseDups

/-- This device votes in the launch attempt of a run, once (R288). -/
def State.castLaunch (s : State) (ref : TaskRef) : State :=
  match s.run? ref with
  | none => s
  | some r =>
    match s.pattern r.pattern with
    | none => s
    | some p =>
      let v := s.launchVote r p
      (s.setRun ref fun r => { r with voted := some v }).castVote
        { tag := r.tag, index := r.attempt, slot := 0, kind := 3, value := v, origin := s.nodeCode }

/-- The nodes of a run and its routes, as this device holds the ARMs and the graph (R285, R288). -/
def State.joinRun (s : State) (ref : TaskRef) : State :=
  s.setRun ref fun r =>
    let nodes := s.armNodes r.tag
    { r with nodes := nodes, launched := nodes, routes := routesAmong s.edges nodes }

/-- The outcome of a launch attempt as the votes held show it (R288): HELD at once on a vote of 0 or 2, tick 0 once every device
that armed a shard has voted 1, this one among them. A run that is HELD already takes the cause without a further event. -/
def State.decideLaunch (s : State) (v : HostView) (ref : TaskRef) : State :=
  match s.run? ref with
  | none => s
  | some r =>
    match s.pattern r.pattern with
    | none => s
    | some p =>
      let votes := s.launchVotes r
      if !r.armed then s
      else if votes.any fun x => x.value != 1 then
        let cause := if votes.any fun x => x.value == 2 then 7 else 6
        let detail := if cause = 6 then (s.badShard r.tag p.header.shards).getD 0 else 0
        if (s.engine r.lead).state = 6 then s.setRunState r 6 cause detail 0 else s.holdRun ref cause detail
      else if r.voted = some 1 ∧ ((s.armNodes r.tag).all fun n => votes.any fun x => x.origin == n) = true then
        (s.joinRun ref).beginRun v ref
      else s

/-- A start that nothing holds: over several shards it arms and floods ARM, its engines LOADED until tick 0; otherwise
tick 0 follows at once (R288, R385). A start after LAUNCH has passed votes in attempt 0 at once, and votes already held decide before
that; a rehost takes no launch votes and goes on from step 3 of R300 once it has the hems of its shards (R301). -/
def State.launchOrArm (s : State) (v : HostView) (ref : TaskRef) : State :=
  match s.run? ref with
  | none => s
  | some r =>
    match s.pattern r.pattern with
    | none => s
    | some p =>
      if p.header.shards ≤ 1 then s.beginRun v ref
      else
        let a := armOf s r p
        let s := s.setRun ref fun r => { r with armed := true }
        let was := r.engines.filter fun e => (s.engine e).state == 6
        let s := s.setEngines was fun e => { e with state := 2, cause := 0, detail := 0 }
        let s := was.foldl (fun s e => s.event 2 3 (sourceOf 1 e) (some r.tick) (toBytesLE 1 6)) s
        let old := if r.blk.rehost then s.nl.arms.filter fun x => !(x.tag == a.tag && (x.shardMask &&& a.shardMask) != 0)
          else s.nl.arms
        let s := { s with nl := { s.nl with arms := addNew a old } }.flood none (.arm a)
        if r.blk.rehost then
          if r.blk.resumeAt == 0 && (s.hemTick r.tag p.hosted).isNone then s else (s.joinRun ref).beginRun v ref
        else if r.blk.launch.toNat ≤ s.cnt.stitch then (s.castLaunch ref).decideLaunch v ref
        else s.decideLaunch v ref

/-- Start or hold a run that has been dispatched (R356, R362, R396). -/
def State.tryStart (s : State) (v : HostView) (ref : TaskRef) : State :=
  match s.run? ref with
  | none => s
  | some r =>
    match s.pattern r.pattern, s.task ref with
    | some p, some t =>
      match s.startHold v r p t.slot with
      | some c => s.holdRun ref c.1 c.2
      | none =>
        let s := s.setEngines r.engines fun e => if e.state = 6 then { e with cause := 0, detail := 0 } else e
        s.launchOrArm v ref
    | _, _ => s

/-- Whether the engines of a RUN hold the pattern its PATTERN handle names, exactly as one load placed it (R396): of a handle in the host
window, which R318 holds the run for, nothing is read. -/
def State.runPattern (s : State) (t : Task) : Option Pattern :=
  let es := bitsOf 8 t.mask
  match (es.head?).bind fun e => s.patternOf e with
  | some p =>
    if (decide (hostWindow ≤ t.pattern) || p.hash == s.mem.bytes (t.pattern + 0x10) 48) && es.all (fun e => (s.engine e).pattern == some p.id)
        && t.mask == maskOf 8 p.engines.contains then some p else none
  | none => none

/-- The dispatch of a RUN (R396): block, pattern, program, regions, holds, start. -/
def State.startRun (s : State) (v : HostView) (task : TaskRef) : State :=
  s.dispatchBlock task 0x0001 fun t q b s =>
    let blind := decide (hostWindow ≤ t.param)
    let headerPoison := t.pattern < hostWindow ∧ s.mem.poisonIn t.pattern 256 = true
    let streams := (readRunBlock b).kind != 0 || match s.runPattern t with | some p => p.plan.samples | none => true
    match if blind then none else firstBlockFault (runBlockChecks b (s.mem.field (t.pattern + 0x45) 1) streams) with
    | some d => s.endTask task 0x0200 d
    | none =>
      if headerPoison then s.endTask task 0x0201 poisonDetail
      else
        match s.runPattern t with
        | none => s.endTask task 0x0202 0x100
        | some p =>
          let k := readRunBlock b
          if max 1 p.programs.length ≤ t.program then s.endTask task 0x0200 0xC
          else
            let regions := runRegions s.mem k p
            match if blind then none else s.addressFault q t regions with
            | some d => s.endTask task 0x0201 d
            | none =>
              if (k.resume || (k.rehost && k.resumeAt != 0)) && !s.mem.inSoft k.resumeAt (max 0x500 (s.mem.field (k.resumeAt + 8) 8)) then
                s.endTask task 0x0201 (blockDetail 0x88)
              else
                let r := newRun task p t.mask t.program k
                let s := { s with grid := { s.grid with runs := s.grid.runs ++ [r] } }
                let s := s.setEngines r.engines fun e => { e with task := some task, progress := 0 }
                let s := s.reloadEngines r.engines
                let s := s.setTask task fun t => { t with phase := .running, engines := t.mask }
                s.tryStart v task

/-- Which row of the table a RUN's block belongs to: 4 rehost, 3 resume, else its KIND, 0 for one out of range. -/
def State.runRow (s : State) (task : TaskRef) : Option Nat :=
  match s.task task with
  | some t =>
    let b := if t.param < hostWindow then s.mem.bytes t.param 256 else zeroBytes 256
    let k := readRunBlock b
    some (if k.rehost then 4 else if k.resume then 3 else if k.kind ≤ 2 then k.kind else 0)
  | none => none

/-- RUN, KIND 0 (R385, R396). -/
def execRunAnneal (task : TaskRef) (host : HostView) (s : State) : Host.Outcome State Fault Refusal :=
  .next (s.run fun s => if s.runRow task = some 0 then s.startRun host task else s)

/-- RUN, KIND 1 (R218, R385, R396). -/
def execRunScoring (task : TaskRef) (host : HostView) (s : State) : Host.Outcome State Fault Refusal :=
  .next (s.run fun s => if s.runRow task = some 1 then s.startRun host task else s)

/-- RUN, KIND 2 (R227, R385, R396). -/
def execRunLearning (task : TaskRef) (host : HostView) (s : State) : Host.Outcome State Fault Refusal :=
  .next (s.run fun s => if s.runRow task = some 2 then s.startRun host task else s)

/-- RUN with REHOST (R301, R385). -/
def execRunRehostStart (task : TaskRef) (host : HostView) (s : State) : Host.Outcome State Fault Refusal :=
  .next (s.run fun s => if s.runRow task = some 4 then s.startRun host task else s)

/-- RUN with RESUME (R430). -/
def execRunFromCheckpoint (task : TaskRef) (host : HostView) (s : State) : Host.Outcome State Fault Refusal :=
  .next (s.run fun s => if s.runRow task = some 3 then s.startRun host task else s)

end Sys2Proof.Machine
end

