-- ==== Sys2Proof/Machine/Frames.lean ====
section
/-! DEFINITION. The hems a device takes and streams (R295-R297), and a run set back to one (R300). -/

namespace Sys2Proof.Machine

/-! ### Taking a hem (R295-R297) -/

/-- Whether a hem of a run is acknowledged for every shard (R295). -/
def Hem.complete (h : Hem) (shards : Nat) : Bool := (List.range shards).all h.acked.contains

/-- Where the local slots of a shard lie: two for each engine, 64 MiB each, from the start of the firmware region on (R297, R316; the
places are log 34's). -/
def State.localSlot (s : State) (engine slot : Nat) : Nat := s.mem.softTop + (2 * engine + slot) * 2 ^ 26

/-- Raise HEM_DONE where a hem has just become acknowledged for every shard of this device (R297). -/
def State.hemDone (s : State) (r : Run) (p : Pattern) (h : Hem) : State :=
  if p.hosted.all h.acked.contains then
    s.event 2 4 (sourceOf 0 0) (some r.tick) (toBytesLE 8 r.tag.toNat ++ toBytesLE 8 h.tick)
  else s

/-- A hem at the boundary with new tick index t, when one is due and the one before it is acknowledged (R295-R297): the two newest are
kept in the local slots, and the new one goes to each shard's buddy. -/
def State.takeHem (s : State) (ref : TaskRef) : State :=
  match s.run? ref with
  | none => s
  | some r =>
    match s.pattern r.pattern with
    | none => s
    | some p =>
      let free := match r.hems with | h :: _ => h.complete p.header.shards | [] => true
      if decide (p.header.shards ≤ 1) || r.tick % max 1 r.blk.hemPeriod != 0 || !free then s
      else
        let acks := s.nl.acks.filter fun a => a.tag == r.tag && a.tick == r.tick
        let h : Hem :=
          { tick := r.tick, slot := match r.hems with | x :: _ => 1 - x.slot | [] => 0, acked := acks.map (·.shard),
            replicas := r.replicas, rungMap := r.rungMap, pendMap := r.pendMap, results := r.results,
            cores := if r.blk.kind = 2 then p.cores else [] }
        let s := s.setRun ref fun r => { r with hems := (h :: r.hems).take 2 }
        let s := p.hosted.foldl (fun s n =>
          let image := hemImage s r p n
          let a := s.localSlot (p.engineOf n 0) h.slot
          ((s.writeDram a image).write (a + 7) [1]).streamFor r (r.blk.buddies.getD n 255) n 0 0 image) s
        s.hemDone r p h

/-- A run set back to a hem: every replica, the maps and the results as the hem holds them; fields and V follow from the
states (R300 steps 3-5). SEQ of the results area, the output ring and PROGRESS go on. -/
def Run.rewindTo (r : Run) (p : Pattern) (h : Hem) : Run :=
  let pos := p.vectorsBefore r.blk.kind r.blk.inputCount h.tick
  { r with
    tick := h.tick
    replicas := h.replicas.map fun (x : Replica) => r.build p x.spins
    rungMap := h.rungMap
    pendMap := h.pendMap
    results := { h.results with seq := r.results.seq }
    ticking := false
    work := []
    done := []
    redo := []
    offers := []
    records := []
    late := 0
    held := false
    heldNext := false
    clock := .start
    sprouted := 0
    remote := []
    sent := []
    seen := []
    base := h.tick
    flitsIn := []
    flitBad := false
    resident := residentAt p h.tick
    loading := []
    hems := r.hems.filter fun x => decide (x.tick ≤ h.tick)
    taken := r.taken - (r.inputPos - pos)
    inputPos := pos }.startWeir p h.tick

/-- Rewind a run on this device to a hem; the spool again holds the replicas that are not resident. -/
def State.rewindRun (s : State) (ref : TaskRef) (h : Hem) : State :=
  match s.run? ref with
  | none => s
  | some r =>
    match s.pattern r.pattern with
    | none => s
    | some p =>
      let p' := (if h.cores.isEmpty then p else { p with cores := h.cores }).recheck
      let r := r.rewindTo p' h
      let s := (s.setRun ref fun _ => r)
      let s := { s with grid := { s.grid with patterns := modifyIf (fun x => x.id == p.id) (fun _ => p') s.grid.patterns } }
      if p.spools && r.blk.kind == 0 then
        ((List.range p.header.total).filter fun k => !r.resident.contains k).foldl (fun s k => s.spoolOut r p' k) s
      else s

/-- The shards that a rehost places here take their states, and in a learning run their cores, from the hems held for them (step 3 of
R300). -/
def State.restoreShards (s : State) (ref : TaskRef) (shards : List Nat) : State :=
  match s.run? ref with
  | none => s
  | some r =>
    match s.pattern r.pattern with
    | none => s
    | some p =>
      if shards.isEmpty then s
      else
        let g := hemReader s.mem r p (s.hemPlaces r.tag shards r.tick) r.tick
        let tag := r.tag.toNat
        let cores := if r.blk.kind = 2 then
            (p.cores.zip (checkpointCores g tag p)).map fun x => if shards.contains x.1.shard then x.2 else x.1
          else p.cores
        let p' := { p with cores := cores }.recheck
        let spins := shardStates g tag r.blk.kind p' shards (r.replicas.map (·.spins))
        let s := s.setRun ref fun r => { r with replicas := spins.map fun x => r.build p' x }
        { s with grid := { s.grid with patterns := modifyIf (fun x => x.id == p.id) (fun _ => p') s.grid.patterns } }

/-- SHARD_REHOSTED for some shards of a run (R300 step 4, R367). -/
def State.rehostedEvents (s : State) (r : Run) (shards : List Nat) (t : Nat) : State :=
  shards.foldl (fun s n =>
    s.event 6 2 (sourceOf 0 0) (some t) (toBytesLE 8 r.tag.toNat ++ toBytesLE 1 n ++ zeroBytes 7 ++ toBytesLE 8 t)) s

end Sys2Proof.Machine
end

