-- ==== Sys2Proof/Machine/Mend.lean ====
section
/-! DEFINITION. What a device does about an error in a tick (R91, R92, R268-R272, R437-R445, R453, R454): corrections and spare
words, refused ticks, fences and shift-repair, wire steering, and a run that cannot continue. -/

namespace Sys2Proof.Machine

/-! ### Names of places -/

/-- The engine on whose die a core y * 256 + x lies. -/
def engineOfCore (core : Nat) : Nat := core / 16384 % 2 * 4 + core % 256 / 64

/-- The die row of a core. -/
def rowOfCore (core : Nat) : Nat := core / 256 % 64

/-- The core that a failing check names, if any (R439). -/
def faultCore : TickFault → Option Nat
  | .residue c => some c
  | .word c _ _ => some c
  | .passesDiffer c => some c
  | .checkRow => none
  | .flit _ => none
  | .tickWire => none
  | .sram _ => none

/-- The check code of REPLAYED (R367). -/
def faultCheck : TickFault → Nat
  | .residue _ => 1
  | .passesDiffer _ => 1
  | .checkRow => 2
  | .word _ _ _ => 3
  | .sram _ => 3
  | .flit _ => 4
  | .tickWire => 4

/-- The place of a core where none is named (R454). -/
def noCore : Nat := 2 ^ 64 - 1

/-- A word of a core's array or spares as a location word (R543). -/
def wordPlace (core word : Nat) : Nat := core * 2 ^ 32 + word

/-! ### A run that cannot continue (R443) -/

/-- A device that rewinds its part of a run tells the others, by a barrier vote of value 1 at the hem's tick whose slot tells rewinds apart
(R443; log 32). -/
def State.tellRewind (s : State) (r : Run) (t : Nat) : State :=
  if r.nodes.length ≤ 1 then s
  else (s.forgetRun r.tag).flood none
    (.vote { tag := r.tag, index := t, slot := 1 + s.cnt.stitch % 65535, kind := 2, value := 1, origin := s.nodeCode })

/-- R443: a run over several shards whose newest complete hem is here rewinds to it on every device, where its engines stay usable; any
other run ends, and the other devices of one over several take its shards from their buddies. The failing core is named where one is. -/
def State.giveUp (s : State) (ref : TaskRef) (core : Option Nat) (usable : Bool) : State :=
  match s.run? ref with
  | none => s
  | some r =>
    match s.pattern r.pattern with
    | none => s
    | some p =>
      let place := core.getD noCore
      let hem := r.hems.find? fun h => h.complete p.header.shards
      match if decide (1 < p.header.shards) && usable then hem else none with
      | some h =>
        (((s.logFault 13 (sourceOf 1 r.lead) (some ref.queue) place).tellRewind r h.tick).rewindRun ref h).rehostedEvents r p.hosted h.tick
      | none => (s.logFault 12 (sourceOf 1 r.lead) (some ref.queue) place).cannotContinue ref

/-! ### Fences and shift-repair -/

/-- Array words that hold run state, with no source to rebuild them from: in a learning run also the entries and row states while the
last refresh of the shadow is not complete (R94, R441, R442). -/
def runStateWord (p : Pattern) (word : Nat) : Bool :=
  let within := fun (a b : Nat) => decide (a / 8 ≤ word) && decide (word ≤ b / 8)
  if p.header.mode = 1 then within 0x8020 0x803F
  else within 0x8380 0x847F
    || (p.header.learning && (within 0x8CC0 0xBFF1 || (!p.shadowed && (within 0 0x7FFF || within 0x88C0 0x8CBF))))

/-- The repair of an engine ends: its rows are spared, at the tick its run has reached, if it has one (R270, R272, R367). -/
def State.endRepair (s : State) (e : Nat) (tick : Option Nat) : State :=
  let rows := (s.engine e).toRepair
  rows.foldl (fun s row => s.event 1 4 (sourceOf 1 e) tick (toBytesLE 2 row))
    (s.setEngine e fun g => { g with repaired := g.repaired ++ rows })

/-- Die rows of an engine leave service: every run on it follows R443, and the engine goes to IDLE with no pattern (R444). -/
def State.exhaust (s : State) (e : Nat) (rows : List Nat) (core : Option Nat) : State :=
  let s := s.setEngine e fun g => { g with exhausted := (g.exhausted ++ rows).eraseDups }
  ((s.grid.runs.filter fun r => r.engines.contains e).foldl (fun s r => s.giveUp r.ref core false) s).unload [e]

/-- Whether a core is fenced and its row still waits for its repair: a further cause at the same boundary makes no further fence. -/
def Engine.fencing (g : Engine) (row col : Nat) : Bool := g.fenced.contains (row, col) && g.toRepair.contains row

/-- Fence a core at the boundary of a run's given tick (R440): its die row is shift-repaired during a hold, or is exhausted when it holds a
fence already; a core that gives up run state, or more than 16 words, ends the run (R442). -/
def State.fenceCore (s : State) (ref : TaskRef) (tick core : Nat) (words fieldWords : List Nat) : State :=
  match s.run? ref with
  | none => s
  | some r =>
    match s.pattern r.pattern with
    | none => s
    | some p =>
      let e := engineOfCore core
      let row := rowOfCore core
      if (s.engine e).fencing row (core % 64) then s else
      let spent := ((s.engine e).fenced.any fun f => f.1 == row) || (s.engine e).exhausted.contains row
      let s := (s.event 1 3 (sourceOf 1 e) (some tick) (zeroBytes 8 ++ toBytesLE 8 core)).logFault 1 (sourceOf 1 e) none core
      let s := s.setEngine e fun g => { g with fenced := addNew (row, core % 64) g.fenced }
      if spent then (s.logFault 2 (sourceOf 1 e) none row).exhaust e [row] (some core)
      else if decide (16 < words.length + fieldWords.length) || words.any (runStateWord p) then
        (s.endRepair e (some tick)).giveUp ref (some core) true
      else
        let s := words.foldl (fun s w => s.logFault 3 (sourceOf 1 e) none (wordPlace core w)) s
        s.setRun ref fun r => { r with repairing := true }

/-! ### Wire steering (R445) -/

/-- The engines whose lanes a link carries (R253): an east-west link of die column j the lanes j to 3 of its die row, a north-south link
the lane of its die's own column. -/
def linkOwners (link : Nat) : List Nat :=
  let die := link / 4096 % 8
  if link / 32768 % 2 = 1 then [die] else ((List.range 4).filter fun k => decide (die % 4 ≤ k)).map (laneOwner die)

/-- Steer a link: one of its two spare wires is taken during a hold; a third puts every lane that it carries out of service, and the
engines that own them leave service. -/
def State.steer (s : State) (ref : TaskRef) (link : Nat) : State :=
  let e := link / 4096 % 8
  let used := match s.grid.wires.find? fun w => w.1 == link with | some w => w.2 | none => 0
  let s := { s with grid := { s.grid with linkFails := s.grid.linkFails.filter fun x => x.1 != link } }
  if used ≥ 2 then (linkOwners link).foldl (fun s k => s.exhaust k (List.range 64) none) s
  else
    let s := { s with grid := { s.grid with wires := (s.grid.wires.filter fun (w : Nat × Nat) => w.1 != link) ++ [(link, used + 1)] } }
    (s.logFault 9 (sourceOf 1 e) none (link % 32768)).setRun ref fun r => { r with steering := true }

/-! ### Corrected errors (R91, R92) -/

/-- A correctable error in a tick: CORRECTED; a word's second one since its load moves it to a spare word, and a core's fifth
spare is a fence (R92, R440). -/
def State.correctWord (s : State) (ref : TaskRef) (tick : Nat) (c : Corrected) : State :=
  let e := engineOfCore c.core
  let place := wordPlace c.core c.word
  let s := s.corrected (sourceOf 1 e) c.kind place
  if c.kind ≠ 1 then s
  else if s.grid.weakWords.contains (c.core, c.word) then
    let mine := (s.grid.spareWords.filter fun w => w.1 == c.core).length
    let s := { s with grid := { s.grid with weakWords := s.grid.weakWords.filter fun w => w != (c.core, c.word) } }
    if mine ≥ 4 then s.fenceCore ref tick c.core [] []
    else
      let s := { s with grid := { s.grid with spareWords := s.grid.spareWords ++ [(c.core, c.word)] } }
      let s := s.setEngine e fun g => { g with remapped := g.remapped + 1 }
      (s.event 1 5 (sourceOf 1 e) none (toBytesLE 1 1 ++ zeroBytes 7 ++ toBytesLE 8 place)).logFault 4 (sourceOf 1 e) none place
  else { s with grid := { s.grid with weakWords := s.grid.weakWords ++ [(c.core, c.word)] } }

/-- The corrected errors of a tick on engines of the run. -/
def State.correctAll (s : State) (ref : TaskRef) (r : Run) (cs : List Corrected) : State :=
  (cs.filter fun c => r.engines.contains (engineOfCore c.core)).foldl (fun s c => s.correctWord ref r.tick c) s

/-! ### Refused ticks (R158, R176, R439) -/

/-- What a run keeps about slot k's refusals; slot 0 in patchwork mode. -/
def Run.redoOf (r : Run) (slot : Nat) : Option Redo := r.redo.find? fun x => x.slot == slot

/-- A failing check as the run sees it: a core outside its engines is none it can name. -/
def Run.ownFault (r : Run) (f : TickFault) : TickFault :=
  match faultCore f with
  | some c => if r.engines.contains (engineOfCore c) then f else .checkRow
  | none => f

/-- REPLAY_CNT, the run's REPLAYED, and the event (R158, R367). -/
def State.noteReplay (s : State) (ref : TaskRef) (tick check : Nat) (core : Option Nat) : State :=
  match s.run? ref with
  | none => s
  | some r =>
    let e := match core with | some c => engineOfCore c | none => r.lead
    let s := { s with cnt := { s.cnt with replay := s.cnt.replay + 1 } }
    (s.setRun ref fun r => { r with results := { r.results with replayed := r.results.replayed + 1 } }).event 1 2
      (sourceOf 1 e) (some tick) (toBytesLE 1 check ++ zeroBytes 7 ++ toBytesLE 8 (core.getD noCore))

/-- Links that have failed CHECK in two ticks within 10^8 stitch counts, this one among them (R445). -/
def State.noteLinks (s : State) (links : List Nat) : State × List Nat :=
  let now := s.cnt.stitch
  let recent := s.grid.linkFails.filter fun x => decide (now ≤ x.2 + 100000000)
  let again := links.filter fun l => recent.any fun x => x.1 == l
  ({ s with grid := { s.grid with linkFails := recent ++ (links.eraseDups.map fun l => (l, now)) } }, again)

/-- Cores whose residue failed in a tick are noted with its time (R440). -/
def State.noteResidues (s : State) (cores : List Nat) : State :=
  let now := s.cnt.stitch
  let recent := s.grid.residues.filter fun x => decide (now ≤ x.2 + 100000000)
  { s with grid := { s.grid with residues := recent ++ (cores.eraseDups.map fun c => (c, now)) } }

/-- The cores of the run whose residue failed in two ticks within 10^8 stitch counts. -/
def State.repeatedResidues (s : State) (r : Run) : List Nat :=
  let cs := (s.grid.residues.map (·.1)).filter fun c => r.engines.contains (engineOfCore c)
  (cs.filter fun c => decide (2 ≤ (cs.filter (· == c)).length)).eraseDups

/-- At the boundary that seals a tick or its replay, such cores are fenced (R440). -/
def State.fenceRepeated (s : State) (ref : TaskRef) (tick : Nat) : State :=
  match s.run? ref with
  | none => s
  | some r =>
    (s.repeatedResidues r).foldl (fun s c =>
      { s with grid := { s.grid with residues := s.grid.residues.filter fun x => x.1 != c } }.fenceCore ref tick c [] []) s

/-- Keep what is known of a slot's refusals. -/
def State.setRedo (s : State) (ref : TaskRef) (x : Redo) : State :=
  s.setRun ref fun r => { r with redo := (r.redo.filter fun y => y.slot != x.slot) ++ [x] }

/-- A tick or slot is refused (R158, R176, R439): it is run again with the same uniforms, after a fence or a steering where one
is due; a refusal after one of these leaves the run to R443. -/
def State.refuse (s : State) (ref : TaskRef) (tick slot noise : Nat) (faults : List TickFault) : State :=
  match s.run? ref with
  | none => s
  | some r =>
    let faults := faults.map r.ownFault
    let first := faults.head?
    let core := faults.findSome? faultCore
    let s := s.noteReplay ref tick (match first with | some f => faultCheck f | none => 2) core
    let old : Redo := (r.redoOf slot).getD { slot := slot, noise := noise, refusals := 0, mended := false, checking := false, tries := 0 }
    let next := { old with refusals := old.refusals + 1, checking := false, tries := old.tries + 1 }
    let words := faults.filterMap fun f => match f with | .word c a b => some (c, a, b) | _ => none
    let residues := (faults.filterMap fun f => match f with | .residue c => some c | _ => none).eraseDups
    let differ := (faults.filterMap fun f => match f with | .passesDiffer c => some c | _ => none).eraseDups
    let links := (faults.filterMap fun f => match f with | .flit l => some l | _ => none).eraseDups
    let (s, again) := s.noteLinks links
    let failing := if old.checking then links else again
    let fence := fun (s : State) (cs : List Nat) => cs.foldl (fun s c => s.fenceCore ref tick c [] []) s
    if old.mended then s.giveUp ref core true
    else if !words.isEmpty then
      words.foldl (fun s w => s.fenceCore ref tick w.1 w.2.1 w.2.2) (s.setRedo ref { next with mended := true })
    else if old.checking && !differ.isEmpty then fence (s.setRedo ref { next with mended := true }) differ
    else if !failing.isEmpty then
      failing.foldl (fun s l => s.steer ref l) (s.setRedo ref { next with mended := true })
    else if old.refusals = 0 then (s.noteResidues residues).setRedo ref next
    else if !residues.isEmpty then fence (s.setRedo ref { next with mended := true }) residues
    else s.setRedo ref { next with checking := !old.checking }

end Sys2Proof.Machine
end

