-- ==== Sys2Proof/Machine/Array.lean ====
section
/-! DEFINITION. What the debug port reads of a core's array and fields (R86, R89, R94-R105, R162, R225, R226, R521). -/

namespace Sys2Proof.Machine

/-! ### A core's array -/

/-- Bytes padded with zeros to n. -/
def padTo (n : Nat) (bs : List Byte) : List Byte := (bs ++ zeroBytes n).take n

/-- The 32 slots of a core, each through f; zeros for an empty slot. -/
def bySlot (c : Core) (n : Nat) (f : Row → List Byte) : List Byte :=
  (List.range 32).flatMap fun k => match c.rows.find? fun r => r.slot == k with | some r => padTo n (f r) | none => zeroBytes n

/-- A variable descriptor (R102). -/
def Row.descriptor (r : Row) : Nat :=
  unsigned 32 r.h * 2 ^ 32 + r.m % 256 * 2 ^ 24 + 2 ^ 23 + bit r.visible * 2 ^ 22 + bit r.bias * 2 ^ 21
    + bit r.group.isSome * 2 ^ 20 + r.part % 8 * 2 ^ 17 + r.group.getD 0 % 2 ^ 17

/-- A check-row word (R103). -/
def Row.checkWord (r : Row) : Nat := unsigned 32 r.sDev * 2 ^ 32 + unsigned 32 r.s

/-- An outlier entry (R104) and a third-order end (R105) as words. -/
def Outlier.word (o : Outlier) : Nat := unsigned 32 o.value * 2 ^ 32 + o.kind % 4 * 2 ^ 30 + o.row % 32 * 2 ^ 16 + o.pos % 2 ^ 16
def TermEnd.word (e : TermEnd) : Nat :=
  unsigned 16 e.code * 2 ^ 48 + e.colB % 2 ^ 16 * 2 ^ 32 + e.colC % 2 ^ 16 * 2 ^ 16 + bit e.owner * 2 ^ 15 + e.row % 32

/-- Bit l of the result is set where the replica in lane l has b. -/
def laneMask (n : Nat) (ls : Lanes) (b : Replica → Bool) : Nat := maskOf n fun l => ls.any fun x => x.1 == l && b x.2

/-- The array of a core up to its work area (R94): patchwork, learning and whole-cloth. Words nothing has written read as zero
(R89). -/
def arrayBytes (h : Header) (cores : List Core) (c : Core) (ls : Lanes) : List Byte :=
  let outliers := padTo 0x400 (c.outliers.flatMap fun o => toBytesLE 8 o.word)
  let scale := padTo 64 (toBytesLE 2 c.sb ++ toBytesLE 2 c.tb)
  let product := fun (e : Nat) (rep : Replica) => ((rep.views cores).find? fun v => v.1 == c).any fun v => v.2.2.getD e false
  if h.mode = 1 then
    let r := c.rows.head?
    let word := fun (n : Nat) (f : Row → Nat) => toBytesLE n (match r with | some r => f r | none => 0)
    padTo 0x8000 ((List.range 32768).flatMap fun i =>
        toBytesLE 1 (match c.entries.find? fun e => e.index == i with | some e => unsigned 8 e.code | none => 0))
      ++ word 8 Row.descriptor ++ word 4 (·.var) ++ zeroBytes 4 ++ word 4 (fun r => r.m * c.sb) ++ zeroBytes 4 ++ word 8 Row.checkWord
      ++ toBytesLE 32 (laneMask 256 ls fun rep => match r with | some r => rep.spins.getD r.var false | none => false)
      ++ zeroBytes 0x440 ++ outliers ++ scale
  else
    let entry := fun (e : Entry) => if h.learning then e.encode.take 5 else e.encode.take 3
    padTo 0x8000 (c.entries.flatMap entry)
      ++ bySlot c 8 (fun r => toBytesLE 8 r.descriptor) ++ bySlot c 4 (fun r => toBytesLE 4 r.var)
      ++ padTo 0x80 ((List.range 32).flatMap (fun k => toBytesLE 2 (match c.rows.find? fun r => r.slot == k with
          | some r => r.first
          | none => maxNat ((c.rows.filter fun r => decide (r.slot < k)).map (·.last)))) ++ toBytesLE 2 c.entries.length)
      ++ bySlot c 4 (fun r => toBytesLE 4 (r.m * c.sb)) ++ bySlot c 8 (fun r => toBytesLE 8 r.checkWord)
      ++ ((List.range 64).flatMap fun l => toBytesLE 4 (maskOf 32 fun k => match c.rows.find? fun r => r.slot == k with
          | some r => ls.any fun x => x.1 == l && x.2.spins.getD r.var false
          | none => false))
      ++ outliers ++ scale
      ++ if h.learning then
          bySlot c 32 (fun r => r.learn.encode) ++ padTo 0x3340 (c.entries.flatMap fun e => toBytesLE 2 (unsigned 16 e.counter))
        else
          padTo 0x300 (c.ends.flatMap fun e => toBytesLE 8 e.word)
            ++ padTo 0x300 ((List.range c.ends.length).flatMap fun e => toBytesLE 8 (laneMask 64 ls fun rep => product e rep))

/-- The core of a loaded pattern at a place, with its pattern. -/
def State.coreAt (s : State) (at_ : CoreAt) : Option (Pattern × Core) :=
  match s.patternOf at_.die with
  | none => none
  | some p =>
    (p.here.find? fun c => p.engineOf c.shard c.engine == at_.die && c.row == at_.row
      && (s.engine at_.die).physical c == at_.col).map fun c => (p, c)

/-- A place as one number, for free values. -/
def CoreAt.place (c : Sys2Proof.CoreAt) : Nat := c.die * 2 ^ 16 + c.col * 2 ^ 8 + c.row

/-- What a former pattern has left in the array at a place (R89). -/
def State.leftAt (s : State) (at_ : CoreAt) : Option (Pattern × Core) :=
  (s.engine at_.die).left.findSome? fun x =>
    (x.cores.find? fun c => c.1 == at_.row && c.2.1 == at_.col).map fun c => (x.pattern, c.2.2)

/-- Word w of the array of a core of a pattern. The work area that a run has used is free: it has no fixed format (R94, log 17). -/
def loadedWord (p : Pattern) (c : Core) (ls : Lanes) (w place free : Nat) : DWord :=
  let bs := arrayBytes p.header p.here c ls
  if 8 * w + 8 ≤ bs.length then BitVec.ofNat 64 (fieldOf bs (8 * w) 8)
  else if ls.isEmpty then 0
  else Config.debugWord (place * 2 ^ 16 + w) free

/-- Word w of a core's array: the pattern's; else what the debug port has written there; else what a former pattern has left; else
zero, for its valid bit is clear (R89). -/
def State.arrayWord (s : State) (at_ : CoreAt) (w : Nat) : DWord :=
  match s.coreAt at_ with
  | some x => loadedWord x.1 x.2 (s.lanesOf x.1) w (CoreAt.place at_) s.free
  | none =>
    match s.grid.scratch.find? fun x => x.1 == at_ && x.2.1 == w with
    | some x => x.2.2
    | none =>
      match s.leftAt at_ with
      | some x => loadedWord x.1 x.2 x.1.left w (CoreAt.place at_) s.free
      | none => 0

/-- Whether the valid bit of word w of a core's array is set (R89). -/
def State.wordValid (s : State) (at_ : CoreAt) (w : Nat) : Bool :=
  let written := fun (x : Pattern × Core) (ls : Lanes) => decide (8 * w + 8 ≤ (arrayBytes x.1.header x.1.here x.2 ls).length) || !ls.isEmpty
  match s.coreAt at_ with
  | some x => written x (s.lanesOf x.1)
  | none =>
    s.grid.scratch.any (fun x => x.1 == at_ && x.2.1 == w)
      || (s.leftAt at_).any fun x => written (x.1, x.2) x.1.left

/-- The word that a core scrubs in its next tick: the valid words in ascending order, from the first again after word 6,143 (R438). -/
def State.scrubWord (s : State) (at_ : CoreAt) : Option Nat :=
  let ws := (List.range 6144).filter (s.wordValid at_)
  ws[(s.engine at_.die).scrub % max 1 ws.length]?

/-- The field pair that a core scrubs in its next tick (R438). -/
def State.scrubPair (s : State) (at_ : CoreAt) : Nat := (s.engine at_.die).scrub % 2048

/-- Field i of a core's field store in some lanes: the first copies, then the second; within a copy by lane, then slot (R86, R106). -/
def loadedField (p : Pattern) (c : Core) (ls : Lanes) (i : Nat) : Option DWord :=
  let n := i % 2048
  let lane := if p.header.mode = 1 then n else n / 32
  (ls.find? fun l => l.1 == lane).bind fun l =>
    ((l.2.views p.here).find? fun v => v.1 == c).bind fun v =>
      ((c.rows.zip v.2.1).find? fun y => p.header.mode == 1 || y.1.slot == n % 32).map fun y =>
        BitVec.ofNat 64 (unsigned 32 (if i < 2048 then y.2.a else y.2.b))

/-- Field i of a core. A field that no run has held is free: the manual gives the field store no valid bits (log 17). -/
def State.fieldWord (s : State) (at_ : CoreAt) (i : Nat) : DWord :=
  (match s.coreAt at_ with
    | some x => loadedField x.1 x.2 (s.lanesOf x.1) i
    | none => (s.leftAt at_).bind fun x => loadedField x.1 x.2 x.1.left i).getD
    (Config.debugWord (2 ^ 40 + CoreAt.place at_ * 2 ^ 16 + i) s.free)

/-- A router plan entry as a word (R259). -/
def RouterEntry.word (x : RouterEntry) : Nat :=
  x.cycle * 2 ^ 52 + x.inPort * 2 ^ 48 + x.outs * 2 ^ 37 + x.lane * 2 ^ 35 + x.op * 2 ^ 32 + x.wave * 2 ^ 28 + x.inputs * 2 ^ 16 + x.arg

/-- Entry n of the plan entries that a router holds, in the order of the ditch plans (R259, R264); a free value past them (log 17). -/
def State.routerWord (s : State) (at_ : CoreAt) (n : Nat) : DWord :=
  let id := at_.die * 4160 + at_.col * 64 + at_.row
  let es := (s.grid.patterns.flatMap fun p => p.routers.filter fun x => x.router == id).map RouterEntry.word
  match es[n]? with
  | some w => BitVec.ofNat 64 w
  | none => Config.debugWord (2 ^ 41 + CoreAt.place at_ * 2 ^ 16 + n) s.free

/-- The answer to a read (R521), a free value where the manual gives no format. -/
def State.debugRead (s : State) : DebugPacket → Option DWord
  | .readArray c w => some (s.arrayWord c w)
  | .readField c i => some (s.fieldWord c i)
  | .readRouter c e => some (s.routerWord c e)
  | .readSequencer e a => some (Config.debugWord (2 ^ 42 + e * 2 ^ 32 + a) s.free)
  | .readWindow e off => if e < 8 then some (BitVec.ofNat 64 (regRead s 1 e off 8)) else none
  | .writeArray _ _ _ => none
  | .halt _ => none
  | .stepCore _ => none

/-! ### Reads that wait for a boundary (R162, R177) -/

/-- The engine, and in a whole-cloth run the slot, for whose next boundary a read waits: one of spin-state bits or of fields. A
spin-state word of a whole-cloth core holds the bits of many lanes and waits for the run boundary (log 17). -/
def State.holdsRead (s : State) : DebugPacket → Option (Nat × Option Nat)
  | .readArray c w =>
    match s.coreAt c with
    | some x => if 8 * w < 0x8480 && decide ((if x.1.header.mode = 1 then 0x8020 else 0x8380) ≤ 8 * w) then some (c.die, none) else none
    | none => none
  | .readField c i =>
    match s.coreAt c with
    | some x => some (c.die, if x.1.header.mode = 1 then some (i % 2048 / 3) else none)
    | none => none
  | _ => none

/-- A debug read that waited is answered. -/
def State.answerHeld (s : State) : State :=
  match s.dbg.held with
  | none => s
  | some packet => { s with dbg := { s.dbg with held := none, dr := ((s.debugRead packet).getD 0).toNat }, free := s.free + 1 }

/-- The boundary of a run's tick, or of its slot, is over: a debug read that waits for it is answered (R162, R177). -/
def State.answerRead (s : State) (ref : TaskRef) (slot : Option Nat) : State :=
  match s.dbg.held with
  | none => s
  | some packet =>
    match s.holdsRead packet with
    | some x =>
      if (s.engine x.1).task == some ref && (slot.isNone || x.2 == slot) then s.answerHeld else s
    | none => s.answerHeld

/-! ### Packets of the narrow channel (R266) -/

/-- A head word of the narrow channel; the source word has the same fields in its upper 17 bits. -/
structure NarrowHead where
  die  : Nat
  col  : Nat
  row  : Nat
  type : Nat
  len  : Nat
  prio : Bool
  tag  : Nat
  deriving DecidableEq, Repr

/-- The fields of a head word. -/
def NarrowHead.ofWord (w : BitVec 32) : NarrowHead :=
  let f := natBits w.toNat
  { die := f 28 4, col := f 21 7, row := f 15 6, type := f 11 4, len := f 7 4, prio := natBit w.toNat 6, tag := f 0 6 }

/-- Whether a word arrives whole: an even number of ones over its bits and its control bits, and HEAD as its place in the packet asks. -/
def NarrowHead.whole (w : Sys2Proof.NarrowWord) (first : Bool) : Bool :=
  ((bitsOf 32 w.bits.toNat).length + (bitsOf 5 w.control.toNat).length) % 2 == 0 && natBit w.control.toNat 4 == first

/-- Whether a head word addresses the router, engine or hub that a debug packet names; COL 127 addresses every router of the die. -/
def NarrowHead.names (h : NarrowHead) : DebugPacket → Bool
  | .readArray c _ | .readField c _ | .readRouter c _ | .writeArray c _ _ =>
    h.die == c.die && (h.col == 127 || (h.col == c.col && h.row == c.row))
  | .readSequencer e _ | .readWindow e _ => h.die == e
  | .halt _ | .stepCore _ => h.die == 8

/-- The cores that a packet reaches: all of a die under COL 127. -/
def NarrowHead.reaches (h : NarrowHead) (c : CoreAt) : List CoreAt :=
  if h.col = 127 then (List.range 65).flatMap fun col => (List.range 64).map fun row => { die := h.die, col := col, row := row }
  else [c]

end Sys2Proof.Machine
end

