-- ==== Sys2Proof/Machine/Flits.lean ====
section
/-! DEFINITION. The main ditch of a run (R251, R263-R265, R294, R305, R306): flip ledgers, the LEDGER flits that the devices of a run
exchange, and the service of an engine's lanes. -/

namespace Sys2Proof.Machine

/-! ### Service (R265) -/

/-- Whether an engine's lanes and tick-wire channel are in packet service: until it first reaches IDLE, in a JTAG test, and while a
shift-repair is under way. An array phase begins and ends within one command. -/
def State.packetService (s : State) (e : Nat) : Bool :=
  !s.boot.enginesIdle || s.board.por || !(s.engine e).toRepair.isEmpty

/-! ### The flip ledgers (R263) -/

/-- A tick begins: on each die of the run its bank is cleared. -/
def State.clearBanks (s : State) (r : Run) : State :=
  s.setEngines r.engines fun e => { e with ledger := modifyAt (fun _ => []) (r.tick % 2) e.ledger }

/-- The spread wave writes the moves of some blocks to their slots in every die of this device that needs them. -/
def State.writeLedgers (s : State) (r : Run) (p : Pattern) (moves : List (Nat × Updates)) : State :=
  p.hosted.foldl (fun s n => (List.range p.header.perShard).foldl (fun s k =>
    s.setEngine (p.engineOf n k) fun e => { e with ledger := writeSlots e.ledger r.tick (p.slotEntries n k moves) }) s) s

/-! ### Flits between devices (R277, R294) -/

/-- The flits that this device expects in every tick: index, die as shard and engine index, and its slots with their blocks. -/
def Pattern.expected (p : Pattern) : List (Nat × Nat × Nat × List (Nat × Nat)) :=
  p.hosted.flatMap fun n => (List.range p.header.perShard).flatMap fun k =>
    ((p.linkFlits n k).filter fun x => !p.hosted.contains x.2.1).map fun x => (x.1, n, k, x.2.2)

/-- The flits that this device sends in every tick for the dies of a shard: index and slots with their blocks. -/
def Pattern.sentTo (p : Pattern) (n : Nat) : List (Nat × List (Nat × Nat)) :=
  (List.range p.header.perShard).flatMap fun k =>
    ((p.linkFlits n k).filter fun x => p.hosted.contains x.2.1).map fun x => (x.1, x.2.2)

/-- Flits cut into frames: up to seven with consecutive indices. -/
def flitFrames : List (Nat × List Byte) → List (Nat × List (List Byte))
  | [] => []
  | x :: rest =>
    match flitFrames rest with
    | f :: fs => if f.1 = x.1 + 1 ∧ f.2.length < 7 then (x.1, x.2 :: f.2) :: fs else (x.1, [x.2]) :: f :: fs
    | [] => [(x.1, [x.2])]

/-- The node that hosts a shard of a run, by its ARM. -/
def State.hostOf (s : State) (r : Run) (n : Nat) : Option Nat :=
  ((s.armsOf r.tag).find? fun a => natBit a.shardMask.toNat n).map (·.origin)

/-- Send the moves of a tick to the dies of the other devices that need them. -/
def State.sendFlits (s : State) (r : Run) (p : Pattern) (moves : List (Nat × Updates)) : State :=
  ((List.range p.header.shards).filter fun n => !p.hosted.contains n).foldl (fun s n =>
    match s.hostOf r n with
    | none => s
    | some node =>
      match s.runPort r node with
      | none => s
      | some port =>
        (flitFrames ((p.sentTo n).map fun x => (x.1, (p.flitFor x.2 moves).encode))).foldl (fun s f =>
          s.sendFrame port 1 node 0 f.2.length f.1 f.2.flatten) s) s

/-- The moves of a tick as (block, flips). -/
def Work.moves (w : Work) : List (Nat × Updates) := w.sewn.map fun m => (m.block, m.flips)

/-- The moves of the blocks of this device. -/
def Pattern.ownMoves (p : Pattern) (moves : List (Nat × Updates)) : List (Nat × Updates) :=
  moves.filter fun m => p.hosted.contains (p.shardOfBlock m.1)

/-- The spread of a patchwork tick: the banks cleared, this device's moves written and, outside Loose mode, sent to the other
devices (R263, R294). -/
def State.spread (s : State) (r : Run) (p : Pattern) (w : Work) : State :=
  let own := p.ownMoves w.moves
  let s := (s.clearBanks r).writeLedgers r p own
  if p.spansDevices && !r.blk.loose then s.sendFlits r p own else s

/-- Whether the sluice holds every flit that a tick of a run expects; true where the tick expects none (R294). -/
def State.flitsHere (s : State) (r : Run) (p : Pattern) : Bool :=
  !p.spansDevices || r.blk.loose || p.expected.all fun x => s.nl.sluice.any fun f => f.index == x.1

/-- The flit of an index leaves the sluice. -/
def State.takeFlit (s : State) (index : Nat) : Option (List Byte × State) :=
  (takeFirst (fun (f : SluiceFlit) => f.index == index) s.nl.sluice).map fun x =>
    (x.1.bytes, { s with nl := { s.nl with sluice := x.2 } })

/-- Inject the expected flits into the spread: they write their slots; answers whether any fails CHECK or is no LEDGER flit (R256, R257,
R294). -/
def State.injectFlits (s : State) (r : Run) (p : Pattern) : State × Bool :=
  if !p.spansDevices || r.blk.loose then (s, false)
  else
    p.expected.foldl (fun acc x =>
      match acc.1.takeFlit x.1 with
      | none => acc
      | some (bs, s) =>
        match Flit.decode bs with
        | some (.ledger es) =>
          (s.setEngine (p.engineOf x.2.1 x.2.2.1) fun e =>
            { e with ledger := writeSlots e.ledger r.tick (es.filter fun y => natBit y.2 31) }, acc.2)
        | _ => (s, true)) (s, false)

/-! ### Loose mode (R305, R306) -/

/-- A remote move of a Loose run: the tick that sewed it, the replica, its flips. -/
abbrev Remote := Nat × Nat × List (Nat × Bool)

/-- Pairs of interacting moves sewn in one tick here and on another device, the lower-numbered variable of the pair here (R306). -/
def seamChoices (p : Pattern) (own remote : List Updates) : Nat :=
  let low := fun (u : Updates) => u.foldl (fun m x => min m x.1) (2 ^ 24)
  sumNat (own.map fun m => (remote.filter fun x => p.interact m x && decide (low m < low x)).length)

/-- Count choices of time in TCHOICE_CNT and in the run (R306). -/
def State.countChoices (s : State) (ref : TaskRef) (n : Nat) : State :=
  { s with cnt := { s.cnt with tchoice := s.cnt.tchoice + n } }.setRun ref fun r =>
    { r with results := { r.results with tchoice := r.results.tchoice + n } }

/-- The moves that a LEDGER flit for a die brings, by the blocks of its slots (R263). -/
def Pattern.movesIn (p : Pattern) (slots : List (Nat × Nat)) (es : List (Nat × Nat)) : List Updates :=
  (es.filterMap fun e => (slots.find? fun s => s.1 == e.1).map fun s => p.ledgerFlips s.2 e.2).filter fun u => !u.isEmpty

/-- A Loose run takes the flits that have arrived for it: the n-th one of an index since the run began is that of its n-th tick, since
every device sends its flits in every tick (log 32). Pairs sewn in one tick are counted once both are known. A move that several dies
need is taken once. -/
def State.takeLoose (s : State) (ref : TaskRef) : State :=
  match s.run? ref with
  | none => s
  | some r =>
    match s.pattern r.pattern with
    | none => s
    | some p =>
      if !r.blk.loose || !r.begun || !p.spansDevices then s
      else
        s.nl.sluice.foldl (fun s f =>
          match s.run? ref, p.expected.find? fun x => x.1 == f.index with
          | some r, some x =>
            let n := (r.flitsIn.find? fun y => y.1 == f.index).map (·.2) |>.getD 0
            let t := r.base + n
            let s := match s.takeFlit f.index with | some y => y.2 | none => s
            let s := s.setRun ref fun r => { r with flitsIn := (r.flitsIn.filter fun y => y.1 != f.index) ++ [(f.index, n + 1)] }
            match Flit.decode f.bytes with
            | some (.ledger es) =>
              let k := t % max 1 p.header.total
              let new := ((p.movesIn x.2.2.2 es).map fun u => ((t, k, u) : Remote)).filter fun m => !r.seen.contains m
              let own := (r.sent.filter fun m => m.1 == t).map (·.2.2)
              (s.setRun ref fun r => { r with remote := r.remote ++ new, seen := r.seen ++ new }).countChoices ref
                (seamChoices p own (new.map (·.2.2)))
            | _ => s.setRun ref fun r => { r with flitBad := true }
          | _, _ => s) s

/-- Whether every flit of the ticks before tick t has arrived (R307). -/
def Run.flitsBefore (r : Run) (p : Pattern) (t : Nat) : Bool :=
  !p.spansDevices || p.expected.all fun x => decide (t ≤ r.base + ((r.flitsIn.find? fun y => y.1 == x.1).map (·.2)).getD 0)

end Sys2Proof.Machine
end

