-- ==== Sys2Proof/Machine/Seal.lean ====
section
/-! DEFINITION. How the work of a tick seals: the check row, seal votes and sums, rows 2-8 of the boundary, and the settle points of
Loose mode (R106, R124-R127, R155-R158, R187-R190, R205-R218, R290, R293, R294, R305-R307, R430). -/

namespace Sys2Proof.Machine

/-- Act on the run of engine e and its pattern. -/
def State.withRun (s : State) (e : Nat) (f : Run → Pattern → State) : State :=
  match s.runOf e with
  | some r => match s.pattern r.pattern with
    | some p => f r p
    | none => s
  | none => s

/-- Act on a run and its pattern. -/
def State.onRun (s : State) (ref : TaskRef) (f : Run → Pattern → State) : State :=
  match s.run? ref with
  | some r => match s.pattern r.pattern with
    | some p => f r p
    | none => s
  | none => s

/-! ### The check row (R126, R127) -/

/-- Whether the rows of a whole-cloth pattern are split (R68). -/
def Pattern.splitRows (p : Pattern) : Bool := p.header.mode == 1 && decide (1 < p.header.parts)

/-- Whether a variable lies on this device; a split one with its part 0. -/
def Pattern.holds (p : Pattern) (v : Nat) : Bool := p.here.any fun c => c.rows.any fun r => r.var == v && r.part == 0

/-- D of one replica's tick over this device's cores: what updates of local origin change in the pair parts of fields, less the check
words of the variables sewn here; over split rows every update counts, and S in place of S_DEV (R126, R127). -/
def Pattern.checkSum (p : Pattern) (w : Work) : Int :=
  let ups := allFlips w.sewn
  let near := if p.splitRows then ups else ups.filter fun u => p.holds u.1
  sumOver p.here fun c => sumOver c.rows fun r =>
    c.pairChange p.header.mode r near - deltaOf ups r.var * (if p.splitRows then r.s else r.sDev)

/-- This device's part of a tick's energy change: the moves of variables that lie here (R155). -/
def Pattern.ownChange (p : Pattern) (w : Work) : Int := sumOver (w.sewn.filter fun m => m.flips.any fun u => p.holds u.1) (·.dE)

/-- Whether a sum is zero modulo 2^48. -/
def zero48 (x : Int) : Bool := x % 2 ^ 48 == 0

/-! ### Sealing one replica's tick (rows 2-5 of R158) -/

/-- A replica after a move or a tick's moves: pending fields selected, bits and product bits written, the hash moved (R106, R111, R156,
R204). -/
def Replica.sew (rep : Replica) (mode : Nat) (cores : List Core) (ups : Updates) : Replica where
  spins := setSpins rep.spins ups
  fields := (accumulateAll mode cores rep ups).fields.map Field.seal
  products := rep.productsAfter cores ups
  v := rep.v
  hash := (rep.hash + hashChange (ups.filter fun u => rep.spins.getD u.1 false != u.2)) % 2 ^ 64

/-- The replica that a sealed race leaves: its own moves, then remote ones of Loose mode in the order they came, and V with the tick's
energy change (R124, R305). -/
def Run.commitMoves (r : Run) (p : Pattern) (w : Work) : Replica :=
  let rep := r.replica w.replica
  let next := (allFlips w.sewn :: w.remote.map (·.2.2)).foldl (fun x ups => Replica.sew x p.header.mode (r.cores p) ups) rep
  { next with v := rep.v + w.dE }

/-- The replica that a piece of work leaves: a reloaded or already sealed one, the same after a harvest, else its moves made. -/
def Run.leaves (r : Run) (p : Pattern) (w : Work) : Replica :=
  match w.reload with
  | some x => x
  | none => if w.harvest then r.replica w.replica else r.commitMoves p w

/-- Statistics of a replica with a sealed tick (R157, R209). -/
def Stats.count (st : Stats) (w : Work) : Stats where
  ticks := st.ticks + 1
  basted := st.basted + w.basted.length
  sewn := st.sewn + w.sewn.length
  unpicked := st.unpicked + (w.basted.length - w.sewn.length)
  nulls := st.nulls + w.nulls
  extra := st.extra + w.extra

/-- Choices of time that a sealed tick of a Loose run shows: remote moves applied later than the next tick that serves their replica, and
pairs sewn here and elsewhere in this tick, as far as they are known (R306). -/
def Run.choices (r : Run) (p : Pattern) (w : Work) : Nat :=
  if !r.blk.loose then 0
  else (w.remote.filter fun x => decide (x.1 + max 1 p.header.total < w.tick)).length
    + seamChoices p (w.sewn.map (·.flips)) ((r.seen.filter fun x => x.1 == w.tick).map (·.2.2))

/-- Whether the moves of a replica sewn in a tick, here or elsewhere, make it offer its state (R205); in Loose mode only at a settle
point (R307). -/
def Run.offersAt (r : Run) (w : Work) : Bool :=
  r.blk.kind == 0 && r.settles (w.tick + 1) && (!w.sewn.isEmpty || (r.blk.loose && r.seen.any fun x => x.1 == w.tick))

/-- What a run takes from a sealed tick of one replica (rows 2-5 of R158). -/
def Run.sealRace (r : Run) (p : Pattern) (w : Work) : Run :=
  let rep := r.replica w.replica
  let k := w.replica
  let t := w.tick
  let counted := r.settles t
  let new := r.leaves p w
  let res := { r.results with stats := modifyAt (fun st => st.count w) k r.results.stats }
  let res := if counted then res.countBin p.plan k (rep.v + p.e0) else res
  let pl := r.rungAt p k t
  let records := if r.blk.kind = 0 ∧ counted = true ∧ sampled p k t = true then
      r.records ++ [{ replica := k, rung := pl.1, ladder := pl.2, tick := t, energy := rep.v + p.e0, escape := w.escape,
                      hash := rep.hash, state := rep.spins }]
    else r.records
  let r : Run := { r with replicas := modifyAt (fun _ => new) k r.replicas, results := res, records := records }
  let r : Run := if r.blk.loose then
      { r with remote := r.remote.filter fun x => !w.remote.contains x, sent := r.sent ++ w.sewn.map fun m => (t, k, m.flips) }
    else r
  if r.offersAt w then { r with offers := r.offers ++ [r.offer p k t false] } else r

/-- What a run takes from a scored state (R218, R219). -/
def Run.sealScore (r : Run) (p : Pattern) (w : Work) (x : Nat × Int) : Run :=
  { r with
    part := r.part ++ [x]
    scored := (r.scored.filter fun y => y.1 != w.replica) ++ (w.reload.map fun rep => (w.replica, rep)).toList
    results := { r.results with scored := r.results.scored + 1 }.countBin p.plan 0 x.2 }

/-- A harvest tick counts the owner ends of every core (R229). -/
def Pattern.harvested (p : Pattern) (spins : List Bool) (positive : Bool) : Pattern :=
  { p with cores := p.cores.map fun c => c.harvest spins positive }

/-- Seal one piece of work of a run; a Loose run over several devices tells the others its moves (R305). -/
def State.sealWork (s : State) (ref : TaskRef) (w : Work) : State :=
  s.onRun ref fun r p =>
    match w.score with
    | some x => (s.setRun ref fun r => r.sealScore p w x).advanceInput ref 1
    | none =>
      let spins := (r.replica w.replica).spins
      let s := (s.countChoices ref (r.choices p w)).setRun ref fun r => r.sealRace p w
      let s := if r.blk.loose && p.spansDevices then s.sendFlits r p (p.ownMoves w.moves) else s
      if !w.harvest then s
      else
        let s := { s with
          grid :=
            { s.grid with
              patterns := modifyIf (fun x => x.id == p.id) (fun x => x.harvested spins (decide (w.replica < p.phase))) s.grid.patterns } }
        if w.reload.isSome then s.advanceInput ref 1 else s

/-! ### Settle points (R307) -/

/-- A settle point of Loose mode at the boundary before tick t: every remote move sewn before t is applied, and every V is evaluated by
R123. -/
def Run.settle (r : Run) (p : Pattern) (t : Nat) : Run :=
  let due := fun (x : Remote) => decide (x.1 < t)
  { r with
    replicas := r.replicas.mapIdx fun k rep =>
      r.build p (((r.remote.filter fun x => x.2.1 == k && due x).map (·.2.2)).foldl setSpins rep.spins)
    remote := r.remote.filter fun x => !due x
    sent := r.sent.filter fun x => !due x
    seen := r.seen.filter fun x => !due x }

/-- The offer of the tick whose boundary is a settle point, with the settled energy. -/
def Run.resettleOffers (r : Run) (p : Pattern) : Run :=
  { r with offers := r.offers.map fun o => r.offer p o.replica o.tick o.initial }

/-! ### Rows 5-8 of R158 -/

/-- The tick index and PROGRESS rise by 1 (row 6). -/
def State.countTick (s : State) (ref : TaskRef) : State :=
  match s.run? ref with
  | none => s
  | some r =>
    let n := r.progress + 1
    let s := s.setRun ref fun r =>
      { r with tick := r.tick + 1, progress := n, sprouted := 0, offers := [], redo := [], ticking := false, done := [], work := []
               held := r.heldNext, heldNext := false, late := 0 }
    (s.setEngines r.engines fun e => { e with progress := n }).setTask ref fun t => { t with progress := n }

/-- The seal votes and sums of ticks that have passed for good are forgotten: a boundary looks back at the votes of the tick before it and
no further. -/
def State.forgetVotes (s : State) (r : Run) : State :=
  let old := fun (tag : DWord) (t : Nat) => tag == r.tag && decide (t + 1 < r.tick)
  { s with
    nl :=
      { s.nl with
        votes := s.nl.votes.filter fun v => !(old v.tag v.index && v.kind != 3 && !(v.kind == 2 && v.value == 1))
        sums := s.nl.sums.filter fun v => !old v.tag v.tick } }

/-- Rows 5-8 of R158 at the boundary that seals a run's tick: offers, samples and scores, index, commit where it may take effect here,
weir, exchange, hem. The records of a Loose run leave at settle points, and a hem at a step boundary waits for the update (R234). -/
def State.advance (s : State) (ref : TaskRef) (commits : Bool) : State :=
  s.onRun ref fun r p =>
    let t := r.tick
    let settled := r.settles (t + 1)
    let s := s.setRun ref fun r => if r.blk.loose && settled then (r.settle p (t + 1)).resettleOffers p else r
    let s := s.setRun ref fun r => { r with results := takeOffers p.plan false r.offers r.results }
    let s := if settled then s.writeSamples ref else s
    let s := if r.blk.kind = 1 then s.writeScores ref false else s
    let s := s.countTick ref
    let s := if p.spansDevices then s.forgetVotes { r with tick := t + 1 } else s
    let s := if commits then s.commitAtBoundary r.engines else s
    let s := s.setRun ref fun r => (r.adoptMap (t + 1)).releaseWeir (t + 1)
    let s := s.setRun ref fun r => if r.blk.kind = 1 then r else r.exchange p (t + 1)
    if r.blk.kind = 2 ∧ (t + 1) % max 1 p.stepTicks = 0 then s else s.takeHem ref

/-- Interim results at a multiple of FLUSH_PERIOD (R202), and the turnover of the spool after tick t. -/
def State.flushTick (s : State) (ref : TaskRef) (t : Nat) : State :=
  s.onRun ref fun _ p =>
    (if p.plan.flush ≠ 0 ∧ (t + 1) % p.plan.flush = 0 then s.publish ref 0 else s).turnover ref t

/-! ### Seal votes of a run over several devices (R158, R290, R293, R307, R430) -/

/-- Whether a run's ticks take votes of other devices: one over several devices, not in Loose mode. -/
def Run.votes (r : Run) (p : Pattern) : Bool := p.spansDevices && !r.blk.loose

/-- The other nodes of a run. -/
def State.otherNodes (s : State) (r : Run) : List Nat := r.nodes.filter fun n => some n != s.nl.node

/-- How often a slot has been run again, as its votes carry it (log 32). -/
def Run.tryOf (r : Run) (slot : Nat) : Nat := ((r.redoOf slot).map (·.tries)).getD 0 % 32

/-- The first value of the sums of a slot's try (log 32). -/
def Run.sumHead (r : Run) (slot : Nat) : Int := slot + 65536 * r.tryOf slot

/-- The seal votes that a run holds for the present try of a tick or slot. -/
def State.sealVotes (s : State) (r : Run) (tick slot : Nat) : List VoteMsg :=
  s.nl.votes.filter fun v =>
    v.tag == r.tag && v.kind == 1 && v.index == tick && v.slot == slot && v.value / 8 == r.tryOf slot

/-- The sums that a run holds for the present try of a tick or slot. -/
def State.sealSums (s : State) (r : Run) (tick slot : Nat) : List SumMsg :=
  s.nl.sums.filter fun v => v.tag == r.tag && v.tick == tick && v.values.headD 0 == r.sumHead slot

/-- A sum of this device is flooded (R278). -/
def State.castSum (s : State) (m : SumMsg) : State := s.flood none (.sum m)

/-- Whether the spread of some work takes flits of other devices: a patchwork race does (R294). -/
def takesFlits (p : Pattern) (ws : List Work) : Bool := p.header.mode == 0 && ws.all fun w => !w.harvest && w.score.isNone

/-- This device's seal vote and sums, cast once for each try: the vote carries a failure, in slot 0 the wished pause, and the try; the
sums the slot with its try, D, and this device's energy change for each lane (R126, R155, R290; the layout is log 32's). -/
def State.castSeal (s : State) (r : Run) (p : Pattern) (tick slot : Nat) (fail : Bool) (ws : List Work) : State :=
  if (s.sealVotes r tick slot).any fun v => v.origin == s.nodeCode then s
  else
    let flits := if takesFlits p ws then s.injectFlits r p else (s, false)
    let d := sumOver ws p.checkSum
    let bad := fail || flits.2 || (!p.splitRows && !zero48 d)
    let vote : VoteMsg :=
      { tag := r.tag, index := tick, slot := slot, kind := 1, origin := s.nodeCode
        value := bit bad + 2 * (if slot = 0 then r.wish else 0) + 8 * r.tryOf slot }
    (flits.1.castVote vote).castSum
      { tag := r.tag, tick := tick, origin := s.nodeCode, values := [r.sumHead slot, d % 2 ^ 48] ++ ws.map p.ownChange }

/-- The seal of a tick or slot: none while a flit, a vote or a sum is missing; else whether it is refused, and each lane's energy change
(R126, R127, R155, R158, R290, R294). -/
def State.sealVote (s : State) (r : Run) (p : Pattern) (tick slot : Nat) (fail : Bool) (ws : List Work) :
    State × Option (Bool × List Int) :=
  if !r.votes p then (s, some (fail || !zero48 (sumOver ws p.checkSum), ws.map (·.dE)))
  else if takesFlits p ws && !((s.sealVotes r tick slot).any fun v => v.origin == s.nodeCode) && !s.flitsHere r p then (s, none)
  else
    let s := s.castSeal r p tick slot fail ws
    let votes := s.sealVotes r tick slot
    let sums := s.sealSums r tick slot
    if (s.otherNodes r).all fun n => (votes.any fun v => v.origin == n) && sums.any fun v => v.origin == n then
      let others := sums.filter fun v => (s.otherNodes r).contains v.origin
      let total := sumOver ws p.checkSum + sumOver others fun v => v.values.getD 1 0
      let fails := (votes.any fun v => v.value % 2 == 1) || (p.splitRows && !zero48 total)
      (s, some (fails, ws.mapIdx fun i w => p.ownChange w + sumOver others fun v => v.values.getD (2 + i) 0))
    else (s, none)

/-- The checks that a refused try failed, as far as this device knows them: a flit whose CHECK failed is found when it is injected (R256).
-/
def State.faultsOf (s : State) (r : Run) (tick slot : Nat) (faults : List TickFault) : List TickFault :=
  let own := (s.sealVotes r tick slot).any fun v => v.origin == s.nodeCode && v.value % 2 == 1
  if faults.isEmpty && (own || r.flitBad) then [.tickWire] else faults

/-- A refused tick's votes and sums are forgotten: its replay is voted afresh. -/
def State.dropVotes (s : State) (r : Run) (tick slot : Nat) : State :=
  { s with
    nl :=
      { s.nl with
        votes := s.nl.votes.filter fun v =>
          !(v.tag == r.tag && v.kind == 1 && v.index == tick && v.slot == slot && v.value / 8 == r.tryOf slot)
        sums := s.nl.sums.filter fun v => !(v.tag == r.tag && v.tick == tick && v.values.headD 0 == r.sumHead slot) } }

/-- Whether another device's seal vote shows that it resumed from another tick (R430). -/
def State.resumedApart (s : State) (r : Run) (p : Pattern) : Bool :=
  r.votes p && r.blk.resume && r.progress == 0
    && s.nl.votes.any fun v => v.tag == r.tag && v.kind == 1 && v.origin != s.nodeCode && v.index != r.tick

/-- Loose mode: before a settle point a device floods a barrier vote and the escape sum of its waiting sample once its own moves are sewn,
and waits for every other node's and for every flit of the ticks before (R307, log 32). Answers the escape sums of the others; none while
it waits. -/
def State.atBarrier (s : State) (r : Run) (p : Pattern) : State × Option Nat :=
  let t := r.tick + 1
  if !r.blk.loose || !p.spansDevices || !r.settles t then (s, some 0)
  else
    let waiting := match r.records.map (·.escape) ++ r.work.map (·.escape) with | x :: _ => x | [] => 0
    let barrier := s.nl.votes.filter fun v => v.tag == r.tag && v.kind == 2 && v.index == t && v.value % 4 == 2
    let s := if barrier.any fun v => v.origin == s.nodeCode then s
      else (s.castVote { tag := r.tag, index := t, slot := 0, kind := 2, value := 2 + 4 * r.wish, origin := s.nodeCode }).castSum
        { tag := r.tag, tick := t, origin := s.nodeCode, values := [0, 0, waiting] }
    let sums := s.nl.sums.filter fun v => v.tag == r.tag && v.tick == t && (s.otherNodes r).contains v.origin
    let all := (s.otherNodes r).all fun n => (barrier.any fun v => v.origin == n) && sums.any fun v => v.origin == n
    (s, if all && r.flitsBefore p t then some (sumNat (sums.map fun v => unsigned 64 (v.values.getD 2 0))) else none)

/-- The sample that a settle point writes takes the escape sums of the other devices (R212). -/
def Run.addEscape (r : Run) (x : Nat) : Run :=
  let add := fun (e : Nat) => (e + x) % 2 ^ 64
  if r.records.isEmpty then { r with work := r.work.map fun w => { w with escape := add w.escape } }
  else { r with records := r.records.map fun y => { y with escape := add y.escape } }

end Sys2Proof.Machine
end

