-- ==== Sys2Proof/Machine/Boundary.lean ====
section
/-! DEFINITION. The ticks of a run and their boundaries: patchwork, harvest and scoring ticks (R129-R136, R158-R163, R183, R228-R232, R234,
R294, R305-R307, R337, R439, R469, R542), and the ends of the holds of R134. -/

namespace Sys2Proof.Machine

/-- The empty view of host memory, where a command brings none (log 5). -/
def noHost : HostView := { bytes := [], unmapped := [] }

/-! ### Stretch (R133-R135, R469) -/

/-- The guard level that governs a run: the highest among the dies of its engines and the hub die. -/
def State.guardLevel (s : State) (r : Run) : Nat := maxNat ((8 :: r.engines).map fun d => (s.pow.guards.getD d .reset).level)

/-- Whether a tick is stretched: a checked replay or a guard's idle cycles lengthen it, or its work with the cycles by which causes of R134
made it late ends beyond its nominal length; idle cycles before the boundary absorb the rest. A scoring tick's own work alone does not
stretch it (R133, R134, R439, R469, R542; log 46). -/
def State.isStretched (s : State) (r : Run) (p : Pattern) (ws : List Work) (late : Nat) (checking : Bool) : Bool :=
  let beyond := decide (r.tickLen p r.tick < maxNat (ws.map (·.cycles)) + late) && (r.blk.kind != 1 || decide (0 < late))
  checking || beyond || decide (0 < s.guardLevel r)

/-- STRETCH_CNT and the run's STRETCHED. -/
def State.noteStretch (s : State) (ref : TaskRef) (b : Bool) : State :=
  if b then
    { s with cnt := { s.cnt with stretch := s.cnt.stretch + 1 } }.setRun ref fun r =>
      { r with results := { r.results with stretched := r.results.stretched + 1 } }
  else s

/-- Whether a slot's next try is a checked replay (R439). -/
def Run.checks (r : Run) (slot : Nat) : Bool := match r.redoOf slot with | some x => x.checking | none => false

/-! ### Beginning a tick -/

/-- Whether the next tick of a run may begin, as far as its engines go: RUNNING, their domains ON, and no repair, steering, update or packet
service of their lanes holds them (R265, R270, R460). -/
def State.mayTick (s : State) (r : Run) : Bool :=
  s.live && r.begun && r.ended.isNone && r.lost.isEmpty && !r.repairing && !r.steering && !r.updating && (s.engine r.lead).state == 3
    && r.engines.all s.powered && !r.engines.any s.packetService

/-- The free-value index of a tick's race uniforms: the refused tick's, or fresh ones (R193). -/
def State.takeNoise (s : State) (r : Run) (slot n : Nat) : Nat × State :=
  match r.redoOf slot with
  | some x => (x.noise, s)
  | none => if r.blk.noise then (s.free, { s with free := s.free + n }) else (0, s)

/-- A tick of a run begins: every core of its engines scrubs one array word and one field pair (R438). -/
def State.scrubArrays (s : State) (r : Run) : State := s.setEngines r.engines fun e => { e with scrub := e.scrub + 1 }

/-- TICK_START (R129-R157, R183, R263, R305, R337): a patchwork tick that races. A weir row or a replica that is not ready holds it: it
begins later, and `late` counts the cycles it waited. -/
def execTickStart (engine late : Nat) (s : State) : Host.Outcome State Fault Refusal :=
  .next (s.whenLive fun s => s.withRun engine fun r p =>
    let k := r.tick % max 1 p.header.total
    if !s.mayTick r || r.ticking || p.header.mode != 0 || r.blk.kind == 1 || (r.blk.kind == 2 && p.harvestAt r.tick)
        || !r.resident.contains k || !r.weirReady (r.rungAt p k r.tick).1 r.tick then s
    else
      (s.takeLoose r.ref).onRun r.ref fun r p =>
        let (noise, s) := (s.takeLoose r.ref).takeNoise r 0 (noiseSpan p)
        let w := r.raceWork p k r.tick noise
        ((s.spread r p w).scrubArrays r).setRun r.ref fun r => { r with ticking := true, late := late, work := [w] })

/-- HARVEST_TICK (R228-R231): staging counters and, in a positive replica, the next clamp vector. -/
def execHarvestTick (engine late : Nat) (host : HostView) (s : State) : Host.Outcome State Fault Refusal :=
  .next (s.whenLive fun s => s.withRun engine fun r p =>
    let t := r.tick
    if !s.mayTick r || r.ticking || r.blk.kind != 2 || !p.harvestAt t then s
    else
      let vector := if p.reloads t then some (s.inputVector host r p 0) else none
      (s.scrubArrays r).setRun r.ref fun r => { r with ticking := true, late := late, work := [r.harvestWork p t vector] })

/-- SCORING_TICK (R542): one state per lane; the last tick of a counted run takes what is left. -/
def execScoringTick (engine late : Nat) (host : HostView) (s : State) : Host.Outcome State Fault Refusal :=
  .next (s.whenLive fun s => s.withRun engine fun r p =>
    if !s.mayTick r || r.ticking || r.blk.kind != 1 then s
    else
      let states := (List.range (r.vectorsOf p r.tick)).map fun k => s.inputVector host r p k
      (s.scrubArrays r).setRun r.ref fun r => { r with ticking := true, late := late, work := r.scoreWork p r.tick states })

/-! ### Boundaries -/

/-- The shadow of a learning pattern takes the couplings and row states that the last update left, at the first boundary of the step that
follows it (R441; log 74). -/
def State.refreshShadow (s : State) (p : Pattern) : State :=
  if p.shadowed then s
  else
    let f := fun (x : Pattern) => { x with shadow := x.here, shadowed := true }
    { s with grid := { s.grid with patterns := modifyIf (fun x => x.id == p.id) f s.grid.patterns } }

/-- What follows the sealed rows: fences of repeated residue failures, corrected words, then the update interval or row 9. -/
def State.afterSeal (s : State) (r : Run) (p : Pattern) (env : BoundaryEnv) : State :=
  let s := ((s.refreshShadow p).correctAll r.ref r env.corrected).fenceRepeated r.ref r.tick
  if r.blk.kind = 2 ∧ (r.tick + 1) % max 1 p.stepTicks = 0 then s.setRun r.ref fun r => { r with updating := true }
  else s.rowNine env.host r.ref

/-- A tick of a run is refused at its boundary (rows 1-6 of R158); no work of it is taken. -/
def State.refuseTick (s : State) (r : Run) (p : Pattern) (noise : Nat) (faults : List TickFault) (stretched : Bool) : State :=
  let faults := s.faultsOf r r.tick 0 faults
  let s := (s.dropVotes r r.tick 0).noteStretch r.ref stretched
  let s := s.setRun r.ref fun r => { r with ticking := false, work := [], late := 0, flitBad := false }
  if s.resumedApart r p then (s.noteReplay r.ref r.tick 2 none).holdRun r.ref 7 0 else s.refuse r.ref r.tick 0 noise faults

/-- The pieces of work of a tick with each lane's energy change as the sums give it. -/
def withChanges (ws : List Work) (dEs : List Int) : List Work := ws.mapIdx fun i w => { w with dE := dEs.getD i w.dE }

/-- A tick seals (rows 1-9 of R158). -/
def State.sealTick (s : State) (r : Run) (p : Pattern) (ws : List Work) (stretched : Bool) (env : BoundaryEnv) : State :=
  let s := ws.foldl (fun s w => s.sealWork r.ref w) (s.noteStretch r.ref stretched)
  ((s.advance r.ref true).flushTick r.ref r.tick).afterSeal r p env

/-- TICK_BOUNDARY (R158): patchwork, harvest and scoring ticks. While a flit, a vote or a sum of another device is missing the boundary has
not come. -/
def execTickBoundary (engine : Nat) (env : BoundaryEnv) (s : State) : Host.Outcome State Fault Refusal :=
  .next (s.whenLive fun s => s.withRun engine fun r p =>
    if !r.ticking || (p.header.mode == 1 && r.blk.kind != 1) then s
    else
      let s := s.takeLoose r.ref
      s.onRun r.ref fun r p =>
        let noise := (r.work.head?.map (·.noise)).getD 0
        let vote := s.sealVote r p r.tick 0 (!env.faults.isEmpty || r.flitBad || s.resumedApart r p) r.work
        let stretched := s.isStretched r p r.work (r.late + env.late) (r.checks 0)
        match vote.2 with
        | none => vote.1
        | some (true, _) =>
          ((vote.1.refuseTick r p noise env.faults stretched).correctAll r.ref r env.corrected).answerRead r.ref none
        | some (false, dEs) =>
          let barrier := vote.1.atBarrier r p
          match barrier.2 with
          | none => barrier.1
          | some x =>
            let r := r.addEscape x
            let s := barrier.1.setRun r.ref fun y => { y with records := r.records, work := r.work }
            (s.sealTick r p (withChanges r.work dEs) stretched env).answerRead r.ref none)

/-- RING_POLL (R160): a STARVED engine reads its ring counter, one in host memory while the host can be read (R372). -/
def execRingPoll (engine : Nat) (host : HostView) (s : State) : Host.Outcome State Fault Refusal :=
  .next (s.whenLive fun s => s.withRun engine fun r _ =>
    if (s.engine r.lead).state = 4 ∧ (s.hostOpen = true ∨ r.blk.kind = 0 ∨ r.blk.input < hostWindow) then s.rowNine host r.ref
    else s)

/-- SPOOL_LOAD_COMPLETE (R337, R446): a replica's image has arrived in its lane. -/
def execSpoolLoadComplete (engine replica : Nat) (s : State) : Host.Outcome State Fault Refusal :=
  .next (s.whenLive fun s => s.withRun engine fun r p =>
    if !r.loading.contains replica then s
    else if s.mem.poisonIn (r.blk.spool + 64 * replica * p.replicaLines) (64 * p.replicaLines) then s.giveUp r.ref none true
    else
      let rep := r.spoolIn p s.mem replica
      s.setRun r.ref fun r =>
        { r with loading := r.loading.filter (· != replica), resident := r.resident ++ [replica]
                 replicas := modifyAt (fun _ => rep) replica r.replicas })

/-- WEIR_REBUILD_COMPLETE (R178, R181): one of the four rebuilds in progress ends. -/
def execWeirRebuildComplete (engine rung : Nat) (s : State) : Host.Outcome State Fault Refusal :=
  .next (s.whenLive fun s => s.withRun engine fun r _ =>
    match (r.due.take 4).find? fun c => c.rung == rung with
    | some c => s.setRun r.ref fun r => r.builtWeir c
    | none => s)

/-- SHIFT_REPAIR_COMPLETE (R270): the repaired die rows of the run's engines are spared and the hold ends. -/
def execShiftRepairComplete (engine : Nat) (s : State) : Host.Outcome State Fault Refusal :=
  .next (s.whenLive fun s =>
    match s.runOf engine with
    | some r =>
      let es := r.engines.filter fun e => !(s.engine e).toRepair.isEmpty
      if !es.all s.powered then s else
      (es.foldl (fun (s : State) e => s.endRepair e (some r.tick)) s).setRun r.ref fun r => { r with repairing := false }
    | none => if engine < 8 ∧ !(s.engine engine).toRepair.isEmpty ∧ s.powered engine = true then s.endRepair engine none else s)

/-- WIRE_STEER_COMPLETE (R445): the steering hold ends. -/
def execWireSteerComplete (engine : Nat) (s : State) : Host.Outcome State Fault Refusal :=
  .next (s.whenLive fun s => s.withRun engine fun r _ => s.setRun r.ref fun r => { r with steering := false })

end Sys2Proof.Machine
end

