-- ==== Sys2Proof/Machine/Slots.lean ====
section
/-! DEFINITION. Whole-cloth slots (R171-R177): when they issue, their own boundaries, and the run boundary. -/

namespace Sys2Proof.Machine

/-- Slots of a run. -/
def Pattern.slots (p : Pattern) : Nat := cdiv p.header.resident 3

/-- Lanes of a slot. -/
def Pattern.slotLanes (p : Pattern) (slot : Nat) : List Nat := (List.range p.header.resident).filter fun k => k / 3 == slot

/-- Whether a slot has issued tick t, or sealed it as the tick in progress. -/
def Run.issued (r : Run) (slot t : Nat) : Bool := (r.work.any fun w => w.slot == slot && w.tick == t) || (t == r.tick && r.done.contains slot)

/-! ### Times (R173, R174) -/

/-- A time by its number. -/
def timeOf (xs : List (Nat × Nat)) (n : Nat) : Option Nat := (xs.find? fun x => x.1 == n).map (·.2)

/-- Set a time. -/
def setTime (xs : List (Nat × Nat)) (n t : Nat) : List (Nat × Nat) := (n, t) :: xs.filter fun x => x.1 != n

/-- The cycle at which a slot may issue tick t: its own boundary, one cycle after the slot before it, 24 cycles after the run boundary of
tick t - 2, and the end of a hold (R173); a replay reissues at its slot's boundary (R176). -/
def SlotClock.due (c : SlotClock) (slot t : Nat) (replay : Bool) : Nat :=
  let own := (timeOf c.bound slot).getD 0
  if replay then own
  else max (max own (match c.last with | some x => x + 1 | none => 0))
    (max c.floor (if 2 ≤ t then ((timeOf c.runs (t - 2)).map fun x => x + 24).getD 0 else 0))

/-- A slot issues. -/
def SlotClock.issue (c : SlotClock) (slot at_ : Nat) (replay : Bool) : SlotClock :=
  { c with issued := setTime c.issued slot at_, last := if replay then c.last else some at_ }

/-- The cycle of a slot's boundary: TICK_LEN or its work after it issued, and the guard's idle cycles (R174, R469). -/
def State.slotBoundaryAt (s : State) (r : Run) (p : Pattern) (slot work : Nat) : Nat :=
  (timeOf r.clock.issued slot).getD 0 + max p.header.tickLen work + cdiv (s.guardLevel r * p.header.tickLen) 4

/-- Whether a slot's boundary falls more than TICK_LEN after its boundary in the tick before, a replay's after the refused one; in the
run's first tick, after cycle k for slot k, where R173 lets it issue (R174; log 46). -/
def Run.slotLate (r : Run) (p : Pattern) (slot bound : Nat) : Bool :=
  decide ((timeOf r.clock.bound slot).getD slot + p.header.tickLen < bound)

/-! ### Issue -/

/-- Whether a firmware handover waits for a quiet point (R175, R489). -/
def State.handoverDue (s : State) : Bool := s.fw.handBack.isSome || s.fw.phase == 4

/-- Whether anything must be carried out at the run boundary before a slot of the next tick may issue (R175): a request, an end, a
sprout, missing output room, a commit or a handover. -/
def State.boundaryDue (s : State) (r : Run) (p : Pattern) : Bool :=
  let next : Run := { r with tick := r.tick + 1 }
  !r.wants.isEmpty || next.complete p || (s.barrierPause next).isSome || (r.pauseAt != 0 && decide (r.pauseAt ≤ r.tick + 1))
    || (r.blk.noise && s.rng.state != 1) || s.host.commit.isSome || s.handoverDue || !r.queue.isEmpty
    || !(r.sproutSteps p (r.tick + 1)).isEmpty || decide (s.ringRoom r < r.linesOf p r.tick + r.linesOf p (r.tick + 1))

/-- Whether a slot may issue its next tick: slot 0 once every slot of the tick has issued and nothing is due at its run boundary, each other
slot after the one before it; a refused slot at once (R173, R175, R176). -/
def State.slotTurn (s : State) (r : Run) (p : Pattern) (slot t : Nat) : Bool :=
  if (r.redoOf slot).isSome then true
  else if slot ≠ 0 then r.issued (slot - 1) t
  else if r.done.contains 0 then ((List.range p.slots).all fun k => r.issued k r.tick) && !s.boundaryDue r p
  else !s.handoverDue

/-- SLOT_ISSUE (R167-R173, R175, R176, R183): a slot's three lanes begin the tick in progress, or the next one once the slot has
sealed this one. A weir row that is not ready holds the slot; `late` counts the cycles that holds of R134 keep it beyond the moments of
R173. -/
def execSlotIssue (engine slot late : Nat) (s : State) : Host.Outcome State Fault Refusal :=
  .next (s.whenLive fun s => s.withRun engine fun r p =>
    let t := if r.done.contains slot then r.tick + 1 else r.tick
    if !s.mayTick r || p.header.mode != 1 || r.blk.kind != 0 || decide (p.slots ≤ slot) || r.work.any (fun w => w.slot == slot)
        || !s.slotTurn r p slot t || ((p.slotLanes slot).any fun k => !r.weirReady (r.rungAt p k t).1 t) then s
    else
      let replay := (r.redoOf slot).isSome
      let span := noiseSpan p
      let (noise, s) := s.takeNoise r slot (3 * span)
      (if slot = 0 then s.scrubArrays r else s).setRun r.ref fun r =>
        { r with ticking := true
                 clock := r.clock.issue slot (r.clock.due slot t replay + late) replay
                 work := r.work ++ (p.slotLanes slot).map fun k => r.laneWork p k t (noise + k % 3 * span) })

/-! ### Boundaries -/

/-- Seal the work of some lanes. -/
def State.sealSlot (s : State) (ref : TaskRef) (slot : Nat) (ws : List Work) : State :=
  let s := ws.foldl (fun s w => s.sealWork ref w) s
  s.setRun ref fun r => { r with work := r.work.filter fun w => w.slot != slot, done := addNew slot r.done }

/-- A slot that seals the next tick ahead of the run boundary keeps what its lanes leave: observers see it, and the run takes it at that
boundary, which needs the states of the tick before (R177, R188, R206; log 31). -/
def Run.sealAhead (r : Run) (p : Pattern) (slot : Nat) (ws : List Work) : Run :=
  { r with
    work := (r.work.filter fun w => w.slot != slot) ++ ws.map fun w => { w with sealed := true, reload := some (r.leaves p w) } }

/-- A slot's stretch counts once for its tick, at the run boundary; that of a replay once more, at once (R135, R174). -/
def State.noteSlot (s : State) (r : Run) (slot tick : Nat) (stretched : Bool) : State :=
  if !stretched then s
  else if (r.redoOf slot).isSome then s.noteStretch r.ref true
  else s.setRun r.ref fun x => if tick = r.tick then { x with held := true } else { x with heldNext := true }

/-- The time of a slot's boundary; the run boundary of its tick falls no earlier once it seals (R174). -/
def SlotClock.bounded (c : SlotClock) (slot tick at_ : Nat) (sealed : Bool) : SlotClock :=
  { c with
    bound := setTime c.bound slot at_
    runs := if sealed then setTime (c.runs.filter fun x => decide (tick ≤ x.1 + 2)) tick (max at_ ((timeOf c.runs tick).getD 0)) else c.runs }

/-- SLOT_BOUNDARY (R174, R176): the slot's own seal vote; a refused slot alone runs again. -/
def execSlotBoundary (engine slot : Nat) (env : BoundaryEnv) (s : State) : Host.Outcome State Fault Refusal :=
  .next (s.whenLive fun s => s.withRun engine fun r p =>
    let ws := r.work.filter fun w => w.slot == slot && !w.sealed
    match ws with
    | [] => s
    | w :: _ =>
      let checking := r.checks slot
      let vote := s.sealVote r p w.tick slot (!env.faults.isEmpty) ws
      let bound := s.slotBoundaryAt r p slot (maxNat (ws.map (·.cycles)) + env.late + if checking then 4 else 0)
      let stretched := checking || r.slotLate p slot bound
      let timed := fun (s : State) (sealed : Bool) =>
        (s.noteSlot r slot w.tick stretched).setRun r.ref fun r => { r with clock := r.clock.bounded slot w.tick bound sealed }
      match vote.2 with
      | none => vote.1
      | some (true, _) =>
        let s := vote.1
        let faults := s.faultsOf r w.tick slot env.faults
        let s := (timed (s.dropVotes r w.tick slot) false).setRun r.ref fun r => { r with work := r.work.filter fun w => w.slot != slot }
        ((s.refuse r.ref w.tick slot w.noise faults).correctAll r.ref r env.corrected).answerRead r.ref (some slot)
      | some (false, dEs) =>
        let ws := withChanges ws dEs
        let s := timed vote.1 true
        let s := if w.tick = r.tick then s.sealSlot r.ref slot ws else s.setRun r.ref fun r => r.sealAhead p slot ws
        let s := s.setRun r.ref fun r => { r with redo := r.redo.filter fun x => x.slot != slot }
        ((s.correctAll r.ref r env.corrected).fenceRepeated r.ref w.tick).answerRead r.ref (some slot))

/-- RUN_BOUNDARY (R174, R175): once every slot has sealed the tick, rows 7-9 of R158; slots already issued for the next tick go on, and a
commit waits for the run boundary of that tick. -/
def execRunBoundary (engine : Nat) (env : BoundaryEnv) (s : State) : Host.Outcome State Fault Refusal :=
  .next (s.whenLive fun s => s.withRun engine fun r p =>
    if p.header.mode != 1 || r.blk.kind != 0 || !r.ticking || !(List.range p.slots).all r.done.contains then s
    else
      let going := !r.work.isEmpty || !r.redo.isEmpty
      let floor := if going || !(s.boundaryDue r p || decide (0 < env.late)) then r.clock.floor
        else (timeOf r.clock.runs r.tick).getD 0 + env.late
      let s := (s.noteStretch r.ref r.held).advance r.ref (!going)
      let s := s.setRun r.ref fun x => { x with work := r.work, redo := r.redo, ticking := going, clock := { x.clock with floor := floor } }
      let s := (List.range p.slots).foldl (fun s k =>
        match r.work.filter fun w => w.slot == k && w.sealed with
        | [] => s
        | ws => s.sealSlot r.ref k ws) s
      let s := s.flushTick r.ref r.tick
      (if going then s.correctAll r.ref r env.corrected else s.afterSeal r p env).answerRead r.ref none)

end Sys2Proof.Machine
end

