-- ==== Sys2Proof/Machine/Learn.lean ====
section
/-! DEFINITION. The update interval of a learning run and the learned image (R225, R226, R234-R249, R536-R538). -/

namespace Sys2Proof.Machine

/-! ### The update of the couplings (R235-R240) -/

/-- An owner end with what the update makes of it: its pair, the engine of this device that holds it, staging counter, new gradient and
momentum codes, target, value, and the codes that were clipped. -/
structure PairUpdate where
  owner  : Nat
  other  : Nat
  engine : Option Nat
  d      : Int
  grad   : Int
  mom    : Int
  tau    : Int
  value  : Int
  satG   : Bool
  satM   : Bool
  satC   : Bool
  deriving DecidableEq, Repr

/-- A row with its core and the scales that the update chooses for it: DMAX, mm', mb', a, b2, EXP_NEXT. -/
structure RowUpdate where
  core : Core
  row  : Row
  dmax : Nat
  mm   : Nat
  mb   : Nat
  a    : Nat
  b2   : Nat
  exp  : Nat
  deriving DecidableEq, Repr

/-- The momentum step ms' of a row. -/
def RowUpdate.ms (u : RowUpdate) : Nat := u.mm * u.mb

/-- The owner ends of a row with their partners. -/
def Core.owners (c : Core) (r : Row) : List (Nat × Entry) :=
  ((c.rowEntries r).filter fun e => e.2.owner).map fun e => (c.colVar 0 r.part e.2.index, e.2)

/-- b_i of a row (R237), from the scales in force. -/
def rowBound (l : Learn) (r : Row) : Nat := momentumBound l.mu l.lr r.learn.qmax (r.learn.mm * r.learn.mb) r.learn.gs

/-- Part U1 (R237): row maxima, block maxima, the momentum scales. -/
def scaleRows (l : Learn) (cores : List Core) : List RowUpdate :=
  cores.flatMap fun c =>
    let mb := momentumBlock (maxNat ((cores.filter (sameBlock c)).flatMap fun k => k.rows.map (rowBound l)))
    c.rows.map fun r =>
      let old := r.learn.mm * r.learn.mb
      let mm := momentumRow (rowBound l r) mb
      { core := c, row := r, dmax := maxNat ((c.owners r).map fun e => absNat e.2.counter), mm := mm, mb := mb,
        a := momentumA l.mu r.learn.qmax old (mm * mb), b2 := momentumB2 l.lr r.learn.gs (mm * mb), exp := r.learn.exp }

/-- The engine of this device that holds a core; none for a core of a shard that another device hosts. -/
def Pattern.engineHere (p : Pattern) (c : Core) : Option Nat :=
  if p.places.any fun x => x.1 == c.shard then some (p.engineOf c.shard c.engine) else none

/-- Parts U2 and U3 at the owner ends (R236-R238). -/
def targetPairs (p : Pattern) (us : List RowUpdate) : List PairUpdate :=
  us.flatMap fun u => (u.core.owners u.row).map fun e =>
    let g0 := gradientRaw e.2.counter u.row.learn.gs
    let g := clip127 g0
    let q0 := momentumRaw e.2.mom g u.a u.b2
    let q := clip127 q0
    { owner := u.row.var, other := e.1, engine := p.engineHere u.core, d := e.2.counter, grad := g, mom := q,
      tau := couplingTarget e.2.code (u.core.step u.row) q u.ms, value := 0, satG := g != g0, satM := q != q0, satC := false }

/-- EXP_NEXT of every row (R238): a row without learnable ends keeps its exponent. -/
def chooseExponents (ps : List PairUpdate) (us : List RowUpdate) : List RowUpdate :=
  us.map fun u =>
    match ps.filter fun x => x.owner == u.row.var || x.other == u.row.var with
    | [] => u
    | xs => { u with exp := exponentFor u.core.sb (maxNat (xs.map fun x => absNat x.tau)) }

/-- The new step d' of a variable's row. -/
def newStep (us : List RowUpdate) (v : Nat) : Nat :=
  match us.find? fun u => u.row.var == v with | some u => u.core.sb * 2 ^ u.exp | none => 1

/-- Part U5 (R239): the pair values. -/
def valuePairs (us : List RowUpdate) (ps : List PairUpdate) : List PairUpdate :=
  ps.map fun x =>
    let di := newStep us x.owner
    let dj := newStep us x.other
    let dc := max di dj
    let lim : Int := (127 * min di dj / dc : Nat)
    let c0 := coarseCode x.tau dc
    let c := if c0 > lim then lim else if c0 < -lim then -lim else c0
    { x with value := c * dc, satC := c != c0 }

/-- The entries of a row after the update (R236, R237, R239): owner and mirror ends; fixed ends stay. -/
def newEntry (ps : List PairUpdate) (v u step : Nat) (e : Entry) : Entry :=
  match ps.find? fun x => (x.owner == v && x.other == u) || (x.owner == u && x.other == v) with
  | some x =>
    if e.grad = -128 then e
    else if x.owner = v then { e with code := x.value / step, grad := x.grad, mom := x.mom, counter := 0 }
    else { e with code := x.value / step, counter := 0 }
  | none => { e with counter := 0 }

/-- GS for the steps after step n (R240): the largest of the window's slots. -/
def windowMax (gmax : List Nat) (window n : Nat) : Nat :=
  max 1 (maxNat ((List.range window).map fun k => gmax.getD ((n + 8 - k) % 8) 0))

/-- The row state after step n: the copies of GS, MM and MB swapped, so that the inactive ones hold the step's old values (R240, R241). -/
def newRowState (l : Learn) (n qmax : Nat) (u : RowUpdate) : RowState :=
  let st := u.row.learn
  let gmax := modifyAt (fun _ => u.dmax) (n % 8) st.gmax
  let gs := windowMax gmax l.window n
  { gmax := gmax, gs := gs, gsNext := st.gs, mm := u.mm, mmNext := st.mm, mb := u.mb, mbNext := st.mb, qmax := qmax,
    expNext := u.exp, exp := u.exp }

/-- What a step's update makes of the cores, and its books. -/
structure StepUpdate where
  cores : List Core
  pairs : List PairUpdate
  rows  : List RowUpdate
  deriving DecidableEq, Repr

/-- The update of step n over the cores of a pattern (R235-R240). -/
def updateCores (p : Pattern) (n : Nat) : StepUpdate :=
  let first := scaleRows p.learn p.cores
  let targets := targetPairs p first
  let us := chooseExponents targets first
  let ps := valuePairs us targets
  let cores := p.cores.map fun c =>
    { c with
      entries := c.rows.flatMap fun r => (c.rowEntries r).map fun e =>
        newEntry ps r.var (c.colVar 0 r.part e.2.index) (newStep us r.var) e.2
      rows := c.rows.map fun r =>
        match us.find? fun u => u.row.var == r.var with
        | some u =>
          let qmax := maxNat ((ps.filter fun x => x.owner == r.var).map fun x => absNat x.mom)
          { r with m := 2 ^ u.exp, learn := newRowState p.learn n qmax u }
        | none => r }
  let here := fun v => p.here.any fun c => c.rows.any fun r => r.var == v
  { cores := withCheckRows p.header.mode here cores, pairs := ps, rows := us }

/-! ### The learned image (R247) -/

/-- A core word (R535). -/
def coreWord (c : Core) (count : Nat) : Nat := c.engine + c.col * 2 ^ 8 + c.row * 2 ^ 16 + count * 2 ^ 32

/-- The row in a slot. -/
def Core.slotRow (c : Core) (k : Nat) : Option Row := c.rows.find? fun r => r.slot == k

/-- Entries of a slot. -/
def Core.slotEntries (c : Core) (k : Nat) : List Entry :=
  match c.slotRow k with | some r => (c.rowEntries r).map (·.2) | none => []

/-- A core record of a CODED learning pattern (R101, R537). -/
def coreRecord (c : Core) : List Byte :=
  let es := (List.range 32).flatMap c.slotEntries
  let run := fun (k : Nat) => sumNat ((List.range k).map fun j => (c.slotEntries j).length)
  padLine
    (toBytesLE 8 (coreWord c es.length)
      ++ ((List.range 32).flatMap fun k => toBytesLE 1 (match c.slotRow k with | some r => r.m | none => 0))
      ++ ((List.range 33).flatMap fun k => toBytesLE 2 (run k)) ++ zeroBytes 22
      ++ es.flatMap fun e =>
          toBytesLE 2 e.index ++ toBytesLE 1 (unsigned 8 e.code) ++ toBytesLE 1 (unsigned 8 e.grad) ++ toBytesLE 1 (unsigned 8 e.mom))

/-- The COUPLINGS part of a shard, CODED, with a residue table of zero (R247, R537). -/
def couplingsPart (p : Pattern) (n : Nat) : List Byte :=
  let cores := p.shardCores n
  let blocks := p.blocks.filter fun b => b.shard == n
  let scales := padLine (blocks.flatMap fun b =>
    match cores.find? fun c => c.engine == b.engine && c.dblock == b.dblock with
    | some c => toBytesLE 2 c.sb ++ toBytesLE 2 c.tb ++ zeroBytes 4
    | none => toBytesLE 2 p.learn.sb ++ toBytesLE 2 1 ++ zeroBytes 4)
  let residue := padLine (zeroBytes (4 * blocks.length))
  toBytesLE 4 n ++ toBytesLE 4 cores.length ++ toBytesLE 8 (sumNat (cores.map fun c => c.entries.length))
    ++ toBytesLE 8 (64 + scales.length + residue.length) ++ toBytesLE 8 64 ++ toBytesLE 8 (64 + scales.length) ++ zeroBytes 24
    ++ scales ++ residue ++ cores.flatMap coreRecord

/-- The OUTLIERS part of a shard (R104, R538). -/
def outliersPart (p : Pattern) (n : Nat) : List Byte :=
  let cores := (p.shardCores n).filter fun c => !c.outliers.isEmpty
  let word := fun (o : Outlier) => toBytesLE 8 (unsigned 32 o.value * 2 ^ 32 + o.kind * 2 ^ 30 + o.row * 2 ^ 16 + o.pos)
  padLine
    (toBytesLE 4 n ++ toBytesLE 4 cores.length ++ toBytesLE 8 (sumNat (cores.map fun c => c.outliers.length)) ++ toBytesLE 8 64
      ++ zeroBytes 40 ++ cores.flatMap fun c => toBytesLE 8 (coreWord c c.outliers.length) ++ c.outliers.flatMap word)

/-- Parts of a section one after another, with the offset of each. -/
def joinParts (parts : List (List Byte)) : List Nat × List Byte :=
  parts.foldl (fun acc x => (acc.1 ++ [acc.2.length], acc.2 ++ x)) ([], [])

/-- The LEARNING section, CODED, standing at a step (R224). -/
def learningSection (m : Mem) (off : Nat) (p : Pattern) (step : Nat) : List Byte :=
  let rows := p.cores.flatMap (·.rows)
  m.bytes off 0x24 ++ toBytesLE 4 step ++ m.bytes (off + 0x28) 24
    ++ padLine ((List.range p.header.nVars).flatMap fun v =>
        match rows.find? fun r => r.var == v with | some r => r.learn.encode | none => zeroBytes 32)

/-- The SHARDS section with the new offsets of the COUPLINGS and OUTLIERS parts (R292). -/
def shardsSection (m : Mem) (off len : Nat) (p : Pattern) (couplings outliers : List Nat) (has : Bool) : List Byte :=
  let entry := fun (n : Nat) =>
    let a := off + 0x40 + 128 * n
    m.bytes a 8 ++ toBytesLE 8 (couplings.getD n 0) ++ toBytesLE 8 (if has then outliers.getD n 0 else 0) ++ m.bytes (a + 0x18) 24
      ++ toBytesLE 4 (sumNat ((p.shardCores n).map fun c => c.outliers.length)) ++ m.bytes (a + 0x34) 76
  let n := p.header.shards
  m.bytes off 0x40 ++ ((List.range n).flatMap entry) ++ m.bytes (off + 0x40 + 128 * n) (len - (0x40 + 128 * n))

/-- The learned image of a pattern as its arrays stand, at a step (R247): the sections of the image it was loaded from, with
COUPLINGS, OUTLIERS and LEARNING written CODED from the arrays, one after another from 0x200. -/
def learnedImage (m : Mem) (p : Pattern) (step : Nat) : List Byte :=
  let g := imageAt m p.image
  let dir := readDirectory g p.header
  let shards := List.range (max 1 p.header.shards)
  let has := (dir.any fun d => d.1 == 4) || p.cores.any fun c => !c.outliers.isEmpty
  let types := dir.map (·.1) ++ if has && !dir.any fun d => d.1 == 4 then [4] else []
  let coup := joinParts (shards.map (couplingsPart p))
  let outs := joinParts (shards.map (outliersPart p))
  let body := fun (t : Nat) =>
    let sec := sectionAt dir t
    match t with
    | 3 => coup.2
    | 4 => outs.2
    | 11 => shardsSection m (p.image + sec.1) sec.2 p coup.1 outs.1 has
    | 12 => learningSection m (p.image + sec.1) p step
    | _ => m.bytes (p.image + sec.1) sec.2
  let laid := types.foldl (fun (acc : List (Nat × Nat × Nat) × List Byte) t =>
    let b := padLine (body t)
    (acc.1 ++ [(t, 0x200 + acc.2.length, b.length)], acc.2 ++ b)) ([], [])
  let dirBytes := (laid.1.flatMap fun d => toBytesLE 2 d.1 ++ zeroBytes 2 ++ toBytesLE 4 (d.2.2 / 64) ++ toBytesLE 8 d.2.1)
  let head := fun (hash : List Byte) =>
    m.bytes p.image 8 ++ toBytesLE 8 (0x200 + laid.2.length) ++ hash ++ m.bytes (p.image + 0x40) 2 ++ toBytesLE 1 1
      ++ m.bytes (p.image + 0x43) 0xC ++ toBytesLE 1 types.length ++ m.bytes (p.image + 0x50) 0x30 ++ zeroBytes 8
      ++ m.bytes (p.image + 0x88) 120 ++ dirBytes ++ zeroBytes (256 - dirBytes.length)
  head (sha384 (head (zeroBytes 48) ++ laid.2)) ++ laid.2

/-! ### The step boundary -/

/-- The step record (R246): its sums run over every engine of the run, its entries per engine over those of this device (R243). -/
def stepRecord (p : Pattern) (u : StepUpdate) (n tick : Nat) (mask : Nat) (flags bytes : Nat) : List Byte :=
  let count := fun (f : PairUpdate → Bool) (e : Nat) => (u.pairs.filter fun x => f x && x.engine == some e).length
  let all := fun (f : PairUpdate → Bool) => (u.pairs.filter f).length
  let per := fun (f : PairUpdate → Bool) => (List.range 8).flatMap fun e => toBytesLE 4 (count f e)
  toBytesLE 8 n ++ toBytesLE 8 tick ++ toBytesLE 4 (all (·.satG)) ++ toBytesLE 4 (all (·.satM)) ++ toBytesLE 4 (all (·.satC))
    ++ toBytesLE 1 (bit (mask != 0) + flags) ++ zeroBytes 3 ++ toBytesLE 8 bytes ++ toBytesLE 2 (maxNat (u.rows.map (·.dmax)))
    ++ toBytesLE 2 (maxNat (u.rows.map fun x => x.row.learn.gs))
    ++ toBytesLE 4 (u.rows.filter fun x => x.exp != x.row.learn.exp).length ++ zeroBytes 16
    ++ per (·.satG) ++ per (·.satM) ++ per (·.satC)
    ++ ((List.range 8).flatMap fun e => toBytesLE 2 (maxNat ((u.rows.filter fun x => p.engineHere x.core == some e).map (·.dmax))))
    ++ zeroBytes 16

/-- Counters whose sums exceed their thresholds (R244); 0xFFFF_FFFF never is exceeded. -/
def saturationMask (l : Learn) (u : StepUpdate) : Nat :=
  let above := fun (f : PairUpdate → Bool) (thr : Nat) => thr != 2 ^ 32 - 1 && decide (thr < (u.pairs.filter f).length)
  bit (above (·.satG) l.thrG) + 2 * bit (above (·.satM) l.thrM) + 4 * bit (above (·.satC) l.thrC)

/-- LEARN_SATURATION (R244, R367). -/
def State.learnSaturation (s : State) (r : Run) (u : StepUpdate) (n mask : Nat) : State :=
  let sum := fun (f : PairUpdate → Bool) => toBytesLE 4 (u.pairs.filter f).length
  if mask = 0 then s
  else
    (s.setRun r.ref fun r => { r with saturated := true }).event 3 1 (sourceOf 1 r.lead) (some r.tick)
      (toBytesLE 8 n ++ sum (·.satG) ++ sum (·.satM) ++ sum (·.satC) ++ toBytesLE 1 mask)

/-- Whether a step boundary writes a learned image (R247): every EMIT_PERIOD-th of the run, and the one that ends it. -/
def Pattern.emits (p : Pattern) (steps : Nat) (ends : Bool) : Bool := ends || (p.learn.emit != 0 && steps % p.learn.emit == 0)

/-- The current codes, gradients, momentum and row states of a shard, as its gather stream carries them (R247; the layout is log 32's). -/
def learnedShard (p : Pattern) (n : Nat) : List Byte :=
  ((p.shardCores n).flatMap fun c => c.entries.flatMap fun e =>
      toBytesLE 1 (unsigned 8 e.code) ++ toBytesLE 1 (unsigned 8 e.grad) ++ toBytesLE 1 (unsigned 8 e.mom))
    ++ (p.shardCores n).flatMap fun c => c.rows.flatMap fun r => r.learn.encode

/-- A learned image begins: each hosted shard's codes and row states go to every other device of the run (R247, R290). -/
def State.gatherLearned (s : State) (r : Run) (p : Pattern) : State :=
  if !p.spansDevices then s
  else
    (s.otherNodes r).foldl (fun s node => p.hosted.foldl (fun s n =>
      s.streamFor r node (192 + n) 0 2 (gatherLine r.tag.toNat r.tick n 1 ++ learnedShard p n)) s) s

/-- What the checks of an update interval lead to at the step boundary: every failing entry is computed again; a core with an uncorrectable
word, or whose entry failed again, is fenced once the interval is complete (R242, R273, R439). -/
def State.mendUpdate (s : State) (r : Run) (faults : List TickFault) : State :=
  let faults := faults.map r.ownFault
  let residues := faults.filterMap fun f => match f with | .residue c => some c | _ => none
  let again := residues.eraseDups.filter fun c => decide (2 ≤ (residues.filter (· == c)).length)
  let s := faults.foldl (fun s f => match f with | .word c a b => s.fenceCore r.ref r.tick c a b | _ => s) s
  again.foldl (fun s c => s.fenceCore r.ref r.tick c [] []) s

/-- STEP_BOUNDARY (R234-R248): the update interval ends: new couplings and row states, fields and V rebuilt, LEARN_SATURATION,
the step record and the learned image, a hem, then row 9 of R158. It waits for the image and the shadow refresh of the update before it
(R248, R441). -/
def execStepBoundary (engine : Nat) (env : BoundaryEnv) (s : State) : Host.Outcome State Fault Refusal :=
  .next (s.whenLive fun s => s.withRun engine fun r p =>
    if !r.updating || r.imaging.isSome || !p.shadowed || r.ended.isSome then s
    else
      let steps := r.tick / max 1 p.stepTicks
      let n := p.learn.step0 + steps - 1
      let s := env.faults.foldl (fun s f => s.noteReplay r.ref r.tick (faultCheck f) (faultCore (r.ownFault f))) s
      let u := updateCores p n
      let p' := { p with cores := u.cores, shadowed := false }
      let s := { s with grid := { s.grid with patterns := modifyIf (fun x => x.id == p.id) (fun _ => p') s.grid.patterns } }
      let s := s.setRun r.ref fun r => { r with updating := false, replicas := r.replicas.map fun x => r.build p' x.spins }
      let mask := saturationMask p.learn u
      let s := s.learnSaturation r u n mask
      let ends := r.complete p || r.wants.contains .stop || (firstKill r.wants).isSome
      let emits := p.emits steps ends
      let bytes := if emits then (learnedImage s.mem p' (n + 1)).length else 0
      let fits := emits && decide (bytes ≤ 64 * r.blk.emitLines)
      let flags := 2 * bit fits + 4 * bit (emits && !fits) + 8 * bit ends
      let s := (s.ringPut r.ref (stepRecord p u n r.tick mask flags bytes)).setRun r.ref fun r =>
        { r with outNo := r.outNo + 1, imaging := if fits then some (n + 1) else none }
      let s := if fits then s.gatherLearned r p' else s
      ((((s.takeHem r.ref).correctAll r.ref r env.corrected).mendUpdate r env.faults).rowNine env.host r.ref).answerRead r.ref none)

/-- LEARNED_IMAGE_COMPLETE (R247, R248): the image stands at EMIT_ADDR; a run that waited for it retires. -/
def execLearnedImageComplete (engine : Nat) (s : State) : Host.Outcome State Fault Refusal :=
  .next (s.whenLive fun s => s.withRun engine fun r p =>
    match r.imaging with
    | none => s
    | some step =>
      let s := (s.writeDram r.blk.emit (learnedImage s.mem p step)).setRun r.ref fun r => { r with imaging := none }
      match r.ended with
      | some e => s.releaseRun r.ref e.1 e.2
      | none => s)

end Sys2Proof.Machine
end

