-- ==== Sys2Proof/Machine/Chain.lean ====
section
/-! DEFINITION. Copy engines: the lines they move (R400, R446) and the chains they run (R401). -/

namespace Sys2Proof.Machine

/-- Change copy engine c. -/
def State.setCopyEngine (s : State) (c : Nat) (f : CopyEngine → CopyEngine) : State :=
  { s with q := { s.q with engines := modifyAt f c s.q.engines } }

/-- Whether a range is software DRAM or lies in the host window. -/
def Mem.copyRange (m : Mem) (a n : Nat) : Bool := m.inSoft a n || decide (hostWindow ≤ a)

/-- Whether a line of a transfer translates; device addresses always do. -/
def State.lineTranslates (s : State) (v : HostView) (a : Nat) : Bool :=
  decide (a < hostWindow) || translates s.host.atsCache v (a - hostWindow)

/-- The translation of a host page is kept (R318, R341). -/
def State.keepTranslation (s : State) (a : Nat) : State :=
  if a < hostWindow then s
  else { s with host := { s.host with atsCache := insertAsc ((a - hostWindow) / 4096) s.host.atsCache } }

/-- Write one line of a transfer; a poisoned one as poison, to the host with the EP bit and all ones (R446). -/
def State.putLine (s : State) (pasid : Option Nat) (a : Nat) (bs : List Byte) (poison : Bool) : State :=
  if a < hostWindow then if poison then s.wakeChannels.store (.poison (a / 64)) else s.writeDram a bs
  else s.hostWrite pasid (a - hostWindow) (if poison then List.replicate 64 0xFF else bs) poison

/-- Move lines from src to dst; none left over when every line was applied, else the transfer stopped at a line whose host page
does not translate (R400). -/
def State.moveLines (s : State) (v : HostView) (pasid : Option Nat) (c : Nat) : Nat → Nat → Nat → State × Bool
  | 0, _, _ => (s, true)
  | n + 1, src, dst =>
    if !s.lineTranslates v src || !s.lineTranslates v dst then (s, false)
    else
      let poison := decide (src < hostWindow) && s.mem.linePoisoned (src / 64)
      let bs := readAny s.mem v src 64
      let s := if src < hostWindow then s.wakeChannels else s
      let s := ((s.keepTranslation src).keepTranslation dst).putLine pasid dst bs poison
      (s.setCopyEngine c fun e => { e with bytes := e.bytes + 64 }).moveLines v pasid c n (src + 64) (dst + 64)

/-- A chain link as it stands in DRAM (R401). -/
structure ChainLink where
  src  : Nat
  dst  : Nat
  len  : Nat
  next : Nat
  wait : Nat
  irq  : Bool
  tag  : Nat
  good : Bool
  deriving DecidableEq, Repr

/-- Read a link: good unless a reserved field is not zero, a field is no multiple of 64, or an address lies outside software DRAM
and the host window. -/
def readLink (m : Mem) (a : Nat) : ChainLink :=
  let g := fun off n => m.field (a + off) n
  { src := g 0 8, dst := g 8 8, len := g 0x10 8, next := g 0x18 8, wait := g 0x20 8, irq := natBit (g 0x28 1) 0, tag := g 0x30 8
    good := m.inSoft a 64 && a % 64 == 0 && !m.linePoisoned (a / 64) && decide (g 0x28 1 < 2) && g 0x29 7 == 0 && g 0x38 8 == 0
      && g 0 8 % 64 == 0 && g 8 8 % 64 == 0 && g 0x10 8 % 64 == 0
      && m.copyRange (g 0 8) (g 0x10 8) && m.copyRange (g 8 8) (g 0x10 8) }

/-- The owner queue's DONE_SEQ has reached a link's WAIT_SEQ (R401). -/
def State.waitMet (s : State) (owner : Nat) (l : ChainLink) : Bool :=
  l.wait == 0 || match s.queue owner with | some q => decide (l.wait ≤ q.doneSeq) | none => false

/-- A copy engine takes a link of a chain: running, waiting on WAIT_SEQ, or stopped on a bad link (R401). -/
def State.beginLink (s : State) (c a owner : Nat) : State :=
  let l := readLink s.mem a
  if !l.good then s.setCopyEngine c fun e => { e with state := 4, owner := owner, link := a, chain := none }
  else
    s.setCopyEngine c fun e =>
      { e with state := if s.waitMet owner l then 2 else 3, owner := owner, link := a, tag := l.tag, chain := some (a, owner) }

/-- A chain that waits for its turn on a copy engine begins its link. -/
def State.takeTurn (s : State) (c : Nat) : State :=
  let e := s.copyEngine c
  match e.chain with
  | some x => if e.state = 0 ∧ e.task.isNone then s.beginLink c x.1 x.2 else s
  | none => s

/-- A copy engine's task is over: a chain that waited for its turn begins. -/
def State.freeCopy (s : State) (c : Nat) : State :=
  (s.setCopyEngine c fun e => { e with task := none, state := if e.state = 1 then 0 else e.state }).takeTurn c

/-- Whether a task that a copy engine would take waits only for it, so that it comes before the chain's next link (R401). -/
def State.taskDue (s : State) (c : Nat) : Bool :=
  natBit (s.copyEngine c).cfg.force 0 && s.admitting && s.freeCopyEngine.isNone
    && s.q.tasks.any fun t => (t.opcode == 0x11 || t.opcode == 0x12) && s.isReady t

/-- CE_CHAIN_START (R401, R408): STATE where the engine takes no chains or runs one; RANGE where the first link lies outside
software DRAM or the owner queue does not exist. -/
def execCeChainStart (s : State) : Host.Outcome State Fault Refusal :=
  .next (s.run fun s => s.admin 0x0109 fun s =>
    let c := s.arg 0
    let a := s.arg 1
    let owner := s.arg 2
    if 4 ≤ c ∨ 1024 ≤ owner then (2, [], s)
    else
      let e := s.copyEngine c
      if natBit e.cfg.force 1 = false ∨ e.chain.isSome = true ∨ (s.queue owner).isNone = true then (3, [], s)
      else if s.mem.inSoft a 64 = false then (5, [], s)
      else if e.task.isSome then (0, [], s.setCopyEngine c fun e => { e with chain := some (a, owner) })
      else (0, [], s.beginLink c a owner))

/-- CE_CHAIN_STOP (R401, R408): ARG0 the link not completed, or 0. -/
def execCeChainStop (s : State) : Host.Outcome State Fault Refusal :=
  .next (s.run fun s => s.admin 0x010A fun s =>
    let c := s.arg 0
    if 4 ≤ c then (2, [], s)
    else
      let e := s.copyEngine c
      let at_ := match e.chain with | some x => x.1 | none => if e.state = 4 then e.link else 0
      (0, [(0, at_)], s.setCopyEngine c fun e => { e with chain := none, state := if e.task.isSome then e.state else 0 }))

/-- CHAIN_LINK_COMPLETE (R49, R401, R446): the link's last line is applied; the next link begins, after a task that waits for the engine,
or the chain ends. A link whose host page does not translate stops the chain (log 39). Copy engines stand still while the host cannot be reached. -/
def execChainLinkComplete (engine : Nat) (host : HostView) (s : State) : Host.Outcome State Fault Refusal :=
  .next (s.run fun s =>
    let e := s.copyEngine engine
    match e.chain with
    | none => s
    | some x =>
      if e.state ≠ 2 ∨ s.hostOpen = false ∨ s.copyPowered = false then s
      else
        let l := readLink s.mem x.1
        let pasid := (s.queue x.2).map (·.pasid)
        let moved := s.moveLines host pasid engine (l.len / 64) l.src l.dst
        let s := moved.1
        if !moved.2 then s.setCopyEngine engine fun e => { e with state := 4, chain := none }
        else
          let s := if l.irq then s.signal x.2 else s
          if l.next = 0 then s.setCopyEngine engine fun e => { e with state := 0, chain := none }
          else if s.taskDue engine then s.setCopyEngine engine fun e => { e with state := 0, chain := some (l.next, x.2) }
          else s.beginLink engine l.next x.2)

/-- CHAIN_WAIT_SATISFIED (R401): the owner queue's DONE_SEQ has reached WAIT_SEQ; or the task that a chain made room for is gone, and its
link begins (log 39). -/
def execChainWaitSatisfied (engine : Nat) (s : State) : Host.Outcome State Fault Refusal :=
  .next (s.whenLive fun s =>
    let e := s.copyEngine engine
    match e.chain with
    | some x =>
      if e.state = 3 ∧ s.waitMet x.2 (readLink s.mem x.1) = true then s.setCopyEngine engine fun e => { e with state := 2 }
      else if s.taskDue engine then s
      else s.takeTurn engine
    | none => s)

end Sys2Proof.Machine
end

