-- ==== Sys2Proof/Machine/Lifecycle.lean ====
section
/-! DEFINITION. The end of tasks, queues and sessions: QUEUE_DESTROY, guilt, hang and fence-cycle scans, TASK_CANCEL,
RUN_CONTROL, ENG_RELEASE, CHECKPOINT, retirement, detach and SESSION_ATTACH (R360-R362, R368-R372, R388, R399, R406,
R408-R416, R429, R432). -/

namespace Sys2Proof.Machine

/-! ### Resuming -/

/-- A PAUSED run continues from its boundary, bit for bit (R163, R409); over several devices the others are told (log 32). -/
def State.resumeRun (s : State) (v : HostView) (ref : TaskRef) (tell : Bool) : State :=
  match s.run? ref with
  | none => s
  | some r =>
    match s.pattern r.pattern with
    | none => s
    | some p =>
      let s := if tell && r.votes p then
          s.castVote { tag := r.tag, index := r.tick, slot := 0, kind := 2, value := 4, origin := s.nodeCode }
        else s
      s.proceed v ref

/-- s' where the run no longer is HELD in it, else s: a hold whose cause lasts raises nothing (R362). -/
def State.unlessHeld (s s' : State) (ref : TaskRef) : State :=
  match s'.run? ref with
  | some r => if (s'.engine r.lead).state = 6 then s else s'
  | none => s'

/-- The cause of a HELD run is examined again (R289, R362, R507): where it no longer holds, the run goes on or its start
proceeds; a launch that was voted down is voted again, in the next attempt, once the ARMs held give 1. -/
def State.reexamine (s : State) (v : HostView) (ref : TaskRef) : State :=
  match s.run? ref with
  | none => s
  | some r =>
    match s.pattern r.pattern, s.task ref with
    | some p, some t =>
      if (s.engine r.lead).state ≠ 6 then s
      else if !r.lost.isEmpty then s
      else if r.begun then s.unlessHeld (s.rowNine v ref) ref
      else
        match s.startHold v r p t.slot with
        | some c => s.setRunState r 6 c.1 c.2 0
        | none =>
          if r.armed then
            if s.launchVote r p = 1 then
              ((s.setRun ref fun r => { r with attempt := r.attempt + 1, voted := none }).castLaunch ref).decideLaunch v ref
            else s
          else if p.header.shards ≤ 1 then s.unlessHeld (s.launchOrArm v ref) ref
          else s.launchOrArm v ref
    | _, _ => s

/-- Runs whose engines meet a mask, by task. -/
def State.runsOn (s : State) (mask : Nat) : List TaskRef := (s.grid.runs.filter fun r => (r.mask &&& mask) != 0).map (·.ref)

/-- ENG_RELEASE (R362, R408): ARG0 the engines that left HELD. -/
def execEngRelease (host : HostView) (s : State) : Host.Outcome State Fault Refusal :=
  .next (s.run fun s => s.admin 0x0004 fun s =>
    if s.arg 0 ≥ 256 then (2, [], s)
    else
      let held := fun (s : State) (e : Nat) => natBit (s.arg 0) e && (s.engine e).state == 6
      let after := (s.runsOn (s.arg 0)).foldl (fun s ref => s.reexamine host ref) s
      (0, [(0, maskOf 8 fun e => held s e && (after.engine e).state != 6)], after))

/-! ### Stopping tasks (R411, R414) -/

/-- A run is stopped with a status (steps 3 and 4 of R411): at its next boundary while RUNNING, else at once; one that has not
begun tick 0 writes no results. -/
def State.stopRun (s : State) (ref : TaskRef) (status detail : Nat) : State :=
  match s.run? ref with
  | none => s.endTask ref status detail
  | some r =>
    if r.ended.isSome then s
    else if !r.begun then s.releaseRun ref status detail
    else if (s.engine r.lead).state = 3 then s.setRun ref fun r => { r with wants := r.wants ++ [.kill status detail] }
    else s.breakRun ref status detail 3

/-- A CHECKPOINT's request leaves the run it waits for (step 2 of R411). -/
def State.withdrawCheckpoint (s : State) (ref : TaskRef) : State :=
  { s with
    grid :=
      { s.grid with
        runs := s.grid.runs.map fun (r : Run) =>
          { r with wants := r.wants.filter fun w => match w with | .checkpoint t _ _ => t != ref | _ => true } } }

/-- A load that waits for its array phase is dropped (R412); an array phase is one step. -/
def State.dropLoad (s : State) (ref : TaskRef) : State :=
  { s with grid := { s.grid with loads := s.grid.loads.filter fun l => l.ref != ref } }

/-- Stop one task of a queue that is destroyed, reset or ended (R411 steps 2, 3 and 6). -/
def State.stopTask (s : State) (t : Task) (status : Nat) : State :=
  match t.phase with
  | .ending _ _ _ => s
  | .waiting => (s.breakSignal t).endTask t.ref status 0
  | .running =>
    if t.opcode = 1 then s.stopRun t.ref status 0
    else ((s.withdrawCheckpoint t.ref).dropLoad t.ref).endTask t.ref status 0

/-- Tasks of a queue, in admission order. -/
def State.tasksOf (s : State) (n : Nat) : List Task := s.q.tasks.filter fun t => t.ref.queue == n

/-- The random draws that tasks of a queue wait for are given up with them, and the copy engines they occupy are free. -/
def State.dropDraws (s : State) (n : Nat) : State :=
  let s :=
    { s with
      rng :=
        { s.rng with
          waiting := s.rng.waiting.filter fun w => match w with | .fill t => t.queue != n | _ => true } }
  (List.range 4).foldl (fun s c =>
    match (s.copyEngine c).task with
    | some t => if t.queue = n then s.freeCopy c else s
    | none => s) s

/-- The chains of a queue stop and are purged (step 6 of R411); answers how many. -/
def State.purgeChains (s : State) (n : Nat) : State × Nat :=
  let mine := fun (c : CopyEngine) => c.chain.isSome && (match c.chain with | some x => x.2 == n | none => false)
  ({ s with
      q :=
        { s.q with
          engines := s.q.engines.map fun c =>
            if mine c then { c with chain := none, state := if c.task.isSome then c.state else 0 } else c } },
    (s.q.engines.filter mine).length)

/-- Every task of a queue is stopped with a status and its chains are purged. -/
def State.stopAll (s : State) (n status : Nat) : State :=
  let s := (s.tasksOf n).foldl (fun s t => s.stopTask t status) s
  let r := s.purgeChains n
  (r.1.setQueue n fun q => { q with purged := q.purged + r.2 }).dropDraws n

/-- A queue goes to DESTROYING (R411): admission closes, descriptors not fetched or not admitted and sprouts in the lane are
dropped and counted, every task is stopped with the status. -/
def State.closeQueue (s : State) (n status : Nat) : State :=
  match s.queue n with
  | none => s
  | some q =>
    let dropped := (q.tail.toNat + 2 ^ 32 - q.head % 2 ^ 32) % 2 ^ 32 + q.fetched.length + q.lane.length
    let s := s.setQueue n fun q =>
      { q with state := .destroying, cause := 0, fetched := [], lane := [], hswap := none, retiredCount := 0, dropped := dropped,
               purged := 0 }
    let s :=
      { s with
        q :=
          { s.q with
            slots := modifyIf (fun t => t.bound == some n) (fun t => { t with bound := none, burst := 0 }) s.q.slots
            waiting := s.q.waiting.filter (· != n) } }
    s.stopAll n status

/-- Sum of a count over every queue. -/
def State.sumQueues (s : State) (f : Queue → Nat) : Nat := sumNat (s.q.queues.map f)

/-- A destroy or a session's END completes once its tasks have retired: the queues are FREE (step 7 of R411, R370). -/
def State.settleQueues (s : State) : State :=
  match s.host.wait with
  | .destroy n =>
    match s.queue n with
    | some q =>
      if (s.tasksOf n).isEmpty then
        { s with q := { s.q with queues := s.q.queues.filter fun x => x.num != n } }.finishMailbox 0
          [(0, q.retiredCount), (1, q.dropped), (2, q.purged)]
      else s
    | none => s
  | .attachEnd =>
    if s.q.tasks.isEmpty then
      { s with q := { s.q with queues := [] } }.finishMailbox 0
        [(0, s.host.cookie.toNat), (1, s.sumQueues (·.retiredCount)), (2, s.host.unwritten), (3, s.sumQueues (·.dropped))]
    else s
  | .none => s
  | .rng => s

/-- QUEUE_DESTROY (R408, R411). -/
def execQueueDestroy (s : State) : Host.Outcome State Fault Refusal :=
  .next (s.run fun s =>
    if !s.adminHolds 0x0102 then s
    else if !s.host.session then s.finishMailbox 4 []
    else
      match s.queue (s.arg 0) with
      | some q =>
        if q.state = QueueState.destroying then s.finishMailbox 3 []
        else
          let s := { s with host := { s.host with wait := .destroy q.num } }
          (s.closeQueue q.num 0x0101).settleQueues
      | none => if 1024 ≤ s.arg 0 then s.finishMailbox 2 [] else s.finishMailbox 3 [])

/-- Whether a task set to retire may do so: in a queue that is not ACTIVE, records are written in ascending SEQ within each kind
(step 5 of R411). -/
def State.mayRetire (s : State) (t : Task) : Bool :=
  match s.queue t.ref.queue with
  | some q =>
    q.state == .active
      || !(s.tasksOf q.num).any fun u => isSprout u.ref.seq == isSprout t.ref.seq && decide (u.ref.seq < t.ref.seq)
  | none => false

/-- TASK_RETIRE (R406, R411 step 5, R493): a task whose work is done writes its record and leaves the scoreboard; its engines take
a new sequencer image where they are due one. -/
def execTaskRetire (task : TaskRef) (host : HostView) (s : State) : Host.Outcome State Fault Refusal :=
  .next (s.whenLive fun s =>
    match s.task task with
    | some t =>
      match t.phase, s.queue task.queue with
      | .ending status detail fe, some q =>
        if s.mayRetire t && !s.fw.noCore then
          let writes := s.host.wait != .attachEnd || rangeTranslates s.host.atsCache host (q.recordAddr task.seq) 32
          ((s.reloadEngines (bitsOf 8 t.engines)).retire t status detail fe writes).settleQueues
        else s
      | _, _ => s
    | none => s)

/-! ### Guilt (R413-R416) -/

/-- A queue becomes guilty with cause 1 hang or 2 fence cycle, and is reset (R414): the descriptors below TAIL as it stands, and
the sprouts in the lane, are still admitted, to retire with the guilt status. -/
def State.makeGuilty (s : State) (n cause : Nat) : State :=
  match s.queue n with
  | none => s
  | some q =>
    let below := q.head + (q.tail.toNat + 2 ^ 32 - q.head % 2 ^ 32) % 2 ^ 32
    let s := s.setQueue n fun q => { q with state := .guilty, cause := cause, purgeTo := below }
    (s.stopAll n (if cause = 1 then 0x0102 else 0x0400)).noteWork n

/-- The RUN of a task and whether it is RUNNING after tick 0. -/
def State.runsNow (s : State) (t : Task) : Bool :=
  match s.run? t.ref with
  | some r => r.begun && (s.engine r.lead).state == 3
  | none => false

/-- The judgement of a task at the end of a hang interval (R413). -/
def State.judge (s : State) (t : Task) : Task :=
  let now := t.phase == .running && s.runsNow t
  let counts := now && t.wholeInterval && !s.q.hangReset && s.host.attached && t.progress == t.lastProgress
  { t with still := if counts then t.still + 1 else 0, lastProgress := t.progress, wholeInterval := now }

/-- HANG_INTERVAL (R413): the end of an interval. A task of an ACTIVE queue whose still count reaches HANG_WATCH makes its queue
guilty; HANG_WATCH 0 disables the watch. -/
def execHangInterval (s : State) : Host.Outcome State Fault Refusal :=
  .next (s.whenLive fun s =>
    let judged := s.q.tasks.map s.judge
    let s := { s with q := { s.q with tasks := judged, hangReset := false } }
    let guilty := if s.q.hangWatch = 0 then [] else
      (s.q.queues.filter fun q => q.state == .active
        && judged.any fun t => t.ref.queue == q.num && decide (s.q.hangWatch ≤ t.still)).map (·.num)
    guilty.foldl (fun s n => s.makeGuilty n 1) s)

/-- A FENCE_WAIT that waits, of an ACTIVE queue (R415): queue, stitch count of its registration, fence, value, SEQ. -/
def State.fenceWaits (s : State) : List (Nat × Nat × Nat × Nat × Nat) :=
  s.q.tasks.filterMap fun t =>
    match t.waitSince, s.fence t.pattern, s.queue t.ref.queue with
    | some c, some f, some q =>
      if t.phase = .waiting ∧ f.value < t.fenceValue ∧ q.state = .active then some (q.num, c, t.pattern, t.fenceValue, t.ref.seq)
      else none
    | _, _, _ => none

/-- Queues that hold an unretired FENCE_SIGNAL that would satisfy a wait. -/
def State.signallers (s : State) (w : Nat × Nat × Nat × Nat × Nat) : List Nat :=
  ((s.q.tasks.filter fun t => t.opcode == 0x20 && t.phase == .waiting && t.pattern == w.2.2.1 && decide (w.2.2.2.1 ≤ t.fenceValue)).map
    fun t => t.ref.queue).eraseDups

/-- Queues reached from some in at most k steps of the wait-for graph. -/
def waitReach (edges : List (Nat × Nat)) : Nat → List Nat → List Nat
  | 0, ns => ns
  | k + 1, ns => waitReach edges k ((ns ++ (edges.filter fun e => ns.contains e.1).map (·.2)).eraseDups)

/-- The queue to be reset for a cycle: among waiting queues on a cycle the one that registered last, a tie to the higher number
(R415). -/
def State.cycleVictim (s : State) : Option Nat :=
  let ws := s.fenceWaits
  let waiting := ws.map (·.1)
  let edges := ws.flatMap fun w => ((s.signallers w).filter waiting.contains).map fun b => (w.1, b)
  let next := fun (n : Nat) => (edges.filter fun e => e.1 == n).map (·.2)
  let onCycle := ws.filter fun w => (waitReach edges ws.length (next w.1)).contains w.1
  match onCycle with
  | [] => none
  | w :: rest => some (rest.foldl (fun (b : Nat × Nat × Nat × Nat × Nat) x =>
      if b.2.1 < x.2.1 ∨ (b.2.1 = x.2.1 ∧ b.1 < x.1) then x else b) w).1

/-- Search until no cycle is left (R415). -/
def State.breakCycles : Nat → State → State
  | 0, s => s
  | k + 1, s => match s.cycleVictim with | some n => State.breakCycles k (s.makeGuilty n 2) | none => s

/-- FENCE_CYCLE_SCAN (R415, R490): the firmware's search of the wait-for graph. -/
def execFenceCycleScan (s : State) : Host.Outcome State Fault Refusal :=
  .next (s.whenLive fun s =>
    if s.fw.noCore || s.fw.running.isNone then s
    else State.breakCycles s.q.queues.length { s with fw := { s.fw with scanned := true } })

/-- ENGINE_RESET_TIMEOUT (step 4 of R414): a run that guilt stops and that reaches no boundary: its tick is dropped, it ends as of
its last sealed tick, and its engines go to IDLE with no pattern. -/
def execEngineResetTimeout (engine : Nat) (s : State) : Host.Outcome State Fault Refusal :=
  .next (s.whenLive fun s =>
    match s.runOf engine with
    | some r =>
      match firstKill r.wants with
      | some (status, detail) =>
        if status = 0x0102 ∨ status = 0x0400 then
          let s := s.setRun r.ref fun r =>
            { r with ticking := false, work := [], done := [], updating := false, imaging := none, offers := [], records := [] }
          (s.breakRun r.ref status detail 3).unload r.engines
        else s
      | none => s
    | none => s)

/-! ### TASK_CANCEL and RUN_CONTROL (R409, R410) -/

/-- Whether a queue has admitted a SEQ. -/
def Queue.knows (q : Queue) (seq : Nat) : Bool :=
  if isSprout seq then decide (2 ^ 63 < seq) && decide (seq ≤ 2 ^ 63 + q.admittedSprouts)
  else decide (0 < seq) && decide (seq ≤ q.admitted)

/-- TASK_CANCEL (R408, R410, R416). -/
def execTaskCancel (s : State) : Host.Outcome State Fault Refusal :=
  .next (s.run fun s => s.admin 0x0105 fun s =>
    let ref : TaskRef := { queue := s.arg 0, seq := s.arg 1 }
    match s.queue ref.queue with
    | none => (2, [], s)
    | some q =>
      if !q.knows ref.seq then (2, [], s)
      else if q.state = QueueState.guilty then (3, [], s)
      else
        match s.task ref with
        | none => (3, [], s)
        | some t =>
          match t.phase, s.run? ref with
          | .waiting, _ => (0, [], s.endTask ref 0x0100 0xFFFFFFFF)
          | .running, some r =>
            if !r.begun && (s.engine r.lead).state == 6 then (0, [], s.releaseRun ref 0x0100 0xFFFFFFFF) else (3, [], s)
          | _, _ => (3, [], s))

/-- A RUN_CONTROL command on the run it names, in an ACTIVE queue; STATE where there is none (R409, R416). -/
def State.runControl (s : State) (f : Run → Pattern → Nat → State → CmdWork) : State :=
  s.admin 0x0106 fun s =>
    let ref : TaskRef := { queue := s.arg 0, seq := s.arg 1 }
    match s.run? ref, s.queue ref.queue with
    | some r, some q =>
      match s.pattern r.pattern with
      | some p =>
        if q.state = QueueState.active ∧ r.ended.isNone = true then
          if s.arg 2 ≥ 4 then (2, [], s) else f r p (s.engine r.lead).state s
        else (3, [], s)
      | none => (3, [], s)
    | _, _ => (3, [], s)

/-- RUN_CONTROL, pause (R409, R429, R432). -/
def execRunPause (s : State) : Host.Outcome State Fault Refusal :=
  .next (s.run fun s => if s.arg 2 % 4 ≠ 0 then s else s.runControl fun r p st s =>
    let ck := s.arg 3
    if !r.begun || (st != 3 && st != 4) then (3, [], s)
    else if ck % 64 ≠ 0 then (2, [], s)
    else if ck ≠ 0 ∧ s.mem.inSoft ck (checkpointLength r p) = false then (5, [], s)
    else
      let s := s.setRun r.ref fun r => { r with wants := r.wants ++ [.pause 1 ck] }
      (0, [], if st = 4 then s.rowNine noHost r.ref else s))

/-- RUN_CONTROL, resume (R409). -/
def execRunResume (host : HostView) (s : State) : Host.Outcome State Fault Refusal :=
  .next (s.run fun s => if s.arg 2 % 4 ≠ 1 then s else s.runControl fun r _ st s =>
    if st = 5 ∧ (s.engine r.lead).pauseKind = 1 then (0, [], s.resumeRun host r.ref true) else (3, [], s))

/-- RUN_CONTROL, stop (R409); action 3 is no action and returns BAD_ARG here. -/
def execRunStop (s : State) : Host.Outcome State Fault Refusal :=
  .next (s.run fun s => if s.arg 2 % 4 < 2 then s else s.runControl fun r _ st s =>
    if s.arg 2 ≠ 2 then (2, [], s)
    else if !r.begun then
      if st = 6 then (0, [], s.releaseRun r.ref 0x0100 0xFFFFFFFF) else (3, [], s)
    else if st = 3 then (0, [], s.setRun r.ref fun r => { r with wants := r.wants ++ [.stop] })
    else if st = 4 ∨ st = 5 then (0, [], s.breakRun r.ref r.doneStatus 0 2)
    else (3, [], s))

/-! ### CHECKPOINT (R386, R388) -/

/-- CHECKPOINT (R388): a PAUSED target is written at once, a STARVED one at its boundary, which it stands at; a RUNNING one at its
next boundary. A target HELD after tick 0 is refused under TARGET_SEQ (log 37). -/
def execCheckpoint (task : TaskRef) (s : State) : Host.Outcome State Fault Refusal :=
  .next (s.run fun s => s.dispatchBlock task 0x0013 fun t q b s =>
    let target : TaskRef := { queue := fieldOf b 0 2, seq := fieldOf b 8 8 }
    let mode := fieldOf b 2 1
    let dst := fieldOf b 0x10 8
    let lines := fieldOf b 0x18 8
    let run := s.run? target
    let st := match run with | some r => (s.engine r.lead).state | none => 0
    let usable := match run with
      | some r => r.begun && r.ended.isNone && decide (3 ≤ st) && decide (st ≤ 5) && (firstKill r.wants).isNone
      | none => false
    let room := match run.bind (fun r => (s.pattern r.pattern).map fun p => checkpointLength r p) with
      | some n => decide (n ≤ 64 * lines)
      | none => false
    match firstBlockFault [(0, (match s.queue target.queue with | some x => x.pasid != q.pasid | none => true)),
      (2, decide (2 ≤ mode)), (3, fieldOf b 3 5 != 0), (8, !usable), (0x10, dst % 64 != 0), (0x18, !room)] with
    | some d => s.endTask task 0x0200 d
    | none =>
      match s.addressFault q t [(0x10, dst, 64 * lines, true)] with
      | some d => s.endTask task 0x0201 d
      | none =>
        if hostWindow ≤ dst then s.endTask task 0x0201 (blockDetail 0x10)
        else if st = 5 then ((s.writeCheckpoint target dst).endTask task 0 0)
        else
          let s := s.setTask task fun t => { t with phase := .running }
          let s := s.setRun target fun r => { r with wants := r.wants ++ [.checkpoint task dst (mode == 1)] }
          if st = 4 then s.rowNine noHost target else s)

/-! ### Sprout lane -/

/-- SPROUT_ACK (R160, R376, R399): a run STARVED on its lane takes the write into account as it arrives; what its next tick then reads of
host memory is the command's (log 5). -/
def execSproutAck (queue : Nat) (value : Word) (host : HostView) (s : State) : Host.Outcome State Fault Refusal :=
  .next (s.run fun s => s.doorbell queue fun _ s =>
    let s := s.setQueue queue fun q => { q with sproutAck := value }
    let waiting := s.grid.runs.filter fun r =>
      r.ref.queue == queue && (s.engine r.lead).state == 4 && r.starved.contains 4
        && (s.hostOpen || r.blk.kind == 0 || decide (r.blk.input < hostWindow))
    waiting.foldl (fun s r => s.rowNine host r.ref) s)

/-! ### Sessions (R368-R372) -/

/-- Every run that is not PAUSED or HELD pauses with PAUSE_KIND 2 at its next boundary; one STARVED on a ring in host memory stays
so (R49, R369, R372). -/
def State.pauseAll (s : State) : State :=
  s.grid.runs.foldl (fun s r =>
    let st := (s.engine r.lead).state
    let hostStarved := st == 4 && r.blk.kind != 0 && r.starved.any (· < 3) && decide (hostWindow ≤ r.blk.input)
    if r.ended.isSome || hostStarved || decide (5 ≤ st) then s
    else
      let s := s.setRun r.ref fun r => { r with wants := r.wants ++ [.pause 2 0] }
      if st = 4 then s.rowNine noHost r.ref else s) s

/-- A detach (R49, R369, R372): dispatch and admission stop, ENABLE in force becomes 0, every still count is reset, and runs
pause. -/
def State.detach (s : State) : State :=
  if !s.host.session || !s.host.attached then s
  else
    { s with host := { s.host with attached := false, evtOff := true }, q := { s.q with hangReset := true } }.pauseAll

/-- A new session begins: its cookie (R368) is the count of sessions and a draw, or the stitch count while random output is not
available (R508, log 12). -/
def State.newSession (s : State) : State :=
  let draw := if s.rng.state = 1 then
      let d := s.drawBytes 0 4
      (bytesLE d.1, d.2.countCall 0)
    else (s.cnt.stitch % 2 ^ 32, s)
  let s := draw.2
  let n := s.host.begun + 1
  { s with
    host :=
      { s.host with session := true, attached := true, begun := n, cookie := BitVec.ofNat 64 (n % 2 ^ 32 * 2 ^ 32 + draw.1) } }

/-- ENABLE in force returns to its staged value (R370). -/
def HostPort.restoreRing (h : HostPort) : HostPort :=
  let f := h.evtBase.force
  { h with evtOff := false
           evtBase := { h.evtBase with force := f - 16 * natBits f 4 1 + 16 * natBits h.evtBase.staged 4 1 } }

/-- The event ring is in force again as it was committed. -/
def State.ringBack (s : State) : State := { s with host := s.host.restoreRing }

/-- The held records of one queue: written in sequence order, then the words that advanced, then the vectors (R370, R406). -/
def State.deliverRecords (s : State) (n : Nat) (hs : List HeldRecord) : State :=
  let ordered := hs.foldl (fun (acc : List HeldRecord) h =>
    (acc.filter fun x => decide (x.seq < h.seq)) ++ [h] ++ acc.filter fun x => decide (h.seq ≤ x.seq)) []
  let s := ordered.foldl (fun s h => s.writeRecord { h with signal := false }) s
  let s := match s.queue n with
    | some q =>
      let s := if hs.any fun h => !isSprout h.seq && decide (h.seq ≤ q.doneSeq) then
          s.hostWrite (some q.pasid) q.doneAddr (toBytesLE 8 q.doneSeq) else s
      if hs.any fun h => isSprout h.seq && decide (h.seq ≤ 2 ^ 63 + q.sproutDone) then
        s.hostWrite (some q.pasid) (q.doneAddr + 8) (toBytesLE 8 q.sproutDone) else s
    | none => s
  (ordered.filter (·.signal)).foldl (fun s h => s.signal h.queue) s

/-- Every held record is delivered, queue by queue; one whose area does not translate counts as unwritten where `check`
is set (R370). -/
def State.deliverAll (s : State) (v : HostView) (check : Bool) : State :=
  let all := s.host.heldRecords
  let good := fun (h : HeldRecord) => !check || rangeTranslates s.host.atsCache v h.addr 32
  let lost := (all.filter fun h => !good h).length
  let s := { s with host := { s.host with heldRecords := [], unwritten := s.host.unwritten + lost } }
  (List.range 1024).foldl (fun s n =>
    match all.filter fun h => h.queue == n && good h with
    | [] => s
    | hs => s.deliverRecords n hs) s

/-- A detach pause that has not landed is dropped when the session resumes (R370; log 38). -/
def State.dropDetachPauses (s : State) : State :=
  { s with
    grid :=
      { s.grid with
        runs := s.grid.runs.map fun (r : Run) =>
          { r with wants := r.wants.filter fun w => match w with | .pause k _ => k != 2 | _ => true } } }

/-- RESUME of a session (R370-R372): held records, held events, runs with PAUSE_KIND 2, holds examined again. A run that another
device's detach paused waits for that device (R371, log 38). -/
def State.resumeSession (s : State) (v : HostView) : State :=
  let s := s.deliverAll v false
  let s := s.ringBack
  let s := (s.deliverHeld s.host.held.length).dropDetachPauses
  s.grid.runs.foldl (fun s r =>
    let g := s.engine r.lead
    if g.state = 5 ∧ g.pauseKind = 2 then s.resumeRun v r.ref true
    else if g.state = 6 then s.reexamine v r.ref
    else s) s

/-- Another host takes the device (R370): every run, task and queue goes without a write to the host, every engine to IDLE with
no pattern, software DRAM is fresh. Answers the tasks discarded. -/
def State.discardSession (s : State) : State × Nat :=
  let n := s.q.tasks.length
  let s := s.grid.runs.foldl (fun s r => s.leaveRun r.ref) s
  let s := s.unload (List.range 8)
  let free := fun (e : Engine) =>
    { e with state := if e.state = 0 then 0 else 1, cause := 0, detail := 0, pauseKind := 0, progress := 0, pattern := none, task := none }
  let tags := s.grid.runs.map (·.tag)
  let mine := fun (a : ArmMsg) => tags.contains a.tag && a.origin == s.nodeCode
  let s :=
    { s with
      grid := { s.grid with engines := s.grid.engines.map free, patterns := [], loads := [], runs := [] }
      q :=
        { s.q with
          queues := [], tasks := [], waiting := []
          slots := s.q.slots.map fun (t : Slot) => { t with bound := none, burst := 0 }
          engines := s.q.engines.map fun (c : CopyEngine) => { c with state := 0, task := none, chain := none } }
      rng := { s.rng with waiting := s.rng.waiting.filter fun w => match w with | .fill _ => false | _ => true }
      nl := { s.nl with arms := s.nl.arms.filter fun a => !mine a }
      host := { s.host with heldRecords := [] } }
  (s.store (.fresh 0 (s.mem.softTop / 64)), n)

/-- Whether the session held is the caller's: attached, or detached with its cookie (R370). -/
def State.sameSession (s : State) : Bool := s.host.attached || s.arg 0 == s.host.cookie.toNat

/-- SESSION_ATTACH (R361, R370), both rows: f continues a session that is the caller's. -/
def State.attach (s : State) (f : State → State) : State :=
  if s.arg 1 ≥ 2 then s.finishMailbox 2 []
  else
    let done := fun (n : Nat) (s : State) => s.finishMailbox 0 [(0, s.host.cookie.toNat), (1, 0), (2, n), (3, 0)]
    if !s.host.session then done 0 s.newSession.ringBack
    else if s.sameSession then f s.detach.newSession
    else
      let d := s.discardSession
      done d.2 d.1.newSession.ringBack

/-- SESSION_ATTACH with MODE RESUME, and with the modes that are none (R370). -/
def execSessionAttachResume (host : HostView) (s : State) : Host.Outcome State Fault Refusal :=
  .next (s.run fun s =>
    if s.arg 1 % 4 = 1 ∨ s.adminHolds 0x0002 = false then s
    else s.attach fun s =>
      let n := s.q.queues.length
      (s.resumeSession host).finishMailbox 0 [(0, s.host.cookie.toNat), (1, n), (2, 0), (3, 0)])

/-- SESSION_ATTACH with MODE END (R370): every queue is closed with HOST_DETACHED; the command completes when every task has
retired. -/
def execSessionAttachEnd (host : HostView) (s : State) : Host.Outcome State Fault Refusal :=
  .next (s.run fun s =>
    if s.arg 1 % 4 ≠ 1 ∨ s.adminHolds 0x0002 = false then s
    else s.attach fun s =>
      let s := { s with host := { s.host with wait := .attachEnd, unwritten := 0 } }
      let s := s.deliverAll host true
      let s := s.ringBack
      let s := (s.deliverHeld s.host.held.length).dropDetachPauses
      ((s.q.queues.map (·.num)).foldl (fun s n => s.closeQueue n 0x0500) s).settleQueues)

end Sys2Proof.Machine
end

