-- ==== Sys2Proof/Machine/Link.lean ====
section
/-! DEFINITION. Joining devices: ports (R52, R53, R275, R280-R283, R308, R309), the graph and the stitch domain (R283-R287),
losses and rehosts (R298-R303), and the CONTROL messages (R278, R288-R290, R295-R299). -/

namespace Sys2Proof.Machine

/-! ### Port states -/

/-- STATE of a trained port: 3 once both ends have node numbers and neither clashes with this device's, else 4 (R282, R283). -/
def State.portLevel (s : State) (p : Port) : Nat :=
  match s.nl.node, p.peerNode with
  | some n, some m => if n = m || s.selfClash then 4 else 3
  | _, _ => 4

/-- A port goes back to training with its peer kept (R280, R283). -/
def Port.retrain (p : Port) : Port :=
  { p with state := 2, downs := p.downs + 1, failures := 0, resends := 0, retraining := true, width4 := p.lanes4 }

/-- Trained ports take the STATE that node numbers and clashes give them, and a change is announced (R282, R283). While this device's own
number clashes every port stays in STATE 4; when the clash ends the ports train again to STATE 3. -/
def State.levelPorts (s : State) : State :=
  let clash := s.selfClash
  let ended := s.nl.clashed && !clash
  let next := s.nl.ports.map fun p =>
    if p.state = 3 ∨ p.state = 4 then
      if ended && p.state == 4 && s.portLevel p == 3 then p.retrain else { p with state := s.portLevel p }
    else p
  let changed := next != s.nl.ports
  let s := { s with nl := { s.nl with ports := next, clashed := clash } }
  if changed then s.announce else s

/-- LINK to the peer on a port (R278). -/
def State.sendLink (s : State) (i : Nat) : State :=
  s.sendControl i (.link { unit := s.nv.fuses.unitId, node := s.nodeCode, port := i, latency := (s.port i).latency })

/-! ### The stitch domain (R287) -/

/-- Nodes this device reaches over the graph, itself among them. -/
def State.reached (s : State) : List Nat :=
  match s.nl.node with
  | some n => reachIn s.edges 16 [n]
  | none => []

/-- The root followed stays while it is reached and without a clash; else the lowest node reached follows, without a step. -/
def State.keepRoot (s : State) : State :=
  let ok := fun (n : Nat) => !s.clashes.contains n
  match s.nl.node, s.nl.root with
  | none, _ => { s with nl := { s.nl with root := none } }
  | some _, some r =>
    if s.reached.contains r && ok r then s
    else { s with nl := { s.nl with root := (List.range 16).find? fun n => s.reached.contains n && ok n } }
  | some n, none => if ok n then { s with nl := { s.nl with root := some n } } else s

/-! ### Losses (R298, R299, R303) -/

/-- Nodes that this device reaches over links that are up or retrain with their peer kept (R280). -/
def State.keptReach (s : State) : List Nat :=
  match s.nl.node with
  | some n => reachIn s.keptEdges 16 [n]
  | none => []

/-- Nodes of a run that this device still reaches. -/
def State.partOf (s : State) (r : Run) : List Nat := r.launched.filter fun n => s.keptReach.contains n && !r.lost.contains n

/-- Whether this device's part of a run may continue: more than half of the devices that launched it, or exactly half with the
lowest launch node (R299). -/
def State.continues (s : State) (r : Run) : Bool :=
  let k := (s.partOf r).length
  let low := (List.range 16).find? fun n => r.launched.contains n
  decide (r.launched.length < 2 * k)
    || (decide (r.launched.length = 2 * k) && match low with | some n => (s.partOf r).contains n | none => false)

/-- The tick in progress is refused and its moves are discarded; an update interval is abandoned (R298, R303). -/
def Run.abandonTick (r : Run) : Run :=
  { r with
    ticking := false
    work := []
    done := []
    redo := []
    offers := []
    records := []
    updating := false
    held := false
    heldNext := false
    late := 0
    clock := .start }

/-- A node is lost to a run: the run stops. A pause, stop or destroy that waits takes effect at once; a part that may not
continue goes to HELD with cause SHARD_MISSING (R298, R299, R303). -/
def State.loseFor (s : State) (n : Nat) (ref : TaskRef) : State :=
  match s.run? ref with
  | none => s
  | some r =>
    if !r.begun || r.ended.isSome || !r.nodes.contains n then s
    else
      let s := s.setRun ref fun r => { r.abandonTick with lost := addNew n r.lost, nodes := r.nodes.filter (· != n) }
      match s.run? ref, firstKill r.wants, wantedPause r.wants with
      | none, _, _ => s
      | some _, some k, _ => s.breakRun ref k.1 k.2 3
      | some r, none, w =>
        if r.wants.contains .stop then s.breakRun ref r.doneStatus 0 2
        else
          match w with
          | some x =>
            (x.2.foldl (fun s a => s.writeCheckpoint ref a) (s.pauseRun ref x.1)).setRun ref fun r =>
              { r with noRehost := true, wants := r.wants.filter fun y => match y with | .pause _ _ => false | _ => true }
          | none => if s.continues r || (s.engine r.lead).state == 6 then s else s.holdRun ref 6 0

/-- A node is lost to every run it takes part in; a run not yet launched finds its shards missing (R298, R303). -/
def State.loseNode (s : State) (n : Nat) : State :=
  let begun := fun (tag : DWord) => s.grid.runs.any fun r => r.tag == tag && r.begun
  let s := { s with nl := { s.nl with arms := s.nl.arms.filter fun a => a.origin != n || begun a.tag } }
  s.grid.runs.foldl (fun s r => s.loseFor n r.ref) s

/-- This device detects a loss: PEER_LOST is flooded and raised (R298). -/
def State.detectLoss (s : State) (port n : Nat) : State :=
  let m : LostMsg := { lost := n, detector := s.nodeCode, stitch := BitVec.ofNat 64 s.cnt.stitch }
  let s : State := { s with nl := { s.nl with lost := addNew m s.nl.lost } }
  let s := s.flood none (.peerLost m)
  (s.event 6 1 (sourceOf 3 port) none (toBytesLE 1 n ++ toBytesLE 1 s.nodeCode ++ zeroBytes 6 ++ toBytesLE 8 s.cnt.stitch)).loseNode n

/-- Other nodes of the runs here that have begun. -/
def State.runPeers (s : State) : List Nat :=
  ((s.grid.runs.filter (·.begun)).flatMap fun r => r.nodes.filter fun n => some n != s.nl.node).eraseDups

/-- A run's tick in progress is refused because a link on its routes went down: its slots that have not sealed run again with the
same uniforms over the new routes (R285). -/
def State.reroute (s : State) (ref : TaskRef) : State :=
  match s.run? ref with
  | none => s
  | some r =>
    let routes := routesAmong s.keptEdges r.nodes
    if !r.begun || r.routes.all s.keptEdges.contains then s
    else
      let s := s.setRun ref fun r => { r with routes := routes }
      let open_ := r.work.filter fun w => !w.sealed
      if open_.isEmpty then s
      else
        let s := (s.noteReplay ref r.tick 5 none).setRun ref fun r =>
          { r with work := r.work.filter (·.sealed), ticking := r.ticking && (decide (0 < r.done.length) || r.work.any (·.sealed)) }
        open_.foldl (fun s w =>
          let s := s.dropVotes r w.tick w.slot
          match r.redoOf w.slot with
          | some x => s.setRedo ref { x with tries := x.tries + 1 }
          | none => s.setRedo ref { slot := w.slot, noise := w.noise, refusals := 0, mended := false, checking := false, tries := 1 }) s

/-- The graph may have changed: nodes of runs toward which every port is detached are lost, a retrain that keeps its peer losing nothing;
ticks over a link that went down are refused; the root is chosen again (R280, R284, R285, R287, R298). -/
def State.graphChanged (s : State) (port : Nat) : State :=
  let gone := s.runPeers.filter fun n => !s.keptReach.contains n
  let s := gone.foldl (fun s n => s.detectLoss port n) s
  (s.grid.runs.foldl (fun s r => s.reroute r.ref) s).keepRoot

/-! ### Detachment and training -/

/-- A port detaches (R53): the peer, its frames and its streams are gone. An enabled port shows ABSENT, also where NLn_PRSNT_N is
still low: the manual names no code for a present peer without signal (log 36, DESIGN CHOICE). -/
def State.detachPort (s : State) (i : Nat) : State :=
  let p := s.port i
  let up := decide (2 ≤ p.state) && decide (p.state ≤ 4)
  let s := s.setPort i fun p =>
    { p with state := if p.enable then 1 else 0, lanes := 0, slow := false, peerNode := none, peerPort := 0, peerUnit := 0,
             latency := 0, downs := if up then p.downs + 1 else p.downs, sendSeq := 0, txq := [], replay := [], owes := false,
             recvSeq := 0, dropping := false, failures := 0, resends := 0, retraining := false }
  let s := { s with nl := { s.nl with streams := s.nl.streams.filter fun x => x.port != i } }
  (if p.state = (s.port i).state then s else s.announce).levelPorts.graphChanged i

/-- A port begins to train (R52, R275); its power domain wakes. -/
def State.trainPort (s : State) (i : Nat) : State :=
  let s := (s.setPort i fun p => { p with state := 2, width4 := p.lanes4 }).announce
  s.wakeDomain (107 + i)

/-- NL_PRESENT_DEBOUNCED (R39, R52): PRSNT; with ENABLE 1 training begins without host action, during start-up once the hub firmware
runs. -/
def execNlPresentDebounced (port : Nat) (s : State) : Host.Outcome State Fault Refusal :=
  .next (s.whenLive fun s =>
    if 4 ≤ port then s
    else
      let s := s.setPort port fun p => { p with prsnt := true }
      if s.mayTrain (s.port port) then s.trainPort port else s)

/-- The lanes at which a port trains: 8, or 4 with LANES4 or where one of lanes 4-7 fails; 0 where neither width is reached
(R275). -/
def trainedLanes (lanes4 : Bool) (good : List Nat) : Nat :=
  if !lanes4 && (List.range 8).all good.contains then 8 else if (List.range 4).all good.contains then 4 else 0

/-- What a device that has reset has said before counts no more: its messages begin anew (R283, R298). -/
def State.forgetUnit (s : State) (unit : DWord) : State :=
  { s with
    nl :=
      { s.nl with
        heard := s.nl.heard.filter fun h => h.msg.unit != unit
        flooded := s.nl.flooded.filter fun k => !(k.code == 8 && k.tag == unit.toNat) } }

/-- NL_PORT_TRAINED (R275, R280, R281, R298, R308, R460): the port, whose domain is ON, comes up at 8 or 4 lanes, SLOW above 96 ns, or goes to FAULT. A
retrain keeps the peer and loses no frame; a peer that announces a new session is lost to its runs. -/
def execNlPortTrained (port : Nat) (found : PortTraining) (s : State) : Host.Outcome State Fault Refusal :=
  .next (s.whenLive fun s =>
    let p := s.port port
    if 4 ≤ port ∨ p.state ≠ 2 ∨ (s.domain (107 + port)).state ≠ 2 then s
    else
      let lanes := trainedLanes p.width4 found.lanesGood
      if lanes = 0 then ((s.detachPort port).setPort port fun p => { p with state := 5 }).announce
      else
        let node := if found.peer.node < 16 then some found.peer.node else none
        let kept := p.retraining && !found.newSession
        let s := s.setPort port fun p =>
          { p with state := 4, lanes := lanes, latency := found.latency, slow := decide (96 < found.latency), peerNode := node,
                   peerPort := found.peer.port, peerUnit := found.peer.unit, retraining := false, failures := 0, resends := 0, dropping := false,
                   sendSeq := if kept then p.sendSeq else 0, recvSeq := if kept then p.recvSeq else 0,
                   txq := if kept then p.txq else [], replay := if kept then p.replay else [], owes := kept }
        let s := if found.newSession then s.forgetUnit found.peer.unit else s
        let s := (s.setPort port fun p => { p with state := s.portLevel p }).announce
        let s := (s.sendLink port).levelPorts
        let s := if kept then s.resend port else s
        let s := match node with
          | some n => if found.newSession && s.runPeers.contains n then s.detectLoss port n else s
          | none => s
        s.graphChanged port)

/-- NL_PORT_DETACH (R53, R281): PRSNT_N went high, after which PRSNT reads 0, or the lanes lost signal for 10 ms, after which PRSNT
reads as the pin stands. -/
def execNlPortDetach (port : Nat) (prsntHigh : Bool) (s : State) : Host.Outcome State Fault Refusal :=
  .next (s.whenLive fun s =>
    if 4 ≤ port then s else (s.setPort port fun p => { p with prsnt := p.prsnt && !prsntHigh, goneAt := if prsntHigh then s.cnt.stitch else p.goneAt }).detachPort port)

/-- RETRAIN_TIMEOUT (R280): a retrain that has not finished within 5 ms is a detachment. -/
def execRetrainTimeout (port : Nat) (s : State) : Host.Outcome State Fault Refusal :=
  .next (s.whenLive fun s => if port < 4 ∧ (s.port port).state = 2 ∧ (s.port port).retraining = true then s.detachPort port else s)

/-- NL_CTRL_WRITE (R53, R275): LANES4 for the next training; ENABLE 0 turns the port off, ENABLE 1 trains a port with a peer. -/
def execNlCtrlWrite (port : Nat) (value : Word) (s : State) : Host.Outcome State Fault Refusal :=
  .next (s.run fun s =>
    if !s.hostUp || !s.boot.ready || decide (4 ≤ port) then s
    else
      let on := natBit value.toNat 0
      let s := s.setPort port fun p => { p with lanes4 := natBit value.toNat 1, enable := on }
      let p := s.port port
      if !on then s.detachPort port
      else if p.state = 2 ∨ p.state = 3 ∨ p.state = 4 then s
      else if p.prsnt && s.board.pcieRef then s.trainPort port
      else if p.state = 1 then s
      else (s.setPort port fun p => { p with state := 1 }).announce)

/-- A port goes back to training and keeps its peer for 5 ms (R280). -/
def State.retrain (s : State) (i : Nat) : State := ((s.setPort i Port.retrain).announce).graphChanged i

/-! ### Node numbers, clashes and the graph -/

/-- NODE_SET (R282, R361): refused while a run over several shards is here. -/
def execNodeSet (via : Via) (s : State) : Host.Outcome State Fault Refusal :=
  .next (s.run fun s => s.command via .nodeSet 0x0005 (fun _ => true) fun arg s =>
    let n := arg 0
    if 16 ≤ n ∧ n ≠ 0xFF then (2, [], s)
    else if s.grid.runs.any fun r => match s.pattern r.pattern with | some p => decide (1 < p.header.shards) | none => false then
      (3, [], s)
    else
      let s := { s with nl := { s.nl with node := if n = 0xFF then none else some n, root := none } }
      let s := s.levelPorts.announce
      (0, [], ((List.range 4).foldl (fun s i => if 3 ≤ (s.port i).state ∧ (s.port i).state ≤ 4 then s.sendLink i else s) s).keepRoot))

/-- GET_INFO (R361; bit 38 by R283). -/
def execGetInfo (via : Via) (s : State) : Host.Outcome State Fault Refusal :=
  .next (s.run fun s => s.command via .getInfo 0x0001 (fun _ => true) fun _ s =>
    let version := match s.fw.running with | some i => i.major % 256 + i.minor % 256 * 2 ^ 8 | none => 0
    let build := match s.fw.running with | some i => i.build | none => 0
    let info := version + s.boot.straps.toNat * 2 ^ 16 + s.nodeCode % 256 * 2 ^ 24 + bit s.host.session * 2 ^ 32
      + bit s.dram.mirrored * 2 ^ 33 + bit s.nv.mirrorWord * 2 ^ 34 + bit s.pow.fastOk * 2 ^ 35 + s.dbg.level % 4 * 2 ^ 36
      + bit (!s.clashes.isEmpty) * 2 ^ 38
    let members := s.dram.members
    let out := ((List.range 8).filter fun c => !members.contains c || (s.channel c).state == 4).length
    (0, [(0, info), (1, s.mem.top), (2, members.length + out * 2 ^ 8), (3, build)], s))

/-! ### Receiving a frame (R276, R279, R280, R285) -/

/-- Whether a frame may arrive on a port: its STATE is 3 or 4 (R281). -/
def State.hears (s : State) (port : Nat) : Bool :=
  s.live && decide (port < 4) && ((s.port port).state == 3 || (s.port port).state == 4)

/-- An ACK releases the frames up to it from the replay buffer (R280). -/
def Port.release (p : Port) (f : Sys2Proof.LinkFrame) : Port :=
  if f.ackValid && p.replay.any fun x => x.seq == f.ack then
    { p with replay := (p.replay.dropWhile fun x => x.seq != f.ack).drop 1, resends := 0 }
  else p

/-- What the FEC did on a frame's codewords is counted (FEC_CORR, FEC_UNCORR). -/
def Port.countFec (p : Port) (a : Arrival) : Port :=
  { p with fecCorr := (p.fecCorr + a.corrected) % 2 ^ 64, fecUncorr := (p.fecUncorr + a.uncorrectable) % 2 ^ 32 }

/-- A frame that fails its CRC is dropped with every later one until it is resent; eight failures in a row make the port retrain
(R280). -/
def State.failFrame (s : State) (i : Nat) : State :=
  let s := s.setPort i fun p => { p with dropping := true, failures := p.failures + 1, owes := true }
  if 8 ≤ (s.port i).failures then s.retrain i else s

/-- A frame that a port in STATE 3 or 4 receives: FEC counts, CRC, ACK, and the order of SEQ; f is what a frame in its order does. A frame
with a good CRC that is not of the command's kind is no arrival of this command. -/
def State.receive (s : State) (i : Nat) (a : Arrival) (mine : Sys2Proof.LinkFrame → Bool) (f : State → State) : State :=
  let good := LinkFrame.good a.frame
  if !s.hears i || (good && !mine a.frame) then s
  else
    let s := s.setPort i fun p => p.countFec a
    if !good then s.failFrame i
    else
      let s := s.setPort i fun p => p.release a.frame
      if a.frame.seq ≠ (s.port i).recvSeq then s.setPort i fun p => { p with owes := true }
      else f (s.setPort i fun p => { p with recvSeq := (p.recvSeq + 1) % 4096, dropping := false, failures := 0, owes := true })

/-- A FLIT, OPEN or BULK frame, on a port in STATE 3: here is what it does at its destination; on the way it goes on along the route with
its source (R280, R284, R285). -/
def State.receiveData (s : State) (i type : Nat) (a : Arrival) (here : State → State) : State :=
  let f := a.frame
  s.receive i a (fun f => f.type == type && (s.port i).state == 3) fun s =>
    if some f.dest = s.nl.node then here s
    else
      match s.wayOn f.src f.dest with
      | some out => s.passFrame out f.src f.type f.dest f.stream f.count f.first f.payload
      | none => s

/-- A CONTROL frame with a message of a code: flooded messages go on first, then f acts on it (R278). -/
def State.receiveMsg (s : State) (i code : Nat) (a : Arrival) (act : PeerMsg → State → State) : State :=
  s.receive i a (fun f => f.type == 4 && fieldOf f.payload 0 1 == code) fun s =>
    match PeerMsg.decode a.frame.payload with
    | some m => act m (s.forward i m)
    | none => s

/-- LINK (R278): the neighbour's identity, node, port and latency sample. -/
def State.takeLink (s : State) (port : Nat) (msg : LinkMsg) : State :=
  let s := s.setPort port fun p =>
    { p with peerNode := if msg.node < 16 then some msg.node else none, peerPort := msg.port, peerUnit := msg.unit,
             latency := msg.latency, slow := decide (96 < msg.latency) }
  s.levelPorts.graphChanged port

/-- LINK (R278). -/
def execLink (port : Nat) (frame : Arrival) (s : State) : Host.Outcome State Fault Refusal :=
  .next (s.whenLive fun s => s.receiveMsg port 7 frame fun m s => match m with | .link msg => s.takeLink port msg | _ => s)

/-- Of the sequence numbers of a device that this device has seen, those of the last 128 before a new one stay known: the number has eight
bits (R278). -/
def NuthesLink.ageTopology (l : NuthesLink) (msg : TopoMsg) : NuthesLink :=
  let old := fun (k : FloodKey) => k.code == 8 && k.tag == msg.unit.toNat && decide (128 ≤ (msg.sequence + 256 - k.index) % 256)
  { l with flooded := l.flooded.filter fun k => !old k }

/-- TOPOLOGY (R283): the newest message of each UNIT_ID counts; the newest one again counts anew, an older one not at all. -/
def State.takeTopology (s : State) (port : Nat) (seen : Bool) (msg : TopoMsg) : State :=
  let again := s.nl.heard.any fun h => h.msg.unit == msg.unit && h.msg.sequence == msg.sequence
  if msg.unit == s.nv.fuses.unitId || (seen && !again) then s
  else
    let rest := s.nl.heard.filter fun h => h.msg.unit != msg.unit
    let new : Heard := { msg := msg, at_ := s.cnt.stitch }
    let s := { s with nl := { s.nl.ageTopology msg with heard := rest ++ [new] } }
    s.levelPorts.graphChanged port

/-- TOPOLOGY (R278, R283): forwarded once for each (UNIT_ID, sequence). -/
def execTopology (port : Nat) (frame : Arrival) (s : State) : Host.Outcome State Fault Refusal :=
  .next (s.whenLive fun s =>
    let before := s.nl.flooded
    s.receiveMsg port 8 frame fun m s =>
      match m with
      | .topology msg => s.takeTopology port (match m.key with | some k => before.contains k | none => false) msg
      | _ => s)

/-- TOPOLOGY_EXPIRY (R283): the newest message of a UNIT_ID is older than 300 ms and counts for no clash any more; ports and graph are
looked at again. -/
def execTopologyExpiry (unit : DWord) (s : State) : Host.Outcome State Fault Refusal :=
  .next (s.whenLive fun s =>
    if s.nl.heard.any fun h => h.msg.unit == unit && decide (h.at_ + 30000000 < s.cnt.stitch) then s.levelPorts.graphChanged 0 else s)

/-- STITCH of this device on every open port (R278, R287). -/
def State.sendStitch (s : State) (except : Option Nat) (root hops : Nat) : State :=
  s.flood except (.stitch (BitVec.ofNat 64 s.cnt.stitch) root hops)

/-- TOPOLOGY_PERIODIC (R283): TOPOLOGY at least every 100 ms; the root of a stitch domain sends STITCH with it (log 35). -/
def execTopologyPeriodic (s : State) : Host.Outcome State Fault Refusal :=
  .next (s.whenLive fun s =>
    match s.nl.node with
    | none => s
    | some n =>
      let s := s.flood none (.topology s.ownTopology)
      if s.nl.root = some n then s.sendStitch none n 0 else s)

/-- STITCH (R287): two domains that merge step forward to the larger count and follow the lower root; within a domain the difference from
the root's count, corrected for the latency of the hop, is what idle counts slew away, upward or downward (log 35). -/
def State.takeStitch (s : State) (port : Nat) (count : DWord) (root hops : Nat) : State :=
  match s.nl.node, s.nl.root with
  | some n, some mine =>
    if s.clashes.contains root || decide (16 ≤ root) then s
    else
      let est := count.toNat + (s.port port).latency / 10
      if root = mine then
        if n = mine ∨ s.routePort root ≠ some port then s
        else
          let s : State := { s with nl := { s.nl with slew := (est : Int) - s.cnt.stitch } }
          s.sendStitch (some port) root (hops + 1)
      else
        let s : State :=
          { s with
            cnt := { s.cnt with stitch := max s.cnt.stitch est % 2 ^ 64 }
            nl := { s.nl with root := some (min root mine), slew := 0, slewIn := 0 } }
        s.sendStitch (if root < mine then some port else none) (min root mine) (hops + 1)
  | _, _ => s

/-- STITCH (R278, R287). -/
def execStitch (port : Nat) (frame : Arrival) (s : State) : Host.Outcome State Fault Refusal :=
  .next (s.whenLive fun s =>
    s.receiveMsg port 1 frame fun m s => match m with | .stitch count root hops => s.takeStitch port count root hops | _ => s)

/-! ### Votes, sums, ARMs -/

/-- Begun runs of a tag. -/
def State.runsTagged (s : State) (tag : DWord) : List Run := s.grid.runs.filter fun r => r.tag == tag

/-- LAUNCH_ATTEMPT (R288): at the first cycle at which the stitch count is at or above LAUNCH, attempt 0 is voted. -/
def execLaunchAttempt (tag : DWord) (host : HostView) (s : State) : Host.Outcome State Fault Refusal :=
  .next (s.whenLive fun s =>
    match (s.runsTagged tag).find? fun r => r.armed && r.voted.isNone && decide (r.blk.launch.toNat ≤ s.cnt.stitch) with
    | some r => (s.castLaunch r.ref).decideLaunch host r.ref
    | none => s)

/-- A vote is kept (R288, R290, R307). A complete set of launch votes begins tick 0 or holds the engines; a barrier vote of value 4 lets a
run go on that paused with the device that sent it, and one of value 1 rewinds it to the hem of its tick (R443; log 32). -/
def State.takeVote (s : State) (host : HostView) (msg : VoteMsg) : State :=
  if s.nl.votes.contains msg || msg.origin == s.nodeCode then s
  else if msg.kind = 2 ∧ msg.value = 1 then
    let s := { s with nl := { s.nl with votes := s.nl.votes ++ [msg] } }
    (s.runsTagged msg.tag).foldl (fun s r =>
      match if r.begun && r.ended.isNone then r.hems.find? fun h => h.tick == msg.index else none with
      | some h => (s.forgetRun r.tag).rewindRun r.ref h
      | none => s) s
  else
    let s := { s with nl := { s.nl with votes := s.nl.votes ++ [msg] } }
    match (s.runsTagged msg.tag).head? with
    | none => s
    | some r =>
      if msg.kind = 3 then s.decideLaunch host r.ref
      else if msg.kind = 2 ∧ msg.value = 4 ∧ msg.index = r.tick ∧ (s.engine r.lead).state = 5 ∧ (s.engine r.lead).pauseKind ≠ 2 then
        s.resumeRun host r.ref false
      else s

/-- VOTE (R278, R288, R290, R307). -/
def execVote (port : Nat) (frame : Arrival) (host : HostView) (s : State) : Host.Outcome State Fault Refusal :=
  .next (s.whenLive fun s => s.receiveMsg port 3 frame fun m s => match m with | .vote msg => s.takeVote host msg | _ => s)

/-- A sum is kept for the boundary that adds it (R127, R155, R290). -/
def State.takeSum (s : State) (msg : SumMsg) : State :=
  if s.nl.sums.contains msg || msg.origin == s.nodeCode then s else { s with nl := { s.nl with sums := s.nl.sums ++ [msg] } }

/-- SUM (R278, R290). -/
def execSum (port : Nat) (frame : Arrival) (s : State) : Host.Outcome State Fault Refusal :=
  .next (s.whenLive fun s => s.receiveMsg port 4 frame fun m s => match m with | .sum msg => s.takeSum msg | _ => s)

/-! ### Rehosting (R300-R303) -/

/-- Shards of a run that a lost node armed. -/
def State.lostShards (s : State) (r : Run) (p : Pattern) : List Nat :=
  (List.range p.header.shards).filter fun n =>
    (s.armsOf r.tag).any fun a => natBit a.shardMask.toNat n && r.lost.contains a.origin

/-- The newest hem of a run here that the buddies of some shards have acknowledged (step 3 of R300). -/
def Run.rewindHem (r : Run) (shards : List Nat) : Option Hem := r.hems.find? fun h => shards.all h.acked.contains

/-- The newest such hem of which this device can read its copy of each shard that it buddies: a slot stored as poison leaves the other
one (R300, R446). -/
def State.rewindHem (s : State) (r : Run) (shards : List Nat) (buddy : Nat → Nat → Option Nat) : Option Hem :=
  r.hems.find? fun h => (shards.all h.acked.contains)
    && shards.all fun n => buddy h.tick n != s.nl.node || (s.hemsHeld r.tag n).any fun b => b.tick == h.tick

/-- The buddy that acknowledged a shard's hem of a tick. -/
def State.buddyOf (s : State) (tag : DWord) (tick shard : Nat) : Option Nat :=
  (s.nl.acks.find? fun a => a.tag == tag && a.tick == tick && a.shard == shard).map (·.buddy)

/-- A run goes on after a loss from its rewind tick (steps 3-5 of R300): restored from the hem, its votes forgotten, its routes
computed afresh; one that was paused stays so. -/
def State.continueRun (s : State) (ref : TaskRef) (h : Hem) (shards : List Nat) : State :=
  match s.run? ref with
  | none => s
  | some r =>
    let s := s.forgetRun r.tag
    let s := { s with q := { s.q with hangReset := true } }
    let s := ((s.rewindRun ref h).restoreShards ref shards).setRun ref fun r =>
      { r with lost := [], nodes := s.armNodes r.tag, routes := routesAmong s.edges (s.armNodes r.tag), redo := [] }
    let s := s.rehostedEvents r shards h.tick
    let st := (s.engine r.lead).state
    if st = 5 then s else s.rowNine noHost ref

/-- Whether a buddy can place shards from the image it holds (step 2 of R300): the image still has its hash and no poison, and no row that
they use is exhausted (R75, R81, R444). -/
def State.canPlace (s : State) (p : Pattern) (places : List (Nat × Nat)) : Bool :=
  let q := { p with places := places }
  places.isEmpty || (!s.mem.poisonIn p.image p.header.imageLen && imageHash s.mem p.image p.header.imageLen == p.hash
    && !q.rowsUsed.any fun r => (s.engine r.1).exhausted.contains r.2)

/-- Shards placed on this device beside those it hosts: the pattern's places and check rows, the run's engines, and the engines'
state. -/
def State.addPlaces (s : State) (ref : TaskRef) (places : List (Nat × Nat)) : State :=
  match s.run? ref with
  | none => s
  | some r =>
    match s.pattern r.pattern with
    | none => s
    | some p =>
      let es := places.flatMap fun x => groupEngines p.header.perShard (x.2 / max 1 p.header.perShard)
      let lead := s.engine r.lead
      let s := s.unload es
      let engines := (List.range 8).filter fun e => p.engines.contains e || es.contains e
      let widen := fun (x : Pattern) => { x with places := x.places ++ places, engines := engines }.recheck
      let s := { s with grid := { s.grid with patterns := modifyIf (fun x => x.id == p.id) widen s.grid.patterns } }
      let s := s.setRun ref fun r => { r with mask := maskOf 8 engines.contains }
      let s := s.setEngines es fun e =>
        { e with pattern := some p.id, state := lead.state, cause := lead.cause, detail := lead.detail, pauseKind := lead.pauseKind,
                 progress := lead.progress, task := some ref }
      s.setTask ref fun t => { t with engines := maskOf 8 engines.contains }

/-- Each lost shard's ARM names its buddy from now on. -/
def State.moveArms (s : State) (r : Run) (moves : List (Nat × Nat)) : State :=
  let strip := fun (a : ArmMsg) =>
    { a with shardMask := BitVec.ofNat 64 (maskOf 64 fun n => natBit a.shardMask.toNat n && !(moves.any fun m => m.1 == n)) }
  let give := fun (a : ArmMsg) =>
    { a with shardMask := BitVec.ofNat 64 (maskOf 64 fun n =>
        natBit a.shardMask.toNat n || moves.any fun m => m.1 == n && m.2 == a.origin) }
  let mine := fun (a : ArmMsg) => a.tag == r.tag
  { s with
    nl :=
      { s.nl with
        arms := (s.nl.arms.map fun a => if mine a then give (strip a) else a).filter fun a =>
          !(mine a && r.lost.contains a.origin) } }

/-- REHOST (R299-R301, R303): a continuing part places each lost shard at its buddy and rewinds; without a free group, an image that
places or a hem on a surviving buddy the run's engines go to HELD with cause SHARD_MISSING. A run that paused at the loss is not
rehosted. -/
def execRehost (tag : DWord) (s : State) : Host.Outcome State Fault Refusal :=
  .next (s.whenLive fun s =>
    match (s.runsTagged tag).find? fun r => r.begun && !r.lost.isEmpty && r.ended.isNone && !r.noRehost with
    | none => s
    | some r =>
      match s.pattern r.pattern with
      | none => s
      | some p =>
        let shards := s.lostShards r p
        let hold := fun (s : State) => if (s.engine r.lead).state = 6 then s else s.holdRun r.ref 6 (shards.headD 0)
        if !s.continues r || (s.engine r.lead).state == 6 then s
        else
          match s.rewindHem r shards fun t n => s.buddyOf r.tag t n with
          | none => hold s
          | some h =>
            let moves := shards.map fun n => (n, s.buddyOf r.tag h.tick n)
            let dead := moves.any fun m => match m.2 with | some b => r.lost.contains b | none => true
            let mine := (moves.filter fun m => m.2 == s.nl.node).map (·.1)
            match if dead then none else chooseGroups s p.header.perShard mine [] with
            | none => hold s
            | some places =>
              if !s.canPlace p places then hold s else
              let s := if places.isEmpty then s else s.addPlaces r.ref places
              (s.moveArms r (moves.filterMap fun m => m.2.map fun b => (m.1, b))).continueRun r.ref h mine)

/-- A device that rehosts lost shards takes their hems from the buddy: the newest complete ones that this device holds go to it (R301). -/
def State.sendHems (s : State) (node : Nat) (tag : DWord) (shards : List Nat) : State :=
  shards.foldl (fun s n =>
    match s.hemTick tag [n] with
    | none => s
    | some t =>
      match s.routePort node, (s.hemsHeld tag n).find? fun b => b.tick == t with
      | some port, some b => s.streamTo port node n 0 0 (s.mem.bytes b.addr (64 * b.lines))
      | _, _ => s) s

/-- An ARM is kept, one for each (RUN_TAG, origin) (R288). One for the lost shards of a run that is HELD brings their hems on their way,
and lets the run go on from step 3 of R300 once every lost shard is armed (R301). -/
def State.takeArm (s : State) (msg : ArmMsg) : State :=
  if s.nl.arms.contains msg || msg.origin == s.nodeCode then s
  else
    let s := { s with nl := { s.nl with arms := (s.nl.arms.filter fun (a : ArmMsg) => !(a.tag == msg.tag && a.origin == msg.origin)) ++ [msg] } }
    match (s.runsTagged msg.tag).find? fun (r : Run) => r.begun && !r.lost.isEmpty && (s.engine r.lead).state == 6 with
    | none => s
    | some r =>
      match s.pattern r.pattern with
      | none => s
      | some p =>
        let shards := s.lostShards r p
        let s := s.sendHems msg.origin r.tag (shards.filter fun n => natBit msg.shardMask.toNat n)
        let armed := shards.all fun n => (s.armsOf r.tag).any fun a => natBit a.shardMask.toNat n && !r.lost.contains a.origin
        match if armed && s.continues r then r.rewindHem shards else none with
        | some h =>
          let s := { s with nl := { s.nl with arms := s.nl.arms.filter fun a => !(a.tag == r.tag && r.lost.contains a.origin) } }
          s.continueRun r.ref h []
        | none => s

/-- ARM (R278, R288, R301). -/
def execArm (port : Nat) (frame : Arrival) (s : State) : Host.Outcome State Fault Refusal :=
  .next (s.whenLive fun s => s.receiveMsg port 2 frame fun m s => match m with | .arm msg => s.takeArm msg | _ => s)

/-- A HEM_ACK counts toward the run's hems, also toward one that this device has still to take (R295, R297). -/
def State.noteAck (s : State) (m : HemAckMsg) : State :=
  (s.runsTagged m.tag).foldl (fun s r =>
    match s.pattern r.pattern, r.hems.find? fun h => h.tick == m.tick with
    | some p, some h =>
      let h' := { h with acked := addNew m.shard h.acked }
      let s := s.setRun r.ref fun r => { r with hems := r.hems.map fun x => if x.tick = m.tick then h' else x }
      if p.hosted.all h.acked.contains then s else s.hemDone r p h'
    | _, _ => s) s

/-- A HEM_ACK is counted once for each (RUN_TAG, hem tick, shard). -/
def State.takeHemAck (s : State) (m : HemAckMsg) : State :=
  if s.nl.acks.any fun a => a.tag == m.tag && a.tick == m.tick && a.shard == m.shard then s
  else { s with nl := { s.nl with acks := s.nl.acks ++ [m] } }.noteAck m

/-- HEM_ACK (R278, R297). -/
def execHemAck (port : Nat) (frame : Arrival) (s : State) : Host.Outcome State Fault Refusal :=
  .next (s.whenLive fun s => s.receiveMsg port 5 frame fun m s => match m with | .hemAck msg => s.takeHemAck msg | _ => s)

/-- On PEER_LOST every device of the run refuses its tick in progress and stops (R298). -/
def State.takeLost (s : State) (msg : LostMsg) : State :=
  if s.nl.lost.contains msg || msg.detector == s.nodeCode then s
  else { s with nl := { s.nl with lost := s.nl.lost ++ [msg] } }.loseNode msg.lost

/-- PEER_LOST (R278, R298). -/
def execPeerLost (port : Nat) (frame : Arrival) (s : State) : Host.Outcome State Fault Refusal :=
  .next (s.whenLive fun s => s.receiveMsg port 6 frame fun m s => match m with | .peerLost msg => s.takeLost msg | _ => s)

end Sys2Proof.Machine
end

