-- ==== Sys2Proof/Machine/Copy.lean ====
section
/-! DEFINITION. COPY and RANDOM_FILL (R42, R386, R387, R400, R446). -/

namespace Sys2Proof.Machine

/-! ### COPY -/

/-- COPY (R383, R386, R400): the lowest free copy engine moves LEN bytes; a host page that does not translate ends it there with
HANDLE_INVALID, and the lines before it stand. -/
def execCopy (task : TaskRef) (host : HostView) (s : State) : Host.Outcome State Fault Refusal :=
  .next (s.run fun s => s.dispatchBlock task 0x0011 fun t q b s =>
    let src := fieldOf b 0 8
    let dst := fieldOf b 8 8
    let len := fieldOf b 0x10 8
    let meet := decide (src < dst + len) && decide (dst < src + len)
    match firstBlockFault [(0, src % 64 != 0), (8, dst % 64 != 0), (0x10, len % 64 != 0 || meet), (0x18, fieldOf b 0x18 8 != 0)] with
    | some d => s.endTask task 0x0200 d
    | none =>
      match s.addressFault q t [(0, src, len, false), (8, dst, len, true)], s.freeCopyEngine with
      | some d, _ => s.endTask task 0x0201 d
      | none, none => s
      | none, some c =>
        let s := s.setCopyEngine c fun e => { e with owner := q.num }
        let before := (s.copyEngine c).bytes
        let moved := s.moveLines host (some q.pasid) c (len / 64) src dst
        let s := moved.1.setTask task fun t => { t with progress := ((moved.1.copyEngine c).bytes - before) / 64 }
        (if moved.2 then s.endTask task 0 0 else s.endTask task 0x0201 poisonDetail).takeTurn c)

/-! ### RANDOM_FILL (R387) -/

/-- The initial state vector of a replica: bias variables +1, ungrouped variables bit 31 of their draw, in each group the member
that the group's draw names hot. -/
def randomState (h : Header) (bias : Nat → Bool) (groups : List (Option Nat)) (seed2 replica : Nat) : List Bool :=
  let members := fun (g : Nat) => (List.range h.nVars).filter fun v => groups.getD v none == some g
  let hot := fun (g : Nat) =>
    let ms := members g
    ms.getD (bobbin seed2 0x21 g replica 0 % max 1 ms.length) h.nVars
  (List.range h.nVars).map fun v =>
    if bias v then true
    else match groups.getD v none with
      | some g => hot g == v
      | none => natBit (bobbin seed2 0x20 v replica 0) 31

/-- Write bytes line by line to DRAM or host memory; answers the lines written and whether every page translated. -/
def State.putLines (s : State) (v : HostView) (pasid : Option Nat) (c : Nat) : Nat → Nat → List Byte → State × Nat × Bool
  | 0, _, _ => (s, 0, true)
  | n + 1, a, bs =>
    if !s.lineTranslates v a then (s, 0, false)
    else
      let s := (s.keepTranslation a).putLine pasid a (bs.take 64) false
      let r := (s.setCopyEngine c fun e => { e with bytes := e.bytes + 64 }).putLines v pasid c n (a + 64) (bs.drop 64)
      (r.1, r.2.1 + 1, r.2.2)

/-- Fill a task's destination: its lines and PROGRESS, and its end. -/
def State.fill (s : State) (v : HostView) (task : TaskRef) (q : Queue) (c dst : Nat) (bs : List Byte) : State :=
  let r := (s.setCopyEngine c fun e => { e with owner := q.num }).putLines v (some q.pasid) c (bs.length / 64) dst bs
  let s := r.1.setTask task fun t => { t with progress := r.2.1 }
  (if r.2.2 then s.endTask task 0 0 else s.endTask task 0x0201 poisonDetail).takeTurn c

/-- The block checks of RANDOM_FILL, both forms, ascending (R386). -/
def fillChecks (b : List Byte) : List (Nat × Bool) :=
  let form := fieldOf b 0 1
  let first := fieldOf b 0x18 4
  let count := fieldOf b 0x1C 4
  [(0, decide (2 ≤ form)), (1, fieldOf b 1 7 != 0), (8, form == 1 && fieldOf b 8 8 != 0), (0x10, fieldOf b 0x10 8 % 64 != 0),
    (0x18, form == 1 && first != 0),
    (0x1C, if form = 0 then count == 0 || decide (4096 < count) || decide (4096 < first + count) else count != 0),
    (0x20, if form = 0 then fieldOf b 0x20 8 != 0 else fieldOf b 0x20 8 % 64 != 0), (0x28, (b.drop 0x28).any (· != 0))]

/-- Which form a RANDOM_FILL's block names. -/
def State.fillForm (s : State) (task : TaskRef) : Option Nat :=
  (s.task task).map fun t => if t.param < hostWindow then s.mem.field t.param 1 else 0

/-- RANDOM_FILL of form 0 (R387): the pattern image is checked, then state vectors of replicas FIRST to FIRST + COUNT - 1. -/
def execRandomFillStates (task : TaskRef) (host : HostView) (s : State) : Host.Outcome State Fault Refusal :=
  .next (s.run fun s =>
    if s.fillForm task = some 1 then s
    else s.dispatchBlock task 0x0012 fun t q b s =>
      let g := imageAt s.mem t.pattern
      let h := readHeader g
      let dst := fieldOf b 0x10 8
      let count := fieldOf b 0x1C 4
      match firstBlockFault (fillChecks b) with
      | some d => s.endTask task 0x0200 d
      | none =>
        match s.addressFault q t [(0x10, dst, count * stateBytes h.nVars, true)], s.freeCopyEngine with
        | some d, _ => s.endTask task 0x0201 d
        | none, none => s
        | none, some c =>
          if t.patternLen < 256 ∨ t.patternLen < h.imageLen then s.endTask task 0x0201 0x08
          else if hostWindow ≤ t.pattern then s.endTask task 0x0201 0x08
          else if s.mem.poisonIn t.pattern h.imageLen then s.endTask task 0x0201 poisonDetail
          else
            let dir := readDirectory g h
            let checks := placementChecks g h dir fun _ => decide (h.shards ≤ 1)
            match lowestFault (imageFaults s t.pattern h false ++ checks.1) with
            | some f => s.endTask task 0x0202 f.1
            | none =>
              let vars := checks.2
              let bias := fun (v : Nat) => vars.any fun x => x.var == v && x.bias
              let groups := readGroups g h dir
              let seed := fieldOf b 8 8
              let bs := (List.range count).flatMap fun k => packState (randomState h bias groups seed (fieldOf b 0x18 4 + k))
              s.fill host task q c dst bs)

/-- DRBG bytes for a fill from I1, a generate call for each 64 KiB (R501). -/
def State.drawFill (s : State) (n : Nat) : List Byte × State :=
  let d := s.drawBytes 1 n
  let s := (List.range (cdiv n 65536)).foldl (fun s _ => s.countCall 1) d.2
  (d.1, { s with rng := { s.rng with bytes := s.rng.bytes + n } })

/-- RANDOM_FILL of form 1 (R42, R387, R502): DRBG bytes when the service is READY; it waits while STARTING, its copy engine
occupied; ENTROPY_FAULT otherwise. -/
def execRandomFillBytes (task : TaskRef) (host : HostView) (s : State) : Host.Outcome State Fault Refusal :=
  .next (s.run fun s =>
    if s.fillForm task ≠ some 1 then s
    else s.dispatchBlock task 0x0012 fun t q b s =>
      let dst := fieldOf b 0x10 8
      let len := fieldOf b 0x20 8
      match firstBlockFault (fillChecks b) with
      | some d => s.endTask task 0x0200 d
      | none =>
        match s.addressFault q t [(0x10, dst, len, true)], s.freeCopyEngine with
        | some d, _ => s.endTask task 0x0201 d
        | none, none => s
        | none, some c =>
          if s.rng.state = 1 then
            let r := s.drawFill len
            r.2.fill host task q c dst r.1
          else if s.rng.state = 0 then
            let s := (s.setCopyEngine c fun e => { e with owner := q.num, state := 1, task := some task }).setTask task fun t =>
              { t with phase := .running }
            { s with rng := { s.rng with waiting := s.rng.waiting ++ [.fill task] } }
          else s.endTask task 0x0300 0)

/-- A RANDOM_FILL that waited writes its bytes and frees its copy engine (R42). A host page's translation is taken to stand
(log 5). -/
def State.serveFill (s : State) (task : TaskRef) : State :=
  match s.task task, s.queue task.queue, (List.range 4).find? fun c => (s.copyEngine c).task == some task with
  | some t, some q, some c =>
    let r := s.drawFill (fieldOf t.block 0x20 8)
    (r.2.fill noHost task q c (fieldOf t.block 0x10 8) r.1).freeCopy c
  | _, _, _ => s

end Sys2Proof.Machine
end

