-- ==== Sys2Proof/Machine/Debug.lean ====
section
/-! DEFINITION. DBG_ACCESS (R266, R519, R521): what the debug port reads of a core's array and fields (R86, R89, R94-R105, R225,
R226), and the control cores it halts and steps. -/

namespace Sys2Proof.Machine

/-! ### DBG_ACCESS -/

/-- A debug packet arrives whole: both words pass their parity, TYPE is 6, and the head addresses what the packet names (R266). -/
def debugWhole (head source : NarrowWord) (packet : DebugPacket) : Bool :=
  let h := NarrowHead.ofWord head.bits
  NarrowHead.whole head true && NarrowHead.whole source false && h.type == 6 && h.names packet

/-- The packet a read waits with, for the boundary of a RUNNING engine's tick (R162). -/
def State.readWaits (s : State) (packet : DebugPacket) : Bool :=
  match s.holdsRead packet with
  | some x => (s.engine x.1).state == 3
  | none => false

/-- DBG_ACCESS (R266, R519, R521): reads at OBSERVE and FULL, one of a RUNNING engine's spins or fields held to its next boundary; at FULL
writes to cores of engines without a pattern, and halting and stepping the standby control core. What no level allows does nothing and
answers 0, as a packet that does not arrive whole. Many routers that answer one read leave a free value (log 17). -/
def execDbgAccess (head source : NarrowWord) (packet : DebugPacket) (s : State) : Host.Outcome State Fault Refusal :=
  .next (s.runDebug fun s =>
    let d := { s.dbg with ir := .dbgAccess, refused := false, dr := 0, held := none }
    let h := NarrowHead.ofWord head.bits
    if !s.tapUp then (s, s.dbg)
    else if !s.live || s.dbg.level == 0 || !debugWhole head source packet then (s, d)
    else
      match s.debugRead packet with
      | some w =>
        if h.col = 127 then
          ({ s with free := s.free + 1 }, { d with dr := (Config.debugWord (2 ^ 43 + h.die) s.free).toNat })
        else if s.readWaits packet then (s, { d with held := some packet })
        else ({ s with free := s.free + 1 }, { d with dr := w.toNat })
      | none =>
        if s.dbg.level ≠ 2 then (s, d)
        else
          match packet with
          | .writeArray c w v =>
            if (s.engine c.die).pattern.isSome || decide (8 ≤ c.die) || decide (6144 ≤ w) then (s, d)
            else
              let at_ := h.reaches c
              let rest := s.grid.scratch.filter fun x => !(at_.contains x.1 && x.2.1 == w)
              ({ s with grid := { s.grid with scratch := rest ++ at_.map fun c => (c, w, v) } }, d)
          | .halt active => (s, if active then d else { d with halted := true })
          | .stepCore active => (s, if active || !d.halted then d else { d with stepped := d.stepped + 1 })
          | _ => (s, d))

end Sys2Proof.Machine
end

