-- ==== Sys2Proof/Machine/Losses.lean ====
section
/-! DEFINITION. The loss of a memory channel (R333, R335, R447) and of the last control core (R451). -/

namespace Sys2Proof.Machine

/-- A run of a device that loses its DRAM: a learned image in the writing is given up, the run follows R443. -/
def State.loseRun (s : State) (ref : TaskRef) : State :=
  let s := s.setRun ref fun r => { r with imaging := none, updating := false, ticking := false, work := [] }
  s.giveUp ref none false

/-- Device DRAM is lost (R447): every run follows R443, its peers learning that this device is lost to it, loads end, every pattern is
unloaded, every engine goes to IDLE. -/
def State.loseDram (s : State) : State :=
  let s := (s.grid.runs.map (·.ref)).foldl (fun s ref => s.loseRun ref) s
  let s := s.grid.loads.foldl (fun s l => s.endTask l.ref 0x0100 0xFFFFFFFE) s
  { s with grid := { s.grid with loads := [] } }.unload (List.range 8)

/-- A channel is declared lost (R335): in mirrored mode its partner serves the pair alone; a unit with no channel left is lost
with all of device DRAM. -/
def State.loseChannel (s : State) (c : Nat) : State :=
  let serves := (s.channel c).state == 2 || (s.channel c).state == 3
  match s.dram.map.findIdx? fun e => e == c || (s.dram.mirrored && e + 1 == c) with
  | none => s
  | some u =>
    if !serves then s
    else
      let base := s.dram.map.getD u 0
      let partner := if c = base then base + 1 else base
      let alone := s.dram.mirrored && ((s.channel partner).state == 2 || (s.channel partner).state == 3)
      let s := s.setChannel c fun ch => { ch with state := 4, cause := 4, mirror := if s.dram.mirrored then 3 else 0 }
      let s := s.logFault 8 (sourceOf 2 c) none c
      if alone then
        (s.setChannel partner fun ch => { ch with mirror := 2 }).event 1 3 (sourceOf 2 c) none (zeroBytes 8 ++ toBytesLE 8 c)
      else (s.store (.loseUnit u)).loseDram

/-- Channel c has failed its fourth uncorrectable line within 1 s, 10^8 stitch counts, and is declared lost (R335). -/
def State.checkLoss (s : State) (c : Nat) : State :=
  match (s.channel c).failures[3]? with
  | some first => if s.cnt.stitch ≤ first + 10 ^ 8 then s.loseChannel c else s
  | none => s

/-- A read of a line, and the losses its failures declare (R324, R335): nothing follows a read that failed no line. -/
def State.readOrLose (s : State) (c line : Nat) (error : LineError) : State :=
  let t := s.readLine c line error
  let other := if c % 2 = 0 then c + 1 else c - 1
  let failed := fun (i : Nat) => (t.channel i).uncorr != (s.channel i).uncorr
  let u := if failed c then t.checkLoss c else t
  if failed other then u.checkLoss other else u

/-- DRAM_READ (R324). -/
def execDramRead (addr : Nat) (error : LineError) (s : State) : Host.Outcome State Fault Refusal :=
  .next (s.whenLive fun s => if s.inDram addr then
      s.wakeChannels.readOrLose (s.servingChannel (unitOf s.mem.units addr)) (addr / 64) error
    else s)

/-- End a scrub pass of channel c (R329). -/
def State.endPass (s : State) (c : Nat) : State :=
  s.setChannel c fun ch => { ch with scrubPos := 0, scrubAt := none, passes := (ch.passes + 1) % 2 ^ 32 }

/-- SCRUB_READ (R329): the next valid line of the pass; after the last one the pass ends and the next begins. A pass whose remaining lines
have all lost their valid bit has ended, and the line is the first of the next. -/
def execScrubRead (channel : Nat) (error : LineError) (s : State) : Host.Outcome State Fault Refusal :=
  .next (s.whenLive fun s =>
    let ch := s.channel channel
    if ch.state = 2 ∧ 0 < ch.period ∧ 0 < s.mem.units then
      let visit := fun (line : Nat) (last : Bool) (s : State) =>
        let s := s.setChannel channel fun ch => { ch with scrubPos := ch.scrubPos + 1, scrubAt := some line }
        (if last then s.endPass channel else s).readOrLose channel line error
      let left := match ch.scrubAt with
        | none => s.channelLines channel
        | some l => (s.channelLines channel).filter fun line => decide (l < line)
      match left, s.channelLines channel with
      | line :: more, _ => visit line more.isEmpty s
      | [], line :: more => visit line more.isEmpty (s.endPass channel)
      | [], [] => if ch.scrubAt.isSome then s.endPass channel else s
    else s)

/-- CHANNEL_LOST (R335, R447): a channel meets one of the conditions of R335 (log 4). -/
def execChannelLost (channel : Nat) (s : State) : Host.Outcome State Fault Refusal :=
  .next (s.whenLive fun s => s.loseChannel channel)

/-- MC_ALERT_N (R335): a write's CRC or parity error; the channel retries it, counted in ALERTS; repeated failures retrain the
channel, and a retrain that does not succeed loses it. -/
def execMcAlertN (channel : Nat) (retryPasses retrainPasses : Bool) (s : State) : Host.Outcome State Fault Refusal :=
  .next (s.whenLive fun s =>
    let st := (s.channel channel).state
    if 8 ≤ channel ∨ (st ≠ 2 ∧ st ≠ 3) then s
    else
      let s := s.setChannel channel fun c => { c with alerts := (c.alerts + 1) % 2 ^ 32 }
      if retryPasses || retrainPasses then s else s.loseChannel channel)

/-- SOLE_CORE_FAILURE (R451): the last control core fails: every engine pauses at its next boundary, READY clears, SB_ALERT_N. With
a standby it is a takeover, another row. -/
def execSoleCoreFailure (s : State) : Host.Outcome State Fault Refusal :=
  .next (s.whenLive fun s =>
    if s.fw.noCore || s.fw.running.isNone || s.fw.standby.isSome then s
    else
      let s := { s with fw := { s.fw with noCore := true, failed := addNew s.fw.active s.fw.failed }
                        boot := { s.boot with ready := false } }
      s.pauseAll.alert 4)

end Sys2Proof.Machine
end

