-- ==== Sys2Proof/Machine/Board.lean ====
section
/-! DEFINITION. Rails, resets, references and start-up (R18-R53, R343, R444, R511, R526), and what a staged commit does at once and
at a profile change (R353-R357, R465). -/

namespace Sys2Proof.Machine

/-! ### Resets and rails -/

/-- POR_N_ASSERT (R33, R34, R529): a low level of less than 5 us is ignored. -/
def execPorNAssert (lowNs : Nat) (s : State) : Host.Outcome State Fault Refusal :=
  .next (if lowNs < 5000 then s else { s.enterReset with board := { s.board with por := true } })

/-- The lowest temperature of a device's grade, in 1/16 degC (R6). -/
def gradeMinimum (f : Fuses) : Int := if f.gradeX then -640 else 0

/-- Whether some die reads below the grade's minimum (R526). -/
def State.cold (s : State) : Bool := s.pow.guards.any fun g => decide (g.temp < gradeMinimum s.nv.fuses)

/-- The TAP leaves an instruction that drives pins for BYPASS as POR_N rises (R520). -/
def Dbg.release (d : Dbg) : Dbg :=
  match d.ir with
  | .extest => { d with ir := .bypass, dr := 0 }
  | .highz => { d with ir := .bypass, dr := 0 }
  | .clamp => { d with ir := .bypass, dr := 0 }
  | .extestPulse => { d with ir := .bypass, dr := 0 }
  | .extestTrain => { d with ir := .bypass, dr := 0 }
  | .sample => d
  | .idcode => d
  | .dbgChallenge => d
  | .dbgToken => d
  | .dbgAccess => d
  | .bypass => d

/-- The domains that are never OFF out of reset come ON (R39, R458). -/
def Power.wakeFixed (p : Power) : Power :=
  { p with domains := p.domains.mapIdx fun i d => if domainMayBeOff i then d else { d with state := 2 } }

/-- RESET_RELEASE (R25, R30, R39, R40, R458, R520, R526): POR_N is high, every rail is good and the hub reference runs; the boot
ROM starts, and every power domain that may not be OFF out of reset comes ON. A package below its grade's minimum holds DRAM
training and engine start. -/
def execResetRelease (s : State) : Host.Outcome State Fault Refusal :=
  .next (if s.boot.released || !s.board.railsBad.isEmpty || !s.board.hubRef || s.board.tripped then s
    else
      { s with
        board := { s.board with por := false }
        boot := { s.boot with released := true, coldHold := s.cold }
        host := { s.host with link := if s.board.perst || !s.board.pcieRef then 0 else 1 }
        pow := s.pow.wakeFixed
        dbg := s.dbg.release })

/-- STRAP_LATCH (R32, R52): the straps are sampled once; NL_CTRL.ENABLE is STRAP[6]. -/
def execStrapLatch (pins : Byte) (s : State) : Host.Outcome State Fault Refusal :=
  .next (s.whenLive fun s =>
    if s.boot.latched then s
    else
      let on := natBit pins.toNat 6
      { s with
        boot := { s.boot with straps := pins, latched := true }
        nl := { s.nl with ports := s.nl.ports.map fun p => { p with enable := on, state := if on then 1 else 0 } } })

/-- RAIL_LOSS (R25, R26, R37, R511): reset as at POR_N; the management domain loses power, and with VDD_IO18 THERMTRIP_N ends. -/
def execRailLoss (rail : Rail) (s : State) : Host.Outcome State Fault Refusal :=
  let r := s.enterReset
  .next
    { r with
      board := { s.board with railsBad := addNew rail s.board.railsBad, tripped := s.board.tripped && rail != .vddIo18 }
      boot := { r.boot with romLevel := false }
      dbg := .reset }

/-- RAILS_GOOD (R25, R511): every rail is good, and the management block serves the sideband at ROM level. -/
def execRailsGood (s : State) : Host.Outcome State Fault Refusal :=
  .next (s.run fun s => { s with board := { s.board with railsBad := [] }, boot := { s.boot with romLevel := true } })

/-- HUB_REFERENCE_LOSS (R30). -/
def execHubReferenceLoss (s : State) : Host.Outcome State Fault Refusal :=
  .next { s.enterReset with board := { s.board with hubRef := false } }

/-- HUB_REFERENCE_RESTORED (R30). -/
def execHubReferenceRestored (s : State) : Host.Outcome State Fault Refusal :=
  .next (s.run fun s => { s with board := { s.board with hubRef := true } })

/-! ### The PCIe link -/

/-- The PCIe data link goes down (R49, R369): nothing more is sent to the host, and the session detaches. -/
def State.linkDown (s : State) : State :=
  if s.host.link = 0 then s else { s with host := { s.host with link := 0, rate := 0, width := 0 } }.detach

/-- The endpoint's configuration space, BARs and MSI-X table are as after reset (R35, R343). -/
def State.resetEndpoint (s : State) : State :=
  { s with host := { s.host with cfg := [], msixTable := [], msixPending := [], atsCache := [] } }

/-- SURPRISE_LINK_DOWN (R49, R369). -/
def execSurpriseLinkDown (s : State) : Host.Outcome State Fault Refusal := .next (s.whenLive State.linkDown)

/-- PERST_N_ASSERT (R35, R49, R529): a low level of less than 1 us is ignored. -/
def execPerstNAssert (lowNs : Nat) (s : State) : Host.Outcome State Fault Refusal :=
  .next (s.run fun s =>
    if lowNs < 1000 then s
    else
      let s := { s with board := { s.board with perst := true } }
      if s.live then s.linkDown.resetEndpoint else s)

/-- PERST_N_DEASSERT (R36, R40): link training starts. -/
def execPerstNDeassert (s : State) : Host.Outcome State Fault Refusal :=
  .next (s.run fun s =>
    let s := { s with board := { s.board with perst := false } }
    if s.live && s.board.pcieRef && s.host.link == 0 then { s with host := { s.host with link := 1 } } else s)

/-- PCIE_LINK_TRAINED (R40, R341): the link is up and configuration space is answered. -/
def execPcieLinkTrained (rate width : Nat) (s : State) : Host.Outcome State Fault Refusal :=
  .next (s.whenLive fun s =>
    if s.host.link = 1 then
      { s with
        host := { s.host with link := 2, rate := rate, width := width }
        boot := { s.boot with cfgAnswered := true } }
    else s)

/-- LINK_RETRAIN (R51): the partner presents the link again. -/
def execLinkRetrain (s : State) : Host.Outcome State Fault Refusal :=
  .next (s.whenLive fun s =>
    if s.host.link = 0 ∧ s.board.perst = false ∧ s.board.pcieRef = true then { s with host := { s.host with link := 1 } } else s)

/-- FUNCTION_LEVEL_RESET (R343, R369): as a surprise link-down, after which the function returns without retraining. -/
def execFunctionLevelReset (s : State) : Host.Outcome State Fault Refusal :=
  .next (s.whenLive fun s =>
    if s.host.link ≠ 2 then s
    else
      let s := s.detach.resetEndpoint.revertStaged
      { s with host := { s.host with wselClass := 0, wselIndex := 0, aperture := 0 } })

/-- PCIE_REFERENCE_LOSS (R31): the PCIe link and every Nuthes Link drop; the device runs on. -/
def execPcieReferenceLoss (s : State) : Host.Outcome State Fault Refusal :=
  .next (s.run fun s =>
    let s := { s with board := { s.board with pcieRef := false } }
    if s.live then (List.range 4).foldl (fun s i => s.detachPort i) s.linkDown else s)

/-- PCIE_REFERENCE_RESTORED (R31, R51, R52): ports whose peer is present train again. -/
def execPcieReferenceRestored (s : State) : Host.Outcome State Fault Refusal :=
  .next (s.run fun s =>
    if s.board.pcieRef then s
    else
      let s := { s with board := { s.board with pcieRef := true } }
      if s.live then
        (List.range 4).foldl (fun s i =>
          if s.mayTrain (s.port i) then s.trainPort i else s) s
      else s)

/-! ### Start-up -/

/-- COLD_START_RELEASE (R526): every die reads at or above the grade's minimum; held training begins. -/
def execColdStartRelease (s : State) : Host.Outcome State Fault Refusal :=
  .next (s.whenLive fun s =>
    if !s.boot.coldHold || s.cold then s
    else
      let s := { s with boot := { s.boot with coldHold := false } }
      if s.boot.fwVerified then s.beginTraining else s)

/-- A core that fails the array test at start-up is fenced and its die row shift-repaired; a row with a second failed core is
exhausted (R268, R444). The selvage core carries no core's work (R543). -/
def State.fenceAtStart (s : State) (c : CoreAt) : State :=
  let name := if c.col = 64 then 0xFFFF else (64 * (c.die / 4) + c.row) * 256 + 64 * (c.die % 4) + c.col
  let source := sourceOf 1 c.die
  if ((s.engine c.die).fenced.contains (c.row, c.col)) then s
  else
    let spent := (s.engine c.die).fenced.any fun f => f.1 == c.row
    let s := (s.event 1 3 source none (zeroBytes 8 ++ toBytesLE 8 name)).logFault 1 source none name
    let s := s.setEngine c.die fun g => { g with fenced := g.fenced ++ [(c.row, c.col)] }
    if spent then
      if (s.engine c.die).exhausted.contains c.row then s
      else
        (s.logFault 2 source none c.row).setEngine c.die fun g =>
          { g with exhausted := g.exhausted ++ [c.row], repaired := g.repaired.filter (· != c.row) }
    else
      let s := s.setEngine c.die fun g => { g with repaired := g.repaired ++ [c.row] }
      if c.col = 64 then s else s.event 1 4 source none (toBytesLE 2 c.row)

/-- ENGINES_IDLE (R39, R444): sequencers are loaded and the array tests have run; engines 0-7 reach IDLE. -/
def execEnginesIdle (failed : List CoreAt) (s : State) : Host.Outcome State Fault Refusal :=
  .next (s.whenLive fun s =>
    if !s.boot.fwVerified || s.boot.coldHold || s.boot.enginesIdle then s
    else
      let s := { s with boot := { s.boot with enginesIdle := true } }
      let s := (failed.filter fun c => decide (c.die < 8)).foldl State.fenceAtStart s
      { s with grid := { s.grid with engines := s.grid.engines.map fun e => if e.state = 0 then { e with state := 1 } else e } })

/-- Whether a channel has trained: in service, in self-refresh, or left out of a mirrored map for its partner's sake (R44, R332). -/
def Channel.hasTrained (c : Channel) : Bool := c.state == 2 || c.state == 3 || c.state == 5

/-- The milestones of R39 before READY, Nuthes training and the entropy service (R503) apart: configuration space is answered
where PERST_N has been deasserted, engines are IDLE, and every channel's training has ended, one of them well (R44). -/
def State.startedUp (s : State) : Bool :=
  (s.boot.cfgAnswered || s.board.perst) && s.boot.enginesIdle && s.boot.trained.length == 8
    && s.dram.channels.any Channel.hasTrained

/-- MBX_READY_SET (R39, R44, R492, R503): start-up is complete but for Nuthes training and the entropy service; the confirmation
window of a trial image opens. -/
def execMbxReadySet (s : State) : Host.Outcome State Fault Refusal :=
  .next (s.whenLive fun s =>
    if s.boot.ready || s.fw.noCore || !s.startedUp then s
    else
      let window := s.fw.window.map fun (w : Window) => if w.trial then { w with openedAt := s.cnt.stitch } else w
      { s with boot := { s.boot with ready := true }, fw := { s.fw with window := window } })

/-! ### Commits -/

/-- Engines with a tick in progress. -/
def State.tickingEngines (s : State) : List Nat :=
  (s.grid.runs.filter fun r => r.ticking).flatMap Run.engines

/-- CFG_COMMIT_GO (R353-R357): accepted or refused whole; a start that is HELD with cause CFG_MISMATCH proceeds once an accepted
commit is in force on its engines. -/
def execCfgCommitGo (host : HostView) (s : State) : Host.Outcome State Fault Refusal :=
  .next (s.run fun s =>
    if !s.hostUp || !s.boot.ready then s
    else
      match commitRefusal s with
      | some f => s.refuseCommit f
      | none =>
        let s := s.acceptCommit s.tickingEngines
        let held := s.grid.runs.filter fun r => (s.engine r.lead).state == 6 && (s.engine r.lead).cause == 1
        (held.map (·.ref)).foldl (fun s ref => s.reexamine host ref) s)

/-- PROFILE_CHANGE_COMPLETE (R354, R465): the committed profile is in force on every engine. -/
def execProfileChangeComplete (s : State) : Host.Outcome State Fault Refusal :=
  .next (s.whenLive fun s =>
    match s.host.commit with
    | some c =>
      match c.profile with
      | some p =>
        let s := s.takeProfile p
        { s with host := { s.host with commit := some { c with profile := none } } }.settleCommit
      | none => s
    | none => s)

end Sys2Proof.Machine
end

