-- ==== Sys2Proof/Machine/Entropy.lean ====
section
/-! DEFINITION. The entropy service (R42, R500-R509): start-up, health tests and retests, and what waits for random output; the sideband
requests held behind a challenge that waits (R515). -/

namespace Sys2Proof.Machine

/-- Serve one consumer that waited for random output, but for debug challenges (R42). -/
def State.serve (s : State) (w : RngWait) : State :=
  match w with
  | .mailbox =>
    let r := s.rngOutput (natBit (s.arg 0) 0)
    r.2.finishMailbox 0 r.1
  | .fill task => s.serveFill task
  | .debugChallenge _ => s
  | .spdmChallenge _ _ => s.signedReply (challengeBody s)
  | .spdmMeasurements index _ =>
    match measurementIndices index with
    | some idx => s.signedReply (measurementsBody s index idx)
    | none => s

/-- Fail one consumer that waited, but for debug challenges (R504). -/
def State.failWait (s : State) (w : RngWait) : State :=
  match w with
  | .mailbox => s.finishMailbox 0x0300 []
  | .fill task =>
    let s := s.endTask task 0x0300 0
    match (List.range 4).find? fun c => (s.copyEngine c).task == some task with
    | some c => s.freeCopy c
    | none => s
  | .debugChallenge _ => s
  | .spdmChallenge _ _ => s.sbBytes 0 0 (spdmError 0x05)
  | .spdmMeasurements _ _ => s.sbBytes 0 0 (spdmError 0x05)

/-- The debug ports that wait for a challenge. -/
def debugWaits (ws : List RngWait) : List DebugPort :=
  ws.filterMap fun w => match w with | .debugChallenge p => some p | _ => none

/-- The service is READY: three instances instantiated afresh; what waited is served in arrival order (R42, R503, R505). -/
def State.rngReady (s : State) : State :=
  let waits := s.rng.waiting
  let rng := { s.rng with state := 1, retests := 0, drbgs := List.replicate 3 { up := true, calls := 0 }, waiting := [] }
  waits.foldl State.serve { s with rng := rng }

/-- Answer the debug challenges that waited, with draws where `good`, else with ENTROPY_FAULT. -/
def State.answerChallenges (s : State) (ports : List DebugPort) (good : Bool) : State × Dbg :=
  ports.foldl (fun (x : State × Dbg) p =>
    let s := { x.1 with dbg := x.2 }
    if good then s.giveChallenge p else s.debugAnswer p 0x0300 []) (s, s.dbg)

/-- Carry out a sideband request that was held behind another (R515). -/
def State.carryOut (s : State) (i : Instr) : State :=
  let o := match i with
    | .getInfo v => execGetInfo v s
    | .nodeSet v => execNodeSet v s
    | .faultLogRead v => execFaultLogRead v s
    | .faultRecordRead v => execFaultRecordRead v s
    | .faultRecordClear v => execFaultRecordClear v s
    | .fwStatus v => execFwStatus v s
    | .rngStatus v => execRngStatus v s
    | .powerRead v => execPowerRead v s
    | .guardSet v => execGuardSet v s
    | .sbRead tag args => execSbRead tag args s
    | .alertRead tag => execAlertRead tag s
    | .alertClear tag args => execAlertClear tag args s
    | .flashRead tag args => execFlashRead tag args s
    | .flashErase tag args => execFlashErase tag args s
    | .flashWrite tag args => execFlashWrite tag args s
    | .recoveryReboot tag => execRecoveryReboot tag s
    | .debugChallenge port => execDebugChallenge port s
    | .debugUnlock port token => execDebugUnlock port token s
    | _ => .next s
  match o with
  | .next s => s
  | _ => s

/-- The sideband requests that were held follow, in arrival order. -/
def State.carryHeld (s : State) : State :=
  if s.sbHolds = s.sb.held.length then s.sb.held.foldl State.carryOut { s with sb := { s.sb with held := [] } } else s

/-- ENTROPY_STARTUP_COMPLETE (R42, R503). -/
def execEntropyStartupComplete (s : State) : Host.Outcome State Fault Refusal :=
  .next (if s.live && s.rng.state == 0 then
      State.carryHeld (s.runDebug fun s => s.rngReady.answerChallenges (debugWaits s.rng.waiting) true)
    else s)

/-- HEALTH_TEST_FAILURE (R500, R504, R509): the instances are zeroised, the service goes to RETESTING, and what waits fails.
cells are the cells that failed, test 1 repetition count, 2 adaptive proportion. -/
def execHealthTestFailure (cells : Byte) (test : Nat) (s : State) : Host.Outcome State Fault Refusal :=
  .next (if s.live && decide (s.rng.state ≤ 1) && cells != 0 && (test == 1 || test == 2) then
      State.carryHeld (s.runDebug fun s =>
        let waits := s.rng.waiting
        let now := s.cnt.stitch
        let rng :=
          { s.rng with
            state := 2, retests := 1, failMask := cells &&& 15, failTest := test, failures := s.rng.failures + 1,
            drbgs := List.replicate 3 { up := false, calls := 0 }, waiting := [], lastFail := now, firstFail := now }
        (waits.foldl State.failWait { s with rng := rng }).answerChallenges (debugWaits waits) false)
    else s)

/-- RETEST_COMPLETE (R505, R509): READY with fresh instances, a further retest, or, after the third that fails, DISABLED with
ENTROPY_DISABLED. -/
def execRetestComplete (passes : Bool) (s : State) : Host.Outcome State Fault Refusal :=
  .next (s.whenLive fun s =>
    if s.rng.state ≠ 2 then s
    else if passes then s.rngReady
    else
      let r := s.rng
      let s := { s with rng := { r with failures := r.failures + 1, lastFail := s.cnt.stitch } }
      if r.retests < 3 then { s with rng := { s.rng with retests := r.retests + 1 } }
      else
        { s with rng := { s.rng with state := 3 } }.event 4 1 (sourceOf 0 0) none
          (toBytesLE 1 r.failTest ++ toBytesLE 1 r.failMask.toNat ++ toBytesLE 1 r.retests ++ zeroBytes 5 ++ toBytesLE 8 r.firstFail))

end Sys2Proof.Machine
end

