-- ==== Sys2Proof/Machine/LoadArray.lean ====
section
/-! DEFINITION. The array phase of a load (R77-R85, R92, R260, R268, R273, R441, R444, R446, R463). -/

namespace Sys2Proof.Machine

/-- A core's number by die and physical column and row (R454). -/
def coreNumber (c : CoreAt) : Nat := (c.die / 4 * 64 + c.row) * 256 + c.die % 4 * 64 + c.col % 64

/-- A fence found while a load's array phase runs on the core's engine: no run is held, and the load places the row repaired; a row that
holds a fence already is exhausted (R273, R440, R444). -/
def State.fenceInLoad (s : State) (c : CoreAt) : State :=
  let e := c.die
  let spent := ((s.engine e).fenced.any fun f => f.1 == c.row) || (s.engine e).exhausted.contains c.row
  let s := (s.event 1 3 (sourceOf 1 e) none (zeroBytes 8 ++ toBytesLE 8 (coreNumber c))).logFault 1 (sourceOf 1 e) none (coreNumber c)
  let s := s.setEngine e fun g => { g with fenced := addNew (c.row, c.col) g.fenced }
  if spent then
    (s.logFault 2 (sourceOf 1 e) none c.row).setEngine e fun g => { g with exhausted := (g.exhausted ++ [c.row]).eraseDups }
  else s

/-- The engines of a load begin its array phase: they hold no pattern, the fences found on the way are taken, every row that waits for
its repair is placed repaired, and their ledgers are empty (R79, R83, R263, R273). -/
def State.beginArray (s : State) (es : List Nat) (found : List CoreAt) : State :=
  let s := (found.filter fun c => es.contains c.die).foldl (fun s c => s.fenceInLoad c) (s.unload es)
  es.foldl (fun s e => (s.endRepair e none).setEngine e fun g => { g with ledger := [[], []] }) s

/-- Every core that a pattern is written to loses its valid bits before (R89). -/
def State.clearPlaces (s : State) (p : Pattern) : State :=
  p.here.foldl (fun s c =>
    let e := p.engineOf c.shard c.engine
    let col := (s.engine e).physical c
    s.clearCores e fun row x => row == c.row && x == col) s

/-- The report of a loaded pattern (R84). -/
def loadedReport (p : Pattern) (id : Nat) : List Byte :=
  let mine := p.blocks.filter fun b => p.places.any fun x => x.1 == b.shard
  let res := (List.range p.blocks.length).filterMap fun n => (mine.find? fun b => b.num == n).map (·.residue)
  reportBytes 0 1 noDetail p.e0 (sumNat (p.here.map fun c => c.outliers.length)) (maxNat res) res id

/-- A load that stands before another in dispatch order and shares an engine with it, or may, since a load of several shards has chosen
none yet (R80). -/
def State.loadsBefore (s : State) (l : Load) : List Load :=
  (s.grid.loads.takeWhile fun x => x.ref != l.ref).filter fun x =>
    x.engines.isEmpty || l.engines.isEmpty || x.engines.any l.engines.contains

/-- What the array phase finds wrong, with the pattern that it would make (R77, R81, R85, R260, R444, R446). -/
def arrayFaults (s : State) (l : Load) (h : Header) (places : List (Nat × Nat)) : List (Nat × Nat) × Pattern :=
  let g := imageAt s.mem l.image
  let hash := imageHash s.mem l.image h.imageLen
  let here := fun v => decide (h.shards ≤ 1)
    || (placementChecks g h (readDirectory g h) fun _ => true).2.any fun x => x.var == v && places.any fun p => p.1 == x.shard
  let placed := placeImage g h here
  let p := buildPattern s.grid.nextPattern l.image g h places placed
  let spent := p.rowsUsed.any fun r => (s.engine r.1).exhausted.contains r.2
  (chk (s.mem.poisonIn l.image h.imageLen || hash != h.hash || hash != l.hash) 0x03 noDetail
    ++ placed.faults ++ (placedPlans g h places).flatMap (fun x => x.faults h.hash) ++ chk spent 0x06 noDetail, p)

/-- LOAD_ARRAY_PHASE (R78-R85, R273, R444, R460, R463): the first of the loads that share an engine, once its engines are free and their
domains ON. -/
def execLoadArrayPhase (task : TaskRef) (found : List CoreAt) (s : State) : Host.Outcome State Fault Refusal :=
  .next (s.whenLive fun s =>
    match s.grid.loads.find? fun l => l.ref == task with
    | none => s
    | some l =>
      let h := readHeader (imageAt s.mem l.image)
      match if !(s.loadsBefore l).isEmpty || !s.boot.ready then none else loadPlaces s h l with
      | none => s
      | some places =>
        let es := enginesOf h places
        if !es.all s.ready then s.wakeEngines es else
        let s := s.beginArray es found
        let s := { s with grid := { s.grid with loads := s.grid.loads.filter fun x => x.ref != task } }
        let s := s.setTask task fun t => { t with progress := h.imageLen / 64, engines := maskOf 8 es.contains }
        let id := bytesLE (h.hash.take 4)
        let done := arrayFaults s l h places
        match lowestFault done.1 with
        | some f => s.endLoad task l.report f.1 1 f.2 id
        | none =>
          let p := done.2
          let s := (s.clearPlaces p).writeDram l.report (loadedReport p id)
          let s := { s with grid := { s.grid with patterns := s.grid.patterns ++ [p], nextPattern := p.id + 1 } }
          let s := s.setEngines es fun e => { e with pattern := some p.id, state := 2, progress := 0 }
          s.endTask task 0 0)

end Sys2Proof.Machine
end

