-- ==== Sys2Proof/Machine/Streams.lean ====
section
/-! DEFINITION. Frames that carry data as a device receives them (R276, R277, R280, R290, R294, R297, R301, R305): IDLE frames, flits in the
sluice, and the streams of hems, pattern images and gathers. -/

namespace Sys2Proof.Machine

/-- IDLE_FRAME (R276, R280): its FEC, its CRC and its ACK count; it has no place in the order of SEQ. -/
def execIdleFrame (port : Nat) (frame : Arrival) (s : State) : Host.Outcome State Fault Refusal :=
  .next (s.whenLive fun s =>
    let good := LinkFrame.good frame.frame
    if !s.hears port || (good && frame.frame.type != 0) then s
    else
      let s := s.setPort port fun p => p.countFec frame
      if good then s.setPort port fun p => p.release frame.frame else s.failFrame port)

/-- FRAME_ACK_TIMEOUT (R280): a gap, or 1 us without acknowledgement: go-back-N from the first unacknowledged frame, counted in
NL_RETRIES; the eighth resend in a row makes the port retrain. -/
def execFrameAckTimeout (port : Nat) (s : State) : Host.Outcome State Fault Refusal :=
  .next (s.whenLive fun s =>
    if !s.hears port || (s.port port).replay.isEmpty then s
    else
      let s := (s.setPort port fun p => { p with retries := p.retries + 1, resends := p.resends + 1 }).resend port
      if 8 ≤ (s.port port).resends then s.retrain port else s)

/-- FLIT (R277, R294, R305): up to seven flits of consecutive link-plan indices wait in the sluice for the tick that injects them; a Loose
run takes its own at once. -/
def execFlit (port : Nat) (frame : Arrival) (s : State) : Host.Outcome State Fault Refusal :=
  .next (s.run fun s => s.receiveData port 1 frame fun s =>
    let f := frame.frame
    let flits := (List.range (min 7 f.count)).map fun k =>
      ({ port := port, index := f.first + k, bytes := (f.payload.drop (34 * k)).take 34 } : SluiceFlit)
    let s := { s with nl := { s.nl with sluice := s.nl.sluice ++ flits } }
    s.grid.runs.foldl (fun s r => s.takeLoose r.ref) s)

/-! ### Streams (R277) -/

/-- Whether a stream is the one of a frame. -/
def OpenStream.takes (x : OpenStream) (port src stream : Nat) : Bool := x.port == port && x.src == src && x.stream == stream

/-- OPEN (R277). -/
def execOpenStream (port : Nat) (frame : Arrival) (s : State) : Host.Outcome State Fault Refusal :=
  .next (s.run fun s => s.receiveData port 3 frame fun s =>
    let f := frame.frame
    let x : OpenStream :=
      { port := port, src := f.src, stream := f.stream, dest := fieldOf f.payload 0 8,
        length := fieldOf f.payload 8 8, kind := fieldOf f.payload 0x10 1, got := 0, bytes := [] }
    let rest := s.nl.streams.filter fun y => !y.takes port f.src f.stream
    { s with nl := { s.nl with streams := rest ++ [x] } })

/-! ### Hems (R297, R301) -/

/-- The two slots of a buddied shard in the hem region of a run: where they have been, else after those of the shards before it (log 34).
-/
def State.buddySlots (s : State) (r : Run) (shard : Nat) : Nat :=
  let base := fun (h : BuddyHem) => h.addr - 64 * h.lines * h.slot
  let mine := s.nl.hems.filter fun h => h.tag == r.tag && decide (r.blk.hem ≤ h.addr) && decide (h.addr < r.blk.hem + 64 * r.blk.hemLines)
  match mine.find? fun h => h.shard == shard with
  | some h => base h
  | none => mine.foldl (fun m h => max m (base h + 128 * h.lines)) r.blk.hem

/-- The slot that does not hold a shard's newest complete hem. -/
def State.freeSlot (s : State) (tag : DWord) (shard : Nat) : Nat :=
  let mine := s.nl.hems.filter fun h => h.tag == tag && h.shard == shard && h.complete
  let newest := mine.foldl (fun (b : Option BuddyHem) h =>
    match b with | some x => if x.tick < h.tick then some h else b | none => some h) none
  match newest with | some h => 1 - h.slot % 2 | none => 0

/-- Store a hem; COMPLETE is written last (R297). -/
def State.storeHem (s : State) (h : BuddyHem) (bs : List Byte) : State :=
  let rest := s.nl.hems.filter fun x => !(x.tag == h.tag && x.shard == h.shard && x.slot == h.slot)
  { (s.writeDram h.addr bs).write (h.addr + 7) [1] with nl := { s.nl with hems := rest ++ [h] } }

/-- A hem has arrived whole. The buddy of a run puts it into the slot that does not hold its newest complete hem, where that lies in the
run's hem region, and acknowledges it (R297); a device that starts the run as a rehost of the shard keeps it in the shard's local slot, and
goes on from step 3 of R300 once it has the hems of all its shards (R301). Any other hem is dropped. -/
def State.takeHemStream (s : State) (bs : List Byte) : State :=
  let shard := fieldOf bs 6 1
  let tag := BitVec.ofNat 64 (fieldOf bs 8 8)
  let tick := fieldOf bs 0x10 8
  let lines := fieldOf bs 0x18 8
  match (s.runsTagged tag).head? with
  | none => s
  | some r =>
    match s.pattern r.pattern with
    | none => s
    | some p =>
      if bs.length != 64 * lines || fieldOf bs 0 4 != 0x4D454845 then s
      else if !r.begun && r.blk.rehost && p.hosted.contains shard then
        let s := s.storeHem
          { tag := tag, shard := shard, slot := 0, tick := tick, addr := s.localSlot (p.engineOf shard 0) 0, lines := lines, complete := true } bs
        if (s.hemTick tag p.hosted).isSome then (s.joinRun r.ref).beginRun noHost r.ref else s
      else
        let base := s.buddySlots r shard
        if r.blk.hem + 64 * r.blk.hemLines < base + 128 * lines then s
        else
          let slot := s.freeSlot tag shard
          let s := s.storeHem
            { tag := tag, shard := shard, slot := slot, tick := tick, addr := base + 64 * lines * slot, lines := lines, complete := true } bs
          let ack : HemAckMsg := { tag := tag, tick := tick, shard := shard, slot := slot, buddy := s.nodeCode }
          ({ s with nl := { s.nl with acks := s.nl.acks ++ [ack] } }.flood none (.hemAck ack)).noteAck ack

/-! ### Gathers (R247, R290) -/

/-- A shard's parts of the state vectors that a results area shows: they take their place in the records of the same tick. -/
def Results.takePart (x : Results) (vars : List Nat) (part : List (List Bool)) : Results :=
  let put := fun (i : Nat) (k : Kept) => { k with state := setSpins k.state (vars.mapIdx fun j v => (v, (part.getD i []).getD j false)) }
  let first := x.best.toList.length
  { x with best := x.best.map (put 0), elite := x.elite.mapIdx fun i k => put (first + i) k }

/-- A shard's codes, gradients, momentum and row states for a learned image. -/
def Pattern.takeLearned (p : Pattern) (n : Nat) (b : List Byte) : Pattern :=
  let mine := p.shardCores n
  let entries := sumNat (mine.map fun c => c.entries.length)
  let at_ := fun (c : Core) (f : Core → Nat) => sumNat ((mine.takeWhile fun x => x != c).map f)
  let sb := fun (o : Nat) => signed 8 (fieldOf b o 1)
  { p with
    cores := p.cores.map fun c =>
      if c.shard ≠ n then c
      else
        let e0 := 3 * at_ c fun x => x.entries.length
        let r0 := 3 * entries + 32 * at_ c fun x => x.rows.length
        { c with
          entries := c.entries.mapIdx fun i e => { e with code := sb (e0 + 3 * i), grad := sb (e0 + 3 * i + 1), mom := sb (e0 + 3 * i + 2) }
          rows := c.rows.mapIdx fun i r => { r with learn := readRowState fun off k => fieldOf b (r0 + 32 * i + off) k } } }

/-- A gather stream has arrived whole: the part of a shard that another device hosts joins what this device writes for the same tick. -/
def State.takeGather (s : State) (bs : List Byte) : State :=
  let tag := BitVec.ofNat 64 (fieldOf bs 0 8)
  let tick := fieldOf bs 8 8
  let n := fieldOf bs 0x10 1
  let body := bs.drop 64
  (s.runsTagged tag).foldl (fun s r =>
    match s.pattern r.pattern with
    | none => s
    | some p =>
      if !r.begun || p.hosted.contains n || decide (p.header.shards ≤ n) then s
      else if fieldOf bs 0x11 1 = 0 then
        let vars := p.shardVars n
        let one := stateBytes vars.length
        let parts := (List.range r.results.kept.length).map fun i => unpackState vars.length ((body.drop (one * i)).take one)
        if r.tick ≠ tick ∨ body.length ≠ one * r.results.kept.length then s
        else s.setRun r.ref fun r => { r with results := r.results.takePart vars parts }
      else if r.imaging.isSome && r.tick / max 1 p.stepTicks * max 1 p.stepTicks == tick && body.length == (learnedShard p n).length then
        { s with grid := { s.grid with patterns := modifyIf (fun x => x.id == p.id) (fun x => x.takeLearned n body) s.grid.patterns } }
      else s) s

/-- BULK (R277): the next 240 bytes of an open stream. A pattern image goes to its destination in DRAM as it arrives, a hem to its slot and
a gather to its run when they are whole. -/
def execBulk (port : Nat) (frame : Arrival) (s : State) : Host.Outcome State Fault Refusal :=
  .next (s.run fun s => s.receiveData port 2 frame fun s =>
    let f := frame.frame
    match s.nl.streams.find? fun x => x.takes port f.src f.stream with
    | none => s
    | some x =>
      let bs := f.payload.take (min 240 (x.length - x.got))
      let got := x.got + bs.length
      let rest := s.nl.streams.filter fun y => !y.takes port f.src f.stream
      let all := x.bytes ++ bs
      let s := if x.kind = 1 ∧ s.inDram (x.dest + x.length) = true then s.writeDram (x.dest + x.got) bs else s
      if x.length ≤ got then
        let s := { s with nl := { s.nl with streams := rest } }
        match x.kind with
        | 0 => s.takeHemStream all
        | 2 => s.takeGather all
        | _ => s
      else
        let y := { x with got := got, bytes := if x.kind = 1 then [] else all }
        { s with nl := { s.nl with streams := rest ++ [y] } })

end Sys2Proof.Machine
end

