-- ==== Sys2Proof/Machine/Dispatch.lean ====
section
/-! DEFINITION. The one dispatch from commands to meanings. -/

namespace Sys2Proof.Machine

/-- The effect of a command on everything but the queue. -/
def exec (i : Instr) (s : State) : Host.Outcome State Fault Refusal :=
  match i with
  | .porNAssert lowNs => Sys2Proof.Machine.execPorNAssert lowNs s
  | .resetRelease => Sys2Proof.Machine.execResetRelease s
  | .strapLatch pins => Sys2Proof.Machine.execStrapLatch pins s
  | .railLoss rail => Sys2Proof.Machine.execRailLoss rail s
  | .hubReferenceLoss => Sys2Proof.Machine.execHubReferenceLoss s
  | .pcieReferenceLoss => Sys2Proof.Machine.execPcieReferenceLoss s
  | .perstNAssert lowNs => Sys2Proof.Machine.execPerstNAssert lowNs s
  | .perstNDeassert => Sys2Proof.Machine.execPerstNDeassert s
  | .pcieLinkTrained rate width => Sys2Proof.Machine.execPcieLinkTrained rate width s
  | .surpriseLinkDown => Sys2Proof.Machine.execSurpriseLinkDown s
  | .linkRetrain => Sys2Proof.Machine.execLinkRetrain s
  | .functionLevelReset => Sys2Proof.Machine.execFunctionLevelReset s
  | .sensorSample die readings => Sys2Proof.Machine.execSensorSample die readings s
  | .guardEvaluate => Sys2Proof.Machine.execGuardEvaluate s
  | .coldStartRelease => Sys2Proof.Machine.execColdStartRelease s
  | .hubFirmwareVerified avsAnswers core0Ok core1Ok => Sys2Proof.Machine.execHubFirmwareVerified avsAnswers core0Ok core1Ok s
  | .dramTrainingComplete channel outcome => Sys2Proof.Machine.execDramTrainingComplete channel outcome s
  | .enginesIdle failed => Sys2Proof.Machine.execEnginesIdle failed s
  | .mbxReadySet => Sys2Proof.Machine.execMbxReadySet s
  | .nlPresentDebounced port => Sys2Proof.Machine.execNlPresentDebounced port s
  | .nlPortTrained port found => Sys2Proof.Machine.execNlPortTrained port found s
  | .nlPortDetach port prsntHigh => Sys2Proof.Machine.execNlPortDetach port prsntHigh s
  | .rehost tag => Sys2Proof.Machine.execRehost tag s
  | .flit port frame => Sys2Proof.Machine.execFlit port frame s
  | .bulk port frame => Sys2Proof.Machine.execBulk port frame s
  | .openStream port frame => Sys2Proof.Machine.execOpenStream port frame s
  | .frameAckTimeout port => Sys2Proof.Machine.execFrameAckTimeout port s
  | .stitch port frame => Sys2Proof.Machine.execStitch port frame s
  | .arm port frame => Sys2Proof.Machine.execArm port frame s
  | .vote port frame host => Sys2Proof.Machine.execVote port frame host s
  | .sum port frame => Sys2Proof.Machine.execSum port frame s
  | .hemAck port frame => Sys2Proof.Machine.execHemAck port frame s
  | .peerLost port frame => Sys2Proof.Machine.execPeerLost port frame s
  | .link port frame => Sys2Proof.Machine.execLink port frame s
  | .topology port frame => Sys2Proof.Machine.execTopology port frame s
  | .topologyPeriodic => Sys2Proof.Machine.execTopologyPeriodic s
  | .launchAttempt tag host => Sys2Proof.Machine.execLaunchAttempt tag host s
  | .getInfo via => Sys2Proof.Machine.execGetInfo via s
  | .sessionAttachResume host => Sys2Proof.Machine.execSessionAttachResume host s
  | .sessionAttachEnd host => Sys2Proof.Machine.execSessionAttachEnd host s
  | .apertureSet => Sys2Proof.Machine.execApertureSet s
  | .engRelease host => Sys2Proof.Machine.execEngRelease host s
  | .nodeSet via => Sys2Proof.Machine.execNodeSet via s
  | .memFresh => Sys2Proof.Machine.execMemFresh s
  | .memMirrorSet => Sys2Proof.Machine.execMemMirrorSet s
  | .queueCreate => Sys2Proof.Machine.execQueueCreate s
  | .queueDestroy => Sys2Proof.Machine.execQueueDestroy s
  | .queueQuery => Sys2Proof.Machine.execQueueQuery s
  | .queueRearm => Sys2Proof.Machine.execQueueRearm s
  | .taskCancel => Sys2Proof.Machine.execTaskCancel s
  | .runPause => Sys2Proof.Machine.execRunPause s
  | .runResume host => Sys2Proof.Machine.execRunResume host s
  | .runStop => Sys2Proof.Machine.execRunStop s
  | .hangSet => Sys2Proof.Machine.execHangSet s
  | .fenceAllocate => Sys2Proof.Machine.execFenceAllocate s
  | .fenceFree => Sys2Proof.Machine.execFenceFree s
  | .fenceClearErr => Sys2Proof.Machine.execFenceClearErr s
  | .ceChainStart => Sys2Proof.Machine.execCeChainStart s
  | .ceChainStop => Sys2Proof.Machine.execCeChainStop s
  | .faultLogRead via => Sys2Proof.Machine.execFaultLogRead via s
  | .faultRecordRead via => Sys2Proof.Machine.execFaultRecordRead via s
  | .faultRecordClear via => Sys2Proof.Machine.execFaultRecordClear via s
  | .fwUpdate => Sys2Proof.Machine.execFwUpdate s
  | .fwUpdateNextBoot => Sys2Proof.Machine.execFwUpdateNextBoot s
  | .fwStatus via => Sys2Proof.Machine.execFwStatus via s
  | .fwConfirm => Sys2Proof.Machine.execFwConfirm s
  | .fwAbort => Sys2Proof.Machine.execFwAbort s
  | .rngRead => Sys2Proof.Machine.execRngRead s
  | .rngStatus via => Sys2Proof.Machine.execRngStatus via s
  | .powerRead via => Sys2Proof.Machine.execPowerRead via s
  | .guardSet via => Sys2Proof.Machine.execGuardSet via s
  | .cfgCommitGo host => Sys2Proof.Machine.execCfgCommitGo host s
  | .cfgCommitDiscard => Sys2Proof.Machine.execCfgCommitDiscard s
  | .registerWrite offset width value => Sys2Proof.Machine.execRegisterWrite offset width value s
  | .registerReadClear offset width => Sys2Proof.Machine.execRegisterReadClear offset width s
  | .latchingLowRead offset => Sys2Proof.Machine.execLatchingLowRead offset s
  | .nlCtrlWrite port value => Sys2Proof.Machine.execNlCtrlWrite port value s
  | .evtRingTailWrite value => Sys2Proof.Machine.execEvtRingTailWrite value s
  | .msixUnmask vector => Sys2Proof.Machine.execMsixUnmask vector s
  | .apertureRead offset length => Sys2Proof.Machine.execApertureRead offset length s
  | .apertureWrite offset data => Sys2Proof.Machine.execApertureWrite offset data s
  | .tailWrite queue value => Sys2Proof.Machine.execTailWrite queue value s
  | .hswap queue value => Sys2Proof.Machine.execHswap queue value s
  | .handleTableSwap queue => Sys2Proof.Machine.execHandleTableSwap queue s
  | .sproutAck queue value host => Sys2Proof.Machine.execSproutAck queue value host s
  | .slotBind slot queue => Sys2Proof.Machine.execSlotBind slot queue s
  | .descriptorFetch slot line => Sys2Proof.Machine.execDescriptorFetch slot line s
  | .fetchRetry queue => Sys2Proof.Machine.execFetchRetry queue s
  | .slotTimeout slot => Sys2Proof.Machine.execSlotTimeout slot s
  | .taskAdmit slot => Sys2Proof.Machine.execTaskAdmit slot s
  | .taskAgeing task => Sys2Proof.Machine.execTaskAgeing task s
  | .nop task => Sys2Proof.Machine.execNop task s
  | .runAnneal task host => Sys2Proof.Machine.execRunAnneal task host s
  | .runScoring task host => Sys2Proof.Machine.execRunScoring task host s
  | .runLearning task host => Sys2Proof.Machine.execRunLearning task host s
  | .runFromCheckpoint task host => Sys2Proof.Machine.execRunFromCheckpoint task host s
  | .runRehostStart task host => Sys2Proof.Machine.execRunRehostStart task host s
  | .loadPattern task => Sys2Proof.Machine.execLoadPattern task s
  | .loadArrayPhase task found => Sys2Proof.Machine.execLoadArrayPhase task found s
  | .copy task host => Sys2Proof.Machine.execCopy task host s
  | .randomFillStates task host => Sys2Proof.Machine.execRandomFillStates task host s
  | .randomFillBytes task host => Sys2Proof.Machine.execRandomFillBytes task host s
  | .checkpoint task => Sys2Proof.Machine.execCheckpoint task s
  | .fenceSignal task => Sys2Proof.Machine.execFenceSignal task s
  | .fenceWait task => Sys2Proof.Machine.execFenceWait task s
  | .fenceWaitSatisfied task => Sys2Proof.Machine.execFenceWaitSatisfied task s
  | .fenceCycleScan => Sys2Proof.Machine.execFenceCycleScan s
  | .hangInterval => Sys2Proof.Machine.execHangInterval s
  | .engineResetTimeout engine => Sys2Proof.Machine.execEngineResetTimeout engine s
  | .taskRetire task host => Sys2Proof.Machine.execTaskRetire task host s
  | .chainLinkComplete engine host => Sys2Proof.Machine.execChainLinkComplete engine host s
  | .chainWaitSatisfied engine => Sys2Proof.Machine.execChainWaitSatisfied engine s
  | .tickStart engine late => Sys2Proof.Machine.execTickStart engine late s
  | .tickBoundary engine env => Sys2Proof.Machine.execTickBoundary engine env s
  | .ringPoll engine host => Sys2Proof.Machine.execRingPoll engine host s
  | .spoolLoadComplete engine replica => Sys2Proof.Machine.execSpoolLoadComplete engine replica s
  | .weirRebuildComplete engine rung => Sys2Proof.Machine.execWeirRebuildComplete engine rung s
  | .slotIssue engine slot late => Sys2Proof.Machine.execSlotIssue engine slot late s
  | .slotBoundary engine slot env => Sys2Proof.Machine.execSlotBoundary engine slot env s
  | .runBoundary engine env => Sys2Proof.Machine.execRunBoundary engine env s
  | .harvestTick engine late host => Sys2Proof.Machine.execHarvestTick engine late host s
  | .scoringTick engine late host => Sys2Proof.Machine.execScoringTick engine late host s
  | .stepBoundary engine env => Sys2Proof.Machine.execStepBoundary engine env s
  | .learnedImageComplete engine => Sys2Proof.Machine.execLearnedImageComplete engine s
  | .shiftRepairComplete engine => Sys2Proof.Machine.execShiftRepairComplete engine s
  | .wireSteerComplete engine => Sys2Proof.Machine.execWireSteerComplete engine s
  | .dramRead addr error => Sys2Proof.Machine.execDramRead addr error s
  | .dramWrite addr data => Sys2Proof.Machine.execDramWrite addr data s
  | .mergeDrainTimeout channel line => Sys2Proof.Machine.execMergeDrainTimeout channel line s
  | .scrubRead channel error => Sys2Proof.Machine.execScrubRead channel error s
  | .refresh channel bank => Sys2Proof.Machine.execRefresh channel bank s
  | .mr4Poll channel hot => Sys2Proof.Machine.execMr4Poll channel hot s
  | .selfRefreshEntry => Sys2Proof.Machine.execSelfRefreshEntry s
  | .selfRefreshExit => Sys2Proof.Machine.execSelfRefreshExit s
  | .channelLost channel => Sys2Proof.Machine.execChannelLost channel s
  | .domainIdle domain => Sys2Proof.Machine.execDomainIdle domain s
  | .domainWake domain => Sys2Proof.Machine.execDomainWake domain s
  | .domainWakeComplete domain => Sys2Proof.Machine.execDomainWakeComplete domain s
  | .heldRecordDelivery => Sys2Proof.Machine.execHeldRecordDelivery s
  | .controlCoreTakeover => Sys2Proof.Machine.execControlCoreTakeover s
  | .standbyRestore passes => Sys2Proof.Machine.execStandbyRestore passes s
  | .soleCoreFailure => Sys2Proof.Machine.execSoleCoreFailure s
  | .fwWriteComplete readBackGood => Sys2Proof.Machine.execFwWriteComplete readBackGood s
  | .fwLoadComplete verifies => Sys2Proof.Machine.execFwLoadComplete verifies s
  | .fwHandover => Sys2Proof.Machine.execFwHandover s
  | .imageConfirm => Sys2Proof.Machine.execImageConfirm s
  | .confirmWindowTimeout => Sys2Proof.Machine.execConfirmWindowTimeout s
  | .sequencerReload engine => Sys2Proof.Machine.execSequencerReload engine s
  | .entropyStartupComplete => Sys2Proof.Machine.execEntropyStartupComplete s
  | .healthTestFailure cells test => Sys2Proof.Machine.execHealthTestFailure cells test s
  | .retestComplete passes => Sys2Proof.Machine.execRetestComplete passes s
  | .drbgReseed inst => Sys2Proof.Machine.execDrbgReseed inst s
  | .sbRead tag args => Sys2Proof.Machine.execSbRead tag args s
  | .alertRead tag => Sys2Proof.Machine.execAlertRead tag s
  | .alertClear tag args => Sys2Proof.Machine.execAlertClear tag args s
  | .alertResponseAddress => Sys2Proof.Machine.execAlertResponseAddress s
  | .flashRead tag args => Sys2Proof.Machine.execFlashRead tag args s
  | .flashErase tag args => Sys2Proof.Machine.execFlashErase tag args s
  | .flashWrite tag args => Sys2Proof.Machine.execFlashWrite tag args s
  | .recoveryReboot tag => Sys2Proof.Machine.execRecoveryReboot tag s
  | .debugChallenge port => Sys2Proof.Machine.execDebugChallenge port s
  | .debugUnlock port token => Sys2Proof.Machine.execDebugUnlock port token s
  | .dbgAccess head source packet => Sys2Proof.Machine.execDbgAccess head source packet s
  | .extest => Sys2Proof.Machine.execExtest s
  | .samplePreload value => Sys2Proof.Machine.execSamplePreload value s
  | .idcode => Sys2Proof.Machine.execIdcode s
  | .highz => Sys2Proof.Machine.execHighz s
  | .clamp => Sys2Proof.Machine.execClamp s
  | .extestPulse => Sys2Proof.Machine.execExtestPulse s
  | .extestTrain => Sys2Proof.Machine.execExtestTrain s
  | .bypass code => Sys2Proof.Machine.execBypass code s
  | .trstNAssert => Sys2Proof.Machine.execTrstNAssert s
  | .i3cSetdasa staticAddr newAddr => Sys2Proof.Machine.execI3cSetdasa staticAddr newAddr s
  | .i3cEntdaa newAddr => Sys2Proof.Machine.execI3cEntdaa newAddr s
  | .setEndpointId eid => Sys2Proof.Machine.execSetEndpointId eid s
  | .getEndpointId => Sys2Proof.Machine.execGetEndpointId s
  | .getVersionSupport messageType => Sys2Proof.Machine.execGetVersionSupport messageType s
  | .getMessageTypeSupport => Sys2Proof.Machine.execGetMessageTypeSupport s
  | .gettid => Sys2Proof.Machine.execGettid s
  | .settid tid => Sys2Proof.Machine.execSettid tid s
  | .getpldmtypes => Sys2Proof.Machine.execGetpldmtypes s
  | .getpdrrepositoryinfo => Sys2Proof.Machine.execGetpdrrepositoryinfo s
  | .getpdr record => Sys2Proof.Machine.execGetpdr record s
  | .getsensorreading sensor => Sys2Proof.Machine.execGetsensorreading sensor s
  | .getstatesensorreadings sensor => Sys2Proof.Machine.execGetstatesensorreadings sensor s
  | .seteventreceiver receiver => Sys2Proof.Machine.execSeteventreceiver receiver s
  | .platformeventmessage sensor value => Sys2Proof.Machine.execPlatformeventmessage sensor value s
  | .platformEventResend => Sys2Proof.Machine.execPlatformEventResend s
  | .platformEventAck sensor => Sys2Proof.Machine.execPlatformEventAck sensor s
  | .getVersion => Sys2Proof.Machine.execGetVersion s
  | .getCapabilities version => Sys2Proof.Machine.execGetCapabilities version s
  | .negotiateAlgorithms asym hash measurement => Sys2Proof.Machine.execNegotiateAlgorithms asym hash measurement s
  | .getDigests => Sys2Proof.Machine.execGetDigests s
  | .getCertificate slot offset length => Sys2Proof.Machine.execGetCertificate slot offset length s
  | .challenge slot nonce => Sys2Proof.Machine.execChallenge slot nonce s
  | .getMeasurements index signed nonce => Sys2Proof.Machine.execGetMeasurements index signed nonce s
  | .railsGood => Sys2Proof.Machine.execRailsGood s
  | .hubReferenceRestored => Sys2Proof.Machine.execHubReferenceRestored s
  | .pcieReferenceRestored => Sys2Proof.Machine.execPcieReferenceRestored s
  | .retrainTimeout port => Sys2Proof.Machine.execRetrainTimeout port s
  | .topologyExpiry unit => Sys2Proof.Machine.execTopologyExpiry unit s
  | .idleFrame port frame => Sys2Proof.Machine.execIdleFrame port frame s
  | .standbyReloadComplete => Sys2Proof.Machine.execStandbyReloadComplete s
  | .profileChangeComplete => Sys2Proof.Machine.execProfileChangeComplete s
  | .atsInvalidation pages => Sys2Proof.Machine.execAtsInvalidation pages s
  | .doeDiscovery index => Sys2Proof.Machine.execDoeDiscovery index s
  | .mcAlertN channel retryPasses retrainPasses => Sys2Proof.Machine.execMcAlertN channel retryPasses retrainPasses s

end Sys2Proof.Machine
end

