-- ==== Sys2Proof/Machine/Idle.lean ====
section
/-! DEFINITION. What passes while no command waits: one 100 MHz count (R286, R475), the slewing of the stitch counter (R287), the frames
that leave (R279), and the answer to a debug read whose engine has left RUNNING (R162). log 2. -/

namespace Sys2Proof.Machine

/-- What one count adds to the stitch counter: 1, and once in 5,000 counts, which is 200 ppm, one count more or none while it differs
from its root's (R287). -/
def NuthesLink.tickStep (l : NuthesLink) : Nat × NuthesLink :=
  if l.slew = 0 then (1, l)
  else if l.slewIn + 1 < 5000 then (1, { l with slewIn := l.slewIn + 1 })
  else if 0 < l.slew then (2, { l with slew := l.slew - 1, slewIn := 0 })
  else (0, { l with slew := l.slew + 1, slewIn := 0 })

/-- A debug read that waited for an engine is answered once that engine runs no longer. -/
def State.answerStopped (s : State) : State :=
  match s.dbg.held.bind s.holdsRead with
  | some x => if (s.engine x.1).state = 3 then s else s.answerHeld
  | none => s.answerHeld

/-- One count of the stitch counter, and of the time each domain that is ON has been ON (PD_ON_TIME); ports send what waits. Out of
reset only. -/
def idle (s : State) : State :=
  if s.live then
    let step := s.nl.tickStep
    State.answerStopped (State.pump
      { s with
        cnt := { s.cnt with stitch := (s.cnt.stitch + step.1) % 2 ^ 64 }
        nl := step.2
        pow :=
          { s.pow with domains := s.pow.domains.map fun d => if d.state = 2 then { d with onTime := d.onTime + 1 } else d } })
  else s

end Sys2Proof.Machine
end

