-- ==== Sys2Proof/Safety.lean ====
section
/-! DEFINITION. What the statements rest on: the invariant of every state a run meets, the commands that need the device out
of reset, and the words in which frames are said. -/

namespace Sys2Proof

/-- Commands that have no effect while the device is in reset or its clocks are stopped (R25, R26, R30, R33, R37). The others are
the board's pins, rails and references (R25-R37), the sensors and guards (R467, R511), the sideband, which is served at ROM
level whatever the level of POR_N (R511), and the TAP (R519, R520). -/
def Instr.needsClock : Instr → Bool
  | .porNAssert _ | .resetRelease | .railLoss _ | .hubReferenceLoss | .pcieReferenceLoss | .perstNAssert _ | .perstNDeassert
  | .railsGood | .hubReferenceRestored | .pcieReferenceRestored => false
  | .sensorSample _ _ | .guardEvaluate => false
  | .getInfo _ | .nodeSet _ | .faultLogRead _ | .faultRecordRead _ | .faultRecordClear _ | .fwStatus _ | .rngStatus _
  | .powerRead _ | .guardSet _ => false
  | .sbRead _ _ | .alertRead _ | .alertClear _ _ | .alertResponseAddress | .flashRead _ _ | .flashErase _ _
  | .flashWrite _ _ | .recoveryReboot _ => false
  | .debugChallenge _ | .debugUnlock _ _ | .dbgAccess _ _ _ => false
  | .extest | .samplePreload _ | .idcode | .highz | .clamp | .extestPulse | .extestTrain | .bypass _ | .trstNAssert => false
  | .i3cSetdasa _ _ | .i3cEntdaa _ | .setEndpointId _ | .getEndpointId | .getVersionSupport _ | .getMessageTypeSupport
  | .gettid | .settid _ | .getpldmtypes | .getpdrrepositoryinfo | .getpdr _ | .getsensorreading _
  | .getstatesensorreadings _ | .seteventreceiver _ | .platformeventmessage _ _ | .platformEventResend
  | .platformEventAck _ => false
  | .getVersion | .getCapabilities _ | .negotiateAlgorithms _ _ _ | .getDigests | .getCertificate _ _ _ | .challenge _ _ | .getMeasurements _ _ _ => false
  | _ => true

/-- Commands that blow fuses: the confirmation of an image alone (R477, R490). -/
def Instr.blowsFuses : Instr → Bool
  | .imageConfirm => true
  | _ => false

/-- The opcode under which the admin mailbox takes a command (R361, R408, R455, R475, R494). -/
def Instr.adminOp : Instr → Option Nat
  | .getInfo .admin => some 0x0001
  | .sessionAttachResume _ | .sessionAttachEnd _ => some 0x0002
  | .apertureSet => some 0x0003
  | .engRelease _ => some 0x0004
  | .nodeSet .admin => some 0x0005
  | .queueCreate => some 0x0101
  | .queueDestroy => some 0x0102
  | .queueQuery => some 0x0103
  | .queueRearm => some 0x0104
  | .taskCancel => some 0x0105
  | .runPause | .runResume _ | .runStop => some 0x0106
  | .hangSet => some 0x0107
  | .fenceAllocate | .fenceFree | .fenceClearErr => some 0x0108
  | .ceChainStart => some 0x0109
  | .ceChainStop => some 0x010A
  | .memFresh => some 0x0201
  | .memMirrorSet => some 0x0202
  | .faultLogRead .admin | .faultRecordRead .admin | .faultRecordClear .admin => some 0x0301
  | .fwUpdate | .fwUpdateNextBoot => some 0x0401
  | .fwStatus .admin => some 0x0402
  | .fwConfirm => some 0x0403
  | .fwAbort => some 0x0404
  | .rngRead => some 0x0410
  | .rngStatus .admin => some 0x0411
  | .powerRead .admin => some 0x0501
  | .guardSet .admin => some 0x0502
  | _ => none

namespace Machine

/-- What holds of every state a run meets: DRAM has its canonical form, no DRAM operation of an earlier command is left over,
the debug level is one of R521's, and a blown DEBUG_DISABLE keeps the device LOCKED (R521). -/
structure Inv (s : State) : Prop where
  mem : s.mem.wf = true
  ops : s.ops = []
  level : s.dbg.level ≤ 2
  disabled : s.nv.fuses.debugDisable = true → s.dbg.level = 0

/-- Two states agree on everything that belongs to tasks, runs and data: queues, engines, DRAM, channels, peers and what has
been sent to them, the host port. -/
def sameWork (s t : State) : Prop :=
  t.q = s.q ∧ t.grid = s.grid ∧ t.mem = s.mem ∧ t.dram = s.dram ∧ t.nl = s.nl ∧ t.host = s.host

/-- Two states agree on the board, the fuses and flash, the boot state and the control cores. -/
def sameControl (s t : State) : Prop := t.board = s.board ∧ t.nv = s.nv ∧ t.boot = s.boot ∧ t.fw = s.fw

/-- Two states agree on power, heat, the fault log and the counters. -/
def samePlant (s t : State) : Prop := t.pow = s.pow ∧ t.log = s.log ∧ t.cnt = s.cnt

/-- The admin mailbox holds an opcode in a session, and its argument registers are eight (R359, R368). -/
def holdsCommand (s : State) (op : Nat) : Prop :=
  s.adminHolds op = true ∧ s.host.session = true ∧ s.host.mbxArgs.length = 8

/-- The admin mailbox has completed its command with a RESULT (R359). -/
def answered (s t : State) (result : Nat) : Prop :=
  t.host.busy = false ∧ t.host.statResult = BitVec.ofNat 16 result ∧ t.host.statTag = BitVec.ofNat 8 (s.host.mbxCmd.toNat / 2 ^ 16)

/-- Output word k of the admin mailbox. -/
def outWord (t : State) (k : Nat) : Nat := (t.host.mbxArgs.getD k 0).toNat

/-- What a reset leaves: fuses, boot flash, what the device has sent and the waiting commands as they were, everything else but
the board's pins and the TAP as after reset (R26, R34, R521). -/
def wiped (s t : State) : Prop :=
  t.boot.released = false ∧ t.boot.ready = false ∧ t.fw = .reset ∧ t.rng = .reset ∧ t.sb = .reset ∧ t.host = .reset
    ∧ t.cnt = .reset ∧ t.q = .reset ∧ t.grid = State.reset.grid ∧ t.nl = .reset ∧ t.mem = .reset ∧ t.dram = State.reset.dram
    ∧ t.pow = .reset ∧ t.log = State.reset.log ∧ t.dbg.level = 0 ∧ t.dbg.challenge = none ∧ t.nv = s.nv ∧ t.out = s.out
    ∧ t.pending = s.pending

/-- Start-up's own state aside, a command of the board or of start-up changes no task, run, byte of DRAM or flash, or counter. -/
def sameBeyondStartUp (s t : State) : Prop :=
  t.q = s.q ∧ t.grid = s.grid ∧ t.mem = s.mem ∧ t.nv = s.nv ∧ t.cnt = s.cnt ∧ t.log = s.log ∧ t.rng = s.rng

/-- Another event of a class and code than those before has been raised: it was written to the ring, is held, or met 4,096 held
records (R364, R366). -/
def raised (s t : State) (cls code source : Nat) : Prop :=
  ∃ e : Event, e.cls = cls ∧ e.code = code ∧ e.source = source ∧ s.host.evtSeq ≤ e.seq ∧ e.seq < t.host.evtSeq
    ∧ (e ∈ t.host.held ∨ (∃ a, Out.hostWrite none a e.encode false ∈ t.out) ∨ 4096 ≤ t.host.held.length)

/-! ### Tasks -/

/-- Task u has retired: it has left the scoreboard, its completion record is the first thing sent, SEQ last, and its queue's books
have it (R403, R406). -/
def retired (s t : State) (u : Task) (q : Queue) (status detail : Nat) (fenceErr : Bool) : Prop :=
  (∀ x ∈ t.q.tasks, x.ref ≠ u.ref) ∧ t.queue u.ref.queue = some (q.retireSeq u.ref.seq status)
    ∧ ∃ rest, t.out = s.out
        ++ [Out.hostWrite (some q.pasid) (q.recordAddr u.ref.seq + 8) ((recordBytes u status detail fenceErr).drop 8) false,
            Out.hostWrite (some q.pasid) (q.recordAddr u.ref.seq) ((recordBytes u status detail fenceErr).take 8) false] ++ rest

/-- A task is set to retire with a status and DETAIL; TASK_RETIRE writes its record. -/
def ends (t : State) (ref : TaskRef) (status detail : Nat) : Prop :=
  ∃ x, t.task ref = some x ∧ x.phase = .ending status detail false

/-- Task u is dispatched now with a parameter block that reads as b: it is ready and first, device DRAM stands, the block lies in DRAM and
no line of it is poisoned (R318, R379, R386, R395, R446, R447). -/
def dispatched (s : State) (ref : TaskRef) (u : Task) (q : Queue) (opcode n : Nat) (b : List Byte) : Prop :=
  s.task ref = some u ∧ u.opcode = opcode ∧ s.mayDispatch u = true ∧ s.queue ref.queue = some q ∧ s.dramDead = false
    ∧ u.param < hostWindow ∧ s.mem.poisonIn u.param n = false ∧ s.mem.bytes u.param n = b

/-- Every check of a RUN's dispatch passes with block b and pattern p (R385, R386, R396). -/
def runAccepted (s : State) (u : Task) (q : Queue) (p : Pattern) (b : List Byte) : Prop :=
  firstBlockFault (runBlockChecks b (s.mem.field (u.pattern + 0x45) 1) ((readRunBlock b).kind != 0 || p.plan.samples)) = none
    ∧ (hostWindow ≤ u.pattern ∨ s.mem.poisonIn u.pattern 256 = false) ∧ s.runPattern u = some p
    ∧ u.program < max 1 p.programs.length ∧ s.addressFault q u (runRegions s.mem (readRunBlock b) p) = none
    ∧ (((readRunBlock b).resume || ((readRunBlock b).rehost && (readRunBlock b).resumeAt != 0)) = true →
        s.mem.inSoft (readRunBlock b).resumeAt (max 0x500 (s.mem.field ((readRunBlock b).resumeAt + 8) 8)) = true)

/-! ### Runs -/

/-- The device has one run r, of pattern p, on the engines of its mask. -/
def soleRun (s : State) (r : Run) (p : Pattern) : Prop :=
  s.grid.runs = [r] ∧ s.pattern r.pattern = some p ∧ s.grid.engines.length = 8 ∧ r.mask % 256 ≠ 0
    ∧ ∀ e ∈ r.engines, (s.engine e).task = some r.ref

/-- Nothing but missing streams keeps a begun run on one device from its next tick: no bobbin noise, lock-step, no sprouts, no end,
pause or checkpoint due, no record that waits for the ring, no vote held. -/
def unhindered (s : State) (r : Run) (p : Pattern) : Prop :=
  r.begun = true ∧ r.wants = [] ∧ r.ended = none ∧ r.pauseAt = 0 ∧ r.complete p = false ∧ r.blk.noise = false
    ∧ r.blk.loose = false ∧ p.programs = [] ∧ p.header.shards ≤ 1 ∧ r.queue = [] ∧ s.nl.votes = []

/-- An annealing run on one device that streams nothing. -/
def plain (s : State) (r : Run) (p : Pattern) : Prop := unhindered s r p ∧ r.blk.kind = 0 ∧ p.plan.samples = false

/-- The run's books of a refused tick: nothing of the tick is taken, and REPLAY_CNT and REPLAYED rise (R158, R439). -/
def refusedTick (s t : State) (r : Run) : Prop :=
  ∃ x, t.grid.runs = [x] ∧ x.ref = r.ref ∧ x.tick = r.tick ∧ x.progress = r.progress ∧ x.replicas = r.replicas
    ∧ x.results.replayed = r.results.replayed + 1 ∧ t.cnt.replay = s.cnt.replay + 1

end Machine

end Sys2Proof
end

