-- ==== Sys2Proof/WellFormed.lean ====
section
/-! DEFINITION. Which commands are well formed: every operand within the range its rule gives (device counts of R251, R274,
R310, R373, R394, R400, R458; record sizes of R276, R374, R394, R467, R499, R514, R522). -/

namespace Sys2Proof

/-- The checks of an operand list, by name. -/
inductive Check where
  | engine | port | channel | slot | queue | copyEngine | domain | die | readings | core | word
  | access | vector | aperture | line | args | frame | token | nonce | training | width
  | tap | instance_ | symbol
  deriving DecidableEq, Repr

/-- A core address of R252. -/
def CoreAt.wf (c : CoreAt) : Bool := decide (c.die < 8) && decide (c.col ≤ 64) && decide (c.row < 64)

/-- A frame's fields fit its header and its payload is 240 bytes (R276). -/
def LinkFrame.wf (f : LinkFrame) : Bool :=
  decide (f.type < 16) && decide (f.dest < 16) && decide (f.src < 16) && decide (f.seq < 4096) && decide (f.ack < 4096)
    && decide (f.count ≤ 7) && decide (f.stream < 256) && decide (f.first < 65536) && f.payload.length == 240

/-- Sideband arguments: at most eight (R514). -/
def Via.wf : Via → Bool
  | .admin => true
  | .sideband _ args => decide (args.length ≤ 8)

/-- A module report (R311, R314): densities 1-3, ranks 1 or 2, stack 0 or 1, rates 1-4. -/
def Training.wf : Training → Bool
  | .absent => true
  | .module m passes =>
    decide (m.density ≤ 3) && decide (m.ranks ≤ 15) && decide (m.stack ≤ 15) && decide (m.topRate ≤ 4) && decide (passes ≤ 4)

/-- The wrong symbols of a read lie in RS(80,64) (R321). -/
def LineError.wf (e : LineError) : Bool := (e.here ++ e.partner).all fun x => decide (x < 80)

/-- The ill-formed operands of a command, by check; none for a well-formed one. -/
def Instr.failures : Instr → List Check
  | .pcieLinkTrained rate width => (if rate ≤ 7 ∧ (width = 1 ∨ width = 2 ∨ width = 4) then [] else [.width])
  | .sensorSample die rs =>
    (if die ≤ 8 then [] else [.die]) ++ (if rs.length = (if die = 8 then 8 else 16) then [] else [.readings])
  | .dramTrainingComplete ch t => (if ch < 8 then [] else [.channel]) ++ (if t.wf then [] else [.training])
  | .enginesIdle cs => if cs.all CoreAt.wf then [] else [.core]
  | .nlPresentDebounced p | .nlPortTrained p _ | .nlPortDetach p _ | .frameAckTimeout p | .retrainTimeout p => portCheck p
  | .flit p a | .bulk p a | .openStream p a | .idleFrame p a | .stitch p a | .arm p a | .vote p a _ | .sum p a | .hemAck p a
  | .peerLost p a | .link p a | .topology p a => portCheck p ++ (if a.frame.wf then [] else [.frame])
  | .getInfo v | .nodeSet v | .faultLogRead v | .faultRecordRead v | .faultRecordClear v | .fwStatus v | .rngStatus v
  | .powerRead v | .guardSet v => if v.wf then [] else [.args]
  | .registerWrite _ w _ | .registerReadClear _ w => if w = 4 ∨ w = 8 then [] else [.access]
  | .nlCtrlWrite p _ => portCheck p
  | .msixUnmask v => if v < 1056 then [] else [.vector]
  | .apertureRead _ n => if 1 ≤ n ∧ n ≤ 4096 then [] else [.aperture]
  | .apertureWrite _ d => if 1 ≤ d.length ∧ d.length ≤ 512 then [] else [.aperture]
  | .tailWrite q _ | .hswap q _ | .handleTableSwap q | .sproutAck q _ _ | .fetchRetry q => queueCheck q
  | .slotBind s q => slotCheck s ++ queueCheck q
  | .descriptorFetch s l =>
    slotCheck s ++ (match l with | some b => if b.length = 64 then [] else [.line] | none => [])
  | .slotTimeout s | .taskAdmit s => slotCheck s
  | .taskAgeing t | .nop t | .runAnneal t _ | .runScoring t _ | .runLearning t _ | .runFromCheckpoint t _
  | .runRehostStart t _ | .loadPattern t | .loadArrayPhase t _ | .copy t _ | .randomFillStates t _ | .randomFillBytes t _
  | .checkpoint t | .fenceSignal t | .fenceWait t | .fenceWaitSatisfied t | .taskRetire t _ => queueCheck t.queue
  | .engineResetTimeout e | .tickStart e _ | .tickBoundary e _ | .ringPoll e _ | .spoolLoadComplete e _
  | .weirRebuildComplete e _ | .slotIssue e _ _ | .slotBoundary e _ _ | .runBoundary e _ | .harvestTick e _ _
  | .scoringTick e _ _ | .stepBoundary e _ | .learnedImageComplete e | .shiftRepairComplete e | .wireSteerComplete e
  | .sequencerReload e => if e < 8 then [] else [.engine]
  | .chainLinkComplete e _ | .chainWaitSatisfied e => if e < 4 then [] else [.copyEngine]
  | .dramRead a e => (if a < 2 ^ 47 then [] else [.aperture]) ++ (if e.wf then [] else [.symbol])
  | .dramWrite a d => if a + d.length ≤ 2 ^ 47 then [] else [.aperture]
  | .scrubRead c e => (if c < 8 then [] else [.channel]) ++ (if e.wf then [] else [.symbol])
  | .mergeDrainTimeout c _ | .refresh c _ | .mr4Poll c _ | .channelLost c | .mcAlertN c _ _ =>
    if c < 8 then [] else [.channel]
  | .domainIdle d | .domainWake d | .domainWakeComplete d => if d < 116 then [] else [.domain]
  | .healthTestFailure _ t => if t = 1 ∨ t = 2 then [] else [.instance_]
  | .drbgReseed i => if i < 3 then [] else [.instance_]
  | .sbRead _ a | .alertClear _ a | .flashRead _ a | .flashErase _ a | .flashWrite _ a =>
    if a.length ≤ 8 then [] else [.args]
  | .debugUnlock _ t => if t.length = 256 then [] else [.token]
  | .dbgAccess _ _ p =>
    match p with
    | .readArray c w => (if c.wf then [] else [.core]) ++ (if w < 6148 then [] else [.word])
    | .readField c i => (if c.wf then [] else [.core]) ++ (if i < 4096 then [] else [.word])
    | .writeArray c w _ => (if c.wf then [] else [.core]) ++ (if w < 6148 then [] else [.word])
    | .readRouter c _ => if c.wf then [] else [.core]
    | .readSequencer e _ | .readWindow e _ => if e < 8 then [] else [.engine]
    | .halt _ | .stepCore _ => []
  | .challenge _ n | .getMeasurements _ _ n => if n.length = 32 then [] else [.nonce]
  | .samplePreload v => if v < 2 ^ 2944 then [] else [.tap]
  | _ => []
where
  portCheck (p : Nat) : List Check := if p < 4 then [] else [.port]
  queueCheck (q : Nat) : List Check := if q < 1024 then [] else [.queue]
  slotCheck (s : Nat) : List Check := if s < 32 then [] else [.slot]

/-- A well-formed command. -/
def Instr.wf (i : Instr) : Bool := i.failures.isEmpty

end Sys2Proof
end

