-- ==== Sys2Proof/Certificates/Slice0/Obligations.lean ====
section
/-! DEFINITION. The statements for the provers. A command's statement gives the next state that its own effect makes, under
hypotheses on the state and the operands alone; frames say what a family of commands leaves as it was. A rule named in
parentheses is where the words before it come from; what a statement claims is those words, not the whole rule. -/

open Sys2Proof Sys2Proof.Machine

/-! ### The block as a whole -/

/-- A step carries out the command at the front of the queue on the state with the queue's rest. -/
def Obligations.StepCarriesOutTheFrontCommand : Prop :=
  ∀ (c : Instr) (rest : List Instr) (s : State), s.pending = c :: rest →
    Sys2Proof.Machine.step s = Sys2Proof.Machine.exec c { s with pending := rest }

/-- With no command waiting a step lets one count pass while the device is out of reset, and nothing otherwise: the stitch counter
advances, by one but for the count in 5,000 in which a device that differs from its root slews (R286, R287); domains that are ON count
their time, and ports send frames that wait (R279). That a step is one count is the model's choice (log 2). -/
def Obligations.AnIdleStepPassesOneStitchCount : Prop :=
  ∀ s : State, s.pending = [] →
    (s.live = true → ∃ t, Sys2Proof.Machine.step s = .next t
      ∧ t.cnt.stitch = (s.cnt.stitch
          + (if s.nl.slew = 0 ∨ s.nl.slewIn + 1 < 5000 then 1 else if 0 < s.nl.slew then 2 else 0)) % 2 ^ 64
      ∧ t.cnt.replay = s.cnt.replay ∧ t.cnt.stretch = s.cnt.stretch
      ∧ (∀ d, d < s.pow.domains.length → (s.domain d).state = 2 → (t.domain d).onTime = (s.domain d).onTime + 1)
      ∧ t.q = s.q ∧ t.grid = s.grid ∧ t.mem = s.mem ∧ t.dram = s.dram ∧ t.host = s.host ∧ sameControl s t
      ∧ t.pow.guards = s.pow.guards ∧ t.log = s.log ∧ t.rng = s.rng ∧ t.sb = s.sb
      ∧ t.dbg.level = s.dbg.level ∧ (s.dbg.held = none → t.dbg = s.dbg)
      ∧ ∃ frames : List (Nat × LinkFrame), t.out = s.out ++ frames.map fun x => Out.frame x.1 x.2)
    ∧ (s.live = false → Sys2Proof.Machine.step s = .next s)

/-- The state after reset, where the manual gives values: registers of the host port, the profile and channel registers, the
entropy service, the sideband, the debug lock, the guards, the domains, the slots and the copy engines (R310, R348, R351,
R359, R363, R396, R401, R475, R502, R521). -/
def Obligations.ResetHoldsTheManualsValues : Prop :=
  let s := State.reset
  s.live = false ∧ s.boot.ready = false ∧ mbxStat s = 0 ∧ cfgStatus s = 0 ∧ s.host.irqMask = 0x17E ∧ s.host.evtBase = .reset 0
    ∧ s.host.evtHead = 0 ∧ s.host.evtTail = 0 ∧ s.host.evtArmed = true ∧ s.host.aperture = 0 ∧ s.host.session = false
    ∧ s.cnt.stitch = 0 ∧ launchAt s = 2 ^ 64 - 1
    ∧ s.grid.engines.length = 8 ∧ (∀ e, e < 8 → engState s e = 0 ∧ holdCause s e = 0)
    ∧ s.dram.channels.length = 8 ∧ (∀ c, c < 8 → mcStatus (s.channel c) = 0 ∧ (s.channel c).period = 0x18)
    ∧ s.q.slots.length = 32 ∧ (∀ i, i < 32 → (s.slot i).cfg.force = 4 + i / 8)
    ∧ s.q.engines.length = 4 ∧ (∀ c, c < 4 → (s.copyEngine c).cfg.force = 3 ∧ ceStatus (s.copyEngine c) = 0)
    ∧ s.pow.domains.length = 116 ∧ s.pow.threshold = 1600
    ∧ s.rng.state = 0 ∧ s.dbg.level = 0 ∧ s.sb.alert = 0 ∧ s.mem = Mem.reset ∧ s.pending = []

/-- The state after reset meets the invariant. -/
def Obligations.ResetMeetsTheInvariant : Prop := Inv State.reset

/-- Every command is carried out to a next state: no command faults or refuses, and none touches the queue of commands. -/
def Obligations.EveryCommandAnswersAndLeavesTheQueue : Prop :=
  ∀ (c : Instr) (s : State), ∃ t, Sys2Proof.Machine.exec c s = .next t ∧ t.pending = s.pending

/-- Fused values: a fuse is blown only at the confirmation of an image, and none is ever unwritten: ROLLBACK never falls and
REVOKE0 never clears; every other fused value stands for good (R477, R490). -/
def Obligations.FusesAreBlownOnlyAtConfirmation : Prop :=
  ∀ (c : Instr) (s t : State), Sys2Proof.Machine.exec c s = .next t →
    (c.blowsFuses = false → t.nv.fuses = s.nv.fuses)
    ∧ s.nv.fuses.rollback ≤ t.nv.fuses.rollback ∧ (s.nv.fuses.revoke0 = true → t.nv.fuses.revoke0 = true)
    ∧ t.nv.fuses = { s.nv.fuses with rollback := t.nv.fuses.rollback, revoke0 := t.nv.fuses.revoke0 }

/-- The debug level changes only by a reset, which locks the device, or by an accepted token on a device whose DEBUG_DISABLE
fuse is not blown (R521, R522): one that the command brings, or one of a request that the device held behind a challenge and now
carries out (R515). -/
def Obligations.DebugLevelMovesOnlyByTokenOrReset : Prop :=
  ∀ (c : Instr) (s t : State), Sys2Proof.Machine.exec c s = .next t → t.dbg.level ≠ s.dbg.level →
    t.dbg.level = 0
      ∨ ∃ port token challenge, tokenAccepted s.nv.fuses challenge token = true ∧ s.nv.fuses.debugDisable = false
          ∧ t.dbg.level = bytesLE ((token.drop 0x28).take 1)
          ∧ (c = .debugUnlock port token ∧ challenge = s.dbg.challenge ∨ Instr.debugUnlock port token ∈ s.sb.held)

/-- Every step keeps the invariant: DRAM's canonical form, the emptiness of the operation list, and the debug lock (R521). -/
def Obligations.EveryStepKeepsTheInvariant : Prop :=
  ∀ s t : State, Inv s → Sys2Proof.Machine.step s = .next t → Inv t

/-- While the device is in reset or its clocks are stopped, every command but those of the board, the sensors, the sideband
and the TAP leaves it exactly as it was (R25, R26, R30, R33, R37). A latched thermal trip lasts until VDD_IO18 is removed,
whatever is commanded (R37). -/
def Obligations.InResetOnlyBoardSidebandAndTapAct : Prop :=
  (∀ (c : Instr) (s : State), c.needsClock = true → s.live = false → s.ops = [] → Sys2Proof.Machine.exec c s = .next s)
  ∧ (∀ (c : Instr) (s t : State), s.board.tripped = true → s.ops = [] → Sys2Proof.Machine.exec c s = .next t →
       t.board.tripped = true ∨ c = .railLoss .vddIo18)

/-! ### JTAG -/

/-- Instructions of the TAP while the management domain is powered: IDCODE, BYPASS with every code the table does not list,
and TRST_N, which selects IDCODE (R519); those that drive pins take effect only while POR_N is low and act as BYPASS with
capture bit [2] set at any other time (R520). SAMPLE/PRELOAD captures the pins (a free value, log 17) and takes the value
shifted in, 2,944 cells. Nothing but the TAP changes. -/
def Obligations.TapInstructionsLoadAsTheTableGives : Prop :=
  (∀ s : State, s.tapUp = true →
     let tap := fun (ir : TapIr) (refused : Bool) (v : Nat) =>
       (Host.Outcome.next { s with dbg := { s.dbg with ir := ir, refused := refused, dr := v, held := none } } :
         Host.Outcome State Fault Refusal)
     Sys2Proof.Machine.exec .idcode s = tap .idcode false 0x18140ABB
     ∧ Sys2Proof.Machine.exec .trstNAssert s = tap .idcode false 0x18140ABB
     ∧ (∀ code : Byte, code.toNat ∉ [0, 1, 2, 3, 4, 5, 6, 0x10, 0x11, 0x12] →
         Sys2Proof.Machine.exec (.bypass code) s = tap .bypass false 0)
     ∧ (s.board.por = true →
         Sys2Proof.Machine.exec .extest s = tap .extest false s.dbg.bsr
         ∧ Sys2Proof.Machine.exec .extestPulse s = tap .extestPulse false s.dbg.bsr
         ∧ Sys2Proof.Machine.exec .extestTrain s = tap .extestTrain false s.dbg.bsr
         ∧ Sys2Proof.Machine.exec .highz s = tap .highz false 0 ∧ Sys2Proof.Machine.exec .clamp s = tap .clamp false 0)
     ∧ (s.board.por = false →
         ∀ c ∈ [Instr.extest, .extestPulse, .extestTrain, .highz, .clamp], Sys2Proof.Machine.exec c s = tap .bypass true 0))
  ∧ (∀ (s : State) (v : Nat), s.tapUp = true → v < 2 ^ 2944 →
       ∃ t, Sys2Proof.Machine.exec (.samplePreload v) s = .next t ∧ t.dbg.ir = .sample ∧ t.dbg.refused = false ∧ t.dbg.bsr = v
         ∧ t.dbg.level = s.dbg.level ∧ t.dbg.challenge = s.dbg.challenge ∧ sameWork s t ∧ sameControl s t ∧ samePlant s t
         ∧ t.sb = s.sb ∧ t.rng = s.rng ∧ t.out = s.out)

/-! ### Sideband -/

/-- Bus addressing and MCTP control at ROM level: SETDASA and ENTDAA give a dynamic address to a device that has none on an
I3C bus; an SMBus alert is answered with the static address; the endpoint ID is set and read back; MCTP versions and message
types are answered. PLDM discovery at firmware level: the terminus ID, types 0 and 2, a repository of 25 records, each with
the handle of the next, and the event receiver. PLDM sensors and events: a numeric sensor returns its last refreshed reading;
state sensors show the device, the entropy service and the engines; an occasion becomes a message that waits for its
acknowledgement, is sent again with every other that waits, and leaves when it is acknowledged (R32, R510-R513; layouts and completion codes by log 17). -/
def Obligations.MctpAndPldmAnswer : Prop :=
  (∀ s : State, s.sbRom = true →
     (∀ a n : Byte, busI3c s = true → a.toNat = 0x60 + natBits s.boot.straps.toNat 1 3 → s.sb.dynAddr = none →
       ∃ t, Sys2Proof.Machine.exec (.i3cSetdasa a n) s = .next t ∧ t.sb.dynAddr = some n)
     ∧ (∀ n : Byte, busI3c s = true → s.sb.dynAddr = none →
       ∃ t, Sys2Proof.Machine.exec (.i3cEntdaa n) s = .next t ∧ t.sb.dynAddr = some n)
     ∧ (busI3c s = false → s.sb.alert ≠ 0 → ∃ t, Sys2Proof.Machine.exec .alertResponseAddress s = .next t
       ∧ t.sb.reply.map (·.bytes) = some [BitVec.ofNat 8 (2 * (0x60 + natBits s.boot.straps.toNat 1 3))])
     ∧ (∀ e : Byte, ∃ t, Sys2Proof.Machine.exec (.setEndpointId e) s = .next t ∧ t.sb.eid = e)
     ∧ (∃ t, Sys2Proof.Machine.exec .getEndpointId s = .next t ∧ t.sb.reply.map (·.bytes) = some [0, s.sb.eid, 0, 0])
     ∧ (∀ m : Byte, m = 0x00 ∨ m = 0x01 ∨ m = 0x05 ∨ m = 0x7E →
       ∃ t, Sys2Proof.Machine.exec (.getVersionSupport m) s = .next t
         ∧ t.sb.reply.map (·.bytes) = some [0, 1, 0xF1, 0xF3, 0xF1, 0])
     ∧ ∃ t, Sys2Proof.Machine.exec .getMessageTypeSupport s = .next t
         ∧ t.sb.reply.map (·.bytes) = some [0, 3, 0x01, 0x05, 0x7E])
  ∧ (∀ s : State, s.sbRom = true → s.sbFirmware = true →
       (∃ t, Sys2Proof.Machine.exec .gettid s = .next t ∧ t.sb.reply.map (·.bytes) = some [0, s.sb.tid])
       ∧ (∀ n : Byte, ∃ t, Sys2Proof.Machine.exec (.settid n) s = .next t ∧ t.sb.tid = n)
       ∧ (∃ t, Sys2Proof.Machine.exec .getpldmtypes s = .next t
           ∧ t.sb.reply.map (·.bytes) = some (0 :: toBytesLE 8 (2 ^ 0 + 2 ^ 2)))
       ∧ (∃ t, Sys2Proof.Machine.exec .getpdrrepositoryinfo s = .next t
           ∧ (t.sb.reply.map fun r => r.bytes.take 6) = some ([0, 0] ++ toBytesLE 4 25))
       ∧ (∀ k : Nat, 1 ≤ k → k ≤ 25 → ∃ t, Sys2Proof.Machine.exec (.getpdr k) s = .next t
           ∧ (t.sb.reply.map fun r => r.bytes.take 7)
             = some (0 :: toBytesLE 4 (if k = 25 then 0 else k + 1) ++ toBytesLE 2 (if k ≤ 15 then k else k + 4)))
       ∧ ∀ r : Byte, ∃ t, Sys2Proof.Machine.exec (.seteventreceiver r) s = .next t ∧ t.sb.receiver = some r)
  ∧ (∀ s : State, s.sbRom = true →
       (∀ k : Nat, 1 ≤ k → k ≤ 15 → (k ≤ 9 ∨ s.sbFirmware = true) →
         ∃ t, Sys2Proof.Machine.exec (.getsensorreading k) s = .next t
           ∧ t.sb.reply.map (·.bytes) = some (0 :: toBytesLE 4 (unsigned 32 (s.sb.readings.getD (k - 1) 0))))
       ∧ (∃ t, Sys2Proof.Machine.exec (.getstatesensorreadings 20) s = .next t
           ∧ t.sb.reply.map (·.bytes) = some [0, 1, BitVec.ofNat 8 (deviceSensor s)])
       ∧ (s.sbFirmware = true → ∃ t, Sys2Proof.Machine.exec (.getstatesensorreadings 21) s = .next t
           ∧ t.sb.reply.map (·.bytes) = some [0, 1, BitVec.ofNat 8 s.rng.state])
       ∧ (∀ e : Nat, e < 8 → s.sbFirmware = true → ∃ t, Sys2Proof.Machine.exec (.getstatesensorreadings (22 + e)) s = .next t
           ∧ t.sb.reply.map (·.bytes) = some [0, 1, BitVec.ofNat 8 (s.engine e).state])
       ∧ (∀ (e : PlatformEvent) (rest : List PlatformEvent), s.sb.due = e :: rest → s.sb.events.length < 16 →
         ∃ t, Sys2Proof.Machine.exec (.platformeventmessage e.sensor e.value) s = .next t
           ∧ t.sb.due = rest ∧ t.sb.events = s.sb.events ++ [e] ∧ t.out = s.out ++ [.platformEvent e])
       ∧ (∃ t, Sys2Proof.Machine.exec .platformEventResend s = .next t
           ∧ t.sb.events = s.sb.events ∧ t.out = s.out ++ s.sb.events.map .platformEvent)
       ∧ ∀ (e : PlatformEvent) (rest : List PlatformEvent), s.sb.events = e :: rest →
         ∃ t, Sys2Proof.Machine.exec (.platformEventAck e.sensor) s = .next t ∧ t.sb.events = rest)

/-- The SPDM responder at firmware level: version, capabilities and algorithms are negotiated in that order; then digests,
portions of the certificate chain in slot 0, and measurement blocks are returned; a challenge and signed measurements are
answered when the entropy service is READY and wait while it is STARTING (R42, R496-R499, R502; message bytes by log 17). -/
def Obligations.SpdmConnectionRunsInOrder : Prop :=
  ∀ s : State, s.sbFirmware = true →
    (∃ t, Sys2Proof.Machine.exec .getVersion s = .next t ∧ t.sb.spdm = 1)
    ∧ (∀ v : Byte, 1 ≤ s.sb.spdm → v = 0x12 ∨ v = 0x13 →
      ∃ t, Sys2Proof.Machine.exec (.getCapabilities v) s = .next t ∧ t.sb.spdm = 2 ∧ t.sb.spdmVersion = v)
    ∧ (∀ a h m : Word, 2 ≤ s.sb.spdm → natBit a.toNat 7 = true → natBit h.toNat 1 = true → natBit m.toNat 2 = true →
      ∃ t, Sys2Proof.Machine.exec (.negotiateAlgorithms a h m) s = .next t ∧ t.sb.spdm = 3)
    ∧ (3 ≤ s.sb.spdm →
      (∃ t, Sys2Proof.Machine.exec .getDigests s = .next t
        ∧ (t.sb.reply.map fun r => r.bytes.drop 4) = some (sha384 (certChain s)))
      ∧ (∀ off len : Nat, ∃ t, Sys2Proof.Machine.exec (.getCertificate 0 off len) s = .next t
        ∧ (off < (certChain s).length → (t.sb.reply.map fun r => r.bytes.drop 8) = some (((certChain s).drop off).take len))
        ∧ ((certChain s).length ≤ off → t.sb.reply.map (·.bytes) = some (spdmError 0x01)))
      ∧ (∀ (i : Nat) (n : List Byte), 1 ≤ i → i ≤ 14 → ∃ t, Sys2Proof.Machine.exec (.getMeasurements i false n) s = .next t
        ∧ (t.sb.reply.map fun r => r.bytes.drop 8) = some (measurementBlock s i))
      ∧ (∀ n : List Byte, s.rng.state = 1 → ∃ t, Sys2Proof.Machine.exec (.challenge 0 n) s = .next t
        ∧ (t.sb.reply.map fun r => r.bytes.take (challengeBody s).length) = some (challengeBody s))
      ∧ (∀ n : List Byte, s.rng.state = 0 → ∃ t, Sys2Proof.Machine.exec (.challenge 0 n) s = .next t
        ∧ t.rng.waiting = s.rng.waiting ++ [.spdmChallenge 0 n] ∧ t.sb.reply = s.sb.reply)
      ∧ (∀ (i : Nat) (n : List Byte), 1 ≤ i → i ≤ 14 → s.rng.state = 1 →
        ∃ t, Sys2Proof.Machine.exec (.getMeasurements i true n) s = .next t
          ∧ (t.sb.reply.map fun r => r.bytes.take (measurementsBody s i [i]).length) = some (measurementsBody s i [i]))
      ∧ ∀ (i : Nat) (n : List Byte), 1 ≤ i → i ≤ 14 → s.rng.state = 0 →
        ∃ t, Sys2Proof.Machine.exec (.getMeasurements i true n) s = .next t
          ∧ t.rng.waiting = s.rng.waiting ++ [.spdmMeasurements i n] ∧ t.sb.reply = s.sb.reply)

/-- Sideband reads and alerts, while the device holds no request behind a challenge: SB_READ returns a register's 64-bit value without clearing it or using WSEL, ALERT_READ the
cause mask, and ALERT_CLEAR clears the named causes but not one whose condition lasts (R516, R517). Behind a held challenge a request
waits in its turn, and a fifth is answered with STATE (R515). In recovery a flash write
stores its bytes, an erase makes a sector or block read as 0xFF, a read returns up to 64 bytes, all below 0x02000000, and a
reboot resets the device (R518; that a written byte stands as written is log 7's choice). -/
def Obligations.SidebandReadsAlertsAndRecovery : Prop :=
  (∀ (s : State) (tag : Byte), s.sbRom = true → s.sbHolds = 0 →
     (∀ off : Nat, s.sbFirmware = true → off < 0x4000 →
       ∃ t, Sys2Proof.Machine.exec (.sbRead tag [BitVec.ofNat 64 (off * 2 ^ 16)]) s = .next t
         ∧ (t.sb.reply.map fun r => (r.result, r.words)) = some (0, [BitVec.ofNat 64 (regRead s 0 0 off 8)]) ∧ t.host = s.host)
     ∧ (∀ cls i off : Nat, s.sbFirmware = true → wselValid cls i = true → off < 2 ^ 16 →
       ∃ t, Sys2Proof.Machine.exec (.sbRead tag [BitVec.ofNat 64 (off * 2 ^ 16 + cls * 2 ^ 12 + i)]) s = .next t
         ∧ (t.sb.reply.map fun r => (r.result, r.words)) = some (0, [BitVec.ofNat 64 (regRead s cls i off 8)])
         ∧ t.host = s.host ∧ t.dram = s.dram ∧ t.nl = s.nl ∧ t.q = s.q ∧ t.pow = s.pow)
     ∧ (∃ t, Sys2Proof.Machine.exec (.alertRead tag) s = .next t
         ∧ (t.sb.reply.map fun r => r.words) = some [BitVec.ofNat 64 s.sb.alert.toNat])
     ∧ ∀ bits : Byte, ∃ t, Sys2Proof.Machine.exec (.alertClear tag [bits.setWidth 64]) s = .next t
         ∧ t.sb.alert = (s.sb.alert &&& ~~~bits) ||| (s.sb.alert &&& lastingCauses s))
  ∧ (∀ (s : State) (tag : Byte) (args : List DWord), s.sbRom = true →
       (1 ≤ s.sbHolds → s.sbHolds < 4 → ∃ t, Sys2Proof.Machine.exec (.sbRead tag args) s = .next t
         ∧ t.sb.held = s.sb.held ++ [.sbRead tag args] ∧ t.sb.reply = s.sb.reply)
       ∧ (4 ≤ s.sbHolds → ∃ t, Sys2Proof.Machine.exec (.sbRead tag args) s = .next t
         ∧ t.sb.held = s.sb.held ∧ (t.sb.reply.map fun r => (r.tag, r.result)) = some (tag, 3)))
  ∧ (∀ (s : State) (tag : Byte), s.sbRom = true → s.boot.recovery = true → s.sbHolds = 0 →
       (∀ (a n : Nat) (ws : List DWord), 1 ≤ n → n ≤ 48 → n ≤ 8 * ws.length → a + n ≤ 0x02000000 → cellsWf 0xFF s.nv.flash = true →
         ∃ t, Sys2Proof.Machine.exec (.flashWrite tag (BitVec.ofNat 64 a :: BitVec.ofNat 64 n :: ws)) s = .next t
           ∧ t.nv.bytes a n = (ws.flatMap fun w => toBytesLE 8 w.toNat).take n
           ∧ (∀ x, x < a ∨ a + n ≤ x → t.nv.bytes x 1 = s.nv.bytes x 1) ∧ cellsWf 0xFF t.nv.flash = true)
       ∧ (∀ k a : Nat, k < 2 → a % (if k = 0 then 4096 else 65536) = 0 → a < 0x02000000 → cellsWf 0xFF s.nv.flash = true →
         ∃ t, Sys2Proof.Machine.exec (.flashErase tag [BitVec.ofNat 64 a, BitVec.ofNat 64 k]) s = .next t
           ∧ (∀ x, a ≤ x → x < a + (if k = 0 then 4096 else 65536) → t.nv.bytes x 1 = [0xFF])
           ∧ (∀ x, x < a ∨ a + (if k = 0 then 4096 else 65536) ≤ x → t.nv.bytes x 1 = s.nv.bytes x 1)
           ∧ cellsWf 0xFF t.nv.flash = true)
       ∧ (∀ a n : Nat, 1 ≤ n → n ≤ 64 → a + n ≤ 0x02000000 →
         ∃ t, Sys2Proof.Machine.exec (.flashRead tag [BitVec.ofNat 64 a, BitVec.ofNat 64 n]) s = .next t
           ∧ (t.sb.reply.map fun r => (r.result, r.words)) = some (0, (wordsOf (s.nv.bytes a n)).map (BitVec.ofNat 64))
           ∧ t.nv = s.nv)
       ∧ Sys2Proof.Machine.exec (.recoveryReboot tag) s = .next s.enterReset)

/-- Requests of the bus, MCTP control, PLDM, SPDM, SB_READ and the alert commands change nothing but the sideband, the entropy
service's books and what has been sent: no task, run, register of the host port, byte of DRAM or flash, fault-log entry or
counter (R511, R516: a controller can observe the device but not steer it). -/
def Obligations.SidebandRequestsSteerNothing : Prop :=
  ∀ (c : Instr) (s t : State), s.ops = [] →
    (match c with
      | .i3cSetdasa _ _ | .i3cEntdaa _ | .alertResponseAddress | .setEndpointId _ | .getEndpointId | .getVersionSupport _
      | .getMessageTypeSupport | .gettid | .settid _ | .getpldmtypes | .getpdrrepositoryinfo | .getpdr _ | .getsensorreading _
      | .getstatesensorreadings _ | .seteventreceiver _ | .platformeventmessage _ _ | .platformEventResend
      | .platformEventAck _ | .getVersion | .getCapabilities _ | .negotiateAlgorithms _ _ _ | .getDigests
      | .getCertificate _ _ _ | .challenge _ _ | .getMeasurements _ _ _ | .sbRead _ _ | .alertRead _ | .alertClear _ _ => True
      | _ => False) →
    Sys2Proof.Machine.exec c s = .next t → sameWork s t ∧ sameControl s t ∧ samePlant s t ∧ t.dbg = s.dbg

/-! ### Debug port -/

/-- The debug port: a challenge is a fresh draw that replaces the one before, waits while the entropy service is STARTING, and
returns STATE with DEBUG_DISABLE blown; a token is accepted or not, and the challenge is consumed either way (sideband, no request
held). A packet whose words arrive whole (R266) is carried out: reads need OBSERVE, and one that must wait for a boundary waits (R162);
writes, halting and stepping need FULL, and no write reaches an engine that holds a pattern (R42, R521, R522). -/
def Obligations.DebugPortFollowsTheLock : Prop :=
  (∀ (s : State), s.sbRom = true → s.sbFirmware = true → s.sbHolds = 0 →
    (∀ tag : Byte, s.nv.fuses.debugDisable = false → s.rng.state = 1 →
      ∃ t, Sys2Proof.Machine.exec (.debugChallenge (.sideband tag)) s = .next t
        ∧ t.dbg.challenge = some ((List.range 32).map fun k => Config.drbgByte 0 (s.free + k))
        ∧ t.free = s.free + 32 ∧ t.dbg.level = s.dbg.level)
    ∧ (∀ tag : Byte, s.nv.fuses.debugDisable = false → s.rng.state = 0 →
      ∃ t, Sys2Proof.Machine.exec (.debugChallenge (.sideband tag)) s = .next t
        ∧ t.rng.waiting = s.rng.waiting ++ [.debugChallenge (.sideband tag)] ∧ t.dbg = s.dbg)
    ∧ (∀ tag : Byte, s.nv.fuses.debugDisable = true → ∃ t, Sys2Proof.Machine.exec (.debugChallenge (.sideband tag)) s = .next t
        ∧ (t.sb.reply.map fun r => r.result) = some 3 ∧ t.dbg = s.dbg)
    ∧ (∀ (tag : Byte) (token : List Byte), tokenAccepted s.nv.fuses s.dbg.challenge token = true →
        s.nv.fuses.debugDisable = false →
      ∃ t, Sys2Proof.Machine.exec (.debugUnlock (.sideband tag) token) s = .next t
        ∧ t.dbg.level = bytesLE ((token.drop 0x28).take 1) ∧ t.dbg.challenge = none
        ∧ (t.sb.reply.map fun r => r.result) = some 0)
    ∧ (∀ (tag : Byte) (token : List Byte), tokenAccepted s.nv.fuses s.dbg.challenge token = false →
      ∃ t, Sys2Proof.Machine.exec (.debugUnlock (.sideband tag) token) s = .next t
        ∧ t.dbg.level = s.dbg.level ∧ t.dbg.challenge = none ∧ (t.sb.reply.map fun r => r.result) = some 2))
  ∧ (∀ (s : State) (head source : NarrowWord), s.live = true → s.tapUp = true →
    (∀ (e off : Nat), e < 8 → 1 ≤ s.dbg.level → debugWhole head source (.readWindow e off) = true →
        (NarrowHead.ofWord head.bits).col ≠ 127 →
      ∃ t, Sys2Proof.Machine.exec (.dbgAccess head source (.readWindow e off)) s = .next t
        ∧ t.dbg.dr = regRead s 1 e off 8 % 2 ^ 64)
    ∧ (∀ (packet : DebugPacket) (w : DWord), 1 ≤ s.dbg.level → debugWhole head source packet = true →
        (NarrowHead.ofWord head.bits).col ≠ 127 → s.debugRead packet = some w →
      ∃ t, Sys2Proof.Machine.exec (.dbgAccess head source packet) s = .next t
        ∧ (s.readWaits packet = false → t.dbg.dr = w.toNat ∧ t.dbg.held = none)
        ∧ (s.readWaits packet = true → t.dbg.held = some packet))
    ∧ (∀ (c : CoreAt) (w : Nat) (v : DWord), s.dbg.level = 2 → debugWhole head source (.writeArray c w v) = true → c.wf = true →
        w < 6144 → (s.engine c.die).pattern = none →
      ∃ t, Sys2Proof.Machine.exec (.dbgAccess head source (.writeArray c w v)) s = .next t
        ∧ (t.grid.scratch.find? fun x => x.1 == c && x.2.1 == w) = some (c, w, v))
    ∧ (s.dbg.level = 2 → debugWhole head source (.halt false) = true →
      ∃ t, Sys2Proof.Machine.exec (.dbgAccess head source (.halt false)) s = .next t ∧ t.dbg.halted = true)
    ∧ (s.dbg.level = 2 → s.dbg.halted = true → debugWhole head source (.stepCore false) = true →
      ∃ t, Sys2Proof.Machine.exec (.dbgAccess head source (.stepCore false)) s = .next t
        ∧ t.dbg.halted = true ∧ t.dbg.stepped = s.dbg.stepped + 1))
  ∧ ∀ (s : State) (head source : NarrowWord) (c : CoreAt) (w : Nat) (v : DWord) (t : State),
    (s.engine c.die).pattern.isSome = true ∨ s.dbg.level < 2 →
    Sys2Proof.Machine.exec (.dbgAccess head source (.writeArray c w v)) s = .next t → t.grid = s.grid

/-! ### Rails, resets, start-up -/

/-- POR_N low for 5 us or more, the loss of a rail and the loss of the hub reference place the device in reset and discard all
state but fuses and flash; a shorter POR_N pulse is ignored (R25, R26, R30, R33, R34, R529; 5 us by log 4). -/
def Obligations.ResetsDiscardAllStateButFusesAndFlash : Prop :=
  ∀ s : State,
    (∀ n : Nat, 5000 ≤ n → ∃ t, Sys2Proof.Machine.exec (.porNAssert n) s = .next t ∧ wiped s t ∧ t.board.por = true)
    ∧ (∀ n : Nat, n < 5000 → Sys2Proof.Machine.exec (.porNAssert n) s = .next s)
    ∧ (∀ r : Rail, ∃ t, Sys2Proof.Machine.exec (.railLoss r) s = .next t ∧ wiped s t ∧ r ∈ t.board.railsBad
        ∧ t.boot.romLevel = false ∧ t.dbg = .reset ∧ t.board.tripped = (s.board.tripped && r != .vddIo18))
    ∧ ∃ t, Sys2Proof.Machine.exec .hubReferenceLoss s = .next t ∧ wiped s t ∧ t.board.hubRef = false

/-- Start-up begins at POR_N high once every rail is good and the hub reference runs, and not before; the power domains that are never
OFF come ON; the straps are sampled once, and STRAP[6] is NL_CTRL.ENABLE of every port (R25, R30, R32, R40, R52, R458, R526). -/
def Obligations.StartUpBeginsWhenPinsAndRailsAllow : Prop :=
  ∀ s : State, s.ops = [] →
    (∃ t, Sys2Proof.Machine.exec .railsGood s = .next t ∧ t.board.railsBad = [] ∧ t.boot.romLevel = true
        ∧ sameBeyondStartUp s t ∧ t.host = s.host ∧ t.nl = s.nl ∧ t.dram = s.dram ∧ t.pow = s.pow)
    ∧ (∃ t, Sys2Proof.Machine.exec .hubReferenceRestored s = .next t ∧ t.board.hubRef = true ∧ t.boot = s.boot
        ∧ sameBeyondStartUp s t ∧ t.host = s.host ∧ t.nl = s.nl ∧ t.dram = s.dram ∧ t.pow = s.pow)
    ∧ (s.boot.released = false → s.board.railsBad = [] → s.board.hubRef = true → s.board.tripped = false →
      ∃ t, Sys2Proof.Machine.exec .resetRelease s = .next t ∧ t.live = true ∧ t.board.por = false
        ∧ t.host.link = (if s.board.perst = false ∧ s.board.pcieRef = true then 1 else 0)
        ∧ (t.boot.coldHold = true ↔ ∃ g ∈ s.pow.guards, g.temp < if s.nv.fuses.gradeX then -640 else 0)
        ∧ (∀ d, d < s.pow.domains.length →
            (t.domain d).state = if domainMayBeOff d = true then (s.domain d).state else 2)
        ∧ sameBeyondStartUp s t ∧ t.nl = s.nl ∧ t.dram = s.dram)
    ∧ (s.boot.released = true ∨ s.board.railsBad ≠ [] ∨ s.board.hubRef = false ∨ s.board.tripped = true →
      Sys2Proof.Machine.exec .resetRelease s = .next s)
    ∧ ∀ pins : Byte, s.live = true →
      (s.boot.latched = false → ∃ t, Sys2Proof.Machine.exec (.strapLatch pins) s = .next t ∧ t.boot.straps = pins
        ∧ t.boot.latched = true ∧ (∀ p ∈ t.nl.ports, p.enable = pins.getLsbD 6 ∧ p.state = if pins.getLsbD 6 then 1 else 0)
        ∧ sameBeyondStartUp s t ∧ t.host = s.host ∧ t.dram = s.dram ∧ t.pow = s.pow)
      ∧ (s.boot.latched = true → Sys2Proof.Machine.exec (.strapLatch pins) s = .next s)

/-- The boot ROM: both cores failed leaves the device without a control core; the recovery strap, or no bootable candidate, holds
it in recovery with alert bit 3; else the first candidate that verifies runs, with its copy as standby, and DRAM training
begins unless the package is cold (R39, R43, R478, R479, R484, R526). -/
def Obligations.BootRomSelectsAnImageOrHoldsInRecovery : Prop :=
  ∀ (s : State) (avs : Bool), s.live = true → s.boot.fwVerified = false → s.boot.recovery = false → s.fw.noCore = false →
    s.boot.latched = true →
    (∃ t, Sys2Proof.Machine.exec (.hubFirmwareVerified avs false false) s = .next t ∧ t.fw.noCore = true
      ∧ t.boot.fwVerified = false ∧ t.sb.alert = s.sb.alert ||| 4)
    ∧ (∀ a b : Bool, (a || b) = true → s.boot.straps.getLsbD 5 = true ∨ bootable s.nv (bootCandidates s.nv (a && b)) = [] →
      ∃ t, Sys2Proof.Machine.exec (.hubFirmwareVerified avs a b) s = .next t ∧ t.boot.recovery = true
        ∧ t.boot.fwVerified = false ∧ t.fw.running = s.fw.running ∧ t.sb.alert = s.sb.alert ||| 8)
    ∧ (∀ (slot : Nat) (rest : List (Nat × Bool)), s.boot.straps.getLsbD 5 = false →
        bootable s.nv (bootCandidates s.nv true) = (slot, false) :: rest →
      ∃ t, Sys2Proof.Machine.exec (.hubFirmwareVerified avs true true) s = .next t ∧ t.boot.fwVerified = true
        ∧ t.fw.running = some (readImage slot (s.nv.slotReader slot)) ∧ t.fw.standby = t.fw.running ∧ t.nv = s.nv
        ∧ t.boot.recovery = false ∧ t.pow.fastOk = avs ∧ (∀ e ∈ t.grid.engines, e.cur = if avs then 0 else 1)
        ∧ (s.boot.coldHold = false → ∀ c ∈ t.dram.channels, c.state = 1)
        ∧ (s.boot.coldHold = true → t.dram.channels = s.dram.channels))

/-- Training and readiness: a held cold start begins to train; a channel takes what its training ends in; the last one builds the
map, with every line reading as never written; engines reach IDLE, a core that failed its array test being fenced and its die
row repaired; READY is set once all of that is done, configuration space is answered where PERST_N is high, and at least one channel
has trained (R39, R44, R314, R317, R323, R444, R526). -/
def Obligations.StartUpTrainsTestsAndBecomesReady : Prop :=
  ∀ s : State, s.live = true →
    (s.boot.coldHold = true → s.boot.fwVerified = true → s.cold = false →
      ∃ t, Sys2Proof.Machine.exec .coldStartRelease s = .next t ∧ t.boot.coldHold = false
        ∧ (∀ c ∈ t.dram.channels, c.state = 1) ∧ sameBeyondStartUp s t)
    ∧ (∀ (c : Nat) (o : Training), s.boot.fwVerified = true → s.boot.coldHold = false → c < 8 → c ∉ s.boot.trained →
        s.dram.channels.length = 8 →
      (s.boot.trained.length < 7 → ∃ t, Sys2Proof.Machine.exec (.dramTrainingComplete c o) s = .next t
        ∧ t.channel c = (s.channel c).train o ∧ (∀ d, d ≠ c → t.channel d = s.channel d) ∧ c ∈ t.boot.trained
        ∧ sameBeyondStartUp s t)
      ∧ (s.boot.trained.length = 7 → ∃ t, Sys2Proof.Machine.exec (.dramTrainingComplete c o) s = .next t
        ∧ t.dram.map = mapOf s.dram.mirrored (modifyAt (·.train o) c s.dram.channels) ∧ t.mem.units = t.dram.map.length
        ∧ t.mem.top = topOf s.dram.mirrored (modifyAt (·.train o) c s.dram.channels)
        ∧ t.mem.valid = [] ∧ t.mem.cells = [] ∧ t.mem.poisoned = [] ∧ t.mem.merge = []))
    ∧ (s.boot.fwVerified = true → s.boot.coldHold = false → s.boot.enginesIdle = false →
      (∃ t, Sys2Proof.Machine.exec (.enginesIdle []) s = .next t ∧ t.boot.enginesIdle = true
        ∧ (∀ e ∈ t.grid.engines, e.state ≠ 0) ∧ t.log = s.log ∧ t.mem = s.mem)
      ∧ ∀ c : CoreAt, c.wf = true → s.grid.engines.length = 8 → (∀ f ∈ (s.engine c.die).fenced, f.1 ≠ c.row) →
        c.row ∉ (s.engine c.die).repaired →
        ∃ t, Sys2Proof.Machine.exec (.enginesIdle [c]) s = .next t ∧ t.boot.enginesIdle = true
          ∧ (t.engine c.die).fenced = (s.engine c.die).fenced ++ [(c.row, c.col)]
          ∧ (t.engine c.die).repaired = (s.engine c.die).repaired ++ [c.row] ∧ t.log.appended = s.log.appended + 1)
    ∧ (s.boot.ready = false → s.fw.noCore = false → s.boot.enginesIdle = true → s.boot.trained.length = 8 →
        (s.boot.cfgAnswered = true ∨ s.board.perst = true) → (∃ c ∈ s.dram.channels, c.hasTrained = true) →
      ∃ t, Sys2Proof.Machine.exec .mbxReadySet s = .next t ∧ t.boot.ready = true ∧ 2 ^ 31 ≤ mbxStat t
        ∧ sameBeyondStartUp s t ∧ t.dram = s.dram ∧ t.host = s.host)

/-! ### The PCIe link -/

/-- The PCIe link: PERST_N high starts training, training brings the link up, and a link that is down is trained again when
the partner presents it; PERST_N low for 1 us takes it down and resets the endpoint, a shorter pulse is ignored. Loss of the
PCIe reference drops the PCIe link and every Nuthes port, and the device runs on; when it returns, enabled ports whose peer is
present train while the hub firmware runs (R31, R35, R36, R39, R40, R51, R52, R341, R343, R529). -/
def Obligations.PcieLinkTrainsAndDrops : Prop :=
  (∀ s : State, s.live = true → s.ops = [] →
     (∃ t, Sys2Proof.Machine.exec .perstNDeassert s = .next t ∧ t.board.perst = false
       ∧ t.host.link = (if s.board.pcieRef = true ∧ s.host.link = 0 then 1 else s.host.link)
       ∧ sameBeyondStartUp s t ∧ t.nl = s.nl ∧ t.dram = s.dram)
     ∧ (∀ r w : Nat, s.host.link = 1 → ∃ t, Sys2Proof.Machine.exec (.pcieLinkTrained r w) s = .next t
       ∧ t.host.link = 2 ∧ t.host.rate = r ∧ t.host.width = w ∧ sameBeyondStartUp s t ∧ t.nl = s.nl ∧ t.dram = s.dram)
     ∧ (s.host.link = 0 → s.board.perst = false → s.board.pcieRef = true →
       ∃ t, Sys2Proof.Machine.exec .linkRetrain s = .next t ∧ t.host.link = 1 ∧ sameBeyondStartUp s t ∧ t.nl = s.nl
         ∧ t.dram = s.dram)
     ∧ (∀ n : Nat, n < 1000 → Sys2Proof.Machine.exec (.perstNAssert n) s = .next s)
     ∧ ∀ n : Nat, 1000 ≤ n → ∃ t, Sys2Proof.Machine.exec (.perstNAssert n) s = .next t
       ∧ t.host.cfg = [] ∧ t.host.msixTable = [] ∧ t.host.msixPending = []
       ∧ ((∀ r ∈ s.grid.runs, (s.engine r.lead).state ≠ 4) →
           t.board.perst = true ∧ t.host.link = 0 ∧ (s.host.session = true → s.host.link ≠ 0 → t.host.attached = false)
           ∧ t.grid.engines = s.grid.engines ∧ t.mem = s.mem ∧ t.nv = s.nv ∧ t.out = s.out))
  ∧ (∀ s : State, s.live = true → s.nl.ports.length = 4 →
       (∃ t, Sys2Proof.Machine.exec .pcieReferenceLoss s = .next t
         ∧ (s.grid.runs = [] → t.board.pcieRef = false ∧ t.host.link = 0 ∧ t.live = true
           ∧ (∀ i, i < 4 → (t.port i).state = (if (s.port i).enable then 1 else 0) ∧ (t.port i).peerNode = none
               ∧ (t.port i).replay = [] ∧ (t.port i).enable = (s.port i).enable ∧ (t.port i).prsnt = (s.port i).prsnt)
           ∧ t.grid = s.grid ∧ t.mem = s.mem ∧ t.q.tasks = s.q.tasks))
       ∧ (s.board.pcieRef = false → ∃ t, Sys2Proof.Machine.exec .pcieReferenceRestored s = .next t ∧ t.board.pcieRef = true
         ∧ (∀ i, i < 4 → (t.port i).state
             = if (s.port i).prsnt = true ∧ (s.port i).enable = true ∧ (s.port i).state ≤ 1 ∧ s.boot.fwVerified = true then 2
               else (s.port i).state)
         ∧ t.grid = s.grid ∧ t.mem = s.mem ∧ t.q = s.q))

/-- A surprise link-down takes the link down, and a function-level reset returns the endpoint without retraining and reverts what is
staged. Both detach a session that is attached: the event ring is off, still counts reset, and every run that is RUNNING has a pause of
kind 2 to carry out at its next boundary (R49, R343, R369, R372, R413); what a STARVED run does at once is not said here. -/
def Obligations.DetachPausesEveryRunningRun : Prop :=
  ∀ s : State, s.live = true → s.ops = [] → s.host.link = 2 →
    let attached := s.host.session = true ∧ s.host.attached = true
    (¬ attached → Sys2Proof.Machine.exec .surpriseLinkDown s
        = .next { s with host := { s.host with link := 0, rate := 0, width := 0 } })
    ∧ (∃ t, Sys2Proof.Machine.exec .surpriseLinkDown s = .next t
      ∧ (attached → (∀ r ∈ s.grid.runs, (s.engine r.lead).state ≠ 4) →
        t.host.link = 0 ∧ t.host.session = true ∧ t.host.attached = false ∧ t.host.evtOff = true ∧ t.q.hangReset = true
        ∧ (∀ r ∈ t.grid.runs, (t.engine r.lead).state = 3 → r.ended = none → Want.pause 2 0 ∈ r.wants)
        ∧ t.grid.engines = s.grid.engines ∧ t.mem = s.mem ∧ t.q.queues = s.q.queues ∧ t.q.tasks = s.q.tasks ∧ t.out = s.out))
    ∧ ∃ t, Sys2Proof.Machine.exec .functionLevelReset s = .next t ∧ t.host.cfg = [] ∧ t.host.msixTable = []
      ∧ t.host.msixPending = [] ∧ t.host.aperture = 0 ∧ t.host.wselClass = 0 ∧ t.host.wselIndex = 0 ∧ anyStaged t = false
      ∧ ((∀ r ∈ s.grid.runs, (s.engine r.lead).state ≠ 4) →
        t.host.link = 2 ∧ t.mem = s.mem ∧ t.q.queues = s.q.queues ∧ t.q.tasks = s.q.tasks ∧ t.out = s.out
        ∧ (attached → t.host.attached = false ∧ t.host.evtOff = true
          ∧ ∀ r ∈ t.grid.runs, (t.engine r.lead).state = 3 → r.ended = none → Want.pause 2 0 ∈ r.wants))

/-! ### Heat and power domains -/

/-- When any die reaches 110 degC (1760 sixteenths), the device sets that die's level to 8 at once, raises SHUTDOWN_IMMINENT and
asserts SB_ALERT_N. It raises SHUTDOWN_IMMINENT again only after the die has fallen below 107 degC. At 115 degC THERMTRIP_N acts
and every run and all DRAM contents are lost (R471; a die's temperature is the reading of its hottest sensor). -/
def Obligations.OverheatingRaisesShutdownAndTrips : Prop :=
  ∀ (s : State) (d : Nat) (rs : List Int), s.sbRom = true → d ≤ 8 → s.pow.guards.length = 9 → rs ≠ [] →
    ((∀ r ∈ rs, r < 1840) → ∃ t, Sys2Proof.Machine.exec (.sensorSample d rs) s = .next t
      ∧ (t.guard d).temp ∈ rs ∧ (∀ r ∈ rs, r ≤ (t.guard d).temp)
      ∧ (s.live = true →
        let quiet := ∃ at_, (s.guard d).throttled = some at_ ∧ s.cnt.stitch < at_ + 1000000
        (1760 ≤ (t.guard d).temp → (t.guard d).level = 8 ∧ (t.guard d).armed = false
          ∧ ∃ k : Nat, ((s.guard d).level = 0 ∧ ¬ quiet → k = 1) ∧ ((s.guard d).level ≠ 0 ∨ quiet → k = 0)
            ∧ ((s.guard d).armed = true → raised s t 5 2 (sourceOf 5 (dieDomain d)) ∧ t.host.evtSeq = s.host.evtSeq + k + 1
                ∧ t.sb.alert = s.sb.alert ||| 2)
            ∧ ((s.guard d).armed = false → t.host.evtSeq = s.host.evtSeq + k ∧ t.sb.alert = s.sb.alert))
        ∧ ((t.guard d).temp < 1760 → (t.guard d).level = (s.guard d).level ∧ t.host.evtSeq = s.host.evtSeq
          ∧ t.sb.alert = s.sb.alert ∧ ((t.guard d).temp < 1712 → (t.guard d).armed = true)
          ∧ (1712 ≤ (t.guard d).temp → (t.guard d).armed = (s.guard d).armed)))
      ∧ (∀ e, e ≠ d → t.guard e = s.guard e)
      ∧ t.q = s.q ∧ t.grid = s.grid ∧ t.mem = s.mem ∧ t.dram = s.dram ∧ t.nl = s.nl ∧ sameControl s t ∧ t.log = s.log)
    ∧ ((∃ r ∈ rs, 1840 ≤ r) → ∃ t, Sys2Proof.Machine.exec (.sensorSample d rs) s = .next t ∧ wiped s t
      ∧ t.board.tripped = true ∧ t.live = false)

/-- Every evaluation moves each die's level by one: up, to 8, at or above the stretch threshold, down, to 0, below it by more than
3 degC; a threshold that GUARD_SET gave comes into force first (R468, R472). -/
def Obligations.GuardLevelsFollowTheThreshold : Prop :=
  ∀ s : State, s.sbRom = true → s.live = true → s.pow.guards.length = 9 →
    ∃ t, Sys2Proof.Machine.exec .guardEvaluate s = .next t ∧ t.pow.threshold = s.pow.nextThreshold
      ∧ (∀ d, d < 9 →
          (t.guard d).temp = (s.guard d).temp
          ∧ ((s.pow.nextThreshold : Int) ≤ (s.guard d).temp → (t.guard d).level = min 8 ((s.guard d).level + 1))
          ∧ ((s.guard d).temp + 48 < s.pow.nextThreshold → (t.guard d).level = (s.guard d).level - 1)
          ∧ ((s.guard d).temp < s.pow.nextThreshold → (s.pow.nextThreshold : Int) ≤ (s.guard d).temp + 48 →
              (t.guard d).level = (s.guard d).level)
          ∧ t.sb.readings.getD d 0 = (s.guard d).temp)
      ∧ t.pow.domains = s.pow.domains ∧ t.q = s.q ∧ t.grid = s.grid ∧ t.mem = s.mem ∧ sameControl s t ∧ t.log = s.log

/-- Power domains: from ON a domain rests as its policy in force and its activity allow; a domain in GATED wakes at once, one in
RETAIN or OFF through WAKING, but a bank outside the running profile's plan and a port that is not enabled stay OFF; each completed wake
is counted, and a die's sequencer domain takes its engine from OFF to IDLE (R32, R458-R464, R475). -/
def Obligations.DomainsRestAndWake : Prop :=
  ∀ (s : State) (d : Nat), s.live = true → s.pow.domains.length = 116 → d < 116 →
    ((s.domain d).state = 2 → mayRest s d = true → (s.domain d).cfg.force % 4 = 0 →
      ∃ t, Sys2Proof.Machine.exec (.domainIdle d) s = .next t ∧ (t.domain d).state = 3 ∧ sameWork s t)
    ∧ ((s.domain d).state = 2 → mayRest s d = true → (s.domain d).cfg.force % 4 = 1 → domainMayBeOff d = true →
      ∃ t, Sys2Proof.Machine.exec (.domainIdle d) s = .next t ∧ (t.domain d).state = 4 ∧ sameWork s t)
    ∧ ((s.domain d).state = 2 → mayRest s d = true → mayBeOff s d = false → (s.domain d).cfg.force % 4 = 2 →
        domainMayBeOff d = true →
      ∃ t, Sys2Proof.Machine.exec (.domainIdle d) s = .next t ∧ (t.domain d).state = 4 ∧ sameWork s t)
    ∧ ((s.domain d).state = 2 → mayBeOff s d = true → (s.domain d).cfg.force % 4 = 2 →
      ∃ t, Sys2Proof.Machine.exec (.domainIdle d) s = .next t ∧ (t.domain d).state = 0
        ∧ (d < 96 → d % 12 = 9 → s.grid.engines.length = 8 → (t.engine (d / 12)).state = 0))
    ∧ ((s.domain d).state = 3 →
      ∃ t, Sys2Proof.Machine.exec (.domainWake d) s = .next t ∧ (t.domain d).state = 2 ∧ sameWork s t)
    ∧ ((s.domain d).state = 4 ∨ ((s.domain d).state = 0 ∧ mayWake s d = true) →
      ∃ t, Sys2Proof.Machine.exec (.domainWake d) s = .next t ∧ (t.domain d).state = 1 ∧ sameWork s t)
    ∧ ((s.domain d).state = 0 → mayWake s d = false →
      ∃ t, Sys2Proof.Machine.exec (.domainWake d) s = .next t ∧ (t.domain d).state = 0 ∧ sameWork s t)
    ∧ ((s.domain d).state = 1 →
      ∃ t, Sys2Proof.Machine.exec (.domainWakeComplete d) s = .next t ∧ (t.domain d).state = 2
        ∧ (t.domain d).wakes = ((s.domain d).wakes + 1) % 2 ^ 32
        ∧ (d < 96 → d % 12 = 9 → s.grid.engines.length = 8 → (t.engine (d / 12)).state ≠ 0)
        ∧ t.q = s.q ∧ t.mem = s.mem ∧ t.host = s.host)

/-! ### Joining devices -/

/-- Ports, with no run in progress: a peer is seen and an enabled port trains once the hub firmware runs and the 100 MHz reference is
there; training brings the port up at 8 lanes, or at 4 with LANES4 as the training began or a bad lane among 4 to 7, SLOW above 96 ns, and
to FAULT where neither width is reached; a detachment, by PRSNT_N or by the loss of the signal, and a retrain that does not finish within
5 ms empty the port; NL_CTRL turns a port off and on (R31, R39, R52, R53, R275, R280-R283). -/
def Obligations.PortsTrainAndDetach : Prop :=
  ∀ (s : State) (i : Nat), s.live = true → i < 4 → s.nl.ports.length = 4 → s.grid.runs = [] →
    let detached := fun (t : State) => (t.port i).state = (if (t.port i).enable then 1 else 0) ∧ (t.port i).lanes = 0
      ∧ (t.port i).peerNode = none ∧ (t.port i).replay = [] ∧ (t.port i).txq = [] ∧ (t.port i).sendSeq = 0 ∧ (t.port i).recvSeq = 0
      ∧ (∀ x ∈ t.nl.streams, x.port ≠ i) ∧ t.q = s.q ∧ t.grid = s.grid ∧ t.mem = s.mem ∧ t.host = s.host
    (∃ t, Sys2Proof.Machine.exec (.nlPresentDebounced i) s = .next t ∧ (t.port i).prsnt = true
      ∧ (t.port i).state = (if (s.port i).enable = true ∧ (s.port i).state ≤ 1 ∧ s.boot.fwVerified = true ∧ s.board.pcieRef = true then 2
          else (s.port i).state)
      ∧ t.q = s.q ∧ t.grid = s.grid ∧ t.mem = s.mem ∧ t.host = s.host)
    ∧ (∀ f : PortTraining, (s.port i).state = 2 → (s.domain (107 + i)).state = 2 →
      ((∀ k, k < 8 → k ∈ f.lanesGood) → ∃ t, Sys2Proof.Machine.exec (.nlPortTrained i f) s = .next t
        ∧ (t.port i).lanes = (if (s.port i).width4 then 4 else 8) ∧ ((t.port i).state = 3 ∨ (t.port i).state = 4)
        ∧ (t.port i).latency = f.latency ∧ ((t.port i).slow = true ↔ 96 < f.latency)
        ∧ (t.port i).peerNode = (if f.peer.node < 16 then some f.peer.node else none) ∧ (t.port i).peerUnit = f.peer.unit)
      ∧ ((∀ k, k < 4 → k ∈ f.lanesGood) → (∃ k, k < 8 ∧ k ∉ f.lanesGood) →
        ∃ t, Sys2Proof.Machine.exec (.nlPortTrained i f) s = .next t ∧ (t.port i).lanes = 4
          ∧ ((t.port i).state = 3 ∨ (t.port i).state = 4))
      ∧ ((∃ k, k < 4 ∧ k ∉ f.lanesGood) → ∃ t, Sys2Proof.Machine.exec (.nlPortTrained i f) s = .next t
        ∧ (t.port i).state = 5 ∧ (t.port i).lanes = 0))
    ∧ (∀ high : Bool, ∃ t, Sys2Proof.Machine.exec (.nlPortDetach i high) s = .next t
      ∧ (t.port i).prsnt = ((s.port i).prsnt && !high) ∧ detached t)
    ∧ ((s.port i).state = 2 → (s.port i).retraining = true → ∃ t, Sys2Proof.Machine.exec (.retrainTimeout i) s = .next t ∧ detached t)
    ∧ (∀ v : Word, s.host.link = 2 → s.boot.ready = true →
      ∃ t, Sys2Proof.Machine.exec (.nlCtrlWrite i v) s = .next t ∧ (t.port i).enable = v.getLsbD 0 ∧ (t.port i).lanes4 = v.getLsbD 1
        ∧ (v.getLsbD 0 = false → detached t)
        ∧ (v.getLsbD 0 = true → (s.port i).state ≤ 1 → (s.port i).prsnt = true → s.board.pcieRef = true → (t.port i).state = 2)
        ∧ (v.getLsbD 0 = true → (s.port i).state ≤ 1 → (s.port i).prsnt = false → (t.port i).state = 1))

/-- Frames on an open port: an ACK releases what it acknowledges, and the codewords of the FEC are counted; a frame of the expected
sequence number whose CRC is right and whose destination is this node is taken: flits into the sluice, OPEN into the stream table, BULK of
a pattern image into its place in DRAM and of any other stream into the stream; one out of sequence takes nothing; a frame whose CRC fails,
of any type, starts dropping and takes nothing; the acknowledgement time-out sends the replay buffer again. A port sends CONTROL frames
before FLIT frames and those before OPEN and BULK, and in STATE 4 CONTROL frames alone (R276, R277, R279-R281, R294). -/
def Obligations.FramesAreTakenInSequence : Prop :=
  (∀ (s : State) (i : Nat) (a : Arrival), s.live = true → i < 4 → s.nl.ports.length = 4 → (s.port i).state = 3 →
    let f := a.frame
    let same := fun (t : State) => t.mem = s.mem ∧ t.q = s.q ∧ t.grid = s.grid ∧ t.out = s.out
    (∀ x y g, f.type = 0 → LinkFrame.good f = true → f.ackValid = true → (s.port i).replay = x ++ g :: y → g.seq = f.ack →
        (∀ h ∈ x, h.seq ≠ f.ack) →
      ∃ t, Sys2Proof.Machine.exec (.idleFrame i a) s = .next t ∧ (t.port i).replay = y ∧ (t.port i).recvSeq = (s.port i).recvSeq
        ∧ (t.port i).fecCorr = ((s.port i).fecCorr + a.corrected) % 2 ^ 64
        ∧ (t.port i).fecUncorr = ((s.port i).fecUncorr + a.uncorrectable) % 2 ^ 32 ∧ same t)
    ∧ (LinkFrame.good f = true → s.nl.node = some f.dest → f.seq = (s.port i).recvSeq →
      (f.type = 1 → (∀ r ∈ s.grid.runs, r.blk.loose = false) → ∃ t, Sys2Proof.Machine.exec (.flit i a) s = .next t
        ∧ t.nl.sluice = s.nl.sluice ++ (List.range (min 7 f.count)).map (fun k =>
            { port := i, index := f.first + k, bytes := (f.payload.drop (34 * k)).take 34 })
        ∧ (t.port i).recvSeq = ((s.port i).recvSeq + 1) % 4096 ∧ (t.port i).owes = true ∧ same t)
      ∧ (f.type = 3 → ∃ t, Sys2Proof.Machine.exec (.openStream i a) s = .next t
        ∧ (∃ x ∈ t.nl.streams, x.port = i ∧ x.src = f.src ∧ x.stream = f.stream ∧ x.dest = fieldOf f.payload 0 8
            ∧ x.length = fieldOf f.payload 8 8 ∧ x.kind = fieldOf f.payload 0x10 1 ∧ x.got = 0)
        ∧ (t.port i).recvSeq = ((s.port i).recvSeq + 1) % 4096 ∧ same t)
      ∧ (f.type = 2 → ∀ x : OpenStream, s.nl.streams.find? (fun y => y.takes i f.src f.stream) = some x →
        let part := f.payload.take (min 240 (x.length - x.got))
        (x.kind = 1 → s.inDram (x.dest + x.length) = true → part ≠ [] →
          ∃ t, Sys2Proof.Machine.exec (.bulk i a) s = .next t ∧ t.mem = s.mem.write (x.dest + x.got) part
            ∧ (x.length ≤ x.got + part.length → ∀ y ∈ t.nl.streams, y.takes i f.src f.stream = false)
            ∧ (t.port i).recvSeq = ((s.port i).recvSeq + 1) % 4096 ∧ t.q = s.q ∧ t.grid = s.grid)
        ∧ (x.kind ≠ 1 → x.got + part.length < x.length →
          ∃ t, Sys2Proof.Machine.exec (.bulk i a) s = .next t
            ∧ { x with got := x.got + part.length, bytes := x.bytes ++ part } ∈ t.nl.streams
            ∧ (t.port i).recvSeq = ((s.port i).recvSeq + 1) % 4096 ∧ same t)))
    ∧ (∀ c : Instr, LinkFrame.good f = true → f.seq ≠ (s.port i).recvSeq →
        (c = .flit i a ∧ f.type = 1) ∨ (c = .bulk i a ∧ f.type = 2) ∨ (c = .openStream i a ∧ f.type = 3) →
      ∃ t, Sys2Proof.Machine.exec c s = .next t ∧ (t.port i).recvSeq = (s.port i).recvSeq ∧ t.nl.sluice = s.nl.sluice
        ∧ t.nl.streams = s.nl.streams ∧ same t)
    ∧ (∀ (c : Instr) (v : HostView), LinkFrame.good f = false → (s.port i).failures < 7 →
        c ∈ [.idleFrame i a, .flit i a, .bulk i a, .openStream i a, .stitch i a, .arm i a, .vote i a v, .sum i a, .hemAck i a,
          .peerLost i a, .link i a, .topology i a] →
      ∃ t, Sys2Proof.Machine.exec c s = .next t ∧ (t.port i).dropping = true ∧ (t.port i).failures = (s.port i).failures + 1
        ∧ (t.port i).recvSeq = (s.port i).recvSeq ∧ t.nl.sluice = s.nl.sluice ∧ t.nl.streams = s.nl.streams
        ∧ t.nl.votes = s.nl.votes ∧ t.nl.arms = s.nl.arms ∧ same t)
    ∧ ((s.port i).replay ≠ [] → (s.port i).resends < 7 →
      ∃ t, Sys2Proof.Machine.exec (.frameAckTimeout i) s = .next t ∧ (t.port i).retries = (s.port i).retries + 1
        ∧ (t.port i).resends = (s.port i).resends + 1 ∧ (t.port i).replay = (s.port i).replay
        ∧ t.out = s.out ++ (s.port i).replay.map (Out.frame i ·) ∧ t.mem = s.mem ∧ t.q = s.q ∧ t.grid = s.grid))
  ∧ ∀ (p : Port) (f : LinkFrame) (rest : List LinkFrame), p.pick = some (f, rest) →
    f ∈ p.txq ∧ rest.length + 1 = p.txq.length ∧ (p.state = 4 → f.type = 4)
    ∧ ((∃ g ∈ p.txq, g.type = 4) → f.type = 4) ∧ (f.type ≠ 4 → (∃ g ∈ p.txq, g.type = 1) → f.type = 1)

/-- CONTROL messages that arrive in order: VOTE, SUM, ARM, HEM_ACK and PEER_LOST are kept, and one that this device has not flooded
before goes on, once, on every open port but the one it came by; LINK sets what the port knows of its peer, TOPOLOGY replaces the newest
message of its device (R278, R281, R283). The stitch domain: within a domain the difference from the root's count is slewed away; two
domains that meet step forward to the larger count and the lower root; TOPOLOGY is sent every 100 ms, and when a message is older than
300 ms the ports stand at the levels that the clashes then ask for (R283, R287). No run is in progress. -/
def Obligations.ControlMessagesAndTheStitchDomain : Prop :=
  (∀ (s : State) (i : Nat) (a : Arrival), s.hears i = true → s.nl.ports.length = 4 → s.grid.runs = [] →
     LinkFrame.good a.frame = true → a.frame.type = 4 → a.frame.seq = (s.port i).recvSeq →
     let brings := fun (m : PeerMsg) => PeerMsg.decode a.frame.payload = some m
     let passed := fun (t : State) (m : PeerMsg) => t.q = s.q ∧ t.mem = s.mem ∧ t.out = s.out
       ∧ ∀ k, m.key = some k → k ∉ s.nl.flooded → k ∈ t.nl.flooded
         ∧ ∀ j ∈ s.openPorts, j ≠ i → ∃ f ∈ (t.port j).txq, f.type = 4 ∧ f.payload = m.encode
     (∀ (m : VoteMsg) (v : HostView), brings (.vote m) → m ∉ s.nl.votes → m.origin ≠ s.nodeCode →
       ∃ t, Sys2Proof.Machine.exec (.vote i a v) s = .next t ∧ t.nl.votes = s.nl.votes ++ [m] ∧ passed t (.vote m))
     ∧ (∀ m : SumMsg, brings (.sum m) → m ∉ s.nl.sums → m.origin ≠ s.nodeCode →
       ∃ t, Sys2Proof.Machine.exec (.sum i a) s = .next t ∧ t.nl.sums = s.nl.sums ++ [m] ∧ passed t (.sum m))
     ∧ (∀ m : ArmMsg, brings (.arm m) → m ∉ s.nl.arms → m.origin ≠ s.nodeCode →
       ∃ t, Sys2Proof.Machine.exec (.arm i a) s = .next t ∧ m ∈ t.nl.arms
         ∧ (∀ x ∈ t.nl.arms, x ≠ m → x ∈ s.nl.arms ∧ ¬ (x.tag = m.tag ∧ x.origin = m.origin)) ∧ passed t (.arm m))
     ∧ (∀ m : HemAckMsg, brings (.hemAck m) → (∀ x ∈ s.nl.acks, ¬ (x.tag = m.tag ∧ x.tick = m.tick ∧ x.shard = m.shard)) →
       ∃ t, Sys2Proof.Machine.exec (.hemAck i a) s = .next t ∧ t.nl.acks = s.nl.acks ++ [m] ∧ passed t (.hemAck m))
     ∧ (∀ m : LostMsg, brings (.peerLost m) → m ∉ s.nl.lost → m.detector ≠ s.nodeCode →
       ∃ t, Sys2Proof.Machine.exec (.peerLost i a) s = .next t ∧ m ∈ t.nl.lost
         ∧ (∀ x ∈ t.nl.arms, x.origin ≠ m.lost) ∧ passed t (.peerLost m))
     ∧ (∀ m : LinkMsg, brings (.link m) →
       ∃ t, Sys2Proof.Machine.exec (.link i a) s = .next t
         ∧ (t.port i).peerNode = (if m.node < 16 then some m.node else none) ∧ (t.port i).peerPort = m.port
         ∧ (t.port i).peerUnit = m.unit ∧ (t.port i).latency = m.latency ∧ ((t.port i).slow = true ↔ 96 < m.latency)
         ∧ (s.nl.clashed = false → (t.port i).state = 3 ∨ (t.port i).state = 4))
     ∧ ∀ (m : TopoMsg) (k : FloodKey), brings (.topology m) → m.unit ≠ s.nv.fuses.unitId → (PeerMsg.topology m).key = some k →
         k ∉ s.nl.flooded →
       ∃ t, Sys2Proof.Machine.exec (.topology i a) s = .next t
         ∧ (∃ h ∈ t.nl.heard, h.msg = m ∧ h.at_ = s.cnt.stitch) ∧ ∀ h ∈ t.nl.heard, h.msg.unit = m.unit → h.msg = m)
  ∧ (∀ (s : State) (n m : Nat), s.live = true → s.nl.ports.length = 4 → s.nl.node = some n → s.nl.root = some m →
       (∀ (i : Nat) (a : Arrival) (c : DWord) (r h : Nat), s.hears i = true → LinkFrame.good a.frame = true → a.frame.type = 4 →
           a.frame.seq = (s.port i).recvSeq → PeerMsg.decode a.frame.payload = some (.stitch c r h) → r < 16 → r ∉ s.clashes →
         (r = m → n ≠ m → s.routePort r = some i → ∃ t, Sys2Proof.Machine.exec (.stitch i a) s = .next t
           ∧ t.nl.slew = (c.toNat + (s.port i).latency / 10 : Nat) - (s.cnt.stitch : Int) ∧ t.nl.root = some m ∧ t.cnt = s.cnt
           ∧ t.grid = s.grid ∧ t.q = s.q ∧ t.mem = s.mem)
         ∧ (r ≠ m → ∃ t, Sys2Proof.Machine.exec (.stitch i a) s = .next t
           ∧ t.cnt.stitch = max s.cnt.stitch (c.toNat + (s.port i).latency / 10) % 2 ^ 64 ∧ t.nl.root = some (min r m)
           ∧ t.grid = s.grid ∧ t.q = s.q ∧ t.mem = s.mem))
       ∧ (∃ t, Sys2Proof.Machine.exec .topologyPeriodic s = .next t
         ∧ (∀ j ∈ s.openPorts, ∃ f ∈ (t.port j).txq, f.type = 4 ∧ f.payload = (PeerMsg.topology s.ownTopology).encode)
         ∧ t.nl.heard = s.nl.heard ∧ t.cnt = s.cnt ∧ t.grid = s.grid ∧ t.mem = s.mem)
       ∧ ∀ (u : DWord) (h : Heard), s.grid.runs = [] → h ∈ s.nl.heard → h.msg.unit = u → h.at_ + 30000000 < s.cnt.stitch →
         ∃ t, Sys2Proof.Machine.exec (.topologyExpiry u) s = .next t
         ∧ (∀ j, j < 4 → (t.port j).state = 3 ∨ (t.port j).state = 4 → (t.port j).state = t.portLevel (t.port j))
         ∧ t.nl.heard = s.nl.heard ∧ t.grid = s.grid ∧ t.mem = s.mem)

/-- Losses and launches of a run over several devices: PEER_LOST makes a begun run refuse its tick and drop the node; a device
votes once when the stitch count has reached LAUNCH: 2 with a clash, which holds the engines with cause PATTERN_CHECK, else 0 for a
shard that not exactly one ARM claims, which holds them with SHARD_MISSING, and with 1 it waits for the others; REHOST without a hem that
the lost shards' buddies acknowledged holds them too, and with one a paused run is set back to it (R283, R288, R289, R298-R301). -/
def Obligations.LaunchesAndLossesOfJoinedRuns : Prop :=
  ∀ (s : State) (r : Run) (p : Pattern), s.live = true → s.grid.runs = [r] → s.pattern r.pattern = some p →
    s.grid.engines.length = 8 → r.mask % 256 ≠ 0 →
    (∀ (i : Nat) (a : Arrival) (m : LostMsg), s.hears i = true → s.nl.ports.length = 4 → LinkFrame.good a.frame = true →
        a.frame.type = 4 → a.frame.seq = (s.port i).recvSeq → PeerMsg.decode a.frame.payload = some (.peerLost m) →
        m ∉ s.nl.lost → m.detector ≠ s.nodeCode → r.begun = true → r.ended = none → m.lost ∈ r.nodes → r.wants = [] →
      ∃ t, Sys2Proof.Machine.exec (.peerLost i a) s = .next t ∧ ∃ x, t.grid.runs = [x] ∧ x.ref = r.ref ∧ x.ticking = false
        ∧ x.work = [] ∧ x.tick = r.tick ∧ m.lost ∈ x.lost ∧ m.lost ∉ x.nodes ∧ t.mem = s.mem)
    ∧ (s.selfClash = true → s.launchVote r p = 2)
    ∧ (s.selfClash = false → (∀ a ∈ s.armsOf r.tag, a.origin ∉ s.clashes) → (s.badShard r.tag p.header.shards).isSome = true →
        s.launchVote r p = 0)
    ∧ (∀ (v : HostView) (k : Nat), r.armed = true → r.voted = none → r.blk.launch.toNat ≤ s.cnt.stitch → s.launchVote r p = k →
      (k = 2 → ∃ t, Sys2Proof.Machine.exec (.launchAttempt r.tag v) s = .next t ∧ (t.engine r.lead).state = 6
        ∧ (t.engine r.lead).cause = 7 ∧ ∃ x ∈ t.nl.votes, x.tag = r.tag ∧ x.kind = 3 ∧ x.index = r.attempt ∧ x.value = 2)
      ∧ (k = 0 → (∀ x ∈ s.nl.votes, ¬ (x.kind = 3 ∧ x.tag = r.tag ∧ x.index = r.attempt ∧ x.value = 2)) →
        ∃ t, Sys2Proof.Machine.exec (.launchAttempt r.tag v) s = .next t ∧ (t.engine r.lead).state = 6
          ∧ (t.engine r.lead).cause = 6 ∧ ∃ x ∈ t.nl.votes, x.tag = r.tag ∧ x.kind = 3 ∧ x.index = r.attempt ∧ x.value = 0)
      ∧ (k = 1 → (∀ x ∈ s.nl.votes, x.tag = r.tag → x.kind = 3 → x.value = 1) →
        (∃ n ∈ s.armNodes r.tag, n ≠ s.nodeCode ∧ ∀ x ∈ s.nl.votes, x.tag = r.tag → x.origin ≠ n) →
        ∃ t, Sys2Proof.Machine.exec (.launchAttempt r.tag v) s = .next t ∧ (∃ x, t.grid.runs = [x] ∧ x.voted = some 1 ∧ x.begun = r.begun)
          ∧ (∃ x ∈ t.nl.votes, x.tag = r.tag ∧ x.kind = 3 ∧ x.index = r.attempt ∧ x.value = 1) ∧ t.grid.engines = s.grid.engines))
    ∧ (r.begun = true → r.lost ≠ [] → r.ended = none → r.noRehost = false → s.continues r = true → (s.engine r.lead).state ≠ 6 →
      (s.rewindHem r (s.lostShards r p) (fun t n => s.buddyOf r.tag t n) = none →
        ∃ t, Sys2Proof.Machine.exec (.rehost r.tag) s = .next t
          ∧ (t.engine r.lead).state = 6 ∧ (t.engine r.lead).cause = 6 ∧ t.grid.runs = [{ r with clock := .start }])
      ∧ (∀ h : Hem, s.rewindHem r (s.lostShards r p) (fun t n => s.buddyOf r.tag t n) = some h → (s.engine r.lead).state = 5 →
          (∀ n ∈ s.lostShards r p, ∃ b, s.buddyOf r.tag h.tick n = some b ∧ b ∉ r.lost ∧ s.nl.node ≠ some b) →
        ∃ t, Sys2Proof.Machine.exec (.rehost r.tag) s = .next t ∧ ∃ x, t.grid.runs = [x] ∧ x.ref = r.ref ∧ x.lost = []
          ∧ x.tick = h.tick ∧ x.rungMap = h.rungMap ∧ x.ticking = false ∧ (t.engine r.lead).state = 5))

/-! ### The admin mailbox -/

/-- A mailbox command has its effect only while the mailbox holds its opcode; a command of R368's list completes with NO_SESSION
(4) and no other effect while no session is held (R359, R368). -/
def Obligations.MailboxCommandsNeedTheirOpcodeAndSession : Prop :=
  ∀ (c : Instr) (op : Nat) (s : State), c.adminOp = some op → s.ops = [] →
    (s.adminHolds op = false → Sys2Proof.Machine.exec c s = .next s)
    ∧ (s.adminHolds op = true → s.host.session = false → needsSession op = true →
      ∀ t, Sys2Proof.Machine.exec c s = .next t →
        t = s ∨ (answered s t 4 ∧ t.host.mbxArgs = s.host.mbxArgs ∧ t.q = s.q ∧ t.grid = s.grid ∧ t.mem = s.mem ∧ t.dram = s.dram
          ∧ t.nl = s.nl ∧ sameControl s t ∧ samePlant s t ∧ t.rng = s.rng))

/-- Commands of the mailbox that read: GET_INFO, FW_STATUS, RNG_STATUS, POWER_READ and FAULT_LOG answer from the state and change
nothing but the mailbox (R361, R455, R475, R494). -/
def Obligations.MailboxReadsAnswerFromTheState : Prop :=
  ∀ s : State, s.host.mbxArgs.length = 8 →
    let same := fun (t : State) => t.q = s.q ∧ t.grid = s.grid ∧ t.mem = s.mem ∧ t.dram = s.dram ∧ t.nl = s.nl ∧ sameControl s t
      ∧ samePlant s t ∧ t.rng = s.rng
    (s.adminHolds 0x0001 = true → ∃ t, Sys2Proof.Machine.exec (.getInfo .admin) s = .next t ∧ answered s t 0
      ∧ outWord t 1 = s.mem.top % 2 ^ 64 ∧ natBits (outWord t 0) 16 8 = s.boot.straps.toNat
      ∧ (natBit (outWord t 0) 32 = true ↔ s.host.session = true) ∧ same t)
    ∧ (s.adminHolds 0x0402 = true → ∃ t, Sys2Proof.Machine.exec (.fwStatus .admin) s = .next t ∧ answered s t 0
      ∧ (∀ i, s.fw.running = some i → outWord t 1 = i.build % 2 ^ 64) ∧ (s.fw.window = none → outWord t 4 = 0) ∧ same t)
    ∧ (s.adminHolds 0x0411 = true → ∃ t, Sys2Proof.Machine.exec (.rngStatus .admin) s = .next t ∧ answered s t 0
      ∧ outWord t 1 = s.rng.failures % 2 ^ 64 ∧ outWord t 2 = s.rng.reseeds % 2 ^ 64 ∧ outWord t 3 = s.rng.bytes % 2 ^ 64
      ∧ outWord t 4 = s.rng.lastFail % 2 ^ 64 ∧ same t)
    ∧ (s.adminHolds 0x0501 = true → ∃ t, Sys2Proof.Machine.exec (.powerRead .admin) s = .next t ∧ answered s t 0
      ∧ outWord t 0 / 2 ^ 32 = s.pow.vddMv % 2 ^ 32 ∧ outWord t 4 = s.pow.threshold % 2 ^ 64 ∧ same t)
    ∧ (∀ e : LogEntry, s.adminHolds 0x0301 = true → s.arg 0 < 2 ^ 32 → s.log.entries.find? (fun x => x.number == s.arg 0) = some e →
      ∃ t, Sys2Proof.Machine.exec (.faultLogRead .admin) s = .next t ∧ answered s t 0 ∧ outWord t 0 = e.stitch % 2 ^ 64
        ∧ outWord t 1 = e.number % 2 ^ 64 ∧ outWord t 4 = s.log.appended % 2 ^ 64 ∧ same t)
    ∧ (s.adminHolds 0x0301 = true → s.arg 0 < 2 ^ 32 → (∀ e ∈ s.log.entries, e.number ≠ s.arg 0) →
      ∃ t, Sys2Proof.Machine.exec (.faultLogRead .admin) s = .next t ∧ answered s t 2 ∧ same t)
    ∧ ∀ k : Nat, s.adminHolds 0x0301 = true → s.arg 0 = 2 ^ 32 + k → k < min s.nv.recordCount 64 →
      ∃ t, Sys2Proof.Machine.exec (.faultRecordRead .admin) s = .next t ∧ answered s t 0
        ∧ outWord t 0 = bytesLE (s.nv.bytes (0x3000 + 32 * k) 8) ∧ outWord t 5 = s.nv.recordCount % 2 ^ 64 ∧ same t

/-- Commands of the mailbox that set: node number, aperture, fresh lines, mirrored mode, hang watch, stretch threshold, and the
clearing of the fault record; an argument outside its range is BAD_ARG (2) (R327, R332, R345, R361, R408, R455, R472, R475). -/
def Obligations.MailboxSettingsTakeTheirArguments : Prop :=
  ∀ s : State,
    (∀ n : Nat, holdsCommand s 0x0005 → s.arg 0 = n → s.grid.runs = [] → n < 16 →
      ∃ t, Sys2Proof.Machine.exec (.nodeSet .admin) s = .next t ∧ answered s t 0 ∧ t.nl.node = some n ∧ t.q = s.q ∧ t.grid = s.grid
        ∧ t.mem = s.mem)
    ∧ (holdsCommand s 0x0003 → s.arg 0 % 65536 = 0 → s.arg 0 < 2 ^ 48 →
      ∃ t, Sys2Proof.Machine.exec .apertureSet s = .next t ∧ answered s t 0 ∧ t.host.aperture = s.arg 0 ∧ t.mem = s.mem ∧ t.q = s.q)
    ∧ (holdsCommand s 0x0003 → s.arg 0 % 65536 ≠ 0 ∨ 2 ^ 48 ≤ s.arg 0 →
      ∃ t, Sys2Proof.Machine.exec .apertureSet s = .next t ∧ answered s t 2 ∧ t.host.aperture = s.host.aperture)
    ∧ (holdsCommand s 0x0201 → s.arg 0 % 64 = 0 → s.arg 1 % 64 = 0 → s.arg 0 + s.arg 1 ≤ s.mem.top - 2 ^ 31 → s.mem.wf = true →
      ∃ t, Sys2Proof.Machine.exec .memFresh s = .next t ∧ answered s t 0
        ∧ (∀ a, s.arg 0 ≤ a → a < s.arg 0 + s.arg 1 → t.mem.byte a = 0)
        ∧ (∀ a, a < s.arg 0 ∨ s.arg 0 + s.arg 1 ≤ a → t.mem.byte a = s.mem.byte a))
    ∧ (holdsCommand s 0x0202 → s.arg 0 < 2 → cellsWf 0xFF s.nv.flash = true →
      ∃ t, Sys2Proof.Machine.exec .memMirrorSet s = .next t ∧ answered s t 0 ∧ (t.nv.mirrorWord = true ↔ s.arg 0 = 1)
        ∧ (∀ a, a < 0x2004 ∨ 0x2008 ≤ a → t.nv.bytes a 1 = s.nv.bytes a 1) ∧ t.dram = s.dram)
    ∧ (holdsCommand s 0x0107 → 10 ≤ s.arg 0 / 2 ^ 16 → s.arg 0 / 2 ^ 16 ≤ 1000 → natBits (s.arg 0) 8 8 = 0 →
      ∃ t, Sys2Proof.Machine.exec .hangSet s = .next t ∧ answered s t 0 ∧ t.q.hangWatch = s.arg 0 % 256
        ∧ t.q.hangMs = s.arg 0 / 2 ^ 16 ∧ t.q.queues = s.q.queues ∧ t.grid = s.grid)
    ∧ (holdsCommand s 0x0502 → 1360 ≤ s.arg 0 → s.arg 0 ≤ 1600 →
      ∃ t, Sys2Proof.Machine.exec (.guardSet .admin) s = .next t ∧ answered s t 0 ∧ t.pow.nextThreshold = s.arg 0
        ∧ t.pow.threshold = s.pow.threshold)
    ∧ (holdsCommand s 0x0502 → s.arg 0 < 1360 ∨ 1600 < s.arg 0 →
      ∃ t, Sys2Proof.Machine.exec (.guardSet .admin) s = .next t ∧ answered s t 2 ∧ t.pow = s.pow)
    ∧ (holdsCommand s 0x0301 → s.arg 0 = 2 ^ 33 → cellsWf 0xFF s.nv.flash = true →
      ∃ t, Sys2Proof.Machine.exec (.faultRecordClear .admin) s = .next t ∧ answered s t 0 ∧ t.nv.recordCount = 0 ∧ t.log = s.log)

/-- The same commands through the sideband at firmware level, while no request waits behind a challenge, answer with the sender's TAG and RESULT 0 and take effect; at ROM level
each answers STATE (3) and has no effect (R511, R514-R516). -/
def Obligations.SidebandMailboxAnswersAtFirmwareLevel : Prop :=
  ∀ (s : State) (tag : Byte) (args : List DWord), s.sbRom = true → s.sbHolds = 0 →
    let a0 := (args.getD 0 0).toNat
    let ok := fun (c : Instr) (f : State → Prop) => ∃ t, Sys2Proof.Machine.exec c s = .next t
      ∧ (t.sb.reply.map fun r => (r.tag, r.result)) = some (tag, 0) ∧ f t ∧ t.host = s.host ∧ t.q = s.q ∧ t.grid = s.grid
      ∧ t.mem = s.mem
    (s.sbFirmware = true →
      ok (.getInfo (.sideband tag args)) (fun t => (t.sb.reply.map fun r => (r.words.getD 1 0).toNat) = some (s.mem.top % 2 ^ 64))
      ∧ ok (.fwStatus (.sideband tag args)) (fun t => t.nv = s.nv)
      ∧ ok (.rngStatus (.sideband tag args)) (fun t => (t.sb.reply.map fun r => (r.words.getD 1 0).toNat) = some (s.rng.failures % 2 ^ 64))
      ∧ ok (.powerRead (.sideband tag args)) (fun t => (t.sb.reply.map fun r => (r.words.getD 4 0).toNat) = some (s.pow.threshold % 2 ^ 64))
      ∧ (1360 ≤ a0 → a0 ≤ 1600 → ok (.guardSet (.sideband tag args)) fun t => t.pow.nextThreshold = a0)
      ∧ (a0 < 16 → s.grid.runs = [] → ok (.nodeSet (.sideband tag args)) fun t => t.nl.node = some a0)
      ∧ (∀ e : LogEntry, a0 < 2 ^ 32 → s.log.entries.find? (fun x => x.number == a0) = some e →
        ok (.faultLogRead (.sideband tag args)) fun t => (t.sb.reply.map fun r => (r.words.getD 1 0).toNat) = some (e.number % 2 ^ 64))
      ∧ (∀ k : Nat, a0 = 2 ^ 32 + k → k < min s.nv.recordCount 64 →
        ok (.faultRecordRead (.sideband tag args)) fun t => t.nv = s.nv)
      ∧ (a0 = 2 ^ 33 → cellsWf 0xFF s.nv.flash = true →
        ok (.faultRecordClear (.sideband tag args)) fun t => t.nv.recordCount = 0))
    ∧ (s.sbFirmware = false → s.ops = [] →
      ∀ c ∈ [Instr.getInfo (.sideband tag args), .fwStatus (.sideband tag args), .rngStatus (.sideband tag args),
          .powerRead (.sideband tag args), .guardSet (.sideband tag args), .nodeSet (.sideband tag args)],
        ∃ t, Sys2Proof.Machine.exec c s = .next t ∧ (t.sb.reply.map fun r => (r.tag, r.result)) = some (tag, 3)
          ∧ t = { s with sb := t.sb })

/-- Queue commands: QUEUE_CREATE makes an ACTIVE queue with the arguments' layout, QUEUE_QUERY shows its words, QUEUE_REARM
makes a guilty queue ACTIVE, and QUEUE_DESTROY frees a queue without tasks at once, and otherwise sets every waiting task to
retire with DESTROYED (0x0101) and stays busy (R373, R408, R411, R414). Fences: allocation takes the lowest free number with
VALUE 0 for the given PASID, and none free is STATE (3); freeing removes it, clearing ERR clears only ERR, and both answer its
VALUE (R393, R408). -/
def Obligations.QueuesAndFencesAreMadeAndUnmade : Prop :=
  (∀ (s : State) (n : Nat), n < 1024 →
     (holdsCommand s 0x0101 → s.arg 0 % 2 ^ 16 = n → s.arg 0 < 2 ^ 28 → natBits (s.arg 0) 20 4 = 0 → natBits (s.arg 0) 24 4 ≤ 10 →
       s.arg 1 % 4096 = 0 → s.arg 2 % 4096 = 0 → s.arg 3 % 16 = 0 → 1 ≤ natBits (s.arg 4) 32 16 → natBits (s.arg 4) 32 16 ≤ 16384 →
       natBits (s.arg 4) 20 12 = 0 → s.arg 4 < 2 ^ 48 → s.arg 5 % 64 = 0 → 2 ≤ s.arg 6 → s.arg 6 ≤ 65536 → s.queue n = none →
       s.arg 5 + 32 * s.arg 6 ≤ s.mem.top - 2 ^ 31 →
       ∃ t q, Sys2Proof.Machine.exec .queueCreate s = .next t ∧ answered s t 0 ∧ outWord t 0 = n ∧ t.queue n = some q
         ∧ q.state = .active ∧ q.ringAddr = s.arg 1 ∧ q.complAddr = s.arg 2 ∧ q.doneAddr = s.arg 3
         ∧ q.size = 64 * 2 ^ natBits (s.arg 0) 24 4 ∧ q.quota = natBits (s.arg 4) 32 16 ∧ q.pasid = natBits (s.arg 4) 0 20
         ∧ q.tail = 0 ∧ q.head = 0 ∧ q.doneSeq = 0 ∧ (∀ m, m ≠ n → t.queue m = s.queue m) ∧ t.q.tasks = s.q.tasks ∧ t.mem = s.mem)
     ∧ (holdsCommand s 0x0101 → s.arg 0 % 2 ^ 16 = n → 10 < natBits (s.arg 0) 24 4 ∨ s.arg 1 % 4096 ≠ 0 ∨ s.arg 6 < 2 →
       ∃ t, Sys2Proof.Machine.exec .queueCreate s = .next t ∧ answered s t 2 ∧ t.q = s.q)
     ∧ (∀ q : Queue, holdsCommand s 0x0103 → s.arg 0 = n → s.queue n = some q → q.num = n →
       ∃ t, Sys2Proof.Machine.exec .queueQuery s = .next t ∧ answered s t 0 ∧ outWord t 0 = doorbellState q % 2 ^ 64
         ∧ outWord t 1 = q.head % 2 ^ 64 ∧ outWord t 2 = q.doneSeq % 2 ^ 64 ∧ outWord t 5 = q.badDoorbells % 2 ^ 64
         ∧ outWord t 6 = q.fetchFaults % 2 ^ 64 ∧ t.q = s.q)
     ∧ (∀ q : Queue, holdsCommand s 0x0104 → s.arg 0 = n → s.queue n = some q → q.state = .guilty →
       ∃ t, Sys2Proof.Machine.exec .queueRearm s = .next t ∧ answered s t 0
         ∧ t.queue n = some { q with state := .active, cause := 0 } ∧ t.q.tasks = s.q.tasks)
     ∧ (∀ q : Queue, holdsCommand s 0x0102 → s.arg 0 = n → s.queue n = some q → q.state ≠ .destroying →
       ((∀ u ∈ s.q.tasks, u.ref.queue ≠ n) → ∃ t, Sys2Proof.Machine.exec .queueDestroy s = .next t ∧ answered s t 0
         ∧ t.queue n = none ∧ outWord t 0 = 0 ∧ t.q.tasks = s.q.tasks ∧ t.grid = s.grid ∧ t.mem = s.mem)
       ∧ ((∃ u ∈ s.q.tasks, u.ref.queue = n) → (∀ u ∈ s.q.tasks, u.ref.queue = n → u.phase = .waiting) →
         ∃ t x, Sys2Proof.Machine.exec .queueDestroy s = .next t ∧ t.host.busy = true ∧ t.queue n = some x ∧ x.state = .destroying
           ∧ (∀ u ∈ t.q.tasks, u.ref.queue = n → u.phase = .ending 0x0101 0 false) ∧ t.mem = s.mem)))
  ∧ (∀ (s : State), holdsCommand s 0x0108 →
       (∀ n : Nat, s.arg 0 = 0 → s.arg 2 < 2 ^ 20 → n < 4096 → s.fence n = none → (∀ m, m < n → s.fence m ≠ none) →
         ∃ t, Sys2Proof.Machine.exec .fenceAllocate s = .next t ∧ answered s t 0 ∧ outWord t 0 = n
           ∧ t.fence n = some { num := n, pasid := s.arg 2, value := 0, err := false } ∧ (∀ m, m ≠ n → t.fence m = s.fence m)
           ∧ t.q.tasks = s.q.tasks ∧ t.q.queues = s.q.queues)
       ∧ (s.arg 0 = 0 → s.arg 2 < 2 ^ 20 → (∀ m, m < 4096 → s.fence m ≠ none) →
         ∃ t, Sys2Proof.Machine.exec .fenceAllocate s = .next t ∧ answered s t 3 ∧ t.q = s.q)
       ∧ (∀ f : Fence, s.arg 0 = 1 → s.fence (s.arg 1) = some f →
         ∃ t, Sys2Proof.Machine.exec .fenceFree s = .next t ∧ answered s t 0 ∧ outWord t 1 = f.value % 2 ^ 64
           ∧ t.fence (s.arg 1) = none ∧ (∀ m, m ≠ s.arg 1 → t.fence m = s.fence m) ∧ t.q.tasks = s.q.tasks)
       ∧ (∀ f : Fence, s.arg 0 = 2 → s.fence (s.arg 1) = some f →
         ∃ t, Sys2Proof.Machine.exec .fenceClearErr s = .next t ∧ answered s t 0 ∧ outWord t 1 = f.value % 2 ^ 64
           ∧ t.fence (s.arg 1) = some { f with err := false } ∧ (∀ m, m ≠ s.arg 1 → t.fence m = s.fence m) ∧ t.q.tasks = s.q.tasks))

/-- Chains: CE_CHAIN_START begins a good link, running or waiting on WAIT_SEQ, and stops on a bad one; a completed link has moved its
lines and gives way to the next, after a task that waits for the engine, or ends the chain; a wait ends when the owner's DONE_SEQ has come; CE_CHAIN_STOP names the link
not completed (R401, R408). -/
def Obligations.ChainsRunLinkByLink : Prop :=
  ∀ (s : State) (c a owner : Nat), c < 4 → owner < 1024 → s.q.engines.length = 4 →
    (holdsCommand s 0x0109 → s.arg 0 = c → s.arg 1 = a → s.arg 2 = owner → natBit (s.copyEngine c).cfg.force 1 = true →
      (s.copyEngine c).chain = none → (s.copyEngine c).task = none → (s.queue owner).isSome = true → s.mem.inSoft a 64 = true →
      ∃ t, Sys2Proof.Machine.exec .ceChainStart s = .next t ∧ answered s t 0 ∧ (t.copyEngine c).link = a
        ∧ (t.copyEngine c).owner = owner ∧ t.mem = s.mem
        ∧ ((readLink s.mem a).good = false → (t.copyEngine c).state = 4 ∧ (t.copyEngine c).chain = none)
        ∧ ((readLink s.mem a).good = true → (t.copyEngine c).chain = some (a, owner)
            ∧ (t.copyEngine c).state = if s.waitMet owner (readLink s.mem a) then 2 else 3))
    ∧ (holdsCommand s 0x010A → s.arg 0 = c → (s.copyEngine c).chain = some (a, owner) → (s.copyEngine c).task = none →
      ∃ t, Sys2Proof.Machine.exec .ceChainStop s = .next t ∧ answered s t 0 ∧ outWord t 0 = a % 2 ^ 64
        ∧ (t.copyEngine c).chain = none ∧ (t.copyEngine c).state = 0 ∧ t.mem = s.mem)
    ∧ (∀ v : HostView, (s.copyEngine c).state = 2 → (s.copyEngine c).chain = some (a, owner) → s.hostOpen = true → s.copyPowered = true →
        (readLink s.mem a).len = 64 → (readLink s.mem a).src < hostWindow → (readLink s.mem a).dst < hostWindow →
        s.mem.linePoisoned ((readLink s.mem a).src / 64) = false →
      ∃ t, Sys2Proof.Machine.exec (.chainLinkComplete c v) s = .next t
        ∧ t.mem = s.mem.write (readLink s.mem a).dst (s.mem.bytes (readLink s.mem a).src 64)
        ∧ (t.copyEngine c).bytes = (s.copyEngine c).bytes + 64
        ∧ ((readLink s.mem a).next = 0 → (t.copyEngine c).chain = none ∧ (t.copyEngine c).state = 0)
        ∧ ((readLink s.mem a).next ≠ 0 → (t.copyEngine c).link = (readLink s.mem a).next
            ∨ (t.copyEngine c).state = 0 ∧ (t.copyEngine c).chain = some ((readLink s.mem a).next, owner))
        ∧ t.q.tasks = s.q.tasks ∧ t.grid = s.grid)
    ∧ ((s.copyEngine c).state = 3 → (s.copyEngine c).chain = some (a, owner) → s.waitMet owner (readLink s.mem a) = true →
      s.live = true → ∃ t, Sys2Proof.Machine.exec (.chainWaitSatisfied c) s = .next t ∧ (t.copyEngine c).state = 2
        ∧ (∀ d, d ≠ c → t.copyEngine d = s.copyEngine d) ∧ t.mem = s.mem ∧ t.q.tasks = s.q.tasks)

/-! ### Registers, BAR4 and events -/

/-- A register write: a busy mailbox sets OVERRUN and takes nothing; fields of configuration stage and nothing comes into
force; WSEL, IRQ_MASK and the scrub period take effect at once (R10, R347-R352, R359, R365). Reads: a read returns the
register; an RC register clears as it is read; a 32-bit read of the low half of the stitch count latches the high half, which
a read of that half then returns whatever the count has come to (R10, R287, R310, R351, R424). -/
def Obligations.RegisterAccessesStageClearAndLatch : Prop :=
  (∀ (s : State) (v : DWord), s.hostUp = true → s.boot.ready = true →
     (∀ k : Nat, k < 8 → s.host.mbxArgs.length = 8 →
       (s.host.busy = false → ∃ t, Sys2Proof.Machine.exec (.registerWrite (0x1008 + 8 * k) 8 v) s = .next t
         ∧ t.host.mbxArgs.getD k 0 = v ∧ (∀ j, j ≠ k → t.host.mbxArgs.getD j 0 = s.host.mbxArgs.getD j 0))
       ∧ (s.host.busy = true → ∃ t, Sys2Proof.Machine.exec (.registerWrite (0x1008 + 8 * k) 8 v) s = .next t
         ∧ t.host.mbxArgs = s.host.mbxArgs ∧ t.host.overrun = true))
     ∧ (∃ t, Sys2Proof.Machine.exec (.registerWrite 0x0030 4 v) s = .next t
       ∧ t.host.wselClass = natBits (v.toNat % 2 ^ 32) 12 4 ∧ t.host.wselIndex = v.toNat % 4096)
     ∧ (s.host.busy = false → v.getLsbD 0 = true → s.host.mbxCmd.toNat % 2 ^ 16 ∈ adminOpcodes →
       ∃ t, Sys2Proof.Machine.exec (.registerWrite 0x1048 4 v) s = .next t ∧ t.host.busy = true
         ∧ t.host.mbxCmd = s.host.mbxCmd ∧ t.host.mbxArgs = s.host.mbxArgs)
     ∧ (∀ e : Nat, e < 8 → s.grid.engines.length = 8 → s.host.wselClass = 1 → s.host.wselIndex = e →
       ∃ t, Sys2Proof.Machine.exec (.registerWrite 0x800C 4 v) s = .next t ∧ (t.engine e).sel.staged = v.toNat % 4
         ∧ (t.engine e).sel.force = (s.engine e).sel.force ∧ (t.engine e).cur = (s.engine e).cur)
     ∧ (∀ c : Nat, c < 8 → s.dram.channels.length = 8 → s.host.wselClass = 2 → s.host.wselIndex = c →
       ∃ t, Sys2Proof.Machine.exec (.registerWrite 0x8008 4 v) s = .next t ∧ (t.channel c).period = min (v.toNat % 256) 168)
     ∧ (∀ i : Nat, i < 32 → s.q.slots.length = 32 → s.host.wselClass = 4 → s.host.wselIndex = i →
       ∃ t, Sys2Proof.Machine.exec (.registerWrite 0x8004 4 v) s = .next t ∧ (t.slot i).cfg.staged = v.toNat % 8
         ∧ (t.slot i).cfg.force = (s.slot i).cfg.force)
     ∧ (∀ d : Nat, d < 116 → s.pow.domains.length = 116 → s.host.wselClass = 5 → s.host.wselIndex = d →
       ∃ t, Sys2Proof.Machine.exec (.registerWrite 0x8004 4 v) s = .next t
         ∧ (t.domain d).cfg.staged = (if 98 ≤ d ∧ d ≤ 105 then v.toNat % 8 else v.toNat % 4)
         ∧ (t.domain d).cfg.force = (s.domain d).cfg.force))
  ∧ (∀ s : State, s.hostUp = true → s.boot.ready = true →
       (∀ c : Nat, c < 8 → s.dram.channels.length = 8 → s.host.wselClass = 2 → s.host.wselIndex = c →
         ∃ t, Sys2Proof.Machine.exec (.registerReadClear 0x8020 8) s = .next t
           ∧ t.host.readData = toBytesLE 8 ((s.channel c).corr % 2 ^ 64) ∧ (t.channel c).corr = 0
           ∧ (t.channel c).uncorr = (s.channel c).uncorr ∧ (∀ d, d ≠ c → t.channel d = s.channel d))
       ∧ (∀ p : Nat, p < 4 → s.nl.ports.length = 4 → s.host.wselClass = 3 → s.host.wselIndex = p → s.cnt.rcHi = [] →
         ∃ t, Sys2Proof.Machine.exec (.registerReadClear 0x8024 4) s = .next t
           ∧ t.host.readData = toBytesLE 4 ((s.port p).retries % 2 ^ 32) ∧ (t.port p).retries = 0)
       ∧ (s.cnt.rcHi = [] → ∃ t, Sys2Proof.Machine.exec (.registerReadClear 0x0004 4) s = .next t
           ∧ t.host.readData = toBytesLE 4 (0x100 + if s.nv.fuses.gradeX then 2 ^ 16 else 0) ∧ t.cnt = s.cnt ∧ t.dram = s.dram ∧ t.nl = s.nl)
       ∧ (s.cnt.rcHi = [] → ∃ t, Sys2Proof.Machine.exec (.latchingLowRead 0x3000) s = .next t
           ∧ t.host.readData = toBytesLE 4 (s.cnt.stitch % 2 ^ 32)
           ∧ t.cnt.stitchHi = BitVec.ofNat 32 (s.cnt.stitch / 2 ^ 32) ∧ t.cnt.stitch = s.cnt.stitch)
       ∧ ∃ t, Sys2Proof.Machine.exec (.registerReadClear 0x3004 4) s = .next t
           ∧ t.host.readData = toBytesLE 4 s.cnt.stitchHi.toNat ∧ t.cnt = s.cnt)

/-- A commit that fails any check is refused: nothing in force changes; every staged value reverts to its value in force, so STAGED
reads 0; REFUSED is set, and FAULT, CLASS and INDEX name the first fault of R353. The one exception is COMMIT_BUSY, decided
alone: it keeps the staged values and leaves the pending commit to complete (R355). -/
def Obligations.RefusedCommitsChangeNothingInForce : Prop :=
  ∀ (s : State) (v : HostView), s.hostUp = true → s.boot.ready = true →
    let inForce := fun (t : State) => (∀ e, (t.engine e).sel.force = (s.engine e).sel.force ∧ (t.engine e).cur = (s.engine e).cur)
      ∧ (∀ i, (t.slot i).cfg.force = (s.slot i).cfg.force) ∧ (∀ c, (t.copyEngine c).cfg.force = (s.copyEngine c).cfg.force)
      ∧ (∀ d, (t.domain d).cfg.force = (s.domain d).cfg.force) ∧ t.host.evtBase.force = s.host.evtBase.force
      ∧ t.host.evtHead = s.host.evtHead ∧ t.host.evtTail = s.host.evtTail ∧ t.pow.vddMv = s.pow.vddMv
      ∧ t.host.commit = s.host.commit
    (∀ (f : Nat × Nat × Nat) (rest : List (Nat × Nat × Nat)), s.host.commit = none → commitFaults s = f :: rest →
      ∃ t, Sys2Proof.Machine.exec (.cfgCommitGo v) s = .next t ∧ inForce t ∧ anyStaged t = false
        ∧ natBit (cfgStatus t) 30 = false ∧ t.host.refused = true ∧ (t.host.fault, t.host.faultClass, t.host.faultIndex) = f
        ∧ t.q.queues = s.q.queues ∧ t.q.tasks = s.q.tasks ∧ t.grid.runs = s.grid.runs ∧ t.mem = s.mem)
    ∧ (s.host.commit ≠ none → ∃ t, Sys2Proof.Machine.exec (.cfgCommitGo v) s = .next t ∧ inForce t ∧ t.host.refused = true
        ∧ (t.host.fault, t.host.faultClass, t.host.faultIndex) = (5, 0, 0) ∧ t.host.evtBase = s.host.evtBase
        ∧ t.q = s.q ∧ t.grid = s.grid ∧ t.pow = s.pow ∧ t.mem = s.mem)

/-- Staged configuration: an accepted CFG_COMMIT.GO puts every staged value in force at once where no engine is in a tick and no
profile changes; DISCARD reverts what is staged; a profile change in progress ends with the new profile on every engine and VDD_CD at the
highest of the dies' fused values for it (R19, R352, R354, R465). -/
def Obligations.CommitsAndDiscardsActOnEveryStagedValue : Prop :=
  ∀ (s : State) (v : HostView), s.hostUp = true → s.boot.ready = true →
    (s.host.commit = none → commitFaults s = [] → s.grid.runs = [] → (∀ e, e < 8 → stagedSel s e = (s.engine e).sel.force) →
      s.pow.domains.length = 116 →
      ∃ t, Sys2Proof.Machine.exec (.cfgCommitGo v) s = .next t ∧ t.host.refused = false ∧ t.host.commit = none
        ∧ anyStaged t = false ∧ (∀ i, i < 32 → (t.slot i).cfg.force = (s.slot i).cfg.staged)
        ∧ (∀ c, c < 4 → (t.copyEngine c).cfg.force = (s.copyEngine c).cfg.staged)
        ∧ (∀ d, d < 116 → (t.domain d).cfg.force = (s.domain d).cfg.staged)
        ∧ t.host.evtBase.force = s.host.evtBase.staged ∧ t.q.queues = s.q.queues ∧ t.mem = s.mem)
    ∧ (∃ t, Sys2Proof.Machine.exec .cfgCommitDiscard s = .next t ∧ anyStaged t = false ∧ t.host.refused = false
        ∧ (∀ i, (t.slot i).cfg.force = (s.slot i).cfg.force) ∧ t.host.evtBase.force = s.host.evtBase.force)
    ∧ ∀ (c : Commit) (p : Nat), s.host.commit = some c → c.profile = some p →
      ∃ t, Sys2Proof.Machine.exec .profileChangeComplete s = .next t ∧ (∀ e ∈ t.grid.engines, e.cur = p)
        ∧ (c.engines = [] → t.host.commit = none) ∧ t.pow.vddMv = setPoint s.nv.fuses s.pow.fastOk p
        ∧ t.q = s.q ∧ t.mem = s.mem

/-- The event ring and the interrupts: a TAIL beyond HEAD is taken as HEAD and every write arms vector 1,024; held records are
written, oldest first, as far as the ring has room; unmasking a vector sends its pending message; invalidated translations go;
DOE discovery lists two objects (R341, R364-R366). -/
def Obligations.EventRingAndInterrupts : Prop :=
  ∀ s : State, s.hostUp = true →
    (∀ v : Word, s.boot.ready = true → ∃ t, Sys2Proof.Machine.exec (.evtRingTailWrite v) s = .next t ∧ t.host.evtArmed = true
      ∧ t.host.evtTail = (if (v.toNat + 2 ^ 32 - s.host.evtTail) % 2 ^ 32 ≤ (s.host.evtHead + 2 ^ 32 - s.host.evtTail) % 2 ^ 32
          then v.toNat else s.host.evtHead) ∧ t.host.evtHead = s.host.evtHead)
    ∧ (natBit s.host.evtBase.force 4 = true → s.host.evtOff = false → s.host.evtTail < 2 ^ 32 → s.host.evtHead < 2 ^ 32 →
      (s.host.evtHead + 2 ^ 32 - s.host.evtTail) % 2 ^ 32 ≤ s.host.ringSize →
      ∃ t, Sys2Proof.Machine.exec .heldRecordDelivery s = .next t
        ∧ (let n := min s.host.held.length (s.host.ringSize - (s.host.evtHead + 2 ^ 32 - s.host.evtTail) % 2 ^ 32)
          t.host.held = s.host.held.drop n ∧ t.host.evtHead = (s.host.evtHead + n) % 2 ^ 32) ∧ t.host.evtTail = s.host.evtTail)
    ∧ (∀ n : Nat, n < 1056 → n ∈ s.host.msixPending → natBit (cellRead 0 s.host.cfg 0xB3).toNat 6 = false →
        cellsWf 0 s.host.msixTable = true →
      ∃ t, Sys2Proof.Machine.exec (.msixUnmask n) s = .next t ∧ t.out = s.out ++ [.msix n] ∧ n ∉ t.host.msixPending)
    ∧ (∀ ps : List Nat, ∃ t, Sys2Proof.Machine.exec (.atsInvalidation ps) s = .next t ∧ (∀ p ∈ ps, p ∉ t.host.atsCache)
      ∧ (∀ p, p ∉ ps → (p ∈ t.host.atsCache ↔ p ∈ s.host.atsCache)))
    ∧ (∃ t, Sys2Proof.Machine.exec (.doeDiscovery 0) s = .next t ∧ t.sb.reply.map (·.words) = some [0x01000001])
    ∧ ∃ t, Sys2Proof.Machine.exec (.doeDiscovery 1) s = .next t ∧ t.sb.reply.map (·.words) = some [0x00010001]

/-- The aperture: a read of software DRAM returns its bytes, or all ones with the poison bit where a line is poisoned; outside
software DRAM, also in part of an access, a read returns zero and a write is discarded; a write within it stores its bytes (R316, R345, R446). -/
def Obligations.ApertureReachesSoftwareDram : Prop :=
  ∀ (s : State) (off n : Nat), s.hostUp = true → s.boot.ready = true → 0x10000 ≤ off →
    let d := s.host.aperture + off - 0x10000
    (d + n ≤ s.mem.top - 2 ^ 31 → s.mem.poisonIn d n = false → ∃ t, Sys2Proof.Machine.exec (.apertureRead off n) s = .next t
      ∧ t.host.readData = s.mem.bytes d n ∧ t.host.readPoison = false ∧ t.mem = s.mem)
    ∧ (d + n ≤ s.mem.top - 2 ^ 31 → s.mem.poisonIn d n = true → ∃ t, Sys2Proof.Machine.exec (.apertureRead off n) s = .next t
      ∧ t.host.readData = List.replicate n 0xFF ∧ t.host.readPoison = true ∧ t.mem = s.mem)
    ∧ (d < s.mem.top - 2 ^ 31 → s.mem.top - 2 ^ 31 < d + n → s.mem.poisonIn d (s.mem.top - 2 ^ 31 - d) = false →
      ∃ t, Sys2Proof.Machine.exec (.apertureRead off n) s = .next t
        ∧ t.host.readData = s.mem.bytes d (s.mem.top - 2 ^ 31 - d) ++ List.replicate (d + n - (s.mem.top - 2 ^ 31)) 0 ∧ t.mem = s.mem)
    ∧ (s.mem.top - 2 ^ 31 ≤ d → 0 < n → ∃ t, Sys2Proof.Machine.exec (.apertureRead off n) s = .next t
      ∧ t.host.readData = List.replicate n 0 ∧ t.mem = s.mem)
    ∧ ∀ bs : List Byte,
      (d + bs.length ≤ s.mem.top - 2 ^ 31 → 0 < s.mem.top - 2 ^ 31 - d → ∃ t, Sys2Proof.Machine.exec (.apertureWrite off bs) s = .next t
        ∧ t.mem = s.mem.write d bs ∧ t.q.tasks = s.q.tasks ∧ t.grid = s.grid)
      ∧ (s.mem.top - 2 ^ 31 ≤ d → s.ops = [] → Sys2Proof.Machine.exec (.apertureWrite off bs) s = .next s)

/-- A command about one power domain leaves every other domain as it was, and every guard, queue, run, port, byte of DRAM and
flash, register of the host port and fault-log entry. A command about joining devices leaves the host port's registers, fuses
and flash, the fault log, the entropy service and the control cores as they were, and, where no run is on the device, every
engine, task and queue. Register and event commands leave tasks, queues, runs, patterns, DRAM, flash and fuses, the fault log,
the entropy service, the control cores and the ports' links as they were. -/
def Obligations.RegisterDomainAndLinkCommandsTouchNoWork : Prop :=
  (∀ (s t : State) (d : Nat) (c : Instr), c = .domainIdle d ∨ c = .domainWake d ∨ c = .domainWakeComplete d → s.ops = [] →
     Sys2Proof.Machine.exec c s = .next t →
     (∀ e, e ≠ d → t.domain e = s.domain e) ∧ t.pow.guards = s.pow.guards ∧ t.pow.threshold = s.pow.threshold ∧ t.q = s.q
       ∧ t.grid.runs = s.grid.runs ∧ t.grid.patterns = s.grid.patterns ∧ t.nl = s.nl ∧ t.mem = s.mem ∧ t.dram = s.dram
       ∧ t.host = s.host ∧ sameControl s t ∧ t.log = s.log ∧ t.cnt = s.cnt ∧ t.rng = s.rng ∧ t.out = s.out)
  ∧ (∀ (c : Instr) (s t : State), s.grid.runs = [] → s.ops = [] →
       (match c with
         | .nlPresentDebounced _ | .nlPortTrained _ _ | .nlPortDetach _ _ | .retrainTimeout _ | .frameAckTimeout _ | .idleFrame _ _
         | .flit _ _ | .openStream _ _ | .stitch _ _ | .arm _ _ | .vote _ _ _ | .sum _ _ | .hemAck _ _ | .peerLost _ _ | .link _ _
         | .topology _ _ | .topologyPeriodic | .topologyExpiry _ | .launchAttempt _ _ | .rehost _ => True
         | _ => False) →
       Sys2Proof.Machine.exec c s = .next t →
       t.q = s.q ∧ t.grid = s.grid ∧ t.mem = s.mem ∧ t.dram = s.dram ∧ t.host = s.host ∧ sameControl s t ∧ t.log = s.log
         ∧ t.rng = s.rng ∧ t.dbg = s.dbg ∧ t.sb = s.sb)
  ∧ (∀ (c : Instr) (s t : State), s.ops = [] →
       (match c with
         | .registerWrite _ _ _ | .registerReadClear _ _ | .latchingLowRead _ | .evtRingTailWrite _ | .msixUnmask _ | .atsInvalidation _
         | .doeDiscovery _ | .heldRecordDelivery | .cfgCommitDiscard | .apertureRead _ _ => True
         | _ => False) →
       Sys2Proof.Machine.exec c s = .next t →
       t.q.tasks = s.q.tasks ∧ t.q.queues = s.q.queues ∧ t.q.fences = s.q.fences ∧ t.grid.runs = s.grid.runs
         ∧ t.grid.patterns = s.grid.patterns ∧ t.mem = s.mem ∧ t.nv = s.nv ∧ t.log = s.log ∧ t.rng = s.rng ∧ t.fw = s.fw
         ∧ t.boot = s.boot ∧ t.board = s.board ∧ t.dbg = s.dbg ∧ t.nl.node = s.nl.node ∧ t.nl.arms = s.nl.arms ∧ t.nl.votes = s.nl.votes)

/-! ### Queues, the headgate, dispatch -/

/-- Doorbells: a TAIL within N of HEAD is accepted and any other counted in BAD_DOORBELLS; HSWAP names a swap, a second one before
it is ignored, and the swap takes place once every descriptor below it is admitted; SPROUT_ACK is taken (R375, R376, R382,
R399). -/
def Obligations.DoorbellsMoveOneQueue : Prop :=
  ∀ (s : State) (n : Nat) (v : Word) (q : Queue), s.hostUp = true → s.boot.ready = true → s.queue n = some q →
    let one := fun (t : State) (q' : Queue) => t.queue n = some q' ∧ (∀ m, m ≠ n → t.queue m = s.queue m)
      ∧ t.q.tasks = s.q.tasks ∧ t.q.slots = s.q.slots ∧ t.grid = s.grid ∧ t.mem = s.mem ∧ t.host = s.host ∧ t.out = s.out
    ((v.toNat + 2 ^ 32 - q.head % 2 ^ 32) % 2 ^ 32 ≤ q.size →
      ∃ t, Sys2Proof.Machine.exec (.tailWrite n v) s = .next t ∧ one t { q with tail := v })
    ∧ (q.size < (v.toNat + 2 ^ 32 - q.head % 2 ^ 32) % 2 ^ 32 →
      ∃ t, Sys2Proof.Machine.exec (.tailWrite n v) s = .next t ∧ one t { q with badDoorbells := q.badDoorbells + 1 })
    ∧ (q.hswap = none → ∃ t, Sys2Proof.Machine.exec (.hswap n v) s = .next t ∧ one t { q with hswap := some v })
    ∧ (q.hswap ≠ none → s.ops = [] → Sys2Proof.Machine.exec (.hswap n v) s = .next s)
    ∧ (∀ p : Word, q.hswap = some p →
      (q.below p = true → ∃ t, Sys2Proof.Machine.exec (.handleTableSwap n) s = .next t
        ∧ one t { q with copy := 1 - q.copy, hswap := none })
      ∧ (q.below p = false → s.ops = [] → Sys2Proof.Machine.exec (.handleTableSwap n) s = .next s))
    ∧ ∀ h : HostView, (∀ r ∈ s.grid.runs, r.ref.queue = n → (s.engine r.lead).state ≠ 4) →
      ∃ t, Sys2Proof.Machine.exec (.sproutAck n v h) s = .next t ∧ one t { q with sproutAck := v }

/-- The headgate: a free slot takes the queue of its level that has waited longest; it fetches the next descriptor, or counts a
failed fetch and lets the queue wait; a fetched descriptor that passes its checks enters the scoreboard next in order, one
that fails them retires with CONFIG_REFUSED; a slot's time-out frees it; a ready task ages to level 0 (R374, R380,
R391, R394, R395). -/
def Obligations.HeadgateBindsFetchesAndAdmits : Prop :=
  ∀ (s : State) (slot n : Nat) (q : Queue), s.admitting = true → slot < 32 → s.q.slots.length = 32 → s.queue n = some q →
    ((s.slot slot).bound = none → natBit (s.slot slot).cfg.force 2 = true →
        s.q.waiting.find? (fun m => (s.queue m).map (·.level) == some ((s.slot slot).cfg.force % 4)) = some n →
      ∃ t, Sys2Proof.Machine.exec (.slotBind slot n) s = .next t ∧ (t.slot slot).bound = some n ∧ (t.slot slot).burst = 0
        ∧ n ∉ t.q.waiting ∧ (∀ j, j ≠ slot → t.slot j = s.slot j) ∧ t.q.queues = s.q.queues ∧ t.q.tasks = s.q.tasks)
    ∧ ((s.slot slot).bound = some n → s.fetchable q = true → (s.slot slot).burst < 64 →
      (∀ d : List Byte, ∃ t, Sys2Proof.Machine.exec (.descriptorFetch slot (some d)) s = .next t
        ∧ t.queue n = some { q with fetched := q.fetched ++ [(q.head, slot, d)], head := q.head + 1 }
        ∧ (t.slot slot).burst = (s.slot slot).burst + 1 ∧ (t.slot slot).fetched = ((s.slot slot).fetched + 1) % 2 ^ 64
        ∧ (∀ m, m ≠ n → t.queue m = s.queue m) ∧ t.q.tasks = s.q.tasks)
      ∧ ∃ t, Sys2Proof.Machine.exec (.descriptorFetch slot none) s = .next t
        ∧ t.queue n = some { q with fetchFaults := q.fetchFaults + 1, backoff := true } ∧ (t.slot slot).bound = none
        ∧ t.q.waiting = s.q.waiting ∧ t.q.tasks = s.q.tasks)
    ∧ (∃ t, Sys2Proof.Machine.exec (.fetchRetry n) s = .next t ∧ t.queue n = some { q with backoff := false }
        ∧ (q.work = true → s.boundTo n = false → n ∈ t.q.waiting) ∧ t.q.tasks = s.q.tasks ∧ t.q.slots = s.q.slots)
    ∧ ((s.slot slot).bound = some n → ∃ t, Sys2Proof.Machine.exec (.slotTimeout slot) s = .next t ∧ (t.slot slot).bound = none
        ∧ (∀ j, j ≠ slot → t.slot j = s.slot j) ∧ t.q.queues = s.q.queues ∧ t.q.tasks = s.q.tasks)
    ∧ (∀ (p from_ : Nat) (d : List Byte) (rest : List (Nat × Nat × List Byte)) (u : Task),
        (s.slot slot).bound = some n → q.lane = [] → q.fetched = (p, from_, d) :: rest → q.hswap = none →
        p + 1 ≤ q.doneSeq + q.size → s.unretired n < q.quota → s.q.tasks.length < 262144 →
      (s.admission q d { queue := n, seq := p + 1 } from_ none = (u, none) → s.edgesUsed + u.edges.length ≤ 1048576 →
        ∃ t, Sys2Proof.Machine.exec (.taskAdmit slot) s = .next t ∧ t.q.tasks = s.q.tasks ++ [u]
          ∧ t.q.nextOrder = s.q.nextOrder + 1 ∧ t.queue n = some { q with fetched := rest, admitted := p + 1 }
          ∧ t.grid = s.grid ∧ t.mem = s.mem ∧ t.out = s.out)
      ∧ (∀ off : Nat, q.state = .active → descriptorRefusal q d = some off → s.edgesUsed ≤ 1048576 → p < 2 ^ 63 - 1 →
        ∃ t x, Sys2Proof.Machine.exec (.taskAdmit slot) s = .next t ∧ x.ref = { queue := n, seq := p + 1 }
          ∧ retired s t x { q with fetched := rest, admitted := p + 1 } 0x0200 off false))
    ∧ ∀ (ref : TaskRef) (u : Task), s.task ref = some u → s.isReady u = true →
      ∃ t, Sys2Proof.Machine.exec (.taskAgeing ref) s = .next t ∧ t.task ref = some { u with aged := true }
        ∧ (∀ r, r ≠ ref → t.task r = s.task r) ∧ t.q.queues = s.q.queues ∧ t.grid = s.grid ∧ t.mem = s.mem

/-- Completion and fences: NOP and FENCE_SIGNAL retire at dispatch with DONE, the signal raising its fence's VALUE; FENCE_WAIT retires
once VALUE has come, with FENCE_ERR where ERR is 1, and registers its wait before; a task set to retire writes its record, or
holds it while the host cannot be written (R370, R379, R393, R403, R406). -/
def Obligations.TasksRetireWithTheirRecords : Prop :=
  ∀ (s : State) (ref : TaskRef) (u : Task) (q : Queue), s.task ref = some u → s.queue ref.queue = some q →
    (u.opcode = 0x0000 → s.mayDispatch u = true → ∃ t, Sys2Proof.Machine.exec (.nop ref) s = .next t
      ∧ retired s t u q 0 0 false ∧ t.q.fences = s.q.fences ∧ t.grid = s.grid ∧ t.mem = s.mem)
    ∧ (u.opcode = 0x0020 → s.mayDispatch u = true → ∃ t, Sys2Proof.Machine.exec (.fenceSignal ref) s = .next t
      ∧ retired s t u q 0 0 false ∧ t.grid = s.grid ∧ t.mem = s.mem
      ∧ (∀ f, s.fence u.pattern = some f → t.fence u.pattern = some { f with value := max f.value u.fenceValue })
      ∧ ∀ m, m ≠ u.pattern → t.fence m = s.fence m)
    ∧ (∀ f : Fence, u.opcode = 0x0021 → s.mayDispatch u = true → s.fence u.pattern = some f →
      (u.fenceValue ≤ f.value → ∃ t, Sys2Proof.Machine.exec (.fenceWait ref) s = .next t
        ∧ retired s t u q 0 0 f.err ∧ t.q.fences = s.q.fences ∧ t.grid = s.grid ∧ t.mem = s.mem)
      ∧ (f.value < u.fenceValue → ∃ t, Sys2Proof.Machine.exec (.fenceWait ref) s = .next t
        ∧ t.task ref = some { u with waitSince := some s.cnt.stitch } ∧ t.q.fences = s.q.fences ∧ t.q.queues = s.q.queues
        ∧ t.out = s.out ∧ t.grid = s.grid ∧ t.mem = s.mem))
    ∧ (∀ f : Fence, s.hostOpen = true → u.opcode = 0x0021 → u.waitSince.isSome = true → u.phase = .waiting →
        s.fence u.pattern = some f → u.fenceValue ≤ f.value →
      ∃ t, Sys2Proof.Machine.exec (.fenceWaitSatisfied ref) s = .next t ∧ retired s t u q 0 0 f.err
        ∧ t.q.fences = s.q.fences ∧ t.grid = s.grid ∧ t.mem = s.mem)
    ∧ ∀ (v : HostView) (st de : Nat) (fe : Bool), s.live = true → u.phase = .ending st de fe → s.mayRetire u = true →
        s.fw.noCore = false → s.host.wait = .none →
      (s.hostOpen = true → ∃ t, Sys2Proof.Machine.exec (.taskRetire ref v) s = .next t ∧ retired s t u q st de fe
        ∧ t.q.fences = s.q.fences ∧ t.grid = s.grid ∧ t.mem = s.mem)
      ∧ (s.hostOpen = false → ∃ t, Sys2Proof.Machine.exec (.taskRetire ref v) s = .next t
        ∧ (∀ x ∈ t.q.tasks, x.ref ≠ ref) ∧ t.queue ref.queue = some (q.retireSeq ref.seq st)
        ∧ (∃ h, t.host.heldRecords = s.host.heldRecords ++ [h] ∧ h.seq = ref.seq ∧ h.bytes = recordBytes u st de fe)
        ∧ t.out = s.out ∧ t.grid = s.grid ∧ t.mem = s.mem)

/-- Watchdogs: a RUN without progress over whole intervals makes its queue guilty with cause hang, and is to be stopped at its next
boundary; a cycle of fence waits makes the queue that registered last guilty, and no cycle changes nothing; a guilty run that
reaches no boundary loses its tick, and its engines go to IDLE with no pattern (R413-R415). -/
def Obligations.GuiltStopsQueues : Prop :=
  ∀ s : State, s.live = true →
    (s.q.hangWatch = 0 → ∃ t, Sys2Proof.Machine.exec .hangInterval s = .next t ∧ t.q.tasks = s.q.tasks.map s.judge
      ∧ t.q.queues = s.q.queues ∧ t.grid = s.grid ∧ t.mem = s.mem)
    ∧ (∀ (q : Queue) (u : Task) (r : Run), s.q.queues = [q] → s.q.tasks = [u] → s.grid.runs = [r] → q.state = .active →
        u.ref.queue = q.num → u.opcode = 1 → u.phase = .running → r.ref = u.ref → r.ended = none → r.begun = true →
        (s.engine r.lead).state = 3 → u.wholeInterval = true → u.progress = u.lastProgress → s.q.hangReset = false →
        s.host.attached = true → (∀ c, (s.copyEngine c).task = none) → 0 < s.q.hangWatch → s.q.hangWatch ≤ u.still + 1 →
      ∃ t x, Sys2Proof.Machine.exec .hangInterval s = .next t ∧ t.queue q.num = some x ∧ x.state = .guilty ∧ x.cause = 1
        ∧ t.grid.runs = [{ r with wants := r.wants ++ [.kill 0x0102 0] }] ∧ t.mem = s.mem)
    ∧ (s.fw.noCore = false → s.fw.running.isSome = true →
      (s.cycleVictim = none → ∃ t, Sys2Proof.Machine.exec .fenceCycleScan s = .next t ∧ t.fw = { s.fw with scanned := true }
        ∧ t.q = s.q ∧ t.grid = s.grid ∧ t.mem = s.mem)
      ∧ (∀ n : Nat, s.cycleVictim = some n → s.grid.runs = [] → (∀ c, (s.copyEngine c).task = none) →
        ∃ t x, Sys2Proof.Machine.exec .fenceCycleScan s = .next t ∧ t.fw.scanned = true ∧ t.queue n = some x
          ∧ x.state = .guilty ∧ x.cause = 2 ∧ t.mem = s.mem))
    ∧ ∀ (r : Run) (p : Pattern) (e d : Nat), soleRun s r p → e ∈ r.engines → r.wants = [.kill 0x0102 d] → s.task r.ref ≠ none →
        (∀ u, s.task r.ref = some u → u.phase = .running) →
      ∃ t, Sys2Proof.Machine.exec (.engineResetTimeout e) s = .next t ∧ t.grid.runs = [] ∧ ends t r.ref 0x0102 d
        ∧ ∀ k ∈ r.engines, (t.engine k).state = 1 ∧ (t.engine k).pattern = none

/-- TASK_CANCEL retires a task that has been admitted and has not started, with CANCELLED. A task has not started when it is waiting for
edges or for dispatch, or when it is a RUN HELD before tick 0. A cancelled task writes no results area. (R410: the command
answers OK and DRAM, where every results area lies, stays as it was; when the task retires next, with the host within reach,
its record bears status 0x0100. Any other task stays as it is and the command answers STATE.) -/
def Obligations.TaskCancelRetiresWhatHasNotStarted : Prop :=
  ∀ (s : State) (ref : TaskRef) (u : Task) (q : Queue), holdsCommand s 0x0105 → s.arg 0 = ref.queue → s.arg 1 = ref.seq →
    s.queue ref.queue = some q → q.knows ref.seq = true → q.state = .active → s.task ref = some u →
    (u.phase = .waiting ∨ (u.phase = .running ∧ ∃ r, s.run? ref = some r ∧ r.begun = false ∧ (s.engine r.lead).state = 6) →
      ∃ t, Sys2Proof.Machine.exec .taskCancel s = .next t ∧ answered s t 0 ∧ t.mem = s.mem ∧ ends t ref 0x0100 0xFFFFFFFF
        ∧ t.run? ref = (if u.phase = .waiting then s.run? ref else none)
        ∧ (s.hostOpen = true → ∀ v : HostView, ∃ w x, Sys2Proof.Machine.exec (.taskRetire ref v) t = .next w ∧ x.ref = ref
            ∧ retired t w x q 0x0100 0xFFFFFFFF false ∧ w.mem = s.mem))
    ∧ (¬ (u.phase = .waiting ∨ (u.phase = .running ∧ ∃ r, s.run? ref = some r ∧ r.begun = false ∧ (s.engine r.lead).state = 6)) →
      ∃ t, Sys2Proof.Machine.exec .taskCancel s = .next t ∧ answered s t 3 ∧ t.q = s.q ∧ t.grid = s.grid ∧ t.mem = s.mem)

/-- RUN_CONTROL, CHECKPOINT and ENG_RELEASE: a RUNNING run pauses or stops at its next boundary, a STARVED one pauses at once, a PAUSED one
resumes or ends with STATE 2, one HELD before tick 0 is stopped as a cancelled task; a run whose cause no longer holds leaves
HELD; a PAUSED target's checkpoint is written at once, a RUNNING one's at its next boundary (R362, R388, R409). -/
def Obligations.RunsArePausedResumedStoppedAndCheckpointed : Prop :=
  ∀ (s : State) (r : Run) (p : Pattern) (u : Task) (q : Queue), s.ops = [] → soleRun s r p → s.task r.ref = some u → u.phase = .running →
    s.queue r.ref.queue = some q → q.state = .active →
    let control := fun (action : Nat) => holdsCommand s 0x0106 ∧ s.arg 0 = r.ref.queue ∧ s.arg 1 = r.ref.seq ∧ s.arg 2 = action
      ∧ s.arg 3 = 0 ∧ r.ended = none
    (control 0 → r.begun = true → (s.engine r.lead).state = 3 → ∃ t, Sys2Proof.Machine.exec .runPause s = .next t ∧ answered s t 0
      ∧ t.grid.runs = [{ r with wants := r.wants ++ [.pause 1 0] }] ∧ t.grid.engines = s.grid.engines ∧ t.mem = s.mem)
    ∧ (control 0 → plain s r p → (s.engine r.lead).state = 4 → ∃ t, Sys2Proof.Machine.exec .runPause s = .next t ∧ answered s t 0
      ∧ ∀ e ∈ r.engines, (t.engine e).state = 5 ∧ (t.engine e).pauseKind = 1)
    ∧ (∀ v : HostView, control 1 → plain s r p → (s.engine r.lead).state = 5 → (s.engine r.lead).pauseKind = 1 →
      ∃ t, Sys2Proof.Machine.exec (.runResume v) s = .next t ∧ answered s t 0 ∧ (∃ x, t.grid.runs = [x] ∧ x.tick = r.tick
        ∧ x.replicas = r.replicas) ∧ (∀ e ∈ r.engines, (t.engine e).state = 3) ∧ t.mem = s.mem)
    ∧ (control 2 → r.begun = true → (s.engine r.lead).state = 3 → ∃ t, Sys2Proof.Machine.exec .runStop s = .next t ∧ answered s t 0
      ∧ t.grid.runs = [{ r with wants := r.wants ++ [.stop] }] ∧ t.grid.engines = s.grid.engines ∧ t.mem = s.mem)
    ∧ (control 2 → r.begun = true → r.wants = [] → r.imaging = none → (s.engine r.lead).state = 4 ∨ (s.engine r.lead).state = 5 →
      ∃ t, Sys2Proof.Machine.exec .runStop s = .next t ∧ answered s t 0 ∧ t.grid.runs = [] ∧ ends t r.ref r.doneStatus 0
        ∧ ∀ e ∈ r.engines, (t.engine e).state = (if r.blk.kind = 2 then 1 else 2) ∧ (t.engine e).task = none)
    ∧ (control 2 → r.begun = false → (s.engine r.lead).state = 6 → ∃ t, Sys2Proof.Machine.exec .runStop s = .next t ∧ answered s t 0
      ∧ t.grid.runs = [] ∧ ends t r.ref 0x0100 0xFFFFFFFF ∧ t.mem = s.mem)
    ∧ (∀ v : HostView, holdsCommand s 0x0004 → s.arg 0 = r.mask → r.mask < 256 → (∀ e ∈ r.engines, (s.engine e).state = 6) →
        r.begun = false → r.armed = false → r.lost = [] → r.wants = [] → r.blk.kind = 0 → r.blk.resume = false → r.blk.rehost = false →
        r.blk.noise = false → r.blk.loose = false → p.plan.samples = false → p.programs = [] → p.header.shards ≤ 1 → s.nl.votes = [] →
        r.queue = [] →
        r.pauseAt = 0 → r.complete p = false → s.startHold v r p u.slot = none →
      ∃ t, Sys2Proof.Machine.exec (.engRelease v) s = .next t ∧ answered s t 0 ∧ outWord t 0 = r.mask
        ∧ (∀ e ∈ r.engines, (t.engine e).state = 3) ∧ ∃ x, t.grid.runs = [x] ∧ x.ref = r.ref ∧ x.begun = true ∧ x.tick = r.tick)
    ∧ ∀ (ref : TaskRef) (c : Task) (b : List Byte) (cq : Queue), dispatched s ref c cq 0x0013 32 b → ref ≠ r.ref →
        fieldOf b 0 2 = r.ref.queue → fieldOf b 8 8 = r.ref.seq → fieldOf b 2 1 < 2 → fieldOf b 3 5 = 0 → fieldOf b 0x10 8 % 64 = 0 →
        fieldOf b 0x10 8 < hostWindow → checkpointLength r p ≤ 64 * fieldOf b 0x18 8 → q.pasid = cq.pasid → r.begun = true →
        r.ended = none → firstKill r.wants = none → s.addressFault cq c [(0x10, fieldOf b 0x10 8, 64 * fieldOf b 0x18 8, true)] = none →
      ((s.engine r.lead).state = 5 → ∃ t, Sys2Proof.Machine.exec (.checkpoint ref) s = .next t ∧ ends t ref 0 0
        ∧ t.mem = s.mem.write (fieldOf b 0x10 8) (checkpointBytes s r p) ∧ t.grid = s.grid)
      ∧ ((s.engine r.lead).state = 3 → ∃ t, Sys2Proof.Machine.exec (.checkpoint ref) s = .next t
        ∧ (∃ x, t.task ref = some x ∧ x.phase = .running) ∧ t.mem = s.mem
        ∧ t.grid.runs = [{ r with wants := r.wants ++ [.checkpoint ref (fieldOf b 0x10 8) (fieldOf b 2 1 == 1)] }])

/-- SESSION_ATTACH: a new session, with the count of sessions in its cookie's high half; a host without the cookie discards every queue,
task, run and byte of software DRAM; the host with the cookie finds its queues and tasks as they were; END frees every queue
once no task is left (R368, R370). -/
def Obligations.SessionsBeginResumeAndEnd : Prop :=
  ∀ (s : State) (v : HostView), s.adminHolds 0x0002 = true → s.host.mbxArgs.length = 8 →
    let begins := fun (t : State) => t.host.session = true ∧ t.host.attached = true ∧ t.host.begun = s.host.begun + 1
      ∧ t.host.cookie.toNat / 2 ^ 32 = (s.host.begun + 1) % 2 ^ 32
    (s.arg 1 = 0 → s.host.session = false → ∃ t, Sys2Proof.Machine.exec (.sessionAttachResume v) s = .next t ∧ answered s t 0 ∧ begins t
      ∧ outWord t 0 = t.host.cookie.toNat ∧ outWord t 2 = 0 ∧ t.q = s.q ∧ t.grid = s.grid ∧ t.mem = s.mem)
    ∧ (s.arg 1 = 0 → s.host.session = true → s.host.attached = false → s.arg 0 ≠ s.host.cookie.toNat →
      ∃ t, Sys2Proof.Machine.exec (.sessionAttachResume v) s = .next t ∧ answered s t 0 ∧ begins t ∧ outWord t 0 = t.host.cookie.toNat
        ∧ outWord t 2 = s.q.tasks.length % 2 ^ 64 ∧ t.q.queues = [] ∧ t.q.tasks = [] ∧ t.grid.runs = [] ∧ t.grid.patterns = []
        ∧ (∀ e ∈ t.grid.engines, e.pattern = none ∧ e.state ≤ 1) ∧ t.mem = s.mem.fresh 0 (s.mem.softTop / 64) ∧ t.q.fences = s.q.fences)
    ∧ (s.arg 1 = 0 → s.host.session = true → s.host.attached = false → s.arg 0 = s.host.cookie.toNat → s.grid.runs = [] →
        s.host.heldRecords = [] → s.host.held = [] →
      ∃ t, Sys2Proof.Machine.exec (.sessionAttachResume v) s = .next t ∧ answered s t 0 ∧ begins t ∧ t.host.evtOff = false
        ∧ outWord t 1 = s.q.queues.length % 2 ^ 64 ∧ t.q = s.q ∧ t.grid = s.grid ∧ t.mem = s.mem)
    ∧ (s.arg 1 = 1 → s.host.session = true → s.host.attached = false → s.arg 0 = s.host.cookie.toNat → s.grid.runs = [] → s.q.tasks = [] →
        s.host.heldRecords = [] → s.host.held = [] → (∀ c, (s.copyEngine c).task = none) →
      ∃ t, Sys2Proof.Machine.exec (.sessionAttachEnd v) s = .next t ∧ answered s t 0 ∧ begins t ∧ t.q.queues = [] ∧ t.q.tasks = []
        ∧ t.grid = s.grid ∧ t.mem = s.mem)

/-- COPY and RANDOM_FILL: a line moves from DRAM to DRAM or to the host; form 1 writes DRBG bytes when the entropy service is READY,
waits while it is STARTING and ends with ENTROPY_FAULT otherwise; form 0 writes the state vector of its replica (R42, R386,
R387, R400). -/
def Obligations.CopiesAndFillsWriteTheirLines : Prop :=
  ∀ (s : State) (v : HostView) (ref : TaskRef) (u : Task) (q : Queue) (b : List Byte) (c : Nat), s.freeCopyEngine = some c →
    s.q.engines.length = 4 → (s.copyEngine c).chain = none →
    (dispatched s ref u q 0x0011 32 b → fieldOf b 0x18 8 = 0 → fieldOf b 0x10 8 = 64 → fieldOf b 0 8 % 64 = 0 → fieldOf b 8 8 % 64 = 0 →
        fieldOf b 0 8 ≠ fieldOf b 8 8 → fieldOf b 0 8 < hostWindow → s.mem.linePoisoned (fieldOf b 0 8 / 64) = false →
        s.addressFault q u [(0, fieldOf b 0 8, 64, false), (8, fieldOf b 8 8, 64, true)] = none →
      (fieldOf b 8 8 < hostWindow → ∃ t, Sys2Proof.Machine.exec (.copy ref v) s = .next t ∧ ends t ref 0 0
        ∧ t.mem = s.mem.write (fieldOf b 8 8) (s.mem.bytes (fieldOf b 0 8) 64)
        ∧ (t.copyEngine c).bytes = (s.copyEngine c).bytes + 64 ∧ (t.copyEngine c).owner = q.num ∧ t.grid = s.grid ∧ t.out = s.out)
      ∧ (hostWindow ≤ fieldOf b 8 8 → s.lineTranslates v (fieldOf b 8 8) = true →
        ∃ t, Sys2Proof.Machine.exec (.copy ref v) s = .next t ∧ ends t ref 0 0 ∧ t.mem = s.mem ∧ t.grid = s.grid
          ∧ t.out = s.out ++ [.hostWrite (some q.pasid) (fieldOf b 8 8 - hostWindow) (s.mem.bytes (fieldOf b 0 8) 64) false])
      ∧ (hostWindow ≤ fieldOf b 8 8 → s.lineTranslates v (fieldOf b 8 8) = false →
        ∃ t, Sys2Proof.Machine.exec (.copy ref v) s = .next t ∧ ends t ref 0x0201 0xFFFFFFFF ∧ t.mem = s.mem ∧ t.out = s.out))
    ∧ (dispatched s ref u q 0x0012 64 b → firstBlockFault (fillChecks b) = none → fieldOf b 0x10 8 < hostWindow →
      (fieldOf b 0 1 = 1 → s.addressFault q u [(0x10, fieldOf b 0x10 8, fieldOf b 0x20 8, true)] = none →
        (s.rng.state = 1 → fieldOf b 0x20 8 = 64 → ∃ t, Sys2Proof.Machine.exec (.randomFillBytes ref v) s = .next t ∧ ends t ref 0 0
          ∧ t.mem = s.mem.write (fieldOf b 0x10 8) ((List.range 64).map fun k => Config.drbgByte 1 (s.free + k))
          ∧ t.free = s.free + 64 ∧ t.rng.bytes = s.rng.bytes + 64)
        ∧ (s.rng.state = 0 → ∃ t, Sys2Proof.Machine.exec (.randomFillBytes ref v) s = .next t
          ∧ t.rng.waiting = s.rng.waiting ++ [.fill ref] ∧ (t.copyEngine c).task = some ref ∧ (t.copyEngine c).state = 1 ∧ t.mem = s.mem)
        ∧ (2 ≤ s.rng.state → ∃ t, Sys2Proof.Machine.exec (.randomFillBytes ref v) s = .next t ∧ ends t ref 0x0300 0 ∧ t.mem = s.mem
          ∧ t.free = s.free))
      ∧ (let g := imageAt s.mem u.pattern
         let h := readHeader g
         let dir := readDirectory g h
         fieldOf b 0 1 = 0 → fieldOf b 0x1C 4 = 1 → stateBytes h.nVars = 64 →
          s.addressFault q u [(0x10, fieldOf b 0x10 8, 64, true)] = none → 256 ≤ u.patternLen → h.imageLen ≤ u.patternLen →
          u.pattern < hostWindow → s.mem.poisonIn u.pattern h.imageLen = false →
          lowestFault (imageFaults s u.pattern h false ++ (placementChecks g h dir fun _ => decide (h.shards ≤ 1)).1) = none →
        ∃ t, Sys2Proof.Machine.exec (.randomFillStates ref v) s = .next t ∧ ends t ref 0 0
          ∧ t.mem = s.mem.write (fieldOf b 0x10 8) (packState (randomState h
              (fun n => (placementChecks g h dir fun _ => decide (h.shards ≤ 1)).2.any fun x => x.var == n && x.bias)
              (readGroups g h dir) (fieldOf b 8 8) (fieldOf b 0x18 4)))
          ∧ t.free = s.free ∧ t.grid = s.grid))

/-- LOAD_PATTERN: an image that passes the check phase waits for its array phase, or is reported as checked; one that fails is reported
and its task ends with the result's status; an image that has changed since is refused with HASH, its engines IDLE without a
pattern; one that still verifies leaves its engines LOADED with it (R76-R79, R81, R84, R85). -/
def Obligations.PatternsAreCheckedAndLoaded : Prop :=
  ∀ s : State,
    (∀ (ref : TaskRef) (u : Task) (q : Queue) (b : List Byte),
        let addr := fieldOf b 0 8
        let report := fieldOf b 8 8
        let mask := fieldOf b 0x10 8
        let id := bytesLE ((readHeader (imageAt s.mem addr)).hash.take 4)
        (s.host.commit.any fun c => c.profile.isSome) = false → dispatched s ref u q 0x0010 32 b → addr % 64 = 0 → report % 64 = 0 → fieldOf b 0x18 1 < 2 →
        fieldOf b 0x19 7 = 0 → addr < hostWindow → report < hostWindow →
        s.addressFault q u [(0, addr, 512, false), (8, report, 64, true)] = none → regionFault s q u.copy addr report mask = false →
      (lowestFault (checkPhase s addr mask) = none → natBit (fieldOf b 0x18 1) 0 = false →
        ∃ t l x, Sys2Proof.Machine.exec (.loadPattern ref) s = .next t ∧ t.grid.loads = s.grid.loads ++ [l] ∧ l.ref = ref
          ∧ l.image = addr ∧ l.report = report ∧ l.shards = mask ∧ l.hash = (readHeader (imageAt s.mem addr)).hash ∧ t.task ref = some x ∧ x.phase = .running ∧ t.mem = s.mem
          ∧ t.grid.patterns = s.grid.patterns)
      ∧ (lowestFault (checkPhase s addr mask) = none → natBit (fieldOf b 0x18 1) 0 = true →
        ∃ t, Sys2Proof.Machine.exec (.loadPattern ref) s = .next t ∧ ends t ref 0 0 ∧ t.grid = s.grid
          ∧ t.mem = s.mem.write report (reportBytes 1 0 0xFFFFFFFF 0 0 0 [] id))
      ∧ ∀ f : Nat × Nat, lowestFault (checkPhase s addr mask) = some f →
        ∃ t, Sys2Proof.Machine.exec (.loadPattern ref) s = .next t ∧ ends t ref (loadStatus f.1).1 (loadStatus f.1).2 ∧ t.grid = s.grid
          ∧ t.mem = s.mem.write report (reportBytes f.1 0 f.2 0 0 0 [] id))
    ∧ ∀ (l : Load) (u : Task) (places : List (Nat × Nat)),
        let g := imageAt s.mem l.image
        let h := readHeader g
        let es := enginesOf h places
        let here := fun v => decide (h.shards ≤ 1)
          || (placementChecks g h (readDirectory g h) fun _ => true).2.any fun x => x.var == v && places.any fun p => p.1 == x.shard
        let found := (placeImage g h here).faults ++ (placedPlans g h places).flatMap fun x => x.faults h.hash
        s.live = true → s.boot.ready = true → s.grid.loads = [l] → s.task l.ref = some u → u.phase = .running →
        s.grid.engines.length = 8 → loadPlaces s h l = some places → (∀ e ∈ es, e < 8 ∧ s.ready e = true) →
        s.mem.poisonIn l.image h.imageLen = false →
      (imageHash s.mem l.image h.imageLen ≠ h.hash ∨ l.hash ≠ h.hash → (∀ f ∈ found, 3 ≤ f.1) →
        ∃ t, Sys2Proof.Machine.exec (.loadArrayPhase l.ref []) s = .next t ∧ ends t l.ref 0x0202 3
        ∧ (∀ e ∈ es, (t.engine e).state = 1 ∧ (t.engine e).pattern = none) ∧ t.grid.loads = [])
      ∧ (imageHash s.mem l.image h.imageLen = h.hash → l.hash = h.hash → found = [] → (∀ e ∈ s.grid.engines, e.exhausted = []) →
        ∃ t p, Sys2Proof.Machine.exec (.loadArrayPhase l.ref []) s = .next t ∧ ends t l.ref 0 0 ∧ t.grid.loads = []
          ∧ p ∈ t.grid.patterns ∧ p.id = s.grid.nextPattern ∧ p.hash = h.hash ∧ p.cores = (placeImage g h here).cores
          ∧ (∀ e ∈ es, (t.engine e).state = 2 ∧ (t.engine e).pattern = some p.id) ∧ t.grid.nextPattern = s.grid.nextPattern + 1)

/-- RUN: one whose start a rule holds leaves its engines HELD with the first cause in R396's order; one on one device that nothing holds
begins at tick 0, at the tick of the checkpoint it resumes from, or at the tick of the hems it is rehosted from; one over
several devices arms for its launch (R288, R301, R356, R385, R396, R430). -/
def Obligations.RunsStartOrAreHeld : Prop :=
  ∀ (s : State) (v : HostView) (ref : TaskRef) (u : Task) (q : Queue) (p : Pattern) (b : List Byte), s.ops = [] →
    dispatched s ref u q 0x0001 256 b → runAccepted s u q p b → s.run? ref = none → s.grid.engines.length = 8 →
    let k := readRunBlock b
    let r := newRun ref p u.mask u.program k
    ∀ c : Instr, c = (if k.rehost then .runRehostStart ref v else if k.resume then .runFromCheckpoint ref v
        else if k.kind = 0 then .runAnneal ref v else if k.kind = 1 then .runScoring ref v else .runLearning ref v) →
      (∀ cause detail : Nat, s.startHold v r p u.slot = some (cause, detail) → ∃ t, Sys2Proof.Machine.exec c s = .next t
        ∧ t.run? ref = some r ∧ ∀ e ∈ r.engines, (t.engine e).state = 6 ∧ (t.engine e).cause = cause ∧ (t.engine e).task = some ref)
      ∧ (s.startHold v r p u.slot = none → p.header.shards ≤ 1 →
        (k.resume = false → k.rehost = false → (k.kind = 2 → 0 < p.stepTicks) →
          ∃ t x, Sys2Proof.Machine.exec c s = .next t ∧ t.run? ref = some x ∧ x.begun = true ∧ x.tick = 0 ∧ x.blk = k ∧ x.mask = u.mask
            ∧ (k.kind = 0 → k.noise = false → k.loose = false → p.plan.samples = false → p.programs = [] → s.nl.votes = [] →
                ∀ e ∈ r.engines, (t.engine e).state = 3))
        ∧ (∀ (y : Run) (cores : List Core), k.resume = true ∨ (k.rehost = true ∧ k.resumeAt ≠ 0) →
            r.restore p (imageAt s.mem k.resumeAt) = some (y, cores) → y.complete p = false →
          ∃ t x, Sys2Proof.Machine.exec c s = .next t ∧ t.run? ref = some x ∧ x.begun = true ∧ x.tick = y.tick
            ∧ x.tick = imageAt s.mem k.resumeAt 0x90 8)
        ∧ (∀ (y : Run) (cores : List Core) (n : Nat), k.resume = false → k.rehost = true → k.resumeAt = 0 →
            s.hemTick r.tag p.hosted = some n →
            r.restore p (hemReader s.mem r p (s.hemPlaces r.tag p.hosted n) n) = some (y, cores) → y.complete p = false →
          ∃ t x, Sys2Proof.Machine.exec c s = .next t ∧ t.run? ref = some x ∧ x.begun = true ∧ x.tick = y.tick ∧ x.tick = n))
      ∧ (s.startHold v r p u.slot = none → 1 < p.header.shards → k.rehost = false → s.cnt.stitch < k.launch.toNat →
        ∃ t x, Sys2Proof.Machine.exec c s = .next t ∧ t.run? ref = some x ∧ x.armed = true ∧ x.begun = false
          ∧ ∃ m ∈ t.nl.arms, m.tag = k.tag ∧ m.launch = k.launch ∧ m.origin = s.nodeCode)

/-! ### Ticks and boundaries -/

/-- The beginning of a tick on the run's engines: a patchwork tick races every block of its replica, a harvest tick counts, a scoring
tick takes one state per lane, a slot's lanes each race; a weir row or a replica that is not ready holds the tick (R129, R158,
R167-R175, R183, R228, R337, R542). -/
def Obligations.TicksBeginOnReadyEngines : Prop :=
  ∀ (s : State) (r : Run) (p : Pattern) (e late : Nat), soleRun s r p → e ∈ r.engines → s.mayTick r = true →
    let t₀ := r.tick
    let k := t₀ % max 1 p.header.total
    let begins := fun (c : Instr) (x : Run) => ∃ t, Sys2Proof.Machine.exec c s = .next t ∧ t.grid.runs = [x] ∧ t.mem = s.mem
      ∧ t.q = s.q ∧ t.grid.patterns = s.grid.patterns ∧ (p.spansDevices = false → t.out = s.out)
      ∧ ∀ k, t.engine k = { s.engine k with ledger := (t.engine k).ledger, scrub := (t.engine k).scrub }
    let scrubs := fun (c : Instr) => ∃ t, Sys2Proof.Machine.exec c s = .next t ∧ ∀ k ∈ r.engines, (t.engine k).scrub = (s.engine k).scrub + 1
    let waits := fun (c : Instr) => ∃ t, Sys2Proof.Machine.exec c s = .next t ∧ t.grid = s.grid ∧ t.mem = s.mem ∧ t.out = s.out
    (p.header.mode = 0 → r.ticking = false → r.blk.kind = 0 ∨ (r.blk.kind = 2 ∧ p.harvestAt t₀ = false) →
        r.blk.loose = false ∨ p.spansDevices = false →
      (r.resident.contains k = true → r.weirReady (r.rungAt p k t₀).1 t₀ = true →
        ∃ n, begins (.tickStart e late) { r with ticking := true, late := late, work := [r.raceWork p k t₀ n] }
          ∧ (r.blk.noise = false → r.redo = [] → n = 0) ∧ scrubs (.tickStart e late))
      ∧ (r.resident.contains k = false ∨ r.weirReady (r.rungAt p k t₀).1 t₀ = false → waits (.tickStart e late)))
    ∧ (∀ v : HostView, r.blk.kind = 2 → r.ticking = false → p.harvestAt t₀ = true →
      begins (.harvestTick e late v) { r with
        ticking := true, late := late
        work := [r.harvestWork p t₀ (if p.reloads t₀ then some (s.inputVector v r p 0) else none)] }
      ∧ scrubs (.harvestTick e late v))
    ∧ (∀ v : HostView, r.blk.kind = 1 → r.ticking = false →
      begins (.scoringTick e late v) { r with
        ticking := true, late := late
        work := r.scoreWork p t₀ ((List.range (r.vectorsOf p t₀)).map fun i => s.inputVector v r p i) }
      ∧ scrubs (.scoringTick e late v))
    ∧ ∀ slot : Nat, p.header.mode = 1 → r.blk.kind = 0 → slot < p.slots → (∀ w ∈ r.work, w.slot ≠ slot) →
        let ahead := r.done.contains slot
        let t₁ := if ahead then t₀ + 1 else t₀
        let again := (r.redoOf slot).isSome
        (again = true ∨ if slot ≠ 0 then r.issued (slot - 1) t₁ = true
          else if r.done.contains 0 then (∀ j, j < p.slots → r.issued j t₀ = true) ∧ s.boundaryDue r p = false
          else s.handoverDue = false) →
      ((∀ l ∈ p.slotLanes slot, r.weirReady (r.rungAt p l t₁).1 t₁ = true) →
        (∃ n, begins (.slotIssue e slot late) { r with
          ticking := true, clock := r.clock.issue slot (r.clock.due slot t₁ again + late) again
          work := r.work ++ (p.slotLanes slot).map fun l => r.laneWork p l t₁ (n + l % 3 * noiseSpan p) })
        ∧ (slot = 0 → scrubs (.slotIssue e slot late)))
      ∧ ((∃ l ∈ p.slotLanes slot, r.weirReady (r.rungAt p l t₁).1 t₁ = false) → waits (.slotIssue e slot late))

/-- The ends of what holds a run: a STARVED run whose streams have come goes on, and one that still lacks them stays; a spooled replica
arrives in its lane; a weir row is rebuilt; repaired rows and steered wires let the run tick again (R160, R178, R270, R337,
R445). -/
def Obligations.HoldsAndWaitsEnd : Prop :=
  ∀ (s : State) (r : Run) (p : Pattern) (e : Nat), soleRun s r p → e ∈ r.engines → s.live = true →
    (∀ v : HostView, unhindered s r p → (s.engine r.lead).state = 4 →
        s.hostOpen = true ∨ r.blk.kind = 0 ∨ r.blk.input < hostWindow → s.counterFails v r p = false → s.inputFails v r p = false →
      (s.lacking v r p = [] → ∃ t x, Sys2Proof.Machine.exec (.ringPoll e v) s = .next t ∧ (∀ k ∈ r.engines, (t.engine k).state = 3)
        ∧ t.grid.runs = [x] ∧ x.tick = r.tick ∧ x.starved = [])
      ∧ (s.lacking v r p ≠ [] → ∃ t x, Sys2Proof.Machine.exec (.ringPoll e v) s = .next t ∧ (∀ k ∈ r.engines, (t.engine k).state = 4)
        ∧ t.grid.runs = [x] ∧ x.tick = r.tick ∧ x.starved = s.lacking v r p))
    ∧ (∀ k : Nat, k ∈ r.loading → s.mem.poisonIn (r.blk.spool + 64 * k * p.replicaLines) (64 * p.replicaLines) = false →
      ∃ t, Sys2Proof.Machine.exec (.spoolLoadComplete e k) s = .next t ∧ t.mem = s.mem
        ∧ t.grid.runs = [{ r with loading := r.loading.filter (· != k), resident := r.resident ++ [k]
                                  replicas := modifyAt (fun _ => r.spoolIn p s.mem k) k r.replicas }])
    ∧ (∀ (rung : Nat) (c : Change), (r.due.take 4).find? (fun c => c.rung == rung) = some c →
      ∃ t, Sys2Proof.Machine.exec (.weirRebuildComplete e rung) s = .next t ∧ t.grid.runs = [r.builtWeir c]
        ∧ t.grid.engines = s.grid.engines ∧ t.mem = s.mem)
    ∧ ((∀ k ∈ r.engines, (s.engine k).toRepair ≠ [] → s.powered k = true) →
      ∃ t, Sys2Proof.Machine.exec (.shiftRepairComplete e) s = .next t ∧ t.grid.runs = [{ r with repairing := false }]
        ∧ (∀ k ∈ r.engines, (t.engine k).repaired = (s.engine k).repaired ++ (s.engine k).toRepair) ∧ t.mem = s.mem)
    ∧ ∃ t, Sys2Proof.Machine.exec (.wireSteerComplete e) s = .next t ∧ t.grid.runs = [{ r with steering := false }]
        ∧ t.grid.engines = s.grid.engines ∧ t.mem = s.mem

/-- Boundaries without a fault seal: the tick index and PROGRESS rise by 1, the flips that were sewn change the replica's spins and V and
nothing else does, and the run goes on; a whole-cloth slot seals alone, and the run boundary seals the tick. With a first
fault that no word or repeated link failure explains, nothing of the tick is taken and it is run again. A step boundary
puts the updated couplings in place; a learned image is written, and a run that waited for it is released (R106, R158,
R174-R176, R234-R248, R439). -/
def Obligations.BoundariesSealOrRefuse : Prop :=
  ∀ (s : State) (r : Run) (p : Pattern) (e : Nat) (env : BoundaryEnv), soleRun s r p → e ∈ r.engines → s.live = true →
    env.corrected = [] → s.grid.residues = [] → s.grid.linkFails = [] → s.host.commit = none →
    let sealed := fun (t : State) (x : Run) => t.grid.runs = [x] ∧ x.ref = r.ref ∧ x.tick = r.tick + 1 ∧ x.progress = r.progress + 1
      ∧ x.ticking = false ∧ x.work = [] ∧ x.done = [] ∧ ∀ k ∈ r.engines, (t.engine k).state = 3 ∧ (t.engine k).progress = r.progress + 1
    let fails := fun (ws : List Work) => r.redo = [] ∧ (∀ c a b, TickFault.word c a b ∉ env.faults)
      ∧ (env.faults ≠ [] ∨ zero48 (sumOver ws p.checkSum) = false)
    let passes := fun (ws : List Work) => env.faults = [] ∧ r.flitBad = false ∧ zero48 (sumOver ws p.checkSum) = true
    let goes := plain s r p ∧ s.task r.ref ≠ none ∧ r.tick + 1 < 2 ^ 48 ∧ (r.blk.limit = 0 ∨ r.tick + 1 < r.blk.limit)
    (goes → p.header.mode = 0 → r.ticking = true →
      (∀ w : Work, r.work = [w] → passes r.work → w.score = none → w.harvest = false → w.reload = none → w.remote = [] →
          w.replica < r.replicas.length →
        ∃ t x, Sys2Proof.Machine.exec (.tickBoundary e env) s = .next t ∧ sealed t x
          ∧ (x.replica w.replica).v = (r.replica w.replica).v + w.dE
          ∧ (x.replica w.replica).spins = setSpins (r.replica w.replica).spins (allFlips w.sewn)
          ∧ ∀ k, k ≠ w.replica → x.replica k = r.replica k)
      ∧ (fails r.work → ∃ t, Sys2Proof.Machine.exec (.tickBoundary e env) s = .next t ∧ refusedTick s t r ∧ t.mem = s.mem))
    ∧ (∀ slot : Nat, plain s r p → p.header.mode = 1 → (∃ w ∈ r.work, w.slot = slot ∧ w.sealed = false) →
        (∀ w ∈ r.work, w.slot = slot → w.sealed = false ∧ w.tick = r.tick) →
      (passes (r.work.filter fun w => w.slot == slot) → ∃ t x, Sys2Proof.Machine.exec (.slotBoundary e slot env) s = .next t ∧ t.grid.runs = [x] ∧ slot ∈ x.done
        ∧ x.tick = r.tick ∧ (∀ w ∈ x.work, w ∈ r.work ∧ w.slot ≠ slot) ∧ t.cnt.replay = s.cnt.replay)
      ∧ (fails (r.work.filter fun w => w.slot == slot) → ∃ t, Sys2Proof.Machine.exec (.slotBoundary e slot env) s = .next t ∧ refusedTick s t r ∧ t.mem = s.mem))
    ∧ (goes → p.header.mode = 1 → r.ticking = true → r.work = [] → r.redo = [] → (∀ k, k < p.slots → k ∈ r.done) →
      ∃ t x, Sys2Proof.Machine.exec (.runBoundary e env) s = .next t ∧ sealed t x)
    ∧ (unhindered s r p → env.faults = [] → r.blk.kind = 2 → r.updating = true → r.imaging = none → p.shadowed = true →
      ∃ t x y, Sys2Proof.Machine.exec (.stepBoundary e env) s = .next t ∧ t.grid.runs = [x] ∧ x.ref = r.ref ∧ x.tick = r.tick
        ∧ x.updating = false ∧ x.outNo = r.outNo + 1 ∧ t.pattern r.pattern = some y
        ∧ y = { p with cores := (updateCores p (p.learn.step0 + r.tick / max 1 p.stepTicks - 1)).cores, shadowed := false })
    ∧ ∀ step : Nat, r.imaging = some step →
      (r.ended = none → ∃ t, Sys2Proof.Machine.exec (.learnedImageComplete e) s = .next t
        ∧ t.mem = s.mem.write r.blk.emit (learnedImage s.mem p step) ∧ t.grid.runs = [{ r with imaging := none }] ∧ t.grid.engines = s.grid.engines)
      ∧ ∀ (st de : Nat) (u : Task), r.ended = some (st, de) → s.task r.ref = some u → u.phase = .running →
        ∃ t, Sys2Proof.Machine.exec (.learnedImageComplete e) s = .next t
          ∧ t.mem = s.mem.write r.blk.emit (learnedImage s.mem p step) ∧ t.grid.runs = [] ∧ ends t r.ref st de

/-! ### Memory -/

/-- Reads, scrub and refresh: a read changes nothing unless it finds an error; a correctable one is counted, an uncorrectable one
forms poison and a HARD entry, but not where the mirror partner's copy reads; the scrub visits the valid lines in ascending
order and begins again after the last; a refresh and a temperature reading move nothing else; self-refresh begins on every
serving channel that is idle and ends on access (R324, R325, R329-R331, R334, R466). -/
def Obligations.ReadsScrubAndRefresh : Prop :=
  ∀ s : State, s.live = true → s.dram.channels.length = 8 →
    (∀ a : Nat, s.inDram a = true → (∀ d, (s.channel d).state ≠ 3) →
      let line := a / 64
      let c := s.servingChannel (unitOf s.mem.units a)
      let other := if c % 2 = 0 then c + 1 else c - 1
      let reads := fun (d : Nat) (wrong : List Nat) => corrects ((s.channel d).marked (s.lineAt d line).key) wrong
      let paired := s.pairWhole (unitOf s.mem.units a)
      (∃ t, Sys2Proof.Machine.exec (.dramRead a .clean) s = .next t ∧ t.mem = s.mem ∧ t.dram = s.dram ∧ t.log = s.log)
      ∧ (c < 8 → s.mem.valid.contains line = true → s.mem.linePoisoned line = false →
        ∀ err : LineError, err.here ≠ [] →
        (reads c err.here = true → ∃ t, Sys2Proof.Machine.exec (.dramRead a err) s = .next t ∧ t.mem = s.mem
          ∧ (t.channel c).corr = ((s.channel c).corr + 1) % 2 ^ 64 ∧ (t.channel c).uncorr = (s.channel c).uncorr
          ∧ ∀ d, d ≠ c → d ≠ other ∨ paired = false → t.channel d = s.channel d)
        ∧ (reads c err.here = false → (s.channel c).failures.length < 3 → (s.channel other).failures.length < 3 →
          (paired = true → reads other err.partner = true → ∃ t, Sys2Proof.Machine.exec (.dramRead a err) s = .next t
            ∧ t.mem = s.mem ∧ (t.channel c).corr = ((s.channel c).corr + 1) % 2 ^ 64 ∧ (err.partner = [] → t.log = s.log))
          ∧ (paired = false ∨ reads other err.partner = false →
            ∃ t, Sys2Proof.Machine.exec (.dramRead a err) s = .next t ∧ t.mem = s.mem.poisonLine line
              ∧ (t.channel c).uncorr = ((s.channel c).uncorr + 1) % 2 ^ 32 ∧ t.log.appended = s.log.appended + 1
              ∧ raised s t 1 3 (sourceOf 2 c)))
        ∧ (∀ x y first u : Nat, reads c err.here = false → s.dram.mirrored = false → (s.channel c).state = 2 →
            (s.channel c).failures = [x, y, first] → s.cnt.stitch ≤ first + 10 ^ 8 → s.dram.map.findIdx? (fun e => e == c) = some u →
          ∃ t, Sys2Proof.Machine.exec (.dramRead a err) s = .next t ∧ (t.channel c).state = 4 ∧ (t.channel c).cause = 4 ∧ u ∈ t.mem.lost)))
    ∧ (∀ (c line : Nat) (more : List Nat), c < 8 → (s.channel c).state = 2 → 0 < (s.channel c).period → 0 < s.mem.units →
        (s.channelLines c).filter (fun x => match (s.channel c).scrubAt with | none => true | some l => decide (l < x)) = line :: more →
      ∃ t, Sys2Proof.Machine.exec (.scrubRead c .clean) s = .next t ∧ t.mem = s.mem ∧ (∀ d, d ≠ c → t.channel d = s.channel d)
        ∧ (more ≠ [] → (t.channel c).scrubAt = some line ∧ (t.channel c).scrubPos = (s.channel c).scrubPos + 1
            ∧ (t.channel c).passes = (s.channel c).passes)
        ∧ (more = [] → (t.channel c).scrubAt = none ∧ (t.channel c).scrubPos = 0
            ∧ (t.channel c).passes = ((s.channel c).passes + 1) % 2 ^ 32))
    ∧ (∀ (c l line next : Nat) (more : List Nat), c < 8 → (s.channel c).state = 2 → 0 < (s.channel c).period → 0 < s.mem.units →
        (s.channel c).scrubAt = some l → s.channelLines c = line :: next :: more → (∀ x ∈ s.channelLines c, x ≤ l) →
      ∃ t, Sys2Proof.Machine.exec (.scrubRead c .clean) s = .next t ∧ t.mem = s.mem ∧ (t.channel c).scrubAt = some line
        ∧ (t.channel c).scrubPos = 1 ∧ (t.channel c).passes = ((s.channel c).passes + 1) % 2 ^ 32)
    ∧ (∀ c : Nat, c < 8 → (s.channel c).state = 2 →
      (∀ b : Nat, ∃ t, Sys2Proof.Machine.exec (.refresh c b) s = .next t ∧ t.channel c = { s.channel c with bank := b }
        ∧ (∀ d, d ≠ c → t.channel d = s.channel d) ∧ t.mem = s.mem ∧ t.grid = s.grid)
      ∧ ∀ hot : Bool, ∃ t, Sys2Proof.Machine.exec (.mr4Poll c hot) s = .next t ∧ t.channel c = { s.channel c with hot := hot }
        ∧ (∀ d, d ≠ c → t.channel d = s.channel d) ∧ t.mem = s.mem ∧ t.grid = s.grid)
    ∧ (s.memoryIdle = true → s.dram.map ≠ [] → s.pow.domains.length = 116 →
      ∃ t, Sys2Proof.Machine.exec .selfRefreshEntry s = .next t ∧ t.mem = s.mem
        ∧ (∀ c ∈ s.dram.members, c < 8 → (s.channel c).state = 2 → (t.channel c).state = 3 ∧ (t.domain (98 + c)).state = 5)
        ∧ ∀ c, c ∉ s.dram.members → t.channel c = s.channel c)
    ∧ (s.pow.domains.length = 116 → ∃ t, Sys2Proof.Machine.exec .selfRefreshExit s = .next t ∧ t.mem = s.mem
        ∧ (∀ c, c < 8 → (s.channel c).state = 3 → (t.channel c).state = 2 ∧ (t.domain (98 + c)).state = 2
          ∧ (t.domain (98 + c)).wakes = ((s.domain (98 + c)).wakes + 1) % 2 ^ 32)
        ∧ ∀ c, (s.channel c).state ≠ 3 → t.channel c = s.channel c)

/-- A write to device DRAM, of any length and alignment, is what every later read of those bytes returns, and every other byte reads as
before; the merge buffers and the lines they drain are not seen (R319, R323, R326). The merge entries are as the device makes
them: one for a line, its bytes ascending. A drain leaves every byte as it reads. -/
def Obligations.DramReturnsWhatWasWritten : Prop :=
  ∀ s : State, s.live = true → s.mem.wf = true → s.mem.poisoned = [] → s.mem.lost = [] →
    (s.mem.merge.map (·.line)).Nodup → (∀ m ∈ s.mem.merge, ascending (m.bytes.map (·.1)) = true) →
    (∀ (a : Nat) (data : List Byte), s.inDram a = true → a + data.length ≤ s.mem.top → data ≠ [] →
      ∃ t, Sys2Proof.Machine.exec (.dramWrite a data) s = .next t ∧ t.mem.bytes a data.length = data
        ∧ (∀ x, x < a ∨ a + data.length ≤ x → t.mem.byte x = s.mem.byte x) ∧ t.mem.poisoned = [] ∧ t.mem.wf = true
        ∧ t.q = s.q ∧ t.grid = s.grid)
    ∧ ∀ (line : Nat) (m : MergeEntry), s.mem.entry line = some m →
      ∃ t, Sys2Proof.Machine.exec (.mergeDrainTimeout (s.dram.map.getD m.unit 8) line) s = .next t ∧ t.mem.entry line = none
        ∧ (∀ x, t.mem.byte x = s.mem.byte x) ∧ t.mem.wf = true ∧ t.q = s.q ∧ t.grid = s.grid

/-! ### Losses and control cores -/

/-- The loss of a channel: in unmirrored mode device DRAM is lost, every run ends and every engine goes to IDLE or stays OFF without
a pattern; in mirrored mode the partner serves alone; a write error that its retry or a retrain cures is only counted. A
control core that fails is replaced by the standby, or leaves the device without one; a repaired core becomes the standby
(R335, R443, R447-R451, R490, R493). -/
def Obligations.LossesAreContained : Prop :=
  ∀ s : State, s.live = true →
    (∀ c : Nat, c < 8 → s.dram.channels.length = 8 → (s.channel c).state = 2 →
      (∀ u : Nat, s.dram.mirrored = false → s.dram.map.findIdx? (fun e => e == c) = some u → s.grid.loads = [] →
          s.grid.runs = [] ∨ (∃ r p, soleRun s r p) →
        ∀ i : Instr, i = .channelLost c ∨ i = .mcAlertN c false false →
          ∃ t, Sys2Proof.Machine.exec i s = .next t ∧ (t.channel c).state = 4 ∧ (t.channel c).cause = 4 ∧ u ∈ t.mem.lost
            ∧ t.grid.runs = [] ∧ (∀ g ∈ t.grid.engines.take 8, g.pattern = none ∧ g.state ≤ 1)
            ∧ ∃ x ∈ t.log.entries, x.kind = 8)
      ∧ (∀ u : Nat, s.dram.mirrored = true → s.dram.map.findIdx? (fun e => e == c || e + 1 == c) = some u →
          let m := if c = s.dram.map.getD u 0 then s.dram.map.getD u 0 + 1 else s.dram.map.getD u 0
          m < 8 → m ≠ c → (s.channel m).state = 2 →
        ∃ t, Sys2Proof.Machine.exec (.channelLost c) s = .next t ∧ (t.channel c).state = 4 ∧ (t.channel c).mirror = 3
          ∧ (t.channel m).state = 2 ∧ (t.channel m).mirror = 2 ∧ t.mem = s.mem ∧ t.grid = s.grid ∧ t.q = s.q)
      ∧ ∀ a b : Bool, (a || b) = true → ∃ t, Sys2Proof.Machine.exec (.mcAlertN c a b) s = .next t
        ∧ t.channel c = { s.channel c with alerts := ((s.channel c).alerts + 1) % 2 ^ 32 } ∧ (∀ d, d ≠ c → t.channel d = s.channel d)
        ∧ t.mem = s.mem ∧ t.grid = s.grid)
    ∧ (s.fw.noCore = false → s.fw.running.isSome = true → s.fw.standby = none → (∀ r ∈ s.grid.runs, (s.engine r.lead).state ≠ 4) →
      ∃ t, Sys2Proof.Machine.exec .soleCoreFailure s = .next t ∧ t.fw.noCore = true ∧ t.boot.ready = false ∧ t.sb.alert = s.sb.alert ||| 4
        ∧ (∀ r ∈ t.grid.runs, (t.engine r.lead).state = 3 → r.ended = none → Want.pause 2 0 ∈ r.wants) ∧ t.mem = s.mem ∧ t.q = s.q)
    ∧ (∀ i j : Image, s.fw.running = some i → s.fw.standby = some j → s.fw.phase = 0 → s.fw.window = none → s.fw.reloading = none →
      ∃ t, Sys2Proof.Machine.exec .controlCoreTakeover s = .next t ∧ t.fw.running = some j ∧ t.fw.standby = none
        ∧ t.fw.active = 1 - s.fw.active ∧ t.fw.failed = [s.fw.active] ∧ t.log.appended = s.log.appended + 1 ∧ t.q = s.q
        ∧ t.grid = s.grid ∧ t.mem = s.mem)
    ∧ (∀ (c : Nat) (rest : List Nat), s.fw.failed = c :: rest → s.fw.noCore = false → s.fw.standby = none →
      (∃ t, Sys2Proof.Machine.exec (.standbyRestore true) s = .next t ∧ t.fw.standby = s.fw.running ∧ t.fw.failed = [] ∧ t.log = s.log
        ∧ t.boot = s.boot ∧ t.grid = s.grid)
      ∧ ∃ t, Sys2Proof.Machine.exec (.standbyRestore false) s = .next t ∧ t.fw = s.fw ∧ t.log.appended = s.log.appended + 1
        ∧ t.boot = s.boot ∧ t.grid = s.grid)
    ∧ (∀ i : Image, s.fw.reloading = some i → ∃ t, Sys2Proof.Machine.exec .standbyReloadComplete s = .next t
      ∧ t.fw = { s.fw with standby := some i, reloading := none } ∧ t.grid = s.grid ∧ t.q = s.q ∧ t.mem = s.mem)
    ∧ ∀ (i : Image) (e : Nat), s.fw.running = some i → e ∈ s.fw.reloadDue → (s.engine e).task = none → e < s.fw.sequencers.length →
      ∃ t, Sys2Proof.Machine.exec (.sequencerReload e) s = .next t ∧ t.fw.sequencers.getD e [] = i.seqDigest ∧ e ∉ t.fw.reloadDue
        ∧ (∀ k, k ≠ e → t.fw.sequencers.getD k [] = s.fw.sequencers.getD k []) ∧ t.grid = s.grid ∧ t.mem = s.mem

/-- In-service update: an image that verifies is taken for the slot that does not run, one that does not is refused with its reason
and nothing else; written, it is in the slot byte for byte; loaded and verified again it is the standby; the handover swaps
the cores and opens the window; confirmation blows the fuses as R490 says; an update given up leaves no update, and a
window that ends falls back, or resets the device for a trial of another major version (R487-R494). -/
def Obligations.UpdatesRunPhaseByPhase : Prop :=
  ∀ s : State,
    let rd := fun (a n : Nat) => s.mem.bytes (s.arg 0 + a) n
    let kept := fun (t : State) => t.grid = s.grid ∧ t.mem = s.mem ∧ t.q.tasks = s.q.tasks ∧ t.q.queues = s.q.queues
    (∀ run : Image, holdsCommand s 0x0401 → s.fw.running = some run → s.fw.phase = 0 → s.fw.window = none → s.arg 0 % 4096 = 0 →
        s.mem.inSoft (s.arg 0) (s.arg 1) = true → 0x1000 ≤ s.arg 1 → imgField rd 0x1C 4 ≤ s.arg 1 →
      (s.arg 2 < 2 → s.fw.standby.isSome = true →
        (verifyImage s.nv.fuses (some run.major) rd = 0 → ∃ t x, Sys2Proof.Machine.exec .fwUpdate s = .next t ∧ answered s t 0
          ∧ outWord t 0 = 1 - run.slot % 2 ∧ t.fw.phase = 2 ∧ t.fw.update = some x ∧ x.addr = s.arg 0 ∧ x.nextBoot = false
          ∧ (x.hostConfirm = true ↔ s.arg 2 = 1) ∧ x.slot = 1 - run.slot % 2 ∧ t.fw.running = s.fw.running ∧ kept t)
        ∧ (∀ k : Nat, verifyImage s.nv.fuses (some run.major) rd = k → k ≠ 0 → k < 2 ^ 64 →
          ∃ t, Sys2Proof.Machine.exec .fwUpdate s = .next t ∧ answered s t 0x0400 ∧ outWord t 1 = k
            ∧ t.fw = { s.fw with reason := k } ∧ t.nv = s.nv ∧ kept t))
      ∧ (s.arg 2 = 2 ∨ s.arg 2 = 3 → verifyImage s.nv.fuses none rd = 0 →
        ∃ t x, Sys2Proof.Machine.exec .fwUpdateNextBoot s = .next t ∧ answered s t 0 ∧ t.fw.phase = 2 ∧ t.fw.update = some x
          ∧ x.nextBoot = true ∧ x.slot = 1 - run.slot % 2 ∧ kept t))
    ∧ (∀ w : Window, holdsCommand s 0x0403 → s.fw.window = some w → w.hostConfirm = true →
      ∃ t, Sys2Proof.Machine.exec .fwConfirm s = .next t ∧ answered s t 0
        ∧ t.fw = { s.fw with window := some { w with confirmed := true } } ∧ kept t)
    ∧ (holdsCommand s 0x0403 → s.fw.window = none → ∃ t, Sys2Proof.Machine.exec .fwConfirm s = .next t ∧ answered s t 3 ∧ t.fw = s.fw)
    ∧ (holdsCommand s 0x0404 → s.fw.phase = 5 → ∃ t, Sys2Proof.Machine.exec .fwAbort s = .next t ∧ answered s t 0
      ∧ t.fw = { s.fw with handBack := some 3 } ∧ kept t)
    ∧ (∀ x : Update, holdsCommand s 0x0404 → s.fw.phase = 2 ∨ s.fw.phase = 3 → s.fw.update = some x →
      ∃ t, Sys2Proof.Machine.exec .fwAbort s = .next t ∧ answered s t 0 ∧ t.fw.phase = 0 ∧ t.fw.update = none
        ∧ t.fw.running = s.fw.running ∧ t.sb.alert = s.sb.alert ||| 0x10 ∧ kept t)
    ∧ (∀ x : Update, s.live = true → s.fw.update = some x → s.fw.phase = 2 →
        let im := fun (a n : Nat) => s.mem.bytes (x.addr + a) n
      (headerDigest im = x.image.digest → componentsCheck im = true →
        ∃ t, Sys2Proof.Machine.exec (.fwWriteComplete true) s = .next t ∧ kept t
          ∧ (cellsWf 0xFF s.nv.flash = true → t.nv.bytes (slotBase x.slot) (imgField im 0x1C 4) = s.mem.bytes x.addr (imgField im 0x1C 4))
          ∧ (x.nextBoot = false → t.fw = { s.fw with phase := 3, standby := none })
          ∧ (x.nextBoot = true → t.fw = { s.fw with phase := 0, update := none } ∧ t.nv.trialHostConfirm = x.hostConfirm))
      ∧ ∃ t, Sys2Proof.Machine.exec (.fwWriteComplete false) s = .next t ∧ t.fw.phase = 0 ∧ t.fw.update = none ∧ t.fw.reason = 0x0A
        ∧ t.fw.running = s.fw.running ∧ kept t)
    ∧ (∀ x : Update, s.live = true → s.fw.update = some x → s.fw.phase = 3 →
      (verifyImage s.nv.fuses (s.fw.running.map (·.major)) (s.nv.slotReader x.slot) = 0 →
        ∃ t, Sys2Proof.Machine.exec (.fwLoadComplete true) s = .next t ∧ t.nv = s.nv ∧ kept t
          ∧ t.fw = { s.fw with phase := 4, standby := some (readImage x.slot (s.nv.slotReader x.slot)) })
      ∧ ∃ t, Sys2Proof.Machine.exec (.fwLoadComplete false) s = .next t ∧ t.fw.phase = 0 ∧ t.fw.update = none
        ∧ t.fw.running = s.fw.running ∧ kept t)
    ∧ (∀ i : Image, s.live = true → s.handoverWaits = false → s.fw.standby = some i →
      (∀ x : Update, s.fw.handBack = none → s.fw.phase = 4 → s.fw.update = some x →
        ∃ t, Sys2Proof.Machine.exec .fwHandover s = .next t ∧ t.fw.running = some i ∧ t.fw.standby = s.fw.running
          ∧ t.fw.active = 1 - s.fw.active ∧ t.fw.phase = 5 ∧ t.q.hangReset = true ∧ kept t
          ∧ t.fw.window = some { openedAt := s.cnt.stitch, hostConfirm := x.hostConfirm, confirmed := false, trial := false })
      ∧ ∀ (old : Image) (cause : Nat), s.fw.handBack = some cause → s.fw.running = some old →
        ∃ t, Sys2Proof.Machine.exec .fwHandover s = .next t ∧ t.fw.running = some i ∧ t.fw.standby = none ∧ t.fw.reloading = some i
          ∧ t.fw.window = none ∧ t.fw.phase = 0 ∧ t.sb.alert = s.sb.alert ||| 0x10 ∧ kept t)
    ∧ (∀ (w : Window) (i : Image), s.live = true → s.fw.window = some w → s.fw.running = some i → s.fw.handBack = none →
        w.trial = false ∨ s.boot.ready = true →
      (s.fw.scanned = true → w.hostConfirm = false ∨ w.confirmed = true →
        ∃ t, Sys2Proof.Machine.exec .imageConfirm s = .next t ∧ t.fw.window = none ∧ t.fw.phase = 0 ∧ t.fw.running = some i ∧ kept t
          ∧ t.nv.fuses.rollback = max s.nv.fuses.rollback (min i.svn 64)
          ∧ (t.nv.fuses.revoke0 = true ↔ s.nv.fuses.revoke0 = true ∨ i.revokePrev = true))
      ∧ (w.trial = false → ∃ t, Sys2Proof.Machine.exec .confirmWindowTimeout s = .next t ∧ t.fw = { s.fw with handBack := some 1 }
        ∧ t.nv = s.nv ∧ kept t)
      ∧ (w.trial = true → s.fw.standby.map (·.major) ≠ some i.major →
        ∃ t, Sys2Proof.Machine.exec .confirmWindowTimeout s = .next t ∧ t.boot.released = false ∧ t.grid.runs = [] ∧ t.q = .reset
          ∧ t.mem = .reset ∧ t.nv.fuses = s.nv.fuses))

/-- The entropy service: the start-up test or a retest that passes makes it READY with three fresh instances and serves what waits; a
failing cell zeroises them, starts the first retest and fails what waits; the third retest that fails disables it with
ENTROPY_DISABLED; RNG_READ returns draws of instance I1 when READY (R42, R500-R505). -/
def Obligations.EntropyServiceStartsFailsAndRetests : Prop :=
  ∀ s : State,
    let fresh := fun (t : State) => t.rng.state = 1 ∧ t.rng.retests = 0 ∧ t.rng.waiting = [] ∧ t.rng.drbgs.length = 3
      ∧ ∀ d ∈ t.rng.drbgs, d.up = true
    (s.live = true → s.rng.state = 0 → s.sb.held = [] →
      (s.rng.waiting = [] → ∃ t, Sys2Proof.Machine.exec .entropyStartupComplete s = .next t ∧ fresh t ∧ t.grid = s.grid ∧ t.q = s.q
        ∧ t.mem = s.mem ∧ t.free = s.free)
      ∧ (s.rng.waiting = [.mailbox] → ∃ t, Sys2Proof.Machine.exec .entropyStartupComplete s = .next t ∧ fresh t ∧ answered s t 0
        ∧ t.free = s.free + 64 ∧ t.rng.bytes = s.rng.bytes + 64 ∧ t.q = s.q ∧ t.mem = s.mem))
    ∧ (∀ (cells : Byte) (test : Nat), s.live = true → s.rng.state ≤ 1 → cells ≠ 0 → test = 1 ∨ test = 2 → s.sb.held = [] →
      let down := fun (t : State) => t.rng.state = 2 ∧ t.rng.retests = 1 ∧ t.rng.failMask = cells &&& 15 ∧ t.rng.failTest = test
        ∧ t.rng.failures = s.rng.failures + 1 ∧ t.rng.waiting = [] ∧ ∀ d ∈ t.rng.drbgs, d.up = false
      (s.rng.waiting = [] → ∃ t, Sys2Proof.Machine.exec (.healthTestFailure cells test) s = .next t ∧ down t ∧ t.grid = s.grid
        ∧ t.q = s.q ∧ t.mem = s.mem)
      ∧ (s.rng.waiting = [.mailbox] → ∃ t, Sys2Proof.Machine.exec (.healthTestFailure cells test) s = .next t ∧ down t
        ∧ answered s t 0x0300 ∧ t.free = s.free))
    ∧ (s.live = true → s.rng.state = 2 →
      (s.rng.waiting = [] → ∃ t, Sys2Proof.Machine.exec (.retestComplete true) s = .next t ∧ fresh t ∧ t.grid = s.grid ∧ t.q = s.q)
      ∧ (s.rng.retests < 3 → ∃ t, Sys2Proof.Machine.exec (.retestComplete false) s = .next t ∧ t.rng.state = 2
        ∧ t.rng.retests = s.rng.retests + 1 ∧ t.rng.failures = s.rng.failures + 1 ∧ t.host = s.host)
      ∧ (3 ≤ s.rng.retests → ∃ t, Sys2Proof.Machine.exec (.retestComplete false) s = .next t ∧ t.rng.state = 3
        ∧ t.rng.failures = s.rng.failures + 1 ∧ raised s t 4 1 (sourceOf 0 0)))
    ∧ (∀ i : Nat, s.live = true → s.rng.state = 1 → i < s.rng.drbgs.length → i < 3 →
      ∃ t, Sys2Proof.Machine.exec (.drbgReseed i) s = .next t ∧ t.rng.reseeds = s.rng.reseeds + 1
        ∧ (t.rng.drbgs.map (·.calls)).getD i 1 = 0 ∧ t.rng.state = 1 ∧ t.grid = s.grid ∧ t.q = s.q ∧ t.mem = s.mem)
    ∧ (s.adminHolds 0x0410 = true → s.arg 0 < 2 → s.host.mbxArgs.length = 8 →
      (s.rng.state = 1 → ∃ t, Sys2Proof.Machine.exec .rngRead s = .next t ∧ answered s t 0
        ∧ (∀ k, k < 8 → outWord t k = bytesLE ((List.range 8).map fun j => Config.drbgByte 1 (s.free + (8 * k + j))))
        ∧ t.free = s.free + 64 ∧ t.rng.bytes = s.rng.bytes + 64 ∧ t.rng.reseeds = s.rng.reseeds + s.arg 0 ∧ t.q = s.q ∧ t.mem = s.mem)
      ∧ (s.rng.state = 0 → ∃ t, Sys2Proof.Machine.exec .rngRead s = .next t ∧ t.host.busy = true ∧ t.host.wait = .rng
        ∧ t.rng.waiting = s.rng.waiting ++ [.mailbox] ∧ t.host.mbxArgs = s.host.mbxArgs ∧ t.free = s.free)
      ∧ (2 ≤ s.rng.state → ∃ t, Sys2Proof.Machine.exec .rngRead s = .next t ∧ answered s t 0x0300 ∧ t.free = s.free ∧ t.rng = s.rng))

/-- Work leaves the device's control as it was: doorbells, the headgate, tasks, ticks and their boundaries, and the memory channels
change no pin, fuse, boot or debug state, no running image, guard or threshold, session, cookie, aperture or window selector,
mailbox register, node number or entropy state. -/
def Obligations.WorkTouchesNoControl : Prop :=
  ∀ (c : Instr) (s t : State), s.ops = [] →
    (match c with
      | .tailWrite _ _ | .hswap _ _ | .handleTableSwap _ | .sproutAck _ _ _ | .slotBind _ _ | .descriptorFetch _ _ | .fetchRetry _
      | .slotTimeout _ | .taskAdmit _ | .taskAgeing _ | .nop _ | .fenceSignal _ | .fenceWait _ | .fenceWaitSatisfied _
      | .copy _ _ | .randomFillStates _ _ | .randomFillBytes _ _ | .loadPattern _ | .loadArrayPhase _ _ | .checkpoint _
      | .runAnneal _ _ | .runScoring _ _ | .runLearning _ _ | .runRehostStart _ _ | .runFromCheckpoint _ _ | .tickStart _ _
      | .harvestTick _ _ _ | .scoringTick _ _ _ | .tickBoundary _ _ | .slotIssue _ _ _ | .slotBoundary _ _ _ | .runBoundary _ _
      | .ringPoll _ _ | .spoolLoadComplete _ _ | .weirRebuildComplete _ _ | .shiftRepairComplete _ | .wireSteerComplete _
      | .stepBoundary _ _ | .learnedImageComplete _ | .hangInterval | .engineResetTimeout _ | .dramRead _ _ | .dramWrite _ _
      | .mergeDrainTimeout _ _ | .scrubRead _ _ | .refresh _ _ | .mr4Poll _ _ | .selfRefreshEntry | .selfRefreshExit
      | .chainLinkComplete _ _ | .chainWaitSatisfied _ => True
      | _ => False) →
    Sys2Proof.Machine.exec c s = .next t →
    t.board = s.board ∧ t.nv.fuses = s.nv.fuses ∧ t.boot = s.boot ∧ t.dbg.level = s.dbg.level ∧ t.dbg.challenge = s.dbg.challenge ∧ t.fw.running = s.fw.running
      ∧ t.fw.standby = s.fw.standby ∧ t.pow.guards = s.pow.guards ∧ t.pow.threshold = s.pow.threshold
      ∧ t.host.session = s.host.session ∧ t.host.attached = s.host.attached ∧ t.host.cookie = s.host.cookie
      ∧ t.host.aperture = s.host.aperture ∧ t.host.mbxArgs = s.host.mbxArgs ∧ t.host.mbxCmd = s.host.mbxCmd
      ∧ t.host.busy = s.host.busy ∧ t.nl.node = s.nl.node ∧ t.rng.state = s.rng.state
end

