-- ==== Sys2Proof/Laws/Clear.lean ====
section
/-! SUPPORT. What the list of DRAM operations has no part in: every view of the state is the same with the list emptied, as
State.run empties it before a command's effect. -/

namespace Sys2Proof.Machine

@[simp] theorem Clear.deviceSensor (s : State) :
    deviceSensor ({ s with ops := [] } : State) = deviceSensor s := rfl

@[simp] theorem Clear.live (s : State) :
    State.live ({ s with ops := [] } : State) = State.live s := rfl

@[simp] theorem Clear.serving (s : State) :
    State.serving ({ s with ops := [] } : State) = State.serving s := rfl

@[simp] theorem Clear.hostUp (s : State) :
    State.hostUp ({ s with ops := [] } : State) = State.hostUp s := rfl

@[simp] theorem Clear.stagedSel (s : State) (e : Nat) :
    stagedSel ({ s with ops := [] } : State) e = stagedSel s e := rfl

@[simp] theorem Clear.slot (s : State) (i : Nat) :
    State.slot ({ s with ops := [] } : State) i = State.slot s i := rfl

@[simp] theorem Clear.copyEngine (s : State) (c : Nat) :
    State.copyEngine ({ s with ops := [] } : State) c = State.copyEngine s c := rfl

@[simp] theorem Clear.commitFaults (s : State) :
    commitFaults ({ s with ops := [] } : State) = commitFaults s := rfl

@[simp] theorem Clear.commitRefusal (s : State) :
    commitRefusal ({ s with ops := [] } : State) = commitRefusal s := rfl

@[simp] theorem Clear.channel (s : State) (c : Nat) :
    State.channel ({ s with ops := [] } : State) c = State.channel s c := rfl

@[simp] theorem Clear.domain (s : State) (d : Nat) :
    State.domain ({ s with ops := [] } : State) d = State.domain s d := rfl

@[simp] theorem Clear.memoryIdle (s : State) :
    State.memoryIdle ({ s with ops := [] } : State) = State.memoryIdle s := rfl

@[simp] theorem Clear.servingChannel (s : State) (u : Nat) :
    State.servingChannel ({ s with ops := [] } : State) u = State.servingChannel s u := rfl

@[simp] theorem Clear.pairWhole (s : State) (u : Nat) :
    State.pairWhole ({ s with ops := [] } : State) u = State.pairWhole s u := rfl

@[simp] theorem Clear.lineAt (s : State) (c line : Nat) :
    State.lineAt ({ s with ops := [] } : State) c line = State.lineAt s c line := rfl

@[simp] theorem Clear.readable (s : State) (c line : Nat) (wrong : List Nat) :
    State.readable ({ s with ops := [] } : State) c line wrong = State.readable s c line wrong := rfl

@[simp] theorem Clear.inDram (s : State) (a : Nat) :
    State.inDram ({ s with ops := [] } : State) a = State.inDram s a := rfl

@[simp] theorem Clear.channelLines (s : State) (c : Nat) :
    State.channelLines ({ s with ops := [] } : State) c = State.channelLines s c := rfl

@[simp] theorem Clear.engine (s : State) (e : Nat) :
    State.engine ({ s with ops := [] } : State) e = State.engine s e := rfl

@[simp] theorem Clear.runOf (s : State) (e : Nat) :
    State.runOf ({ s with ops := [] } : State) e = State.runOf s e := rfl

@[simp] theorem Clear.pattern (s : State) (n : Nat) :
    State.pattern ({ s with ops := [] } : State) n = State.pattern s n := rfl

@[simp] theorem Clear.patternOf (s : State) (e : Nat) :
    State.patternOf ({ s with ops := [] } : State) e = State.patternOf s e := rfl

@[simp] theorem Clear.engState (s : State) (e : Nat) :
    engState ({ s with ops := [] } : State) e = engState s e := rfl

@[simp] theorem Clear.holdCause (s : State) (e : Nat) :
    holdCause ({ s with ops := [] } : State) e = holdCause s e := rfl

@[simp] theorem Clear.patternId (s : State) (e : Nat) :
    patternId ({ s with ops := [] } : State) e = patternId s e := rfl

@[simp] theorem Clear.profileWord (s : State) (e : Nat) :
    profileWord ({ s with ops := [] } : State) e = profileWord s e := rfl

@[simp] theorem Clear.bySlots (s : State) (r : Run) :
    State.bySlots ({ s with ops := [] } : State) r = State.bySlots s r := rfl

@[simp] theorem Clear.tickIndex (s : State) (e : Nat) :
    tickIndex ({ s with ops := [] } : State) e = tickIndex s e := rfl

@[simp] theorem Clear.fencedMap (s : State) (e : Nat) :
    fencedMap ({ s with ops := [] } : State) e = fencedMap s e := rfl

@[simp] theorem Clear.spareUse (s : State) (e : Nat) :
    spareUse ({ s with ops := [] } : State) e = spareUse s e := rfl

@[simp] theorem Clear.inPlan (s : State) (d : Nat) :
    inPlan ({ s with ops := [] } : State) d = inPlan s d := rfl

@[simp] theorem Clear.pdStatus (s : State) (d : Nat) :
    pdStatus ({ s with ops := [] } : State) d = pdStatus s d := rfl

@[simp] theorem Clear.pdTemp (s : State) (d : Nat) :
    pdTemp ({ s with ops := [] } : State) d = pdTemp s d := rfl

@[simp] theorem Clear.anyStaged (s : State) :
    anyStaged ({ s with ops := [] } : State) = anyStaged s := rfl

@[simp] theorem Clear.cfgStatus (s : State) :
    cfgStatus ({ s with ops := [] } : State) = cfgStatus s := rfl

@[simp] theorem Clear.mbxStat (s : State) :
    mbxStat ({ s with ops := [] } : State) = mbxStat s := rfl

@[simp] theorem Clear.devRev (s : State) :
    devRev ({ s with ops := [] } : State) = devRev s := rfl

@[simp] theorem Clear.launchAt (s : State) :
    launchAt ({ s with ops := [] } : State) = launchAt s := rfl

@[simp] theorem Clear.port (s : State) (i : Nat) :
    State.port ({ s with ops := [] } : State) i = State.port s i := rfl

@[simp] theorem Clear.nodeCode (s : State) :
    State.nodeCode ({ s with ops := [] } : State) = State.nodeCode s := rfl

@[simp] theorem Clear.openPorts (s : State) :
    State.openPorts ({ s with ops := [] } : State) = State.openPorts s := rfl

@[simp] theorem Clear.bar0Rows (s : State) :
    bar0Rows ({ s with ops := [] } : State) = bar0Rows s := rfl

@[simp] theorem Clear.windowRows (s : State) (cls i : Nat) :
    windowRows ({ s with ops := [] } : State) cls i = windowRows s cls i := rfl

@[simp] theorem Clear.shown (s : State) :
    shown ({ s with ops := [] } : State) = shown s := rfl

@[simp] theorem Clear.regTarget (s : State) (off : Nat) :
    regTarget ({ s with ops := [] } : State) off = regTarget s off := rfl

@[simp] theorem Clear.targetRows (s : State) (cls i : Nat) :
    targetRows ({ s with ops := [] } : State) cls i = targetRows s cls i := rfl

@[simp] theorem Clear.latchedHigh (s : State) (cls i off : Nat) :
    latchedHigh ({ s with ops := [] } : State) cls i off = latchedHigh s cls i off := rfl

@[simp] theorem Clear.regRead (s : State) (cls i off w : Nat) :
    regRead ({ s with ops := [] } : State) cls i off w = regRead s cls i off w := rfl

@[simp] theorem Clear.cfgByte (s : State) (a : Nat) :
    cfgByte ({ s with ops := [] } : State) a = cfgByte s a := rfl

@[simp] theorem Clear.hostRegRead (s : State) (off w : Nat) :
    hostRegRead ({ s with ops := [] } : State) off w = hostRegRead s off w := rfl

@[simp] theorem Clear.rcValue (s : State) (cls i off : Nat) :
    rcValue ({ s with ops := [] } : State) cls i off = rcValue s cls i off := rfl

@[simp] theorem Clear.mayTrain (s : State) (p : Port) :
    State.mayTrain ({ s with ops := [] } : State) p = State.mayTrain s p := rfl

@[simp] theorem Clear.handoverWaits (s : State) :
    State.handoverWaits ({ s with ops := [] } : State) = State.handoverWaits s := rfl

@[simp] theorem Clear.windowOpen (s : State) (w : Window) :
    State.windowOpen ({ s with ops := [] } : State) w = State.windowOpen s w := rfl

@[simp] theorem Clear.fwStatusWords (s : State) :
    fwStatusWords ({ s with ops := [] } : State) = fwStatusWords s := rfl

@[simp] theorem Clear.arg (s : State) (k : Nat) :
    State.arg ({ s with ops := [] } : State) k = State.arg s k := rfl

@[simp] theorem Clear.adminHolds (s : State) (op : Nat) :
    State.adminHolds ({ s with ops := [] } : State) op = State.adminHolds s op := rfl

@[simp] theorem Clear.sbFirmware (s : State) :
    State.sbFirmware ({ s with ops := [] } : State) = State.sbFirmware s := rfl

@[simp] theorem Clear.sbRom (s : State) :
    State.sbRom ({ s with ops := [] } : State) = State.sbRom s := rfl

@[simp] theorem Clear.sbHolds (s : State) :
    State.sbHolds ({ s with ops := [] } : State) = State.sbHolds s := rfl

@[simp] theorem Clear.faultCounts (s : State) :
    faultCounts ({ s with ops := [] } : State) = faultCounts s := rfl

@[simp] theorem Clear.packagePower (s : State) :
    packagePower ({ s with ops := [] } : State) = packagePower s := rfl

@[simp] theorem Clear.hottestDie (s : State) :
    hottestDie ({ s with ops := [] } : State) = hottestDie s := rfl

@[simp] theorem Clear.systemPin (s : State) :
    State.systemPin ({ s with ops := [] } : State) = State.systemPin s := rfl

@[simp] theorem Clear.pin (s : State) (p : Config.Pin) :
    State.pin ({ s with ops := [] } : State) p = State.pin s p := rfl

@[simp] theorem Clear.captureCell (s : State) (k : Nat) :
    State.captureCell ({ s with ops := [] } : State) k = State.captureCell s k := rfl

@[simp] theorem Clear.capturePins (s : State) :
    State.capturePins ({ s with ops := [] } : State) = State.capturePins s := rfl

@[simp] theorem Clear.tapUp (s : State) :
    State.tapUp ({ s with ops := [] } : State) = State.tapUp s := rfl

@[simp] theorem Clear.guard (s : State) (d : Nat) :
    State.guard ({ s with ops := [] } : State) d = State.guard s d := rfl

@[simp] theorem Clear.sensorReadings (s : State) :
    sensorReadings ({ s with ops := [] } : State) = sensorReadings s := rfl

@[simp] theorem Clear.sensorThresholds (s : State) (sensor : Nat) :
    sensorThresholds ({ s with ops := [] } : State) sensor = sensorThresholds s sensor := rfl

@[simp] theorem Clear.engineActive (s : State) (e : Nat) :
    engineActive ({ s with ops := [] } : State) e = engineActive s e := rfl

@[simp] theorem Clear.engineNeeds (s : State) (e : Nat) :
    engineNeeds ({ s with ops := [] } : State) e = engineNeeds s e := rfl

@[simp] theorem Clear.powered (s : State) (e : Nat) :
    State.powered ({ s with ops := [] } : State) e = State.powered s e := rfl

@[simp] theorem Clear.mayRest (s : State) (d : Nat) :
    mayRest ({ s with ops := [] } : State) d = mayRest s d := rfl

@[simp] theorem Clear.mayBeOff (s : State) (d : Nat) :
    mayBeOff ({ s with ops := [] } : State) d = mayBeOff s d := rfl

@[simp] theorem Clear.restState (s : State) (d : Nat) :
    restState ({ s with ops := [] } : State) d = restState s d := rfl

@[simp] theorem Clear.mayWake (s : State) (d : Nat) :
    mayWake ({ s with ops := [] } : State) d = mayWake s d := rfl

@[simp] theorem Clear.staticAddr (s : State) :
    staticAddr ({ s with ops := [] } : State) = staticAddr s := rfl

@[simp] theorem Clear.busI3c (s : State) :
    busI3c ({ s with ops := [] } : State) = busI3c s := rfl

@[simp] theorem Clear.stateSensor (s : State) (sensor : Nat) :
    stateSensor ({ s with ops := [] } : State) sensor = stateSensor s sensor := rfl

@[simp] theorem Clear.lastingCauses (s : State) :
    lastingCauses ({ s with ops := [] } : State) = lastingCauses s := rfl

@[simp] theorem Clear.debugPortUp (s : State) (port : DebugPort) :
    State.debugPortUp ({ s with ops := [] } : State) port = State.debugPortUp s port := rfl

@[simp] theorem Clear.aliasSource (s : State) :
    aliasSource ({ s with ops := [] } : State) = aliasSource s := rfl

@[simp] theorem Clear.certChain (s : State) :
    certChain ({ s with ops := [] } : State) = certChain s := rfl

@[simp] theorem Clear.measurement (s : State) (i : Nat) :
    measurement ({ s with ops := [] } : State) i = measurement s i := rfl

@[simp] theorem Clear.measurementBlock (s : State) (i : Nat) :
    measurementBlock ({ s with ops := [] } : State) i = measurementBlock s i := rfl

@[simp] theorem Clear.measurementsBody (s : State) (index : Nat) (idx : List Nat) :
    measurementsBody ({ s with ops := [] } : State) index idx = measurementsBody s index idx := rfl

@[simp] theorem Clear.challengeBody (s : State) :
    challengeBody ({ s with ops := [] } : State) = challengeBody s := rfl

@[simp] theorem Clear.queue (s : State) (n : Nat) :
    State.queue ({ s with ops := [] } : State) n = State.queue s n := rfl

@[simp] theorem Clear.boundTo (s : State) (n : Nat) :
    State.boundTo ({ s with ops := [] } : State) n = State.boundTo s n := rfl

@[simp] theorem Clear.task (s : State) (r : TaskRef) :
    State.task ({ s with ops := [] } : State) r = State.task s r := rfl

@[simp] theorem Clear.hostOpen (s : State) :
    State.hostOpen ({ s with ops := [] } : State) = State.hostOpen s := rfl

@[simp] theorem Clear.edgeKnown (s : State) (q : Queue) (r : TaskRef) :
    State.edgeKnown ({ s with ops := [] } : State) q r = State.edgeKnown s q r := rfl

@[simp] theorem Clear.edgeRetired (s : State) (r : TaskRef) :
    State.edgeRetired ({ s with ops := [] } : State) r = State.edgeRetired s r := rfl

@[simp] theorem Clear.edgeFailed (s : State) (r : TaskRef) :
    State.edgeFailed ({ s with ops := [] } : State) r = State.edgeFailed s r := rfl

@[simp] theorem Clear.unretired (s : State) (n : Nat) :
    State.unretired ({ s with ops := [] } : State) n = State.unretired s n := rfl

@[simp] theorem Clear.fetchable (s : State) (q : Queue) :
    State.fetchable ({ s with ops := [] } : State) q = State.fetchable s q := rfl

@[simp] theorem Clear.edgesUsed (s : State) :
    State.edgesUsed ({ s with ops := [] } : State) = State.edgesUsed s := rfl

@[simp] theorem Clear.admitting (s : State) :
    State.admitting ({ s with ops := [] } : State) = State.admitting s := rfl

@[simp] theorem Clear.inOrder (s : State) (t : Task) :
    State.inOrder ({ s with ops := [] } : State) t = State.inOrder s t := rfl

@[simp] theorem Clear.isReady (s : State) (t : Task) :
    State.isReady ({ s with ops := [] } : State) t = State.isReady s t := rfl

@[simp] theorem Clear.levelOf (s : State) (t : Task) :
    State.levelOf ({ s with ops := [] } : State) t = State.levelOf s t := rfl

@[simp] theorem Clear.before (s : State) (t u : Task) :
    State.before ({ s with ops := [] } : State) t u = State.before s t u := rfl

@[simp] theorem Clear.copyPowered (s : State) :
    State.copyPowered ({ s with ops := [] } : State) = State.copyPowered s := rfl

@[simp] theorem Clear.freeCopyEngine (s : State) :
    State.freeCopyEngine ({ s with ops := [] } : State) = State.freeCopyEngine s := rfl

@[simp] theorem Clear.resourcesFree (s : State) (t : Task) :
    State.resourcesFree ({ s with ops := [] } : State) t = State.resourcesFree s t := rfl

@[simp] theorem Clear.mayDispatch (s : State) (t : Task) :
    State.mayDispatch ({ s with ops := [] } : State) t = State.mayDispatch s t := rfl

@[simp] theorem Clear.fence (s : State) (n : Nat) :
    State.fence ({ s with ops := [] } : State) n = State.fence s n := rfl

@[simp] theorem Clear.fenceAction (s : State) :
    fenceAction ({ s with ops := [] } : State) = fenceAction s := rfl

@[simp] theorem Clear.dramDead (s : State) :
    State.dramDead ({ s with ops := [] } : State) = State.dramDead s := rfl

@[simp] theorem Clear.addressFault (s : State) (q : Queue) (t : Task) (as : List (Nat × Nat × Nat × Bool)) :
    State.addressFault ({ s with ops := [] } : State) q t as = State.addressFault s q t as := rfl

@[simp] theorem Clear.channelsServing (s : State) :
    State.channelsServing ({ s with ops := [] } : State) = State.channelsServing s := rfl

@[simp] theorem Clear.spoolFault (s : State) (h : Header) (cores : Nat) :
    spoolFault ({ s with ops := [] } : State) h cores = spoolFault s h cores := rfl

@[simp] theorem Clear.fwiMinor (s : State) :
    State.fwiMinor ({ s with ops := [] } : State) = State.fwiMinor s := rfl

@[simp] theorem Clear.imageFaults (s : State) (addr : Nat) (h : Header) (minor : Bool) :
    imageFaults ({ s with ops := [] } : State) addr h minor = imageFaults s addr h minor := rfl

@[simp] theorem Clear.checkPhase (s : State) (addr mask : Nat) :
    checkPhase ({ s with ops := [] } : State) addr mask = checkPhase s addr mask := rfl

@[simp] theorem Clear.regionFault (s : State) (q : Queue) (copy addr report mask : Nat) :
    regionFault ({ s with ops := [] } : State) q copy addr report mask = regionFault s q copy addr report mask := rfl

@[simp] theorem Clear.freeForLoad (s : State) (e : Nat) :
    State.freeForLoad ({ s with ops := [] } : State) e = State.freeForLoad s e := rfl

@[simp] theorem Clear.ready (s : State) (e : Nat) :
    State.ready ({ s with ops := [] } : State) e = State.ready s e := rfl

@[simp] theorem Clear.lanesOf (s : State) (p : Pattern) :
    State.lanesOf ({ s with ops := [] } : State) p = State.lanesOf s p := rfl

@[simp] theorem Clear.leftOf (s : State) (p : Pattern) (k : Nat) :
    State.leftOf ({ s with ops := [] } : State) p k = State.leftOf s p k := rfl

@[simp] theorem Clear.loadsBefore (s : State) (l : Load) :
    State.loadsBefore ({ s with ops := [] } : State) l = State.loadsBefore s l := rfl

@[simp] theorem Clear.arrayFaults (s : State) (l : Load) (h : Header) (places : List (Nat × Nat)) :
    arrayFaults ({ s with ops := [] } : State) l h places = arrayFaults s l h places := rfl

@[simp] theorem Clear.run? (s : State) (r : TaskRef) :
    State.run? ({ s with ops := [] } : State) r = State.run? s r := rfl

@[simp] theorem Clear.headerBytes (s : State) (r : Run) (p : Pattern) (state : Nat) :
    headerBytes ({ s with ops := [] } : State) r p state = headerBytes s r p state := rfl

@[simp] theorem Clear.resultsBytes (s : State) (r : Run) (p : Pattern) (state : Nat) :
    resultsBytes ({ s with ops := [] } : State) r p state = resultsBytes s r p state := rfl

@[simp] theorem Clear.ringCounter (s : State) (v : HostView) (a : Nat) :
    ringCounter ({ s with ops := [] } : State) v a = ringCounter s v a := rfl

@[simp] theorem Clear.pasidOf (s : State) (r : Run) :
    State.pasidOf ({ s with ops := [] } : State) r = State.pasidOf s r := rfl

@[simp] theorem Clear.ringRoom (s : State) (r : Run) :
    State.ringRoom ({ s with ops := [] } : State) r = State.ringRoom s r := rfl

@[simp] theorem Clear.inputReady (s : State) (v : HostView) (r : Run) (p : Pattern) :
    State.inputReady ({ s with ops := [] } : State) v r p = State.inputReady s v r p := rfl

@[simp] theorem Clear.inputVector (s : State) (v : HostView) (r : Run) (p : Pattern) (k : Nat) :
    State.inputVector ({ s with ops := [] } : State) v r p k = State.inputVector s v r p k := rfl

@[simp] theorem Clear.inputBad (s : State) (v : HostView) (r : Run) (p : Pattern) (k : Nat) :
    State.inputBad ({ s with ops := [] } : State) v r p k = State.inputBad s v r p k := rfl

@[simp] theorem Clear.globalPart (s : State) (r : Run) (p : Pattern) :
    globalPart ({ s with ops := [] } : State) r p = globalPart s r p := rfl

@[simp] theorem Clear.checkpointBytes (s : State) (r : Run) (p : Pattern) :
    checkpointBytes ({ s with ops := [] } : State) r p = checkpointBytes s r p := rfl

@[simp] theorem Clear.hemImage (s : State) (r : Run) (p : Pattern) (n : Nat) :
    hemImage ({ s with ops := [] } : State) r p n = hemImage s r p n := rfl

@[simp] theorem Clear.fresh (s : State) :
    State.fresh ({ s with ops := [] } : State) = State.fresh s := rfl

@[simp] theorem Clear.claims (s : State) :
    State.claims ({ s with ops := [] } : State) = State.claims s := rfl

@[simp] theorem Clear.clashes (s : State) :
    State.clashes ({ s with ops := [] } : State) = State.clashes s := rfl

@[simp] theorem Clear.selfClash (s : State) :
    State.selfClash ({ s with ops := [] } : State) = State.selfClash s := rfl

@[simp] theorem Clear.ownTopology (s : State) :
    State.ownTopology ({ s with ops := [] } : State) = State.ownTopology s := rfl

@[simp] theorem Clear.linksWhere (s : State) (state : Nat → Bool) :
    State.linksWhere ({ s with ops := [] } : State) state = State.linksWhere s state := rfl

@[simp] theorem Clear.edges (s : State) :
    State.edges ({ s with ops := [] } : State) = State.edges s := rfl

@[simp] theorem Clear.keptEdges (s : State) :
    State.keptEdges ({ s with ops := [] } : State) = State.keptEdges s := rfl

@[simp] theorem Clear.portOver (s : State) (links : List (Nat × Nat × Nat)) (dst : Nat) :
    State.portOver ({ s with ops := [] } : State) links dst = State.portOver s links dst := rfl

@[simp] theorem Clear.routePort (s : State) (dst : Nat) :
    State.routePort ({ s with ops := [] } : State) dst = State.routePort s dst := rfl

@[simp] theorem Clear.runPort (s : State) (r : Run) (dst : Nat) :
    State.runPort ({ s with ops := [] } : State) r dst = State.runPort s r dst := rfl

@[simp] theorem Clear.wayOn (s : State) (src dst : Nat) :
    State.wayOn ({ s with ops := [] } : State) src dst = State.wayOn s src dst := rfl

@[simp] theorem Clear.armsOf (s : State) (tag : DWord) :
    State.armsOf ({ s with ops := [] } : State) tag = State.armsOf s tag := rfl

@[simp] theorem Clear.badShard (s : State) (tag : DWord) (shards : Nat) :
    State.badShard ({ s with ops := [] } : State) tag shards = State.badShard s tag shards := rfl

@[simp] theorem Clear.launchVote (s : State) (r : Run) (p : Pattern) :
    State.launchVote ({ s with ops := [] } : State) r p = State.launchVote s r p := rfl

@[simp] theorem Clear.launchVotes (s : State) (r : Run) :
    State.launchVotes ({ s with ops := [] } : State) r = State.launchVotes s r := rfl

@[simp] theorem Clear.lacking (s : State) (v : HostView) (r : Run) (p : Pattern) :
    State.lacking ({ s with ops := [] } : State) v r p = State.lacking s v r p := rfl

@[simp] theorem Clear.counterFails (s : State) (v : HostView) (r : Run) (p : Pattern) :
    State.counterFails ({ s with ops := [] } : State) v r p = State.counterFails s v r p := rfl

@[simp] theorem Clear.inputFails (s : State) (v : HostView) (r : Run) (p : Pattern) :
    State.inputFails ({ s with ops := [] } : State) v r p = State.inputFails s v r p := rfl

@[simp] theorem Clear.barrierPause (s : State) (r : Run) :
    State.barrierPause ({ s with ops := [] } : State) r = State.barrierPause s r := rfl

@[simp] theorem Clear.noiseFits (s : State) (ref : TaskRef) (p : Pattern) (kind : Nat) :
    State.noiseFits ({ s with ops := [] } : State) ref p kind = State.noiseFits s ref p kind := rfl

@[simp] theorem Clear.initState (s : State) (v : HostView) (k : RunBlock) (p : Pattern) (i : Nat) :
    State.initState ({ s with ops := [] } : State) v k p i = State.initState s v k p i := rfl

@[simp] theorem Clear.startHold (s : State) (v : HostView) (r : Run) (p : Pattern) (slot : Nat) :
    State.startHold ({ s with ops := [] } : State) v r p slot = State.startHold s v r p slot := rfl

@[simp] theorem Clear.hemsHeld (s : State) (tag : DWord) (n : Nat) :
    State.hemsHeld ({ s with ops := [] } : State) tag n = State.hemsHeld s tag n := rfl

@[simp] theorem Clear.hemTick (s : State) (tag : DWord) (shards : List Nat) :
    State.hemTick ({ s with ops := [] } : State) tag shards = State.hemTick s tag shards := rfl

@[simp] theorem Clear.hemPlaces (s : State) (tag : DWord) (shards : List Nat) (t : Nat) :
    State.hemPlaces ({ s with ops := [] } : State) tag shards t = State.hemPlaces s tag shards t := rfl

@[simp] theorem Clear.armOf (s : State) (r : Run) (p : Pattern) :
    armOf ({ s with ops := [] } : State) r p = armOf s r p := rfl

@[simp] theorem Clear.armNodes (s : State) (tag : DWord) :
    State.armNodes ({ s with ops := [] } : State) tag = State.armNodes s tag := rfl

@[simp] theorem Clear.runPattern (s : State) (t : Task) :
    State.runPattern ({ s with ops := [] } : State) t = State.runPattern s t := rfl

@[simp] theorem Clear.runRow (s : State) (task : TaskRef) :
    State.runRow ({ s with ops := [] } : State) task = State.runRow s task := rfl

@[simp] theorem Clear.localSlot (s : State) (engine slot : Nat) :
    State.localSlot ({ s with ops := [] } : State) engine slot = State.localSlot s engine slot := rfl

@[simp] theorem Clear.repeatedResidues (s : State) (r : Run) :
    State.repeatedResidues ({ s with ops := [] } : State) r = State.repeatedResidues s r := rfl

@[simp] theorem Clear.coreAt (s : State) (at_ : CoreAt) :
    State.coreAt ({ s with ops := [] } : State) at_ = State.coreAt s at_ := rfl

@[simp] theorem Clear.leftAt (s : State) (at_ : CoreAt) :
    State.leftAt ({ s with ops := [] } : State) at_ = State.leftAt s at_ := rfl

@[simp] theorem Clear.arrayWord (s : State) (at_ : CoreAt) (w : Nat) :
    State.arrayWord ({ s with ops := [] } : State) at_ w = State.arrayWord s at_ w := rfl

@[simp] theorem Clear.wordValid (s : State) (at_ : CoreAt) (w : Nat) :
    State.wordValid ({ s with ops := [] } : State) at_ w = State.wordValid s at_ w := rfl

@[simp] theorem Clear.scrubWord (s : State) (at_ : CoreAt) :
    State.scrubWord ({ s with ops := [] } : State) at_ = State.scrubWord s at_ := rfl

@[simp] theorem Clear.scrubPair (s : State) (at_ : CoreAt) :
    State.scrubPair ({ s with ops := [] } : State) at_ = State.scrubPair s at_ := rfl

@[simp] theorem Clear.fieldWord (s : State) (at_ : CoreAt) (i : Nat) :
    State.fieldWord ({ s with ops := [] } : State) at_ i = State.fieldWord s at_ i := rfl

@[simp] theorem Clear.routerWord (s : State) (at_ : CoreAt) (n : Nat) :
    State.routerWord ({ s with ops := [] } : State) at_ n = State.routerWord s at_ n := rfl

@[simp] theorem Clear.debugRead (s : State) :
    State.debugRead ({ s with ops := [] } : State) = State.debugRead s := rfl

@[simp] theorem Clear.holdsRead (s : State) :
    State.holdsRead ({ s with ops := [] } : State) = State.holdsRead s := rfl

@[simp] theorem Clear.packetService (s : State) (e : Nat) :
    State.packetService ({ s with ops := [] } : State) e = State.packetService s e := rfl

@[simp] theorem Clear.hostOf (s : State) (r : Run) (n : Nat) :
    State.hostOf ({ s with ops := [] } : State) r n = State.hostOf s r n := rfl

@[simp] theorem Clear.flitsHere (s : State) (r : Run) (p : Pattern) :
    State.flitsHere ({ s with ops := [] } : State) r p = State.flitsHere s r p := rfl

@[simp] theorem Clear.otherNodes (s : State) (r : Run) :
    State.otherNodes ({ s with ops := [] } : State) r = State.otherNodes s r := rfl

@[simp] theorem Clear.sealVotes (s : State) (r : Run) (tick slot : Nat) :
    State.sealVotes ({ s with ops := [] } : State) r tick slot = State.sealVotes s r tick slot := rfl

@[simp] theorem Clear.sealSums (s : State) (r : Run) (tick slot : Nat) :
    State.sealSums ({ s with ops := [] } : State) r tick slot = State.sealSums s r tick slot := rfl

@[simp] theorem Clear.faultsOf (s : State) (r : Run) (tick slot : Nat) (faults : List TickFault) :
    State.faultsOf ({ s with ops := [] } : State) r tick slot faults = State.faultsOf s r tick slot faults := rfl

@[simp] theorem Clear.resumedApart (s : State) (r : Run) (p : Pattern) :
    State.resumedApart ({ s with ops := [] } : State) r p = State.resumedApart s r p := rfl

@[simp] theorem Clear.guardLevel (s : State) (r : Run) :
    State.guardLevel ({ s with ops := [] } : State) r = State.guardLevel s r := rfl

@[simp] theorem Clear.isStretched (s : State) (r : Run) (p : Pattern) (ws : List Work) (late : Nat) (checking : Bool) :
    State.isStretched ({ s with ops := [] } : State) r p ws late checking = State.isStretched s r p ws late checking := rfl

@[simp] theorem Clear.mayTick (s : State) (r : Run) :
    State.mayTick ({ s with ops := [] } : State) r = State.mayTick s r := rfl

@[simp] theorem Clear.slotBoundaryAt (s : State) (r : Run) (p : Pattern) (slot work : Nat) :
    State.slotBoundaryAt ({ s with ops := [] } : State) r p slot work = State.slotBoundaryAt s r p slot work := rfl

@[simp] theorem Clear.handoverDue (s : State) :
    State.handoverDue ({ s with ops := [] } : State) = State.handoverDue s := rfl

@[simp] theorem Clear.boundaryDue (s : State) (r : Run) (p : Pattern) :
    State.boundaryDue ({ s with ops := [] } : State) r p = State.boundaryDue s r p := rfl

@[simp] theorem Clear.slotTurn (s : State) (r : Run) (p : Pattern) (slot t : Nat) :
    State.slotTurn ({ s with ops := [] } : State) r p slot t = State.slotTurn s r p slot t := rfl

@[simp] theorem Clear.lineTranslates (s : State) (v : HostView) (a : Nat) :
    State.lineTranslates ({ s with ops := [] } : State) v a = State.lineTranslates s v a := rfl

@[simp] theorem Clear.waitMet (s : State) (owner : Nat) (l : ChainLink) :
    State.waitMet ({ s with ops := [] } : State) owner l = State.waitMet s owner l := rfl

@[simp] theorem Clear.taskDue (s : State) (c : Nat) :
    State.taskDue ({ s with ops := [] } : State) c = State.taskDue s c := rfl

@[simp] theorem Clear.runsOn (s : State) (mask : Nat) :
    State.runsOn ({ s with ops := [] } : State) mask = State.runsOn s mask := rfl

@[simp] theorem Clear.tasksOf (s : State) (n : Nat) :
    State.tasksOf ({ s with ops := [] } : State) n = State.tasksOf s n := rfl

@[simp] theorem Clear.sumQueues (s : State) (f : Queue → Nat) :
    State.sumQueues ({ s with ops := [] } : State) f = State.sumQueues s f := rfl

@[simp] theorem Clear.mayRetire (s : State) (t : Task) :
    State.mayRetire ({ s with ops := [] } : State) t = State.mayRetire s t := rfl

@[simp] theorem Clear.runsNow (s : State) (t : Task) :
    State.runsNow ({ s with ops := [] } : State) t = State.runsNow s t := rfl

@[simp] theorem Clear.judge (s : State) (t : Task) :
    State.judge ({ s with ops := [] } : State) t = State.judge s t := rfl

@[simp] theorem Clear.fenceWaits (s : State) :
    State.fenceWaits ({ s with ops := [] } : State) = State.fenceWaits s := rfl

@[simp] theorem Clear.signallers (s : State) (w : Nat × Nat × Nat × Nat × Nat) :
    State.signallers ({ s with ops := [] } : State) w = State.signallers s w := rfl

@[simp] theorem Clear.cycleVictim (s : State) :
    State.cycleVictim ({ s with ops := [] } : State) = State.cycleVictim s := rfl

@[simp] theorem Clear.sameSession (s : State) :
    State.sameSession ({ s with ops := [] } : State) = State.sameSession s := rfl

@[simp] theorem Clear.fillForm (s : State) (task : TaskRef) :
    State.fillForm ({ s with ops := [] } : State) task = State.fillForm s task := rfl

@[simp] theorem Clear.readWaits (s : State) (packet : DebugPacket) :
    State.readWaits ({ s with ops := [] } : State) packet = State.readWaits s packet := rfl

@[simp] theorem Clear.portLevel (s : State) (p : Port) :
    State.portLevel ({ s with ops := [] } : State) p = State.portLevel s p := rfl

@[simp] theorem Clear.reached (s : State) :
    State.reached ({ s with ops := [] } : State) = State.reached s := rfl

@[simp] theorem Clear.keptReach (s : State) :
    State.keptReach ({ s with ops := [] } : State) = State.keptReach s := rfl

@[simp] theorem Clear.partOf (s : State) (r : Run) :
    State.partOf ({ s with ops := [] } : State) r = State.partOf s r := rfl

@[simp] theorem Clear.continues (s : State) (r : Run) :
    State.continues ({ s with ops := [] } : State) r = State.continues s r := rfl

@[simp] theorem Clear.runPeers (s : State) :
    State.runPeers ({ s with ops := [] } : State) = State.runPeers s := rfl

@[simp] theorem Clear.hears (s : State) (port : Nat) :
    State.hears ({ s with ops := [] } : State) port = State.hears s port := rfl

@[simp] theorem Clear.runsTagged (s : State) (tag : DWord) :
    State.runsTagged ({ s with ops := [] } : State) tag = State.runsTagged s tag := rfl

@[simp] theorem Clear.lostShards (s : State) (r : Run) (p : Pattern) :
    State.lostShards ({ s with ops := [] } : State) r p = State.lostShards s r p := rfl

@[simp] theorem Clear.rewindHem (s : State) (r : Run) (shards : List Nat) (buddy : Nat → Nat → Option Nat) :
    State.rewindHem ({ s with ops := [] } : State) r shards buddy = State.rewindHem s r shards buddy := rfl

@[simp] theorem Clear.buddyOf (s : State) (tag : DWord) (tick shard : Nat) :
    State.buddyOf ({ s with ops := [] } : State) tag tick shard = State.buddyOf s tag tick shard := rfl

@[simp] theorem Clear.canPlace (s : State) (p : Pattern) (places : List (Nat × Nat)) :
    State.canPlace ({ s with ops := [] } : State) p places = State.canPlace s p places := rfl

@[simp] theorem Clear.buddySlots (s : State) (r : Run) (shard : Nat) :
    State.buddySlots ({ s with ops := [] } : State) r shard = State.buddySlots s r shard := rfl

@[simp] theorem Clear.freeSlot (s : State) (tag : DWord) (shard : Nat) :
    State.freeSlot ({ s with ops := [] } : State) tag shard = State.freeSlot s tag shard := rfl

@[simp] theorem Clear.cold (s : State) :
    State.cold ({ s with ops := [] } : State) = State.cold s := rfl

@[simp] theorem Clear.startedUp (s : State) :
    State.startedUp ({ s with ops := [] } : State) = State.startedUp s := rfl

@[simp] theorem Clear.tickingEngines (s : State) :
    State.tickingEngines ({ s with ops := [] } : State) = State.tickingEngines s := rfl

@[simp] theorem Clear.admission (s : State) (q : Queue) (d : List Byte) (ref : TaskRef) (slot : Nat) (sprouter : Option TaskRef) :
    State.admission ({ s with ops := [] } : State) q d ref slot sprouter = State.admission s q d ref slot sprouter := rfl

end Sys2Proof.Machine
end

