-- ==== Sys2Proof/Laws/Mem.lean ====
section
/-! SUPPORT. The canonical form of DRAM and of the sparse byte stores: every operation keeps it, and reads after writes. -/

namespace Sys2Proof.Machine

/-! ### The form as propositions -/

/-- The canonical form of a sparse store says that its addresses rise strictly and no byte equals the default. -/
theorem cellsWf_iff (d : Byte) (l : List (Nat × Byte)) :
    cellsWf d l = true ↔ l.Pairwise (fun a b => a.1 < b.1) ∧ ∀ c ∈ l, c.2 ≠ d := by
  induction l with
  | nil => simp [cellsWf]
  | cons x xs ih =>
    obtain ⟨k, v⟩ := x
    cases xs with
    | nil => simp [cellsWf]
    | cons y ys =>
      obtain ⟨k', v'⟩ := y
      rw [cellsWf, Bool.and_eq_true, Bool.and_eq_true, ih]
      simp only [bne_iff_ne, ne_eq, decide_eq_true_eq, List.pairwise_cons, List.mem_cons, forall_eq_or_imp]
      constructor
      · rintro ⟨⟨hv, hk⟩, ⟨h1, h2⟩, h3, h4⟩
        exact ⟨⟨⟨hk, fun a ha => Nat.lt_trans hk (h1 a ha)⟩, h1, h2⟩, hv, h3, h4⟩
      · rintro ⟨⟨⟨hk, _⟩, h1, h2⟩, hv, h3, h4⟩
        exact ⟨⟨hv, hk⟩, ⟨h1, h2⟩, h3, h4⟩

/-- An ascending list is strictly increasing. -/
theorem ascending_iff (l : List Nat) : ascending l = true ↔ l.Pairwise (· < ·) := by
  induction l with
  | nil => simp [ascending]
  | cons x xs ih =>
    cases xs with
    | nil => simp [ascending]
    | cons y ys =>
      rw [ascending, Bool.and_eq_true, ih]
      simp only [decide_eq_true_eq, List.pairwise_cons, List.mem_cons, forall_eq_or_imp]
      constructor
      · rintro ⟨hk, h1, h2⟩
        exact ⟨⟨hk, fun a ha => Nat.lt_trans hk (h1 a ha)⟩, h1, h2⟩
      · rintro ⟨⟨hk, _⟩, h1, h2⟩
        exact ⟨hk, h1, h2⟩

/-- What the canonical form of DRAM says. -/
theorem Mem.wf_iff (m : Mem) :
    m.wf = true ↔
      (m.cells.Pairwise (fun a b => a.1 < b.1) ∧ ∀ c ∈ m.cells, c.2 ≠ 0)
        ∧ m.valid.Pairwise (· < ·) ∧ m.poisoned.Pairwise (· < ·) ∧ (∀ c ∈ m.cells, c.1 / 64 ∈ m.valid)
        ∧ ∀ e ∈ m.merge, ∀ b ∈ e.bytes, b.1 < 64 := by
  simp only [Mem.wf, Bool.and_eq_true, cellsWf_iff, ascending_iff, List.all_eq_true, List.contains_iff_mem, decide_eq_true_eq,
    and_assoc]

/-! ### Insertion into ascending lists -/

theorem mem_insertAsc (x y : Nat) (l : List Nat) : y ∈ insertAsc x l ↔ y = x ∨ y ∈ l := by
  induction l with
  | nil => simp [insertAsc]
  | cons z zs ih =>
    rw [insertAsc]
    split
    · simp
    · split
      · subst_vars; simp
      · simp only [List.mem_cons, ih]; tauto

theorem insertAsc_pairwise (x : Nat) (l : List Nat) (h : l.Pairwise (· < ·)) : (insertAsc x l).Pairwise (· < ·) := by
  induction l with
  | nil => simp [insertAsc]
  | cons z zs ih =>
    rw [List.pairwise_cons] at h
    rw [insertAsc]
    split
    · rename_i hx
      rw [List.pairwise_cons, List.pairwise_cons]
      refine ⟨?_, h⟩
      intro a ha
      rcases List.mem_cons.mp ha with rfl | ha
      · exact hx
      · exact Nat.lt_trans hx (h.1 a ha)
    · split
      · exact List.pairwise_cons.mpr h
      · rw [List.pairwise_cons]
        refine ⟨?_, ih h.2⟩
        intro a ha
        rcases (mem_insertAsc _ _ _).mp ha with rfl | ha
        · omega
        · exact h.1 a ha

/-! ### Sparse stores -/

/-- What a write does at a listed byte. -/
theorem cellWrite_cons (d : Byte) (k : Nat) (v : Byte) (rest : List (Nat × Byte)) (a : Nat) (b : Byte) :
    cellWrite d ((k, v) :: rest) a b =
      if k < a then (k, v) :: cellWrite d rest a b
      else if b = d then (if k = a then rest else (k, v) :: rest)
      else (a, b) :: (if k = a then rest else (k, v) :: rest) := rfl

/-- A write lists no byte but its own and those that were listed. -/
theorem mem_cellWrite (d : Byte) (l : List (Nat × Byte)) (a : Nat) (b : Byte) (c : Nat × Byte) (h : c ∈ cellWrite d l a b) :
    c ∈ l ∨ (c = (a, b) ∧ b ≠ d) := by
  induction l with
  | nil =>
    rw [cellWrite] at h
    split at h
    · simp at h
    · rename_i hb; simp at h; exact .inr ⟨h, hb⟩
  | cons x xs ih =>
    obtain ⟨k, v⟩ := x
    rw [cellWrite_cons] at h
    split at h
    · rcases List.mem_cons.mp h with rfl | h
      · simp
      · rcases ih h with h | h
        · exact .inl (List.mem_cons_of_mem _ h)
        · exact .inr h
    · split at h
      · rename_i hb
        split at h
        · exact .inl (List.mem_cons_of_mem _ h)
        · exact .inl h
      · rename_i hb
        rcases List.mem_cons.mp h with rfl | h
        · exact .inr ⟨rfl, hb⟩
        · split at h
          · exact .inl (List.mem_cons_of_mem _ h)
          · exact .inl h

theorem cellWrite_pairwise (d : Byte) (l : List (Nat × Byte)) (a : Nat) (b : Byte)
    (h : l.Pairwise fun x y => x.1 < y.1) : (cellWrite d l a b).Pairwise fun x y => x.1 < y.1 := by
  induction l with
  | nil => rw [cellWrite]; split <;> simp
  | cons x xs ih =>
    obtain ⟨k, v⟩ := x
    have hc := List.pairwise_cons.mp h
    rw [cellWrite_cons]
    split
    · rename_i hk
      rw [List.pairwise_cons]
      refine ⟨?_, ih hc.2⟩
      intro c hcm
      rcases mem_cellWrite _ _ _ _ _ hcm with hcm | ⟨rfl, _⟩
      · exact hc.1 c hcm
      · exact hk
    · rename_i hk
      have hk' : a ≤ k := Nat.le_of_not_lt hk
      split
      · split
        · exact hc.2
        · exact h
      · split
        · rename_i he
          rw [List.pairwise_cons]
          exact ⟨fun c hcm => Nat.lt_of_le_of_lt hk' (hc.1 c hcm), hc.2⟩
        · rename_i he
          have hlt : a < k := by
            rcases Nat.lt_or_eq_of_le hk' with h | h
            · exact h
            · exact absurd h.symm he
          rw [List.pairwise_cons]
          refine ⟨?_, h⟩
          intro c hcm
          rcases List.mem_cons.mp hcm with rfl | hcm
          · exact hlt
          · exact Nat.lt_trans hlt (hc.1 c hcm)

theorem cellWrite_ne (d : Byte) (l : List (Nat × Byte)) (a : Nat) (b : Byte) (h : ∀ c ∈ l, c.2 ≠ d) :
    ∀ c ∈ cellWrite d l a b, c.2 ≠ d := by
  intro c hc
  rcases mem_cellWrite _ _ _ _ _ hc with hc | ⟨rfl, hb⟩
  · exact h c hc
  · exact hb

/-- One write keeps the canonical form of a sparse store. -/
theorem cellWrite_wf (d : Byte) (l : List (Nat × Byte)) (a : Nat) (b : Byte) (h : cellsWf d l = true) :
    cellsWf d (cellWrite d l a b) = true := by
  rw [cellsWf_iff] at h ⊢
  exact ⟨cellWrite_pairwise d l a b h.1, cellWrite_ne d l a b h.2⟩

/-- So do writes of several bytes. -/
theorem cellWriteList_wf (d : Byte) (bs : List Byte) : ∀ (l : List (Nat × Byte)) (a : Nat), cellsWf d l = true →
    cellsWf d (cellWriteList d l a bs) = true := by
  induction bs with
  | nil => intro l a h; exact h
  | cons b bs ih => intro l a h; exact ih _ _ (cellWrite_wf d l a b h)

/-- Writes of several bytes list only bytes of the range beside those that were listed. -/
theorem mem_cellWriteList (d : Byte) (bs : List Byte) : ∀ (l : List (Nat × Byte)) (a : Nat) (c : Nat × Byte),
    c ∈ cellWriteList d l a bs → c ∈ l ∨ (a ≤ c.1 ∧ c.1 < a + bs.length) := by
  induction bs with
  | nil => intro l a c h; exact .inl h
  | cons b bs ih =>
    intro l a c h
    rcases ih _ _ _ h with h | h
    · rcases mem_cellWrite _ _ _ _ _ h with h | ⟨rfl, _⟩
      · exact .inl h
      · exact .inr ⟨Nat.le_refl _, by simp only [List.length_cons]; omega⟩
    · exact .inr ⟨by omega, by simp only [List.length_cons]; omega⟩

/-- A store all of whose addresses lie above an address reads as the default there. -/
theorem cellRead_below (d : Byte) (l : List (Nat × Byte)) (a : Nat) (h : ∀ c ∈ l, a < c.1) : cellRead d l a = d := by
  cases l with
  | nil => rfl
  | cons x xs =>
    obtain ⟨k, v⟩ := x
    have hk : a < k := h (k, v) (List.mem_cons_self ..)
    rw [cellRead, if_neg (by omega), if_neg (by omega)]

/-- Reading after a write: the byte written at its address, every other byte as before. -/
theorem cellRead_cellWrite (d : Byte) (l : List (Nat × Byte)) (a a' : Nat) (b : Byte)
    (h : l.Pairwise fun x y => x.1 < y.1) :
    cellRead d (cellWrite d l a b) a' = if a' = a then b else cellRead d l a' := by
  induction l with
  | nil =>
    rw [cellWrite]
    split
    · rename_i hb; subst hb; split <;> simp [cellRead]
    · simp only [cellRead]
      split
      · rename_i h1; simp [h1]
      · rename_i h1
        rw [if_neg (show ¬a' = a from fun h => h1 h.symm)]
        split <;> rfl
  | cons x xs ih =>
    obtain ⟨k, v⟩ := x
    have hc := List.pairwise_cons.mp h
    rw [cellWrite_cons]
    split
    · rename_i hk
      rw [cellRead]
      split
      · rename_i h1
        subst h1
        rw [if_neg (by omega), cellRead, if_pos rfl]
      · rename_i h1
        split
        · rw [ih hc.2]
          split
          · rfl
          · conv_rhs => rw [cellRead]
            rw [if_neg h1, if_pos (by assumption)]
        · rename_i h2
          rw [if_neg (by omega)]
          conv_rhs => rw [cellRead]
          rw [if_neg h1, if_neg h2]
    · rename_i hk
      have below : ∀ c ∈ xs, k < c.1 := hc.1
      split
      · rename_i hb
        subst hb
        split
        · rename_i he
          subst he
          split
          · rename_i h1
            subst h1
            exact cellRead_below _ _ _ below
          · rename_i h1
            conv_rhs => rw [cellRead]
            rw [if_neg (fun h => h1 h.symm)]
            split
            · rfl
            · exact cellRead_below _ _ _ fun c hcm => by have := below c hcm; omega
        · rename_i he
          split
          · rename_i h1
            subst h1
            rw [cellRead, if_neg he, if_neg hk]
          · rfl
      · rename_i hb
        split
        · rename_i he
          subst he
          rw [cellRead]
          split
          · rename_i h1; rw [if_pos h1.symm]
          · rename_i h1
            rw [if_neg (show ¬a' = k from fun h => h1 h.symm)]
            conv_rhs => rw [cellRead]
            rw [if_neg h1]
        · rename_i he
          conv_lhs => rw [cellRead]
          split
          · rename_i h1; rw [if_pos h1.symm]
          · rename_i h1
            rw [if_neg (show ¬a' = a from fun h => h1 h.symm)]
            split
            · rfl
            · rename_i h2
              exact (cellRead_below _ _ _ fun c hcm => by
                rcases List.mem_cons.mp hcm with rfl | hcm
                · show a' < k; omega
                · have := below c hcm; omega).symm

/-- Reading a byte outside a written range. -/
theorem cellRead_cellWriteList_outside (d : Byte) (bs : List Byte) : ∀ (l : List (Nat × Byte)) (a a' : Nat),
    l.Pairwise (fun x y => x.1 < y.1) → (a' < a ∨ a + bs.length ≤ a') →
    cellRead d (cellWriteList d l a bs) a' = cellRead d l a' := by
  induction bs with
  | nil => intro l a a' _ _; rfl
  | cons b bs ih =>
    intro l a a' h ho
    simp only [List.length_cons] at ho
    rw [cellWriteList, ih _ _ _ (cellWrite_pairwise d l a b h) (by omega), cellRead_cellWrite d l a a' b h, if_neg (by omega)]

/-- Reading a byte of a written range. -/
theorem cellRead_cellWriteList_inside (d : Byte) (bs : List Byte) : ∀ (l : List (Nat × Byte)) (a i : Nat),
    l.Pairwise (fun x y => x.1 < y.1) → (hi : i < bs.length) →
    cellRead d (cellWriteList d l a bs) (a + i) = bs[i] := by
  induction bs with
  | nil => intro l a i _ hi; simp at hi
  | cons b bs ih =>
    intro l a i h hi
    rw [cellWriteList]
    cases i with
    | zero =>
      rw [cellRead_cellWriteList_outside d bs _ _ _ (cellWrite_pairwise d l a b h) (by omega), cellRead_cellWrite d l a _ b h,
        if_pos (by omega)]
      rfl
    | succ j =>
      have e : a + (j + 1) = a + 1 + j := by omega
      rw [e, ih _ _ _ (cellWrite_pairwise d l a b h) (by simpa using hi)]
      rfl

/-! ### DRAM operations keep the form -/

theorem Mem.writeLine_wf (m : Mem) (line : Nat) (bs : List Byte) (hl : bs.length = 64) (h : m.wf = true) :
    (m.writeLine line bs).wf = true := by
  unfold Mem.writeLine
  split
  · exact h
  · rw [Mem.wf_iff] at h ⊢
    obtain ⟨hc, hv, hp, hin, hm⟩ := h
    refine ⟨(cellsWf_iff 0 _).mp (cellWriteList_wf 0 bs _ _ ((cellsWf_iff 0 _).mpr hc)), insertAsc_pairwise _ _ hv,
      hp.filter _, ?_, fun e he => hm e (List.mem_filter.mp he).1⟩
    intro c hcm
    rw [mem_insertAsc]
    rcases mem_cellWriteList _ _ _ _ _ hcm with hcm | hcm
    · exact .inr (hin c hcm)
    · rw [hl] at hcm; exact .inl (by omega)

theorem mem_foldl_cellWrite (line : Nat) (bs : List (Nat × Byte)) : ∀ (l : List (Nat × Byte)) (c : Nat × Byte),
    c ∈ bs.foldl (fun x b => cellWrite 0 x (64 * line + b.1) b.2) l → c ∈ l ∨ ∃ b ∈ bs, c.1 = 64 * line + b.1 := by
  induction bs with
  | nil => intro l c h; exact .inl h
  | cons b bs ih =>
    intro l c h
    rcases ih _ _ h with h | ⟨x, hx, hc⟩
    · rcases mem_cellWrite _ _ _ _ _ h with h | ⟨rfl, _⟩
      · exact .inl h
      · exact .inr ⟨b, List.mem_cons_self .., rfl⟩
    · exact .inr ⟨x, List.mem_cons_of_mem _ hx, hc⟩

theorem foldl_cellWrite_wf (line : Nat) (bs : List (Nat × Byte)) : ∀ (l : List (Nat × Byte)), cellsWf 0 l = true →
    cellsWf 0 (bs.foldl (fun x b => cellWrite 0 x (64 * line + b.1) b.2) l) = true := by
  induction bs with
  | nil => intro l h; exact h
  | cons b bs ih => intro l h; exact ih _ (cellWrite_wf 0 _ _ _ h)

theorem Mem.drainEntry_wf (m : Mem) (e : MergeEntry) (he : ∀ b ∈ e.bytes, b.1 < 64) (h : m.wf = true) :
    (m.drainEntry e).wf = true := by
  unfold Mem.drainEntry
  split
  · rw [Mem.wf_iff] at h ⊢
    obtain ⟨hc, hv, hp, hin, hm⟩ := h
    exact ⟨hc, hv, hp, hin, fun x hx => hm x (List.mem_filter.mp hx).1⟩
  · rw [Mem.wf_iff] at h ⊢
    obtain ⟨hc, hv, hp, hin, hm⟩ := h
    refine ⟨(cellsWf_iff 0 _).mp (foldl_cellWrite_wf _ _ _ ((cellsWf_iff 0 _).mpr hc)), insertAsc_pairwise _ _ hv, hp, ?_,
      fun x hx => hm x (List.mem_filter.mp hx).1⟩
    intro c hcm
    rw [mem_insertAsc]
    rcases mem_foldl_cellWrite _ _ _ _ hcm with hcm | ⟨b, hb, hcb⟩
    · exact .inr (hin c hcm)
    · have := he b hb; exact .inl (by omega)

/-- Draining only removes merge entries. -/
theorem Mem.drainEntry_merge (m : Mem) (e x : MergeEntry) (h : x ∈ (m.drainEntry e).merge) : x ∈ m.merge := by
  unfold Mem.drainEntry at h
  split at h <;> exact (List.mem_filter.mp h).1

theorem mergeBytes_lt (bs : List Byte) : ∀ (old : List (Nat × Byte)) (off : Nat), (∀ b ∈ old, b.1 < 64) →
    off + bs.length ≤ 64 → ∀ b ∈ mergeBytes old off bs, b.1 < 64 := by
  induction bs with
  | nil => intro old off h _; exact h
  | cons x bs ih =>
    intro old off h hlen b hb
    simp only [List.length_cons] at hlen
    refine ih _ _ ?_ (by omega) b hb
    intro c hc
    simp only [List.mem_append, List.mem_singleton] at hc
    rcases hc with (hc | rfl) | hc
    · exact h c (List.takeWhile_subset _ hc)
    · show off < 64; omega
    · exact h c (List.dropWhile_subset _ hc)

theorem Mem.writePart_wf (m : Mem) (line off : Nat) (bs : List Byte) (hl : off + bs.length ≤ 64) (h : m.wf = true) :
    (m.writePart line off bs).wf = true := by
  unfold Mem.writePart
  split
  · exact h
  · split
    · rw [Mem.wf_iff] at h ⊢
      obtain ⟨hc, hv, hp, hin, hm⟩ := h
      refine ⟨hc, hv, hp, hin, ?_⟩
      intro e he
      simp only [List.mem_map] at he
      obtain ⟨x, hx, rfl⟩ := he
      split
      · exact mergeBytes_lt bs _ _ (hm x hx) hl
      · exact hm x hx
    · have hm' := ((Mem.wf_iff m).mp h).2.2.2.2
      have key : ∀ m' : Mem, m'.wf = true → (({ m' with
          merge := m'.merge ++ [{ unit := unitOf m.units (64 * line), line := line, bytes := mergeBytes [] off bs }] } : Mem).wf
            = true) := by
        intro m' h'
        rw [Mem.wf_iff] at h' ⊢
        obtain ⟨hc, hv, hp, hin, hm⟩ := h'
        refine ⟨hc, hv, hp, hin, ?_⟩
        intro e he
        simp only [List.mem_append, List.mem_singleton] at he
        rcases he with he | rfl
        · exact hm e he
        · exact mergeBytes_lt bs [] off (by simp) hl
      apply key
      split
      · split
        · rename_i e rest heq
          have hmem : e ∈ m.merge := by
            have : e ∈ m.merge.filter fun e => e.unit == unitOf m.units (64 * line) := by rw [heq]; exact List.mem_cons_self ..
            exact (List.mem_filter.mp this).1
          exact Mem.drainEntry_wf m e (hm' e hmem) h
        · exact h
      · exact h

/-- The pieces of a write lie within their lines; a piece of 64 bytes is a whole line. -/
theorem linePieces_fit (k : Nat) : ∀ (a : Nat) (bs : List Byte), ∀ p ∈ linePieces k a bs, p.2.1 + p.2.2.length ≤ 64 := by
  induction k with
  | zero => intro a bs p h; simp [linePieces] at h
  | succ k ih =>
    intro a bs p h
    cases bs with
    | nil => simp [linePieces] at h
    | cons b bs =>
      simp only [linePieces] at h
      rcases List.mem_cons.mp h with rfl | h
      · have h1 : a % 64 < 64 := Nat.mod_lt _ (by omega)
        have h2 := List.length_take_le (64 - a % 64) (b :: bs)
        show a % 64 + ((b :: bs).take (64 - a % 64)).length ≤ 64
        omega
      · exact ih _ _ _ h

theorem Mem.write_wf (m : Mem) (a : Nat) (bs : List Byte) (h : m.wf = true) : (m.write a bs).wf = true := by
  unfold Mem.write
  have hf := linePieces_fit (bs.length + 1) a bs
  generalize linePieces (bs.length + 1) a bs = ps at hf
  induction ps generalizing m with
  | nil => exact h
  | cons p ps ih =>
    rw [List.foldl_cons]
    refine ih _ ?_ fun q hq => hf q (List.mem_cons_of_mem _ hq)
    split
    · exact Mem.writeLine_wf m _ _ (by assumption) h
    · exact Mem.writePart_wf m _ _ _ (hf p (List.mem_cons_self ..)) h

theorem Mem.drainAll_wf (m : Mem) (es : List MergeEntry) : (∀ e ∈ es, ∀ b ∈ e.bytes, b.1 < 64) → m.wf = true →
    (es.foldl Mem.drainEntry m).wf = true := by
  induction es generalizing m with
  | nil => intro _ h; exact h
  | cons e es ih =>
    intro he h
    exact ih _ (fun x hx => he x (List.mem_cons_of_mem _ hx)) (Mem.drainEntry_wf m e (he e (List.mem_cons_self ..)) h)

/-- Every DRAM operation keeps the canonical form. -/
theorem Mem.apply_wf (m : Mem) (op : MemOp) (h : m.wf = true) : (m.apply op).wf = true := by
  have hw := (Mem.wf_iff m).mp h
  obtain ⟨hc, hv, hp, hin, hm⟩ := hw
  cases op with
  | write a bs => exact Mem.write_wf m a bs h
  | drain line =>
    simp only [Mem.apply]
    split
    · rename_i e he
      exact Mem.drainEntry_wf m e (hm e (List.mem_of_find?_eq_some he)) h
    · exact h
  | drainAll => exact Mem.drainAll_wf m _ hm h
  | poison line =>
    simp only [Mem.apply, Mem.poisonLine, Mem.wf_iff]
    exact ⟨hc, insertAsc_pairwise _ _ hv, insertAsc_pairwise _ _ hp, fun c hcm => (mem_insertAsc _ _ _).mpr (.inr (hin c hcm)),
      hm⟩
  | fresh first count =>
    simp only [Mem.apply, Mem.fresh, Mem.wf_iff]
    refine ⟨⟨hc.1.filter _, fun c hcm => hc.2 c (List.mem_filter.mp hcm).1⟩, hv.filter _, hp.filter _, ?_,
      fun e he => hm e (List.mem_filter.mp he).1⟩
    intro c hcm
    obtain ⟨h1, h2⟩ := List.mem_filter.mp hcm
    exact List.mem_filter.mpr ⟨hin c h1, h2⟩
  | loseUnit unit =>
    simp only [Mem.apply, Mem.wf_iff]
    exact ⟨hc, hv, hp, hin, fun e he => hm e (List.mem_filter.mp he).1⟩
  | setMap units top =>
    simp only [Mem.apply, Mem.wf_iff]
    exact ⟨hc, hv, hp, hin, hm⟩
  | wipe => rfl

/-- So do operations in order. -/
theorem Mem.applyAll_wf (ops : List MemOp) : ∀ (m : Mem), m.wf = true → (m.applyAll ops).wf = true := by
  induction ops with
  | nil => intro m h; exact h
  | cons op ops ih => intro m h; exact ih _ (Mem.apply_wf m op h)

/-- Memory at reset has the canonical form. -/
theorem Mem.reset_wf : Mem.reset.wf = true := rfl

end Sys2Proof.Machine
end

