-- ==== Sys2Proof/Laws/State.lean ====
section
/-! SUPPORT. One lemma for each field of State after each named update, so that no proof unfolds a record update. -/

namespace Sys2Proof.Machine

/-! ### State.setEngine -/

@[simp] theorem State.setEngine_board (s : State) (e : Nat) (f : Engine → Engine) : (s.setEngine e f).board = s.board := rfl
@[simp] theorem State.setEngine_nv (s : State) (e : Nat) (f : Engine → Engine) : (s.setEngine e f).nv = s.nv := rfl
@[simp] theorem State.setEngine_boot (s : State) (e : Nat) (f : Engine → Engine) : (s.setEngine e f).boot = s.boot := rfl
@[simp] theorem State.setEngine_fw (s : State) (e : Nat) (f : Engine → Engine) : (s.setEngine e f).fw = s.fw := rfl
@[simp] theorem State.setEngine_rng (s : State) (e : Nat) (f : Engine → Engine) : (s.setEngine e f).rng = s.rng := rfl
@[simp] theorem State.setEngine_dbg (s : State) (e : Nat) (f : Engine → Engine) : (s.setEngine e f).dbg = s.dbg := rfl
@[simp] theorem State.setEngine_sb (s : State) (e : Nat) (f : Engine → Engine) : (s.setEngine e f).sb = s.sb := rfl
@[simp] theorem State.setEngine_host (s : State) (e : Nat) (f : Engine → Engine) : (s.setEngine e f).host = s.host := rfl
@[simp] theorem State.setEngine_cnt (s : State) (e : Nat) (f : Engine → Engine) : (s.setEngine e f).cnt = s.cnt := rfl
@[simp] theorem State.setEngine_q (s : State) (e : Nat) (f : Engine → Engine) : (s.setEngine e f).q = s.q := rfl
@[simp] theorem State.setEngine_grid (s : State) (e : Nat) (f : Engine → Engine) : (s.setEngine e f).grid = { s.grid with engines := modifyAt f e s.grid.engines } := rfl
@[simp] theorem State.setEngine_nl (s : State) (e : Nat) (f : Engine → Engine) : (s.setEngine e f).nl = s.nl := rfl
@[simp] theorem State.setEngine_mem (s : State) (e : Nat) (f : Engine → Engine) : (s.setEngine e f).mem = s.mem := rfl
@[simp] theorem State.setEngine_dram (s : State) (e : Nat) (f : Engine → Engine) : (s.setEngine e f).dram = s.dram := rfl
@[simp] theorem State.setEngine_pow (s : State) (e : Nat) (f : Engine → Engine) : (s.setEngine e f).pow = s.pow := rfl
@[simp] theorem State.setEngine_log (s : State) (e : Nat) (f : Engine → Engine) : (s.setEngine e f).log = s.log := rfl
@[simp] theorem State.setEngine_ops (s : State) (e : Nat) (f : Engine → Engine) : (s.setEngine e f).ops = s.ops := rfl
@[simp] theorem State.setEngine_out (s : State) (e : Nat) (f : Engine → Engine) : (s.setEngine e f).out = s.out := rfl
@[simp] theorem State.setEngine_free (s : State) (e : Nat) (f : Engine → Engine) : (s.setEngine e f).free = s.free := rfl
@[simp] theorem State.setEngine_pending (s : State) (e : Nat) (f : Engine → Engine) : (s.setEngine e f).pending = s.pending := rfl

/-! ### State.setRun -/

@[simp] theorem State.setRun_board (s : State) (r : TaskRef) (f : Run → Run) : (s.setRun r f).board = s.board := rfl
@[simp] theorem State.setRun_nv (s : State) (r : TaskRef) (f : Run → Run) : (s.setRun r f).nv = s.nv := rfl
@[simp] theorem State.setRun_boot (s : State) (r : TaskRef) (f : Run → Run) : (s.setRun r f).boot = s.boot := rfl
@[simp] theorem State.setRun_fw (s : State) (r : TaskRef) (f : Run → Run) : (s.setRun r f).fw = s.fw := rfl
@[simp] theorem State.setRun_rng (s : State) (r : TaskRef) (f : Run → Run) : (s.setRun r f).rng = s.rng := rfl
@[simp] theorem State.setRun_dbg (s : State) (r : TaskRef) (f : Run → Run) : (s.setRun r f).dbg = s.dbg := rfl
@[simp] theorem State.setRun_sb (s : State) (r : TaskRef) (f : Run → Run) : (s.setRun r f).sb = s.sb := rfl
@[simp] theorem State.setRun_host (s : State) (r : TaskRef) (f : Run → Run) : (s.setRun r f).host = s.host := rfl
@[simp] theorem State.setRun_cnt (s : State) (r : TaskRef) (f : Run → Run) : (s.setRun r f).cnt = s.cnt := rfl
@[simp] theorem State.setRun_q (s : State) (r : TaskRef) (f : Run → Run) : (s.setRun r f).q = s.q := rfl
@[simp] theorem State.setRun_grid (s : State) (r : TaskRef) (f : Run → Run) : (s.setRun r f).grid = { s.grid with runs := modifyIf (fun x => x.ref == r) f s.grid.runs } := rfl
@[simp] theorem State.setRun_nl (s : State) (r : TaskRef) (f : Run → Run) : (s.setRun r f).nl = s.nl := rfl
@[simp] theorem State.setRun_mem (s : State) (r : TaskRef) (f : Run → Run) : (s.setRun r f).mem = s.mem := rfl
@[simp] theorem State.setRun_dram (s : State) (r : TaskRef) (f : Run → Run) : (s.setRun r f).dram = s.dram := rfl
@[simp] theorem State.setRun_pow (s : State) (r : TaskRef) (f : Run → Run) : (s.setRun r f).pow = s.pow := rfl
@[simp] theorem State.setRun_log (s : State) (r : TaskRef) (f : Run → Run) : (s.setRun r f).log = s.log := rfl
@[simp] theorem State.setRun_ops (s : State) (r : TaskRef) (f : Run → Run) : (s.setRun r f).ops = s.ops := rfl
@[simp] theorem State.setRun_out (s : State) (r : TaskRef) (f : Run → Run) : (s.setRun r f).out = s.out := rfl
@[simp] theorem State.setRun_free (s : State) (r : TaskRef) (f : Run → Run) : (s.setRun r f).free = s.free := rfl
@[simp] theorem State.setRun_pending (s : State) (r : TaskRef) (f : Run → Run) : (s.setRun r f).pending = s.pending := rfl

/-! ### State.setTask -/

@[simp] theorem State.setTask_board (s : State) (r : TaskRef) (f : Task → Task) : (s.setTask r f).board = s.board := rfl
@[simp] theorem State.setTask_nv (s : State) (r : TaskRef) (f : Task → Task) : (s.setTask r f).nv = s.nv := rfl
@[simp] theorem State.setTask_boot (s : State) (r : TaskRef) (f : Task → Task) : (s.setTask r f).boot = s.boot := rfl
@[simp] theorem State.setTask_fw (s : State) (r : TaskRef) (f : Task → Task) : (s.setTask r f).fw = s.fw := rfl
@[simp] theorem State.setTask_rng (s : State) (r : TaskRef) (f : Task → Task) : (s.setTask r f).rng = s.rng := rfl
@[simp] theorem State.setTask_dbg (s : State) (r : TaskRef) (f : Task → Task) : (s.setTask r f).dbg = s.dbg := rfl
@[simp] theorem State.setTask_sb (s : State) (r : TaskRef) (f : Task → Task) : (s.setTask r f).sb = s.sb := rfl
@[simp] theorem State.setTask_host (s : State) (r : TaskRef) (f : Task → Task) : (s.setTask r f).host = s.host := rfl
@[simp] theorem State.setTask_cnt (s : State) (r : TaskRef) (f : Task → Task) : (s.setTask r f).cnt = s.cnt := rfl
@[simp] theorem State.setTask_q (s : State) (r : TaskRef) (f : Task → Task) : (s.setTask r f).q = { s.q with tasks := modifyIf (fun t => t.ref == r) f s.q.tasks } := rfl
@[simp] theorem State.setTask_grid (s : State) (r : TaskRef) (f : Task → Task) : (s.setTask r f).grid = s.grid := rfl
@[simp] theorem State.setTask_nl (s : State) (r : TaskRef) (f : Task → Task) : (s.setTask r f).nl = s.nl := rfl
@[simp] theorem State.setTask_mem (s : State) (r : TaskRef) (f : Task → Task) : (s.setTask r f).mem = s.mem := rfl
@[simp] theorem State.setTask_dram (s : State) (r : TaskRef) (f : Task → Task) : (s.setTask r f).dram = s.dram := rfl
@[simp] theorem State.setTask_pow (s : State) (r : TaskRef) (f : Task → Task) : (s.setTask r f).pow = s.pow := rfl
@[simp] theorem State.setTask_log (s : State) (r : TaskRef) (f : Task → Task) : (s.setTask r f).log = s.log := rfl
@[simp] theorem State.setTask_ops (s : State) (r : TaskRef) (f : Task → Task) : (s.setTask r f).ops = s.ops := rfl
@[simp] theorem State.setTask_out (s : State) (r : TaskRef) (f : Task → Task) : (s.setTask r f).out = s.out := rfl
@[simp] theorem State.setTask_free (s : State) (r : TaskRef) (f : Task → Task) : (s.setTask r f).free = s.free := rfl
@[simp] theorem State.setTask_pending (s : State) (r : TaskRef) (f : Task → Task) : (s.setTask r f).pending = s.pending := rfl

/-! ### State.setQueue -/

@[simp] theorem State.setQueue_board (s : State) (n : Nat) (f : Queue → Queue) : (s.setQueue n f).board = s.board := rfl
@[simp] theorem State.setQueue_nv (s : State) (n : Nat) (f : Queue → Queue) : (s.setQueue n f).nv = s.nv := rfl
@[simp] theorem State.setQueue_boot (s : State) (n : Nat) (f : Queue → Queue) : (s.setQueue n f).boot = s.boot := rfl
@[simp] theorem State.setQueue_fw (s : State) (n : Nat) (f : Queue → Queue) : (s.setQueue n f).fw = s.fw := rfl
@[simp] theorem State.setQueue_rng (s : State) (n : Nat) (f : Queue → Queue) : (s.setQueue n f).rng = s.rng := rfl
@[simp] theorem State.setQueue_dbg (s : State) (n : Nat) (f : Queue → Queue) : (s.setQueue n f).dbg = s.dbg := rfl
@[simp] theorem State.setQueue_sb (s : State) (n : Nat) (f : Queue → Queue) : (s.setQueue n f).sb = s.sb := rfl
@[simp] theorem State.setQueue_host (s : State) (n : Nat) (f : Queue → Queue) : (s.setQueue n f).host = s.host := rfl
@[simp] theorem State.setQueue_cnt (s : State) (n : Nat) (f : Queue → Queue) : (s.setQueue n f).cnt = s.cnt := rfl
@[simp] theorem State.setQueue_q (s : State) (n : Nat) (f : Queue → Queue) : (s.setQueue n f).q = { s.q with queues := modifyIf (fun q => q.num == n) f s.q.queues } := rfl
@[simp] theorem State.setQueue_grid (s : State) (n : Nat) (f : Queue → Queue) : (s.setQueue n f).grid = s.grid := rfl
@[simp] theorem State.setQueue_nl (s : State) (n : Nat) (f : Queue → Queue) : (s.setQueue n f).nl = s.nl := rfl
@[simp] theorem State.setQueue_mem (s : State) (n : Nat) (f : Queue → Queue) : (s.setQueue n f).mem = s.mem := rfl
@[simp] theorem State.setQueue_dram (s : State) (n : Nat) (f : Queue → Queue) : (s.setQueue n f).dram = s.dram := rfl
@[simp] theorem State.setQueue_pow (s : State) (n : Nat) (f : Queue → Queue) : (s.setQueue n f).pow = s.pow := rfl
@[simp] theorem State.setQueue_log (s : State) (n : Nat) (f : Queue → Queue) : (s.setQueue n f).log = s.log := rfl
@[simp] theorem State.setQueue_ops (s : State) (n : Nat) (f : Queue → Queue) : (s.setQueue n f).ops = s.ops := rfl
@[simp] theorem State.setQueue_out (s : State) (n : Nat) (f : Queue → Queue) : (s.setQueue n f).out = s.out := rfl
@[simp] theorem State.setQueue_free (s : State) (n : Nat) (f : Queue → Queue) : (s.setQueue n f).free = s.free := rfl
@[simp] theorem State.setQueue_pending (s : State) (n : Nat) (f : Queue → Queue) : (s.setQueue n f).pending = s.pending := rfl

/-! ### State.setFence -/

@[simp] theorem State.setFence_board (s : State) (n : Nat) (f : Fence → Fence) : (s.setFence n f).board = s.board := rfl
@[simp] theorem State.setFence_nv (s : State) (n : Nat) (f : Fence → Fence) : (s.setFence n f).nv = s.nv := rfl
@[simp] theorem State.setFence_boot (s : State) (n : Nat) (f : Fence → Fence) : (s.setFence n f).boot = s.boot := rfl
@[simp] theorem State.setFence_fw (s : State) (n : Nat) (f : Fence → Fence) : (s.setFence n f).fw = s.fw := rfl
@[simp] theorem State.setFence_rng (s : State) (n : Nat) (f : Fence → Fence) : (s.setFence n f).rng = s.rng := rfl
@[simp] theorem State.setFence_dbg (s : State) (n : Nat) (f : Fence → Fence) : (s.setFence n f).dbg = s.dbg := rfl
@[simp] theorem State.setFence_sb (s : State) (n : Nat) (f : Fence → Fence) : (s.setFence n f).sb = s.sb := rfl
@[simp] theorem State.setFence_host (s : State) (n : Nat) (f : Fence → Fence) : (s.setFence n f).host = s.host := rfl
@[simp] theorem State.setFence_cnt (s : State) (n : Nat) (f : Fence → Fence) : (s.setFence n f).cnt = s.cnt := rfl
@[simp] theorem State.setFence_q (s : State) (n : Nat) (f : Fence → Fence) : (s.setFence n f).q = { s.q with fences := modifyIf (fun x => x.num == n) f s.q.fences } := rfl
@[simp] theorem State.setFence_grid (s : State) (n : Nat) (f : Fence → Fence) : (s.setFence n f).grid = s.grid := rfl
@[simp] theorem State.setFence_nl (s : State) (n : Nat) (f : Fence → Fence) : (s.setFence n f).nl = s.nl := rfl
@[simp] theorem State.setFence_mem (s : State) (n : Nat) (f : Fence → Fence) : (s.setFence n f).mem = s.mem := rfl
@[simp] theorem State.setFence_dram (s : State) (n : Nat) (f : Fence → Fence) : (s.setFence n f).dram = s.dram := rfl
@[simp] theorem State.setFence_pow (s : State) (n : Nat) (f : Fence → Fence) : (s.setFence n f).pow = s.pow := rfl
@[simp] theorem State.setFence_log (s : State) (n : Nat) (f : Fence → Fence) : (s.setFence n f).log = s.log := rfl
@[simp] theorem State.setFence_ops (s : State) (n : Nat) (f : Fence → Fence) : (s.setFence n f).ops = s.ops := rfl
@[simp] theorem State.setFence_out (s : State) (n : Nat) (f : Fence → Fence) : (s.setFence n f).out = s.out := rfl
@[simp] theorem State.setFence_free (s : State) (n : Nat) (f : Fence → Fence) : (s.setFence n f).free = s.free := rfl
@[simp] theorem State.setFence_pending (s : State) (n : Nat) (f : Fence → Fence) : (s.setFence n f).pending = s.pending := rfl

/-! ### State.setCopyEngine -/

@[simp] theorem State.setCopyEngine_board (s : State) (c : Nat) (f : CopyEngine → CopyEngine) : (s.setCopyEngine c f).board = s.board := rfl
@[simp] theorem State.setCopyEngine_nv (s : State) (c : Nat) (f : CopyEngine → CopyEngine) : (s.setCopyEngine c f).nv = s.nv := rfl
@[simp] theorem State.setCopyEngine_boot (s : State) (c : Nat) (f : CopyEngine → CopyEngine) : (s.setCopyEngine c f).boot = s.boot := rfl
@[simp] theorem State.setCopyEngine_fw (s : State) (c : Nat) (f : CopyEngine → CopyEngine) : (s.setCopyEngine c f).fw = s.fw := rfl
@[simp] theorem State.setCopyEngine_rng (s : State) (c : Nat) (f : CopyEngine → CopyEngine) : (s.setCopyEngine c f).rng = s.rng := rfl
@[simp] theorem State.setCopyEngine_dbg (s : State) (c : Nat) (f : CopyEngine → CopyEngine) : (s.setCopyEngine c f).dbg = s.dbg := rfl
@[simp] theorem State.setCopyEngine_sb (s : State) (c : Nat) (f : CopyEngine → CopyEngine) : (s.setCopyEngine c f).sb = s.sb := rfl
@[simp] theorem State.setCopyEngine_host (s : State) (c : Nat) (f : CopyEngine → CopyEngine) : (s.setCopyEngine c f).host = s.host := rfl
@[simp] theorem State.setCopyEngine_cnt (s : State) (c : Nat) (f : CopyEngine → CopyEngine) : (s.setCopyEngine c f).cnt = s.cnt := rfl
@[simp] theorem State.setCopyEngine_q (s : State) (c : Nat) (f : CopyEngine → CopyEngine) : (s.setCopyEngine c f).q = { s.q with engines := modifyAt f c s.q.engines } := rfl
@[simp] theorem State.setCopyEngine_grid (s : State) (c : Nat) (f : CopyEngine → CopyEngine) : (s.setCopyEngine c f).grid = s.grid := rfl
@[simp] theorem State.setCopyEngine_nl (s : State) (c : Nat) (f : CopyEngine → CopyEngine) : (s.setCopyEngine c f).nl = s.nl := rfl
@[simp] theorem State.setCopyEngine_mem (s : State) (c : Nat) (f : CopyEngine → CopyEngine) : (s.setCopyEngine c f).mem = s.mem := rfl
@[simp] theorem State.setCopyEngine_dram (s : State) (c : Nat) (f : CopyEngine → CopyEngine) : (s.setCopyEngine c f).dram = s.dram := rfl
@[simp] theorem State.setCopyEngine_pow (s : State) (c : Nat) (f : CopyEngine → CopyEngine) : (s.setCopyEngine c f).pow = s.pow := rfl
@[simp] theorem State.setCopyEngine_log (s : State) (c : Nat) (f : CopyEngine → CopyEngine) : (s.setCopyEngine c f).log = s.log := rfl
@[simp] theorem State.setCopyEngine_ops (s : State) (c : Nat) (f : CopyEngine → CopyEngine) : (s.setCopyEngine c f).ops = s.ops := rfl
@[simp] theorem State.setCopyEngine_out (s : State) (c : Nat) (f : CopyEngine → CopyEngine) : (s.setCopyEngine c f).out = s.out := rfl
@[simp] theorem State.setCopyEngine_free (s : State) (c : Nat) (f : CopyEngine → CopyEngine) : (s.setCopyEngine c f).free = s.free := rfl
@[simp] theorem State.setCopyEngine_pending (s : State) (c : Nat) (f : CopyEngine → CopyEngine) : (s.setCopyEngine c f).pending = s.pending := rfl

/-! ### State.setGuard -/

@[simp] theorem State.setGuard_board (s : State) (d : Nat) (f : Guard → Guard) : (s.setGuard d f).board = s.board := rfl
@[simp] theorem State.setGuard_nv (s : State) (d : Nat) (f : Guard → Guard) : (s.setGuard d f).nv = s.nv := rfl
@[simp] theorem State.setGuard_boot (s : State) (d : Nat) (f : Guard → Guard) : (s.setGuard d f).boot = s.boot := rfl
@[simp] theorem State.setGuard_fw (s : State) (d : Nat) (f : Guard → Guard) : (s.setGuard d f).fw = s.fw := rfl
@[simp] theorem State.setGuard_rng (s : State) (d : Nat) (f : Guard → Guard) : (s.setGuard d f).rng = s.rng := rfl
@[simp] theorem State.setGuard_dbg (s : State) (d : Nat) (f : Guard → Guard) : (s.setGuard d f).dbg = s.dbg := rfl
@[simp] theorem State.setGuard_sb (s : State) (d : Nat) (f : Guard → Guard) : (s.setGuard d f).sb = s.sb := rfl
@[simp] theorem State.setGuard_host (s : State) (d : Nat) (f : Guard → Guard) : (s.setGuard d f).host = s.host := rfl
@[simp] theorem State.setGuard_cnt (s : State) (d : Nat) (f : Guard → Guard) : (s.setGuard d f).cnt = s.cnt := rfl
@[simp] theorem State.setGuard_q (s : State) (d : Nat) (f : Guard → Guard) : (s.setGuard d f).q = s.q := rfl
@[simp] theorem State.setGuard_grid (s : State) (d : Nat) (f : Guard → Guard) : (s.setGuard d f).grid = s.grid := rfl
@[simp] theorem State.setGuard_nl (s : State) (d : Nat) (f : Guard → Guard) : (s.setGuard d f).nl = s.nl := rfl
@[simp] theorem State.setGuard_mem (s : State) (d : Nat) (f : Guard → Guard) : (s.setGuard d f).mem = s.mem := rfl
@[simp] theorem State.setGuard_dram (s : State) (d : Nat) (f : Guard → Guard) : (s.setGuard d f).dram = s.dram := rfl
@[simp] theorem State.setGuard_pow (s : State) (d : Nat) (f : Guard → Guard) : (s.setGuard d f).pow = { s.pow with guards := modifyAt f d s.pow.guards } := rfl
@[simp] theorem State.setGuard_log (s : State) (d : Nat) (f : Guard → Guard) : (s.setGuard d f).log = s.log := rfl
@[simp] theorem State.setGuard_ops (s : State) (d : Nat) (f : Guard → Guard) : (s.setGuard d f).ops = s.ops := rfl
@[simp] theorem State.setGuard_out (s : State) (d : Nat) (f : Guard → Guard) : (s.setGuard d f).out = s.out := rfl
@[simp] theorem State.setGuard_free (s : State) (d : Nat) (f : Guard → Guard) : (s.setGuard d f).free = s.free := rfl
@[simp] theorem State.setGuard_pending (s : State) (d : Nat) (f : Guard → Guard) : (s.setGuard d f).pending = s.pending := rfl

/-! ### State.setDomain -/

@[simp] theorem State.setDomain_board (s : State) (d : Nat) (f : Domain → Domain) : (s.setDomain d f).board = s.board := rfl
@[simp] theorem State.setDomain_nv (s : State) (d : Nat) (f : Domain → Domain) : (s.setDomain d f).nv = s.nv := rfl
@[simp] theorem State.setDomain_boot (s : State) (d : Nat) (f : Domain → Domain) : (s.setDomain d f).boot = s.boot := rfl
@[simp] theorem State.setDomain_fw (s : State) (d : Nat) (f : Domain → Domain) : (s.setDomain d f).fw = s.fw := rfl
@[simp] theorem State.setDomain_rng (s : State) (d : Nat) (f : Domain → Domain) : (s.setDomain d f).rng = s.rng := rfl
@[simp] theorem State.setDomain_dbg (s : State) (d : Nat) (f : Domain → Domain) : (s.setDomain d f).dbg = s.dbg := rfl
@[simp] theorem State.setDomain_sb (s : State) (d : Nat) (f : Domain → Domain) : (s.setDomain d f).sb = s.sb := rfl
@[simp] theorem State.setDomain_host (s : State) (d : Nat) (f : Domain → Domain) : (s.setDomain d f).host = s.host := rfl
@[simp] theorem State.setDomain_cnt (s : State) (d : Nat) (f : Domain → Domain) : (s.setDomain d f).cnt = s.cnt := rfl
@[simp] theorem State.setDomain_q (s : State) (d : Nat) (f : Domain → Domain) : (s.setDomain d f).q = s.q := rfl
@[simp] theorem State.setDomain_grid (s : State) (d : Nat) (f : Domain → Domain) : (s.setDomain d f).grid = s.grid := rfl
@[simp] theorem State.setDomain_nl (s : State) (d : Nat) (f : Domain → Domain) : (s.setDomain d f).nl = s.nl := rfl
@[simp] theorem State.setDomain_mem (s : State) (d : Nat) (f : Domain → Domain) : (s.setDomain d f).mem = s.mem := rfl
@[simp] theorem State.setDomain_dram (s : State) (d : Nat) (f : Domain → Domain) : (s.setDomain d f).dram = s.dram := rfl
@[simp] theorem State.setDomain_pow (s : State) (d : Nat) (f : Domain → Domain) : (s.setDomain d f).pow = { s.pow with domains := modifyAt f d s.pow.domains } := rfl
@[simp] theorem State.setDomain_log (s : State) (d : Nat) (f : Domain → Domain) : (s.setDomain d f).log = s.log := rfl
@[simp] theorem State.setDomain_ops (s : State) (d : Nat) (f : Domain → Domain) : (s.setDomain d f).ops = s.ops := rfl
@[simp] theorem State.setDomain_out (s : State) (d : Nat) (f : Domain → Domain) : (s.setDomain d f).out = s.out := rfl
@[simp] theorem State.setDomain_free (s : State) (d : Nat) (f : Domain → Domain) : (s.setDomain d f).free = s.free := rfl
@[simp] theorem State.setDomain_pending (s : State) (d : Nat) (f : Domain → Domain) : (s.setDomain d f).pending = s.pending := rfl

/-! ### State.setChannel -/

@[simp] theorem State.setChannel_board (s : State) (c : Nat) (f : Channel → Channel) : (s.setChannel c f).board = s.board := rfl
@[simp] theorem State.setChannel_nv (s : State) (c : Nat) (f : Channel → Channel) : (s.setChannel c f).nv = s.nv := rfl
@[simp] theorem State.setChannel_boot (s : State) (c : Nat) (f : Channel → Channel) : (s.setChannel c f).boot = s.boot := rfl
@[simp] theorem State.setChannel_fw (s : State) (c : Nat) (f : Channel → Channel) : (s.setChannel c f).fw = s.fw := rfl
@[simp] theorem State.setChannel_rng (s : State) (c : Nat) (f : Channel → Channel) : (s.setChannel c f).rng = s.rng := rfl
@[simp] theorem State.setChannel_dbg (s : State) (c : Nat) (f : Channel → Channel) : (s.setChannel c f).dbg = s.dbg := rfl
@[simp] theorem State.setChannel_sb (s : State) (c : Nat) (f : Channel → Channel) : (s.setChannel c f).sb = s.sb := rfl
@[simp] theorem State.setChannel_host (s : State) (c : Nat) (f : Channel → Channel) : (s.setChannel c f).host = s.host := rfl
@[simp] theorem State.setChannel_cnt (s : State) (c : Nat) (f : Channel → Channel) : (s.setChannel c f).cnt = s.cnt := rfl
@[simp] theorem State.setChannel_q (s : State) (c : Nat) (f : Channel → Channel) : (s.setChannel c f).q = s.q := rfl
@[simp] theorem State.setChannel_grid (s : State) (c : Nat) (f : Channel → Channel) : (s.setChannel c f).grid = s.grid := rfl
@[simp] theorem State.setChannel_nl (s : State) (c : Nat) (f : Channel → Channel) : (s.setChannel c f).nl = s.nl := rfl
@[simp] theorem State.setChannel_mem (s : State) (c : Nat) (f : Channel → Channel) : (s.setChannel c f).mem = s.mem := rfl
@[simp] theorem State.setChannel_dram (s : State) (c : Nat) (f : Channel → Channel) : (s.setChannel c f).dram = { s.dram with channels := modifyAt f c s.dram.channels } := rfl
@[simp] theorem State.setChannel_pow (s : State) (c : Nat) (f : Channel → Channel) : (s.setChannel c f).pow = s.pow := rfl
@[simp] theorem State.setChannel_log (s : State) (c : Nat) (f : Channel → Channel) : (s.setChannel c f).log = s.log := rfl
@[simp] theorem State.setChannel_ops (s : State) (c : Nat) (f : Channel → Channel) : (s.setChannel c f).ops = s.ops := rfl
@[simp] theorem State.setChannel_out (s : State) (c : Nat) (f : Channel → Channel) : (s.setChannel c f).out = s.out := rfl
@[simp] theorem State.setChannel_free (s : State) (c : Nat) (f : Channel → Channel) : (s.setChannel c f).free = s.free := rfl
@[simp] theorem State.setChannel_pending (s : State) (c : Nat) (f : Channel → Channel) : (s.setChannel c f).pending = s.pending := rfl

/-! ### State.setPort -/

@[simp] theorem State.setPort_board (s : State) (i : Nat) (f : Port → Port) : (s.setPort i f).board = s.board := rfl
@[simp] theorem State.setPort_nv (s : State) (i : Nat) (f : Port → Port) : (s.setPort i f).nv = s.nv := rfl
@[simp] theorem State.setPort_boot (s : State) (i : Nat) (f : Port → Port) : (s.setPort i f).boot = s.boot := rfl
@[simp] theorem State.setPort_fw (s : State) (i : Nat) (f : Port → Port) : (s.setPort i f).fw = s.fw := rfl
@[simp] theorem State.setPort_rng (s : State) (i : Nat) (f : Port → Port) : (s.setPort i f).rng = s.rng := rfl
@[simp] theorem State.setPort_dbg (s : State) (i : Nat) (f : Port → Port) : (s.setPort i f).dbg = s.dbg := rfl
@[simp] theorem State.setPort_sb (s : State) (i : Nat) (f : Port → Port) : (s.setPort i f).sb = s.sb := rfl
@[simp] theorem State.setPort_host (s : State) (i : Nat) (f : Port → Port) : (s.setPort i f).host = s.host := rfl
@[simp] theorem State.setPort_cnt (s : State) (i : Nat) (f : Port → Port) : (s.setPort i f).cnt = s.cnt := rfl
@[simp] theorem State.setPort_q (s : State) (i : Nat) (f : Port → Port) : (s.setPort i f).q = s.q := rfl
@[simp] theorem State.setPort_grid (s : State) (i : Nat) (f : Port → Port) : (s.setPort i f).grid = s.grid := rfl
@[simp] theorem State.setPort_nl (s : State) (i : Nat) (f : Port → Port) : (s.setPort i f).nl = { s.nl with ports := modifyAt f i s.nl.ports } := rfl
@[simp] theorem State.setPort_mem (s : State) (i : Nat) (f : Port → Port) : (s.setPort i f).mem = s.mem := rfl
@[simp] theorem State.setPort_dram (s : State) (i : Nat) (f : Port → Port) : (s.setPort i f).dram = s.dram := rfl
@[simp] theorem State.setPort_pow (s : State) (i : Nat) (f : Port → Port) : (s.setPort i f).pow = s.pow := rfl
@[simp] theorem State.setPort_log (s : State) (i : Nat) (f : Port → Port) : (s.setPort i f).log = s.log := rfl
@[simp] theorem State.setPort_ops (s : State) (i : Nat) (f : Port → Port) : (s.setPort i f).ops = s.ops := rfl
@[simp] theorem State.setPort_out (s : State) (i : Nat) (f : Port → Port) : (s.setPort i f).out = s.out := rfl
@[simp] theorem State.setPort_free (s : State) (i : Nat) (f : Port → Port) : (s.setPort i f).free = s.free := rfl
@[simp] theorem State.setPort_pending (s : State) (i : Nat) (f : Port → Port) : (s.setPort i f).pending = s.pending := rfl

/-! ### State.setFault -/

@[simp] theorem State.setFault_board (s : State) (x : Nat × Nat × Nat) : (s.setFault x).board = s.board := rfl
@[simp] theorem State.setFault_nv (s : State) (x : Nat × Nat × Nat) : (s.setFault x).nv = s.nv := rfl
@[simp] theorem State.setFault_boot (s : State) (x : Nat × Nat × Nat) : (s.setFault x).boot = s.boot := rfl
@[simp] theorem State.setFault_fw (s : State) (x : Nat × Nat × Nat) : (s.setFault x).fw = s.fw := rfl
@[simp] theorem State.setFault_rng (s : State) (x : Nat × Nat × Nat) : (s.setFault x).rng = s.rng := rfl
@[simp] theorem State.setFault_dbg (s : State) (x : Nat × Nat × Nat) : (s.setFault x).dbg = s.dbg := rfl
@[simp] theorem State.setFault_sb (s : State) (x : Nat × Nat × Nat) : (s.setFault x).sb = s.sb := rfl
@[simp] theorem State.setFault_host (s : State) (x : Nat × Nat × Nat) : (s.setFault x).host = { s.host with refused := true, fault := x.1, faultClass := x.2.1, faultIndex := x.2.2 } := rfl
@[simp] theorem State.setFault_cnt (s : State) (x : Nat × Nat × Nat) : (s.setFault x).cnt = s.cnt := rfl
@[simp] theorem State.setFault_q (s : State) (x : Nat × Nat × Nat) : (s.setFault x).q = s.q := rfl
@[simp] theorem State.setFault_grid (s : State) (x : Nat × Nat × Nat) : (s.setFault x).grid = s.grid := rfl
@[simp] theorem State.setFault_nl (s : State) (x : Nat × Nat × Nat) : (s.setFault x).nl = s.nl := rfl
@[simp] theorem State.setFault_mem (s : State) (x : Nat × Nat × Nat) : (s.setFault x).mem = s.mem := rfl
@[simp] theorem State.setFault_dram (s : State) (x : Nat × Nat × Nat) : (s.setFault x).dram = s.dram := rfl
@[simp] theorem State.setFault_pow (s : State) (x : Nat × Nat × Nat) : (s.setFault x).pow = s.pow := rfl
@[simp] theorem State.setFault_log (s : State) (x : Nat × Nat × Nat) : (s.setFault x).log = s.log := rfl
@[simp] theorem State.setFault_ops (s : State) (x : Nat × Nat × Nat) : (s.setFault x).ops = s.ops := rfl
@[simp] theorem State.setFault_out (s : State) (x : Nat × Nat × Nat) : (s.setFault x).out = s.out := rfl
@[simp] theorem State.setFault_free (s : State) (x : Nat × Nat × Nat) : (s.setFault x).free = s.free := rfl
@[simp] theorem State.setFault_pending (s : State) (x : Nat × Nat × Nat) : (s.setFault x).pending = s.pending := rfl

/-! ### State.send -/

@[simp] theorem State.send_board (s : State) (o : Out) : (s.send o).board = s.board := rfl
@[simp] theorem State.send_nv (s : State) (o : Out) : (s.send o).nv = s.nv := rfl
@[simp] theorem State.send_boot (s : State) (o : Out) : (s.send o).boot = s.boot := rfl
@[simp] theorem State.send_fw (s : State) (o : Out) : (s.send o).fw = s.fw := rfl
@[simp] theorem State.send_rng (s : State) (o : Out) : (s.send o).rng = s.rng := rfl
@[simp] theorem State.send_dbg (s : State) (o : Out) : (s.send o).dbg = s.dbg := rfl
@[simp] theorem State.send_sb (s : State) (o : Out) : (s.send o).sb = s.sb := rfl
@[simp] theorem State.send_host (s : State) (o : Out) : (s.send o).host = s.host := rfl
@[simp] theorem State.send_cnt (s : State) (o : Out) : (s.send o).cnt = s.cnt := rfl
@[simp] theorem State.send_q (s : State) (o : Out) : (s.send o).q = s.q := rfl
@[simp] theorem State.send_grid (s : State) (o : Out) : (s.send o).grid = s.grid := rfl
@[simp] theorem State.send_nl (s : State) (o : Out) : (s.send o).nl = s.nl := rfl
@[simp] theorem State.send_mem (s : State) (o : Out) : (s.send o).mem = s.mem := rfl
@[simp] theorem State.send_dram (s : State) (o : Out) : (s.send o).dram = s.dram := rfl
@[simp] theorem State.send_pow (s : State) (o : Out) : (s.send o).pow = s.pow := rfl
@[simp] theorem State.send_log (s : State) (o : Out) : (s.send o).log = s.log := rfl
@[simp] theorem State.send_ops (s : State) (o : Out) : (s.send o).ops = s.ops := rfl
@[simp] theorem State.send_out (s : State) (o : Out) : (s.send o).out = s.out ++ [o] := rfl
@[simp] theorem State.send_free (s : State) (o : Out) : (s.send o).free = s.free := rfl
@[simp] theorem State.send_pending (s : State) (o : Out) : (s.send o).pending = s.pending := rfl

/-! ### State.store -/

@[simp] theorem State.store_board (s : State) (op : MemOp) : (s.store op).board = s.board := rfl
@[simp] theorem State.store_nv (s : State) (op : MemOp) : (s.store op).nv = s.nv := rfl
@[simp] theorem State.store_boot (s : State) (op : MemOp) : (s.store op).boot = s.boot := rfl
@[simp] theorem State.store_fw (s : State) (op : MemOp) : (s.store op).fw = s.fw := rfl
@[simp] theorem State.store_rng (s : State) (op : MemOp) : (s.store op).rng = s.rng := rfl
@[simp] theorem State.store_dbg (s : State) (op : MemOp) : (s.store op).dbg = s.dbg := rfl
@[simp] theorem State.store_sb (s : State) (op : MemOp) : (s.store op).sb = s.sb := rfl
@[simp] theorem State.store_host (s : State) (op : MemOp) : (s.store op).host = s.host := rfl
@[simp] theorem State.store_cnt (s : State) (op : MemOp) : (s.store op).cnt = s.cnt := rfl
@[simp] theorem State.store_q (s : State) (op : MemOp) : (s.store op).q = s.q := rfl
@[simp] theorem State.store_grid (s : State) (op : MemOp) : (s.store op).grid = s.grid := rfl
@[simp] theorem State.store_nl (s : State) (op : MemOp) : (s.store op).nl = s.nl := rfl
@[simp] theorem State.store_mem (s : State) (op : MemOp) : (s.store op).mem = s.mem.apply op := rfl
@[simp] theorem State.store_dram (s : State) (op : MemOp) : (s.store op).dram = s.dram := rfl
@[simp] theorem State.store_pow (s : State) (op : MemOp) : (s.store op).pow = s.pow := rfl
@[simp] theorem State.store_log (s : State) (op : MemOp) : (s.store op).log = s.log := rfl
@[simp] theorem State.store_ops (s : State) (op : MemOp) : (s.store op).ops = s.ops ++ [op] := rfl
@[simp] theorem State.store_out (s : State) (op : MemOp) : (s.store op).out = s.out := rfl
@[simp] theorem State.store_free (s : State) (op : MemOp) : (s.store op).free = s.free := rfl
@[simp] theorem State.store_pending (s : State) (op : MemOp) : (s.store op).pending = s.pending := rfl

end Sys2Proof.Machine
end

