-- ==== Sys2Proof/Laws/Run.lean ====
section
/-! SUPPORT. What every meaning leaves, said once: the wrapper State.run, and the operations that only send, note or alert. -/

namespace Sys2Proof.Machine

/-! ### Occasions touch only the sideband's notes -/

@[simp] theorem State.occasions_board (s : State) (evs : List PlatformEvent) : (s.occasions evs).board = s.board := by
  unfold State.occasions; split <;> rfl

@[simp] theorem State.occasions_nv (s : State) (evs : List PlatformEvent) : (s.occasions evs).nv = s.nv := by
  unfold State.occasions; split <;> rfl

@[simp] theorem State.occasions_boot (s : State) (evs : List PlatformEvent) : (s.occasions evs).boot = s.boot := by
  unfold State.occasions; split <;> rfl

@[simp] theorem State.occasions_fw (s : State) (evs : List PlatformEvent) : (s.occasions evs).fw = s.fw := by
  unfold State.occasions; split <;> rfl

@[simp] theorem State.occasions_rng (s : State) (evs : List PlatformEvent) : (s.occasions evs).rng = s.rng := by
  unfold State.occasions; split <;> rfl

@[simp] theorem State.occasions_dbg (s : State) (evs : List PlatformEvent) : (s.occasions evs).dbg = s.dbg := by
  unfold State.occasions; split <;> rfl

@[simp] theorem State.occasions_host (s : State) (evs : List PlatformEvent) : (s.occasions evs).host = s.host := by
  unfold State.occasions; split <;> rfl

@[simp] theorem State.occasions_cnt (s : State) (evs : List PlatformEvent) : (s.occasions evs).cnt = s.cnt := by
  unfold State.occasions; split <;> rfl

@[simp] theorem State.occasions_q (s : State) (evs : List PlatformEvent) : (s.occasions evs).q = s.q := by
  unfold State.occasions; split <;> rfl

@[simp] theorem State.occasions_grid (s : State) (evs : List PlatformEvent) : (s.occasions evs).grid = s.grid := by
  unfold State.occasions; split <;> rfl

@[simp] theorem State.occasions_nl (s : State) (evs : List PlatformEvent) : (s.occasions evs).nl = s.nl := by
  unfold State.occasions; split <;> rfl

@[simp] theorem State.occasions_mem (s : State) (evs : List PlatformEvent) : (s.occasions evs).mem = s.mem := by
  unfold State.occasions; split <;> rfl

@[simp] theorem State.occasions_dram (s : State) (evs : List PlatformEvent) : (s.occasions evs).dram = s.dram := by
  unfold State.occasions; split <;> rfl

@[simp] theorem State.occasions_pow (s : State) (evs : List PlatformEvent) : (s.occasions evs).pow = s.pow := by
  unfold State.occasions; split <;> rfl

@[simp] theorem State.occasions_log (s : State) (evs : List PlatformEvent) : (s.occasions evs).log = s.log := by
  unfold State.occasions; split <;> rfl

@[simp] theorem State.occasions_ops (s : State) (evs : List PlatformEvent) : (s.occasions evs).ops = s.ops := by
  unfold State.occasions; split <;> rfl

@[simp] theorem State.occasions_out (s : State) (evs : List PlatformEvent) : (s.occasions evs).out = s.out := by
  unfold State.occasions; split <;> rfl

@[simp] theorem State.occasions_free (s : State) (evs : List PlatformEvent) : (s.occasions evs).free = s.free := by
  unfold State.occasions; split <;> rfl

@[simp] theorem State.occasions_pending (s : State) (evs : List PlatformEvent) : (s.occasions evs).pending = s.pending := by
  unfold State.occasions; split <;> rfl

@[simp] theorem State.occasions_sb_dynAddr (s : State) (evs : List PlatformEvent) : (s.occasions evs).sb.dynAddr = s.sb.dynAddr := by
  unfold State.occasions; split <;> rfl

@[simp] theorem State.occasions_sb_eid (s : State) (evs : List PlatformEvent) : (s.occasions evs).sb.eid = s.sb.eid := by
  unfold State.occasions; split <;> rfl

@[simp] theorem State.occasions_sb_tid (s : State) (evs : List PlatformEvent) : (s.occasions evs).sb.tid = s.sb.tid := by
  unfold State.occasions; split <;> rfl

@[simp] theorem State.occasions_sb_receiver (s : State) (evs : List PlatformEvent) : (s.occasions evs).sb.receiver = s.sb.receiver := by
  unfold State.occasions; split <;> rfl

@[simp] theorem State.occasions_sb_events (s : State) (evs : List PlatformEvent) : (s.occasions evs).sb.events = s.sb.events := by
  unfold State.occasions; split <;> rfl

@[simp] theorem State.occasions_sb_alert (s : State) (evs : List PlatformEvent) : (s.occasions evs).sb.alert = s.sb.alert := by
  unfold State.occasions; split <;> rfl

@[simp] theorem State.occasions_sb_readings (s : State) (evs : List PlatformEvent) : (s.occasions evs).sb.readings = s.sb.readings := by
  unfold State.occasions; split <;> rfl

@[simp] theorem State.occasions_sb_spdm (s : State) (evs : List PlatformEvent) : (s.occasions evs).sb.spdm = s.sb.spdm := by
  unfold State.occasions; split <;> rfl

@[simp] theorem State.occasions_sb_spdmVersion (s : State) (evs : List PlatformEvent) : (s.occasions evs).sb.spdmVersion = s.sb.spdmVersion := by
  unfold State.occasions; split <;> rfl

@[simp] theorem State.occasions_sb_reply (s : State) (evs : List PlatformEvent) : (s.occasions evs).sb.reply = s.sb.reply := by
  unfold State.occasions; split <;> rfl

/-! ### State.run -/

@[simp] theorem State.run_board (s : State) (f : State → State) : (s.run f).board = (f { s with ops := [] }).board := by
  simp [State.run]

@[simp] theorem State.run_boot (s : State) (f : State → State) : (s.run f).boot = (f { s with ops := [] }).boot := by
  simp [State.run]

@[simp] theorem State.run_fw (s : State) (f : State → State) : (s.run f).fw = (f { s with ops := [] }).fw := by
  simp [State.run]

@[simp] theorem State.run_rng (s : State) (f : State → State) : (s.run f).rng = (f { s with ops := [] }).rng := by
  simp [State.run]

@[simp] theorem State.run_host (s : State) (f : State → State) : (s.run f).host = (f { s with ops := [] }).host := by
  simp [State.run]

@[simp] theorem State.run_cnt (s : State) (f : State → State) : (s.run f).cnt = (f { s with ops := [] }).cnt := by
  simp [State.run]

@[simp] theorem State.run_q (s : State) (f : State → State) : (s.run f).q = (f { s with ops := [] }).q := by
  simp [State.run]

@[simp] theorem State.run_grid (s : State) (f : State → State) : (s.run f).grid = (f { s with ops := [] }).grid := by
  simp [State.run]

@[simp] theorem State.run_nl (s : State) (f : State → State) : (s.run f).nl = (f { s with ops := [] }).nl := by
  simp [State.run]

@[simp] theorem State.run_dram (s : State) (f : State → State) : (s.run f).dram = (f { s with ops := [] }).dram := by
  simp [State.run]

@[simp] theorem State.run_pow (s : State) (f : State → State) : (s.run f).pow = (f { s with ops := [] }).pow := by
  simp [State.run]

@[simp] theorem State.run_log (s : State) (f : State → State) : (s.run f).log = (f { s with ops := [] }).log := by
  simp [State.run]

@[simp] theorem State.run_out (s : State) (f : State → State) : (s.run f).out = (f { s with ops := [] }).out := by
  simp [State.run]

@[simp] theorem State.run_free (s : State) (f : State → State) : (s.run f).free = (f { s with ops := [] }).free := by
  simp [State.run]

@[simp] theorem State.run_pending (s : State) (f : State → State) : (s.run f).pending = s.pending := rfl

theorem State.run_dbg (s : State) (f : State → State) :
    (s.run f).dbg = { s.dbg with held := (s.run f).dbg.held, dr := (s.run f).dbg.dr } := rfl

@[simp] theorem State.run_level (s : State) (f : State → State) : (s.run f).dbg.level = s.dbg.level := rfl

@[simp] theorem State.run_challenge (s : State) (f : State → State) : (s.run f).dbg.challenge = s.dbg.challenge := rfl

@[simp] theorem State.run_ops (s : State) (f : State → State) : (s.run f).ops = [] := rfl

@[simp] theorem State.run_fuses (s : State) (f : State → State) : (s.run f).nv.fuses = s.nv.fuses := rfl

@[simp] theorem State.run_flash (s : State) (f : State → State) :
    (s.run f).nv.flash = (f { s with ops := [] }).nv.flash := by
  simp [State.run]

@[simp] theorem State.run_trialHostConfirm (s : State) (f : State → State) :
    (s.run f).nv.trialHostConfirm = (f { s with ops := [] }).nv.trialHostConfirm := by
  simp [State.run]

/-- DRAM after a command is what its operations make of DRAM before it. -/
@[simp] theorem State.run_mem (s : State) (f : State → State) :
    (s.run f).mem = s.mem.applyAll (f { s with ops := [] }).ops := by
  simp [State.run]

@[simp] theorem State.run_sb_dynAddr (s : State) (f : State → State) :
    (s.run f).sb.dynAddr = (f { s with ops := [] }).sb.dynAddr := by
  simp [State.run]

@[simp] theorem State.run_sb_eid (s : State) (f : State → State) :
    (s.run f).sb.eid = (f { s with ops := [] }).sb.eid := by
  simp [State.run]

@[simp] theorem State.run_sb_tid (s : State) (f : State → State) :
    (s.run f).sb.tid = (f { s with ops := [] }).sb.tid := by
  simp [State.run]

@[simp] theorem State.run_sb_receiver (s : State) (f : State → State) :
    (s.run f).sb.receiver = (f { s with ops := [] }).sb.receiver := by
  simp [State.run]

@[simp] theorem State.run_sb_events (s : State) (f : State → State) :
    (s.run f).sb.events = (f { s with ops := [] }).sb.events := by
  simp [State.run]

@[simp] theorem State.run_sb_alert (s : State) (f : State → State) :
    (s.run f).sb.alert = (f { s with ops := [] }).sb.alert := by
  simp [State.run]

@[simp] theorem State.run_sb_readings (s : State) (f : State → State) :
    (s.run f).sb.readings = (f { s with ops := [] }).sb.readings := by
  simp [State.run]

@[simp] theorem State.run_sb_spdm (s : State) (f : State → State) :
    (s.run f).sb.spdm = (f { s with ops := [] }).sb.spdm := by
  simp [State.run]

@[simp] theorem State.run_sb_spdmVersion (s : State) (f : State → State) :
    (s.run f).sb.spdmVersion = (f { s with ops := [] }).sb.spdmVersion := by
  simp [State.run]

@[simp] theorem State.run_sb_reply (s : State) (f : State → State) :
    (s.run f).sb.reply = (f { s with ops := [] }).sb.reply := by
  simp [State.run]

/-- A command that makes no DRAM operation leaves DRAM. -/
theorem State.run_mem_same (s : State) (f : State → State) (h : (f { s with ops := [] }).ops = []) : (s.run f).mem = s.mem := by
  simp [h, Mem.applyAll]

/-- Out of reset, a command's effect is the function it wraps. -/
theorem State.whenLive_live (s : State) (f : State → State) (h : s.live = true) : s.whenLive f = s.run f := by
  have h' : ({ s with ops := [] } : State).live = true := h
  simp only [State.whenLive, State.run]
  rw [if_pos h']

/-- In reset, a command leaves everything but the list of the command's own DRAM operations, which is empty. -/
theorem State.whenLive_dead (s : State) (f : State → State) (h : s.live = false) : s.whenLive f = s.run id := by
  have h' : ({ s with ops := [] } : State).live = false := h
  simp only [State.whenLive, State.run, id]
  rw [if_neg (by simp [h'])]

/-- The same engines show no change of state. -/
theorem engine_occasions_self (gs : List Engine) (ks : List Nat) :
    ((gs.zip gs).zip ks).flatMap (fun p =>
      let a : Nat := p.1.1.state
      let b : Nat := p.1.2.state
      if (a = 3 ∧ b = 4) ∨ (a = 4 ∧ b = 3) then []
      else if a = b then [] else [({ sensor := 22 + p.2, value := (b : Int), detail := [] } : PlatformEvent)]) = [] := by
  induction gs generalizing ks with
  | nil => simp
  | cons g gs ih =>
    cases ks with
    | nil => simp
    | cons k ks => simpa using ih ks

/-- A state shows no occasion beside itself. -/
theorem stateOccasions_self (s t : State) (hg : t.grid = s.grid) (hf : t.fw = s.fw) (hb : t.boot = s.boot) (hr : t.rng = s.rng) :
    stateOccasions s t = [] := by
  simp only [stateOccasions, deviceSensor, hg, hf, hb, hr]
  simpa using engine_occasions_self s.grid.engines (List.range 8)

/-- A meaning that changes nothing leaves a state as it was. -/
theorem State.run_self (s : State) (f : State → State) (ho : s.ops = []) (h : f { s with ops := [] } = { s with ops := [] }) :
    s.run f = s := by
  have hs : ({ s with ops := [] } : State) = s := by cases s; cases ho; rfl
  rw [hs] at h
  unfold State.run
  simp only [hs, h, stateOccasions_self s s rfl rfl rfl rfl, State.occasions]
  cases s with
  | mk board nv boot fw rng dbg sb => cases sb; cases ho; split <;> simp_all [Mem.applyAll]

/-- Out of life a command of the clocked device changes nothing. -/
theorem State.whenLive_self (s : State) (f : State → State) (ho : s.ops = []) (h : s.live = false) : s.whenLive f = s := by
  rw [State.whenLive_dead s f h]; exact s.run_self id ho rfl

@[simp] theorem State.hostWrite_board (s : State) (pasid : Option Nat) (addr : Nat) (bs : List Byte) (poison : Bool) : (s.hostWrite pasid addr bs poison).board = s.board := by
  unfold State.hostWrite; split <;> rfl

@[simp] theorem State.hostWrite_nv (s : State) (pasid : Option Nat) (addr : Nat) (bs : List Byte) (poison : Bool) : (s.hostWrite pasid addr bs poison).nv = s.nv := by
  unfold State.hostWrite; split <;> rfl

@[simp] theorem State.hostWrite_boot (s : State) (pasid : Option Nat) (addr : Nat) (bs : List Byte) (poison : Bool) : (s.hostWrite pasid addr bs poison).boot = s.boot := by
  unfold State.hostWrite; split <;> rfl

@[simp] theorem State.hostWrite_fw (s : State) (pasid : Option Nat) (addr : Nat) (bs : List Byte) (poison : Bool) : (s.hostWrite pasid addr bs poison).fw = s.fw := by
  unfold State.hostWrite; split <;> rfl

@[simp] theorem State.hostWrite_rng (s : State) (pasid : Option Nat) (addr : Nat) (bs : List Byte) (poison : Bool) : (s.hostWrite pasid addr bs poison).rng = s.rng := by
  unfold State.hostWrite; split <;> rfl

@[simp] theorem State.hostWrite_dbg (s : State) (pasid : Option Nat) (addr : Nat) (bs : List Byte) (poison : Bool) : (s.hostWrite pasid addr bs poison).dbg = s.dbg := by
  unfold State.hostWrite; split <;> rfl

@[simp] theorem State.hostWrite_sb (s : State) (pasid : Option Nat) (addr : Nat) (bs : List Byte) (poison : Bool) : (s.hostWrite pasid addr bs poison).sb = s.sb := by
  unfold State.hostWrite; split <;> rfl

@[simp] theorem State.hostWrite_host (s : State) (pasid : Option Nat) (addr : Nat) (bs : List Byte) (poison : Bool) : (s.hostWrite pasid addr bs poison).host = s.host := by
  unfold State.hostWrite; split <;> rfl

@[simp] theorem State.hostWrite_cnt (s : State) (pasid : Option Nat) (addr : Nat) (bs : List Byte) (poison : Bool) : (s.hostWrite pasid addr bs poison).cnt = s.cnt := by
  unfold State.hostWrite; split <;> rfl

@[simp] theorem State.hostWrite_q (s : State) (pasid : Option Nat) (addr : Nat) (bs : List Byte) (poison : Bool) : (s.hostWrite pasid addr bs poison).q = s.q := by
  unfold State.hostWrite; split <;> rfl

@[simp] theorem State.hostWrite_grid (s : State) (pasid : Option Nat) (addr : Nat) (bs : List Byte) (poison : Bool) : (s.hostWrite pasid addr bs poison).grid = s.grid := by
  unfold State.hostWrite; split <;> rfl

@[simp] theorem State.hostWrite_nl (s : State) (pasid : Option Nat) (addr : Nat) (bs : List Byte) (poison : Bool) : (s.hostWrite pasid addr bs poison).nl = s.nl := by
  unfold State.hostWrite; split <;> rfl

@[simp] theorem State.hostWrite_mem (s : State) (pasid : Option Nat) (addr : Nat) (bs : List Byte) (poison : Bool) : (s.hostWrite pasid addr bs poison).mem = s.mem := by
  unfold State.hostWrite; split <;> rfl

@[simp] theorem State.hostWrite_dram (s : State) (pasid : Option Nat) (addr : Nat) (bs : List Byte) (poison : Bool) : (s.hostWrite pasid addr bs poison).dram = s.dram := by
  unfold State.hostWrite; split <;> rfl

@[simp] theorem State.hostWrite_pow (s : State) (pasid : Option Nat) (addr : Nat) (bs : List Byte) (poison : Bool) : (s.hostWrite pasid addr bs poison).pow = s.pow := by
  unfold State.hostWrite; split <;> rfl

@[simp] theorem State.hostWrite_log (s : State) (pasid : Option Nat) (addr : Nat) (bs : List Byte) (poison : Bool) : (s.hostWrite pasid addr bs poison).log = s.log := by
  unfold State.hostWrite; split <;> rfl

@[simp] theorem State.hostWrite_ops (s : State) (pasid : Option Nat) (addr : Nat) (bs : List Byte) (poison : Bool) : (s.hostWrite pasid addr bs poison).ops = s.ops := by
  unfold State.hostWrite; split <;> rfl

@[simp] theorem State.hostWrite_free (s : State) (pasid : Option Nat) (addr : Nat) (bs : List Byte) (poison : Bool) : (s.hostWrite pasid addr bs poison).free = s.free := by
  unfold State.hostWrite; split <;> rfl

@[simp] theorem State.hostWrite_pending (s : State) (pasid : Option Nat) (addr : Nat) (bs : List Byte) (poison : Bool) : (s.hostWrite pasid addr bs poison).pending = s.pending := by
  unfold State.hostWrite; split <;> rfl

@[simp] theorem State.signal_board (s : State) (v : Nat) : (s.signal v).board = s.board := by
  unfold State.signal; split
  · rfl
  · split <;> rfl

@[simp] theorem State.signal_nv (s : State) (v : Nat) : (s.signal v).nv = s.nv := by
  unfold State.signal; split
  · rfl
  · split <;> rfl

@[simp] theorem State.signal_boot (s : State) (v : Nat) : (s.signal v).boot = s.boot := by
  unfold State.signal; split
  · rfl
  · split <;> rfl

@[simp] theorem State.signal_fw (s : State) (v : Nat) : (s.signal v).fw = s.fw := by
  unfold State.signal; split
  · rfl
  · split <;> rfl

@[simp] theorem State.signal_rng (s : State) (v : Nat) : (s.signal v).rng = s.rng := by
  unfold State.signal; split
  · rfl
  · split <;> rfl

@[simp] theorem State.signal_dbg (s : State) (v : Nat) : (s.signal v).dbg = s.dbg := by
  unfold State.signal; split
  · rfl
  · split <;> rfl

@[simp] theorem State.signal_sb (s : State) (v : Nat) : (s.signal v).sb = s.sb := by
  unfold State.signal; split
  · rfl
  · split <;> rfl

@[simp] theorem State.signal_cnt (s : State) (v : Nat) : (s.signal v).cnt = s.cnt := by
  unfold State.signal; split
  · rfl
  · split <;> rfl

@[simp] theorem State.signal_q (s : State) (v : Nat) : (s.signal v).q = s.q := by
  unfold State.signal; split
  · rfl
  · split <;> rfl

@[simp] theorem State.signal_grid (s : State) (v : Nat) : (s.signal v).grid = s.grid := by
  unfold State.signal; split
  · rfl
  · split <;> rfl

@[simp] theorem State.signal_nl (s : State) (v : Nat) : (s.signal v).nl = s.nl := by
  unfold State.signal; split
  · rfl
  · split <;> rfl

@[simp] theorem State.signal_mem (s : State) (v : Nat) : (s.signal v).mem = s.mem := by
  unfold State.signal; split
  · rfl
  · split <;> rfl

@[simp] theorem State.signal_dram (s : State) (v : Nat) : (s.signal v).dram = s.dram := by
  unfold State.signal; split
  · rfl
  · split <;> rfl

@[simp] theorem State.signal_pow (s : State) (v : Nat) : (s.signal v).pow = s.pow := by
  unfold State.signal; split
  · rfl
  · split <;> rfl

@[simp] theorem State.signal_log (s : State) (v : Nat) : (s.signal v).log = s.log := by
  unfold State.signal; split
  · rfl
  · split <;> rfl

@[simp] theorem State.signal_ops (s : State) (v : Nat) : (s.signal v).ops = s.ops := by
  unfold State.signal; split
  · rfl
  · split <;> rfl

@[simp] theorem State.signal_free (s : State) (v : Nat) : (s.signal v).free = s.free := by
  unfold State.signal; split
  · rfl
  · split <;> rfl

@[simp] theorem State.signal_pending (s : State) (v : Nat) : (s.signal v).pending = s.pending := by
  unfold State.signal; split
  · rfl
  · split <;> rfl

@[simp] theorem State.ringWrite_board (s : State) (e : Event) : (s.ringWrite e).board = s.board := by
  simp only [State.ringWrite]; split <;> simp

@[simp] theorem State.ringWrite_nv (s : State) (e : Event) : (s.ringWrite e).nv = s.nv := by
  simp only [State.ringWrite]; split <;> simp

@[simp] theorem State.ringWrite_boot (s : State) (e : Event) : (s.ringWrite e).boot = s.boot := by
  simp only [State.ringWrite]; split <;> simp

@[simp] theorem State.ringWrite_fw (s : State) (e : Event) : (s.ringWrite e).fw = s.fw := by
  simp only [State.ringWrite]; split <;> simp

@[simp] theorem State.ringWrite_rng (s : State) (e : Event) : (s.ringWrite e).rng = s.rng := by
  simp only [State.ringWrite]; split <;> simp

@[simp] theorem State.ringWrite_dbg (s : State) (e : Event) : (s.ringWrite e).dbg = s.dbg := by
  simp only [State.ringWrite]; split <;> simp

@[simp] theorem State.ringWrite_sb (s : State) (e : Event) : (s.ringWrite e).sb = s.sb := by
  simp only [State.ringWrite]; split <;> simp

@[simp] theorem State.ringWrite_cnt (s : State) (e : Event) : (s.ringWrite e).cnt = s.cnt := by
  simp only [State.ringWrite]; split <;> simp

@[simp] theorem State.ringWrite_q (s : State) (e : Event) : (s.ringWrite e).q = s.q := by
  simp only [State.ringWrite]; split <;> simp

@[simp] theorem State.ringWrite_grid (s : State) (e : Event) : (s.ringWrite e).grid = s.grid := by
  simp only [State.ringWrite]; split <;> simp

@[simp] theorem State.ringWrite_nl (s : State) (e : Event) : (s.ringWrite e).nl = s.nl := by
  simp only [State.ringWrite]; split <;> simp

@[simp] theorem State.ringWrite_mem (s : State) (e : Event) : (s.ringWrite e).mem = s.mem := by
  simp only [State.ringWrite]; split <;> simp

@[simp] theorem State.ringWrite_dram (s : State) (e : Event) : (s.ringWrite e).dram = s.dram := by
  simp only [State.ringWrite]; split <;> simp

@[simp] theorem State.ringWrite_pow (s : State) (e : Event) : (s.ringWrite e).pow = s.pow := by
  simp only [State.ringWrite]; split <;> simp

@[simp] theorem State.ringWrite_log (s : State) (e : Event) : (s.ringWrite e).log = s.log := by
  simp only [State.ringWrite]; split <;> simp

@[simp] theorem State.ringWrite_ops (s : State) (e : Event) : (s.ringWrite e).ops = s.ops := by
  simp only [State.ringWrite]; split <;> simp

@[simp] theorem State.ringWrite_free (s : State) (e : Event) : (s.ringWrite e).free = s.free := by
  simp only [State.ringWrite]; split <;> simp

@[simp] theorem State.ringWrite_pending (s : State) (e : Event) : (s.ringWrite e).pending = s.pending := by
  simp only [State.ringWrite]; split <;> simp

@[simp] theorem State.holdEvent_board (s : State) (e : Event) : (s.holdEvent e).board = s.board := by
  simp only [State.holdEvent]; split
  · rfl
  · split <;> rfl

@[simp] theorem State.holdEvent_nv (s : State) (e : Event) : (s.holdEvent e).nv = s.nv := by
  simp only [State.holdEvent]; split
  · rfl
  · split <;> rfl

@[simp] theorem State.holdEvent_boot (s : State) (e : Event) : (s.holdEvent e).boot = s.boot := by
  simp only [State.holdEvent]; split
  · rfl
  · split <;> rfl

@[simp] theorem State.holdEvent_fw (s : State) (e : Event) : (s.holdEvent e).fw = s.fw := by
  simp only [State.holdEvent]; split
  · rfl
  · split <;> rfl

@[simp] theorem State.holdEvent_rng (s : State) (e : Event) : (s.holdEvent e).rng = s.rng := by
  simp only [State.holdEvent]; split
  · rfl
  · split <;> rfl

@[simp] theorem State.holdEvent_dbg (s : State) (e : Event) : (s.holdEvent e).dbg = s.dbg := by
  simp only [State.holdEvent]; split
  · rfl
  · split <;> rfl

@[simp] theorem State.holdEvent_sb (s : State) (e : Event) : (s.holdEvent e).sb = s.sb := by
  simp only [State.holdEvent]; split
  · rfl
  · split <;> rfl

@[simp] theorem State.holdEvent_cnt (s : State) (e : Event) : (s.holdEvent e).cnt = s.cnt := by
  simp only [State.holdEvent]; split
  · rfl
  · split <;> rfl

@[simp] theorem State.holdEvent_q (s : State) (e : Event) : (s.holdEvent e).q = s.q := by
  simp only [State.holdEvent]; split
  · rfl
  · split <;> rfl

@[simp] theorem State.holdEvent_grid (s : State) (e : Event) : (s.holdEvent e).grid = s.grid := by
  simp only [State.holdEvent]; split
  · rfl
  · split <;> rfl

@[simp] theorem State.holdEvent_nl (s : State) (e : Event) : (s.holdEvent e).nl = s.nl := by
  simp only [State.holdEvent]; split
  · rfl
  · split <;> rfl

@[simp] theorem State.holdEvent_mem (s : State) (e : Event) : (s.holdEvent e).mem = s.mem := by
  simp only [State.holdEvent]; split
  · rfl
  · split <;> rfl

@[simp] theorem State.holdEvent_dram (s : State) (e : Event) : (s.holdEvent e).dram = s.dram := by
  simp only [State.holdEvent]; split
  · rfl
  · split <;> rfl

@[simp] theorem State.holdEvent_pow (s : State) (e : Event) : (s.holdEvent e).pow = s.pow := by
  simp only [State.holdEvent]; split
  · rfl
  · split <;> rfl

@[simp] theorem State.holdEvent_log (s : State) (e : Event) : (s.holdEvent e).log = s.log := by
  simp only [State.holdEvent]; split
  · rfl
  · split <;> rfl

@[simp] theorem State.holdEvent_ops (s : State) (e : Event) : (s.holdEvent e).ops = s.ops := by
  simp only [State.holdEvent]; split
  · rfl
  · split <;> rfl

@[simp] theorem State.holdEvent_out (s : State) (e : Event) : (s.holdEvent e).out = s.out := by
  simp only [State.holdEvent]; split
  · rfl
  · split <;> rfl

@[simp] theorem State.holdEvent_free (s : State) (e : Event) : (s.holdEvent e).free = s.free := by
  simp only [State.holdEvent]; split
  · rfl
  · split <;> rfl

@[simp] theorem State.holdEvent_pending (s : State) (e : Event) : (s.holdEvent e).pending = s.pending := by
  simp only [State.holdEvent]; split
  · rfl
  · split <;> rfl

@[simp] theorem State.event_board (s : State) (cls code source : Nat) (tick : Option Nat) (detail : List Byte) :
    (s.event cls code source tick detail).board = s.board := by
  simp only [State.event]; split <;> simp

@[simp] theorem State.event_nv (s : State) (cls code source : Nat) (tick : Option Nat) (detail : List Byte) :
    (s.event cls code source tick detail).nv = s.nv := by
  simp only [State.event]; split <;> simp

@[simp] theorem State.event_boot (s : State) (cls code source : Nat) (tick : Option Nat) (detail : List Byte) :
    (s.event cls code source tick detail).boot = s.boot := by
  simp only [State.event]; split <;> simp

@[simp] theorem State.event_fw (s : State) (cls code source : Nat) (tick : Option Nat) (detail : List Byte) :
    (s.event cls code source tick detail).fw = s.fw := by
  simp only [State.event]; split <;> simp

@[simp] theorem State.event_rng (s : State) (cls code source : Nat) (tick : Option Nat) (detail : List Byte) :
    (s.event cls code source tick detail).rng = s.rng := by
  simp only [State.event]; split <;> simp

@[simp] theorem State.event_dbg (s : State) (cls code source : Nat) (tick : Option Nat) (detail : List Byte) :
    (s.event cls code source tick detail).dbg = s.dbg := by
  simp only [State.event]; split <;> simp

@[simp] theorem State.event_sb (s : State) (cls code source : Nat) (tick : Option Nat) (detail : List Byte) :
    (s.event cls code source tick detail).sb = s.sb := by
  simp only [State.event]; split <;> simp

@[simp] theorem State.event_cnt (s : State) (cls code source : Nat) (tick : Option Nat) (detail : List Byte) :
    (s.event cls code source tick detail).cnt = s.cnt := by
  simp only [State.event]; split <;> simp

@[simp] theorem State.event_q (s : State) (cls code source : Nat) (tick : Option Nat) (detail : List Byte) :
    (s.event cls code source tick detail).q = s.q := by
  simp only [State.event]; split <;> simp

@[simp] theorem State.event_grid (s : State) (cls code source : Nat) (tick : Option Nat) (detail : List Byte) :
    (s.event cls code source tick detail).grid = s.grid := by
  simp only [State.event]; split <;> simp

@[simp] theorem State.event_nl (s : State) (cls code source : Nat) (tick : Option Nat) (detail : List Byte) :
    (s.event cls code source tick detail).nl = s.nl := by
  simp only [State.event]; split <;> simp

@[simp] theorem State.event_mem (s : State) (cls code source : Nat) (tick : Option Nat) (detail : List Byte) :
    (s.event cls code source tick detail).mem = s.mem := by
  simp only [State.event]; split <;> simp

@[simp] theorem State.event_dram (s : State) (cls code source : Nat) (tick : Option Nat) (detail : List Byte) :
    (s.event cls code source tick detail).dram = s.dram := by
  simp only [State.event]; split <;> simp

@[simp] theorem State.event_pow (s : State) (cls code source : Nat) (tick : Option Nat) (detail : List Byte) :
    (s.event cls code source tick detail).pow = s.pow := by
  simp only [State.event]; split <;> simp

@[simp] theorem State.event_log (s : State) (cls code source : Nat) (tick : Option Nat) (detail : List Byte) :
    (s.event cls code source tick detail).log = s.log := by
  simp only [State.event]; split <;> simp

@[simp] theorem State.event_ops (s : State) (cls code source : Nat) (tick : Option Nat) (detail : List Byte) :
    (s.event cls code source tick detail).ops = s.ops := by
  simp only [State.event]; split <;> simp

@[simp] theorem State.event_free (s : State) (cls code source : Nat) (tick : Option Nat) (detail : List Byte) :
    (s.event cls code source tick detail).free = s.free := by
  simp only [State.event]; split <;> simp

@[simp] theorem State.event_pending (s : State) (cls code source : Nat) (tick : Option Nat) (detail : List Byte) :
    (s.event cls code source tick detail).pending = s.pending := by
  simp only [State.event]; split <;> simp

@[simp] theorem State.alert_board (s : State) (bits : Byte) : (s.alert bits).board = s.board := by
  simp only [State.alert]; split <;> rfl

@[simp] theorem State.alert_nv (s : State) (bits : Byte) : (s.alert bits).nv = s.nv := by
  simp only [State.alert]; split <;> rfl

@[simp] theorem State.alert_boot (s : State) (bits : Byte) : (s.alert bits).boot = s.boot := by
  simp only [State.alert]; split <;> rfl

@[simp] theorem State.alert_fw (s : State) (bits : Byte) : (s.alert bits).fw = s.fw := by
  simp only [State.alert]; split <;> rfl

@[simp] theorem State.alert_rng (s : State) (bits : Byte) : (s.alert bits).rng = s.rng := by
  simp only [State.alert]; split <;> rfl

@[simp] theorem State.alert_dbg (s : State) (bits : Byte) : (s.alert bits).dbg = s.dbg := by
  simp only [State.alert]; split <;> rfl

@[simp] theorem State.alert_host (s : State) (bits : Byte) : (s.alert bits).host = s.host := by
  simp only [State.alert]; split <;> rfl

@[simp] theorem State.alert_cnt (s : State) (bits : Byte) : (s.alert bits).cnt = s.cnt := by
  simp only [State.alert]; split <;> rfl

@[simp] theorem State.alert_q (s : State) (bits : Byte) : (s.alert bits).q = s.q := by
  simp only [State.alert]; split <;> rfl

@[simp] theorem State.alert_grid (s : State) (bits : Byte) : (s.alert bits).grid = s.grid := by
  simp only [State.alert]; split <;> rfl

@[simp] theorem State.alert_nl (s : State) (bits : Byte) : (s.alert bits).nl = s.nl := by
  simp only [State.alert]; split <;> rfl

@[simp] theorem State.alert_mem (s : State) (bits : Byte) : (s.alert bits).mem = s.mem := by
  simp only [State.alert]; split <;> rfl

@[simp] theorem State.alert_dram (s : State) (bits : Byte) : (s.alert bits).dram = s.dram := by
  simp only [State.alert]; split <;> rfl

@[simp] theorem State.alert_pow (s : State) (bits : Byte) : (s.alert bits).pow = s.pow := by
  simp only [State.alert]; split <;> rfl

@[simp] theorem State.alert_log (s : State) (bits : Byte) : (s.alert bits).log = s.log := by
  simp only [State.alert]; split <;> rfl

@[simp] theorem State.alert_ops (s : State) (bits : Byte) : (s.alert bits).ops = s.ops := by
  simp only [State.alert]; split <;> rfl

@[simp] theorem State.alert_free (s : State) (bits : Byte) : (s.alert bits).free = s.free := by
  simp only [State.alert]; split <;> rfl

@[simp] theorem State.alert_pending (s : State) (bits : Byte) : (s.alert bits).pending = s.pending := by
  simp only [State.alert]; split <;> rfl

@[simp] theorem State.alert_sb_alert (s : State) (bits : Byte) : (s.alert bits).sb.alert = s.sb.alert ||| bits := by
  simp only [State.alert]; split <;> rfl

@[simp] theorem State.logFault_board (s : State) (kind source : Nat) (queue : Option Nat) (place : Nat) :
    (s.logFault kind source queue place).board = s.board := by
  simp only [State.logFault]; split <;> simp

@[simp] theorem State.logFault_boot (s : State) (kind source : Nat) (queue : Option Nat) (place : Nat) :
    (s.logFault kind source queue place).boot = s.boot := by
  simp only [State.logFault]; split <;> simp

@[simp] theorem State.logFault_fw (s : State) (kind source : Nat) (queue : Option Nat) (place : Nat) :
    (s.logFault kind source queue place).fw = s.fw := by
  simp only [State.logFault]; split <;> simp

@[simp] theorem State.logFault_rng (s : State) (kind source : Nat) (queue : Option Nat) (place : Nat) :
    (s.logFault kind source queue place).rng = s.rng := by
  simp only [State.logFault]; split <;> simp

@[simp] theorem State.logFault_dbg (s : State) (kind source : Nat) (queue : Option Nat) (place : Nat) :
    (s.logFault kind source queue place).dbg = s.dbg := by
  simp only [State.logFault]; split <;> simp

@[simp] theorem State.logFault_host (s : State) (kind source : Nat) (queue : Option Nat) (place : Nat) :
    (s.logFault kind source queue place).host = s.host := by
  simp only [State.logFault]; split <;> simp

@[simp] theorem State.logFault_cnt (s : State) (kind source : Nat) (queue : Option Nat) (place : Nat) :
    (s.logFault kind source queue place).cnt = s.cnt := by
  simp only [State.logFault]; split <;> simp

@[simp] theorem State.logFault_q (s : State) (kind source : Nat) (queue : Option Nat) (place : Nat) :
    (s.logFault kind source queue place).q = s.q := by
  simp only [State.logFault]; split <;> simp

@[simp] theorem State.logFault_grid (s : State) (kind source : Nat) (queue : Option Nat) (place : Nat) :
    (s.logFault kind source queue place).grid = s.grid := by
  simp only [State.logFault]; split <;> simp

@[simp] theorem State.logFault_nl (s : State) (kind source : Nat) (queue : Option Nat) (place : Nat) :
    (s.logFault kind source queue place).nl = s.nl := by
  simp only [State.logFault]; split <;> simp

@[simp] theorem State.logFault_mem (s : State) (kind source : Nat) (queue : Option Nat) (place : Nat) :
    (s.logFault kind source queue place).mem = s.mem := by
  simp only [State.logFault]; split <;> simp

@[simp] theorem State.logFault_dram (s : State) (kind source : Nat) (queue : Option Nat) (place : Nat) :
    (s.logFault kind source queue place).dram = s.dram := by
  simp only [State.logFault]; split <;> simp

@[simp] theorem State.logFault_pow (s : State) (kind source : Nat) (queue : Option Nat) (place : Nat) :
    (s.logFault kind source queue place).pow = s.pow := by
  simp only [State.logFault]; split <;> simp

@[simp] theorem State.logFault_ops (s : State) (kind source : Nat) (queue : Option Nat) (place : Nat) :
    (s.logFault kind source queue place).ops = s.ops := by
  simp only [State.logFault]; split <;> simp

@[simp] theorem State.logFault_free (s : State) (kind source : Nat) (queue : Option Nat) (place : Nat) :
    (s.logFault kind source queue place).free = s.free := by
  simp only [State.logFault]; split <;> simp

@[simp] theorem State.logFault_pending (s : State) (kind source : Nat) (queue : Option Nat) (place : Nat) :
    (s.logFault kind source queue place).pending = s.pending := by
  simp only [State.logFault]; split <;> simp

@[simp] theorem State.write_board (s : State) (a : Nat) (bs : List Byte) : (s.write a bs).board = s.board := by
  unfold State.write; split <;> rfl

@[simp] theorem State.write_nv (s : State) (a : Nat) (bs : List Byte) : (s.write a bs).nv = s.nv := by
  unfold State.write; split <;> rfl

@[simp] theorem State.write_boot (s : State) (a : Nat) (bs : List Byte) : (s.write a bs).boot = s.boot := by
  unfold State.write; split <;> rfl

@[simp] theorem State.write_fw (s : State) (a : Nat) (bs : List Byte) : (s.write a bs).fw = s.fw := by
  unfold State.write; split <;> rfl

@[simp] theorem State.write_rng (s : State) (a : Nat) (bs : List Byte) : (s.write a bs).rng = s.rng := by
  unfold State.write; split <;> rfl

@[simp] theorem State.write_dbg (s : State) (a : Nat) (bs : List Byte) : (s.write a bs).dbg = s.dbg := by
  unfold State.write; split <;> rfl

@[simp] theorem State.write_sb (s : State) (a : Nat) (bs : List Byte) : (s.write a bs).sb = s.sb := by
  unfold State.write; split <;> rfl

@[simp] theorem State.write_host (s : State) (a : Nat) (bs : List Byte) : (s.write a bs).host = s.host := by
  unfold State.write; split <;> rfl

@[simp] theorem State.write_cnt (s : State) (a : Nat) (bs : List Byte) : (s.write a bs).cnt = s.cnt := by
  unfold State.write; split <;> rfl

@[simp] theorem State.write_q (s : State) (a : Nat) (bs : List Byte) : (s.write a bs).q = s.q := by
  unfold State.write; split <;> rfl

@[simp] theorem State.write_grid (s : State) (a : Nat) (bs : List Byte) : (s.write a bs).grid = s.grid := by
  unfold State.write; split <;> rfl

@[simp] theorem State.write_nl (s : State) (a : Nat) (bs : List Byte) : (s.write a bs).nl = s.nl := by
  unfold State.write; split <;> rfl

@[simp] theorem State.write_dram (s : State) (a : Nat) (bs : List Byte) : (s.write a bs).dram = s.dram := by
  unfold State.write; split <;> rfl

@[simp] theorem State.write_pow (s : State) (a : Nat) (bs : List Byte) : (s.write a bs).pow = s.pow := by
  unfold State.write; split <;> rfl

@[simp] theorem State.write_log (s : State) (a : Nat) (bs : List Byte) : (s.write a bs).log = s.log := by
  unfold State.write; split <;> rfl

@[simp] theorem State.write_out (s : State) (a : Nat) (bs : List Byte) : (s.write a bs).out = s.out := by
  unfold State.write; split <;> rfl

@[simp] theorem State.write_free (s : State) (a : Nat) (bs : List Byte) : (s.write a bs).free = s.free := by
  unfold State.write; split <;> rfl

@[simp] theorem State.write_pending (s : State) (a : Nat) (bs : List Byte) : (s.write a bs).pending = s.pending := by
  unfold State.write; split <;> rfl

end Sys2Proof.Machine
end

