-- ==== Sys2Proof/Tests/Slice0.lean ====
section
/-! SUPPORT. Tests: an ill-formed command for each check, small tests with values from the manual or by hand, and for each
obligation a witness that its hypotheses can be met. -/

namespace Sys2Proof.Tests

set_option maxRecDepth 20000
set_option Elab.async false

open Sys2Proof.Machine

/-! ### Small states -/

/-- An image that a control core runs. -/
def tImg : Image :=
  { slot := 0, svn := 1, major := 3, minor := 0, build := 7, digest := zeroBytes 48, seqDigest := zeroBytes 48, revokePrev := false }

/-- Out of reset, before the boot ROM has chosen an image. -/
def tBoot : State :=
  { State.reset with
    board := { State.reset.board with por := false, perst := false }
    boot := { Boot.reset with released := true, latched := true } }

/-- In full service, a session attached, the link up, nothing to do. -/
def tS : State :=
  { tBoot with
    boot := { tBoot.boot with fwVerified := true, enginesIdle := true, trained := List.range 8, cfgAnswered := true, ready := true }
    fw := { Fw.reset with running := some tImg, standby := some tImg }
    rng := { Rng.reset with state := 1, drbgs := List.replicate 3 { up := true, calls := 0 } }
    host := { HostPort.reset with link := 2, session := true, attached := true, begun := 1, cookie := 5 }
    grid := { State.reset.grid with engines := List.replicate 8 { Engine.reset with state := 1 } }
    nl := { NuthesLink.reset with node := some 1, root := some 0, ports := List.replicate 4 { Port.reset with state := 3, lanes := 8, enable := true, prsnt := true } }
    mem := { Mem.reset with units := 8, top := 2 ^ 38 }
    dram := { channels := List.replicate 8 { Channel.reset with state := 2, rate := 1 }, mirrored := false, map := List.range 8 }
    pow := { Power.reset with fastOk := true, domains := (List.range 116).map fun d => { Domain.reset d with state := 2 } } }

/-- The admin mailbox holds an opcode with its arguments. -/
def tHolds (op : Nat) (args : List Nat) (s : State := tS) : State :=
  { s with
    host :=
      { s.host with
        busy := true, mbxCmd := BitVec.ofNat 32 op
        mbxArgs := ((args ++ List.replicate 8 0).take 8).map (BitVec.ofNat 64) } }

/-- An empty view of host memory, and a boundary where nothing goes wrong. -/
def tView : HostView := { bytes := [], unmapped := [] }
def tEnv : BoundaryEnv := { faults := [], corrected := [], late := 0, host := tView }

/-- A queue without work. -/
def tQ (n : Nat) : Queue :=
  { num := n, ringAddr := 0x10000, complAddr := 0x20000, doneAddr := 0x30000, order := 0, pasid := 9, level := 1, ordered := false,
    irq := false, quota := 8, handleBase := 0x4000, handles := 2, state := .active, cause := 0, tail := 0, head := 0, sproutAck := 0,
    doneSeq := 0, sproutDone := 0, badDoorbells := 0, fetchFaults := 0, copy := 0, hswap := none, fetched := [], lane := [],
    sprouts := 0, admitted := 0, admittedSprouts := 0, failed := [], retired := [], backoff := false, purgeTo := 0,
    retiredCount := 0, dropped := 0, purged := 0 }

/-- A task that has just been admitted. -/
def tTask (ref : TaskRef) (opcode : Nat) : Task :=
  { ref := ref, opcode := opcode, irq := false, runOnFail := false, mask := 1, pattern := 0, patternLen := 4096, program := 0,
    param := 0, fenceValue := 3, userTag := 0, copy := 0, slot := 0, order := 0, aged := false, edges := [], sprouter := none,
    phase := .waiting, progress := 0, engines := 0, still := 0, lastProgress := 0, wholeInterval := false, waitSince := none,
    block := [] }

/-- SEQ 1 of queue 5. -/
def tRef : TaskRef := { queue := 5, seq := 1 }

/-- One queue with one task. -/
def tWith (u : Task) (s : State := tS) : State :=
  { s with q := { s.q with queues := [{ tQ 5 with admitted := 1, head := 1, tail := 1 }], tasks := [u] } }

/-- A reader of zeros, and a pattern of one replica on one engine. -/
def tZero : Reader := fun _ _ => 0

def tPat : Pattern :=
  { id := 1, hash := [], tickLen := 64, image := 0
    header := { readHeader tZero with tickLen := 64, mask := 1, shards := 1, kinds := 7, resident := 1, total := 1, rungs := 1, nVars := 1 }
    engines := [0], places := [(0, 0)], e0 := 0, blocks := [], cores := [], temps := [], changes := [], plan := readPlan tZero []
    ditch := readDitch tZero, learn := readLearn tZero [], joined := readJoined tZero (readHeader tZero) [], programs := []
    routers := [], reads := [], ledger := [], shadow := [], shadowed := true, left := [] }

/-- A run of it in progress. -/
def tRun : Run := { newRun tRef tPat 1 0 (readRunBlock (zeroBytes 256)) with begun := true, resident := [0] }

/-- The device with that run, whose engine is in a state. -/
def tRuns (r : Run) (p : Pattern := tPat) (st : Nat := 3) (s : State := tS) : State :=
  { tWith { tTask tRef 1 with phase := .running } s with
    grid :=
      { s.grid with
        engines := { Engine.reset with state := st, pattern := some 1, task := some tRef } :: List.replicate 7 { Engine.reset with state := 1 }
        patterns := [p], runs := [r], nextPattern := 2 } }

/-- What holds of every element and of the default holds of every index. -/
theorem getD_all {α : Type} (P : α → Prop) (d : α) (hd : P d) : ∀ (l : List α), (∀ x ∈ l, P x) → ∀ i, P (l.getD i d)
  | [], _, _ => by simpa using hd
  | x :: l, h, 0 => by simpa using h x (by simp)
  | x :: l, h, i + 1 => by simpa using getD_all P d hd l (fun y hy => h y (by simp [hy])) i

/-! ### Ill-formed commands: one for each check, and a well-formed one beside it -/

/-- A frame of 240 zero bytes of a type. -/
def tFrame (type : Nat) : LinkFrame :=
  { type := type, dest := 1, src := 0, seq := 0, ack := 0, ackValid := true, count := 0, stream := 0, first := 0,
    payload := zeroBytes 240, crc := 0 }

/-- A frame that arrives without a symbol error. -/
def tArr (f : LinkFrame) : Arrival := { frame := f, corrected := 0, uncorrectable := 0 }

/-- The first or the second word of a narrow packet, its parity even (R266). -/
def tNarrow (bits : Nat) (head : Bool) : NarrowWord :=
  { bits := BitVec.ofNat 32 bits, control := BitVec.ofNat 5 (16 * bit head + ((bitsOf 32 bits).length + bit head) % 2) }

/-- The head word of a debug packet of TYPE 6 to a place. -/
def tHead (die col row : Nat) : NarrowWord := tNarrow (die * 2 ^ 28 + col * 2 ^ 21 + row * 2 ^ 15 + 6 * 2 ^ 11) true

def tCore : CoreAt := { die := 0, col := 0, row := 0 }

theorem test_wf_engine : (Instr.tickStart 8 0).failures = [.engine] ∧ (Instr.tickStart 7 0).wf = true := by decide
theorem test_wf_port : (Instr.nlPortDetach 4 true).failures = [.port] ∧ (Instr.nlPortDetach 3 true).wf = true := by decide
theorem test_wf_channel : (Instr.channelLost 8).failures = [.channel] ∧ (Instr.channelLost 7).wf = true := by decide
theorem test_wf_slot : (Instr.slotTimeout 32).failures = [.slot] ∧ (Instr.slotTimeout 31).wf = true := by decide
theorem test_wf_queue : (Instr.fetchRetry 1024).failures = [.queue] ∧ (Instr.fetchRetry 1023).wf = true := by decide
theorem test_wf_copyEngine : (Instr.chainWaitSatisfied 4).failures = [.copyEngine] ∧ (Instr.chainWaitSatisfied 3).wf = true := by
  decide
theorem test_wf_domain : (Instr.domainIdle 116).failures = [.domain] ∧ (Instr.domainIdle 115).wf = true := by decide
theorem test_wf_die : (Instr.sensorSample 9 (List.replicate 16 0)).failures = [.die]
    ∧ (Instr.sensorSample 8 (List.replicate 8 0)).wf = true := by decide
theorem test_wf_readings : (Instr.sensorSample 0 [0]).failures = [.readings]
    ∧ (Instr.sensorSample 0 (List.replicate 16 0)).wf = true := by decide
theorem test_wf_core : (Instr.enginesIdle [{ tCore with row := 64 }]).failures = [.core]
    ∧ (Instr.enginesIdle [{ tCore with col := 64 }]).wf = true := by decide
theorem test_wf_word : (Instr.dbgAccess (tHead 0 0 0) (tNarrow 0 false) (.readArray tCore 6148)).failures = [.word]
    ∧ (Instr.dbgAccess (tHead 0 0 0) (tNarrow 0 false) (.readArray tCore 6147)).wf = true := by decide +kernel
theorem test_wf_symbol : (Instr.scrubRead 0 { here := [80], partner := [] }).failures = [.symbol]
    ∧ (Instr.scrubRead 0 { here := [79], partner := [0] }).wf = true := by decide
theorem test_wf_access : (Instr.registerWrite 0 2 0).failures = [.access] ∧ (Instr.registerWrite 0 8 0).wf = true := by decide
theorem test_wf_vector : (Instr.msixUnmask 1056).failures = [.vector] ∧ (Instr.msixUnmask 1055).wf = true := by decide
theorem test_wf_aperture : (Instr.apertureRead 0x10000 4097).failures = [.aperture] ∧ (Instr.apertureRead 0x10000 4096).wf = true := by
  decide
theorem test_wf_line : (Instr.descriptorFetch 0 (some [0])).failures = [.line]
    ∧ (Instr.descriptorFetch 0 (some (zeroBytes 64))).wf = true := by decide
theorem test_wf_args : (Instr.sbRead 0 (List.replicate 9 0)).failures = [.args] ∧ (Instr.sbRead 0 [0]).wf = true := by decide
theorem test_wf_frame : (Instr.flit 0 (tArr { tFrame 1 with seq := 4096 })).failures = [.frame]
    ∧ (Instr.flit 0 (tArr (tFrame 1))).wf = true := by decide +kernel
theorem test_wf_token : (Instr.debugUnlock .jtag []).failures = [.token]
    ∧ (Instr.debugUnlock .jtag (zeroBytes 256)).wf = true := by decide +kernel
theorem test_wf_nonce : (Instr.challenge 0 []).failures = [.nonce] ∧ (Instr.challenge 0 (zeroBytes 32)).wf = true := by decide
theorem test_wf_training :
    (Instr.dramTrainingComplete 0 (.module { density := 4, ranks := 1, stack := 0, mfr := 0, topRate := 1 } 1)).failures
        = [.training] ∧ (Instr.dramTrainingComplete 0 .absent).wf = true := by decide
theorem test_wf_width : (Instr.pcieLinkTrained 5 3).failures = [.width] ∧ (Instr.pcieLinkTrained 5 4).wf = true := by decide
theorem test_wf_tap : (Instr.samplePreload (2 ^ 2944)).failures = [.tap] ∧ (Instr.samplePreload (2 ^ 2944 - 1)).wf = true := by
  decide +kernel
theorem test_wf_instance : (Instr.drbgReseed 3).failures = [.instance_] ∧ (Instr.drbgReseed 2).wf = true := by decide

/-- A public key on brainpoolP384r1 (private key 7), by its digest; a debug token and an image of one component signed with it. -/
def tKeyHash : List Byte := toBytesLE 48 0x2ba85cc2e59e08d56e340da1d128d9ccb5794d9ecf4b350dc079661f2f72894fa848faf60fbbc771eb501d0e993dbbc2

def tToken : List Byte := toBytesLE 256 0x522c286b93a73ebb7d85fe712d20729fc9d4ff9edb5e09ec3e1556efc718d08df0eb76b2a05bf5b7efd5f9314a713562307832ee452879e1eacd8357eaac9a89885504285eabe7b5aee1dbb246950c1179c9c32905698fc7662a871a41c2084b0000000000000000000000000000008741db24782054fca50dd92d97a93ced727c6554ae1ef585ef68d5ca7db1175cc9f3365a510bbe333de41992afd2307a81f1bc0273dc760c16aae8914e05ae4482757f2f52be47ffe5c15689bc817774644af0dd813039f73bbfdcef55f9606404000000000000000200000000000000000000000000000000000000000000000000000000000000000000000000000000

def tFwN : Nat := 0x3dca0aaae986ea88a22c74141d1ef25ca81a21ea4c258229a346081387e7a7ea28c8089bc1c4f44796c7db058d3b7c70307832ee452879e1eacd8357eaac9a89885504285eabe7b5aee1dbb246950c1179c9c32905698fc7662a871a41c2084b000000000000000000000000000000000000000000000000000000000000000000000000000000000000000000000000000000000000000000000000000000000000000000000000000000000000000000000000000000000000000000000000000000000000000000000000000000000000000000000000000000000000000000000000000000000000000000000000000000000000000000000000000000000000000000000000000000000000000000000000000000000000000000000000000000000000000000000000000000000000000000000000000000000000000000000000000000000000000000000000000000000000000000000000000000000000000000000000000000000000000000000000000000000000000000000000000000000000000000000000000000000000000000000000000000000000000000000000000000000000000000000000000000000000000000000000000000000000000000000000000000000000000000000000000000000000000000000000000000000000000000000000000000000000000000000000000000000000000000000000000000000000000000000000000000000000000000000000000000009cb6c436b6b1ce076b51e5f37c8dec8e79fb4a22c90087beb101f8ea13400266883fe471f6c7b43ea85e1084e5d53e8b0000000000001000000000100000000300000000000000000000000000000000000000000000000000000000000000000000000000000000000000000000000000000000000000000000000000000000000000000000000000000000000000000000000000000000000000000000008741db24782054fca50dd92d97a93ced727c6554ae1ef585ef68d5ca7db1175cc9f3365a510bbe333de41992afd2307a81f1bc0273dc760c16aae8914e05ae4482757f2f52be47ffe5c15689bc817774644af0dd813039f73bbfdcef55f96064040000000000000000000000000000000000000000000000000000000000000007000020000100030100000000000000000000000008140b00000100014d495845 + 0x2e4547414d49205245434e4555514553 * 256 ^ 0x1000
/-! ### Contents laid into memory, read back as numbers -/

/-- The low byte at place i of a number. -/
def tByte (n i : Nat) : Byte := BitVec.ofNat 8 (n / 256 ^ i)

theorem toBytesLE_getD (d : Byte) : ∀ (k n i : Nat), i < k → (toBytesLE k n).getD i d = tByte n i
  | 0, _, _, h => absurd h (by omega)
  | k + 1, n, 0, _ => by simp [toBytesLE, tByte]
  | k + 1, n, i + 1, h => by
    have := toBytesLE_getD d k (n / 256) i (by omega)
    simp only [toBytesLE, List.getD_cons_succ, this, tByte, Nat.div_div_eq_div_mul, Nat.pow_succ, Nat.mul_comm]

theorem toBytesLE_length : ∀ (k n : Nat), (toBytesLE k n).length = k
  | 0, _ => rfl
  | k + 1, n => by simp [toBytesLE, toBytesLE_length k]

/-- Bytes laid at a place, read anywhere. -/
theorem cellRead_placed (d : Byte) (base k n x : Nat) :
    cellRead d (cellWriteList d [] base (toBytesLE k n)) x = if base ≤ x ∧ x < base + k then tByte n (x - base) else d := by
  have hl := toBytesLE_length k n
  by_cases h : base ≤ x ∧ x < base + k
  · rw [if_pos h]
    obtain ⟨i, rfl⟩ := Nat.exists_eq_add_of_le h.1
    have hi : i < (toBytesLE k n).length := by omega
    rw [cellRead_cellWriteList_inside d _ [] base i List.Pairwise.nil hi, Nat.add_sub_cancel_left, ← toBytesLE_getD d k n i (by omega),
      List.getD_eq_getElem _ _ hi]
  · rw [if_neg h, cellRead_cellWriteList_outside d _ [] base x List.Pairwise.nil (by omega)]
    rfl

/-- The same for zeros around the bytes, where the number is that long. -/
theorem cellRead_placed_zero (base k n x : Nat) (hn : n < 256 ^ k) (hx : base ≤ x) :
    cellRead 0 (cellWriteList 0 [] base (toBytesLE k n)) x = tByte n (x - base) := by
  rw [cellRead_placed]
  by_cases h : base ≤ x ∧ x < base + k
  · rw [if_pos h]
  · rw [if_neg h]
    have hp : 256 ^ k ≤ 256 ^ (x - base) := Nat.pow_le_pow_right (by decide) (by omega)
    simp [tByte, Nat.div_eq_of_lt (Nat.lt_of_lt_of_le hn hp)]

/-- Bytes of a number. -/
def tBytes (n a k : Nat) : List Byte := (List.range k).map fun i => tByte n (a + i)

/-- Device DRAM that holds a number's bytes at a place and nothing else. -/
def tMem (base k n : Nat) : Mem := { tS.mem with cells := cellWriteList 0 [] base (toBytesLE k n) }

theorem tMem_bytes (base k n a c : Nat) (hn : n < 256 ^ k) : (tMem base k n).bytes (base + a) c = tBytes n a c := by
  refine List.map_congr_left fun i _ => ?_
  show cellRead 0 (cellWriteList 0 [] base (toBytesLE k n)) (base + a + i) = _
  rw [cellRead_placed_zero base k n _ hn (by omega)]
  congr 1; omega

/-- Flash that holds a number's bytes at a place. -/
def tFlash (base k n : Nat) : List (Nat × Byte) := cellWriteList 0xFF [] base (toBytesLE k n)

theorem tFlash_bytes (nv : Nv) (base k n a c : Nat) (h : nv.flash = tFlash base k n) :
    nv.bytes a c = (List.range c).map fun i => if base ≤ a + i ∧ a + i < base + k then tByte n (a + i - base) else 0xFF := by
  refine List.map_congr_left fun i _ => ?_
  rw [h]; exact cellRead_placed 0xFF base k n (a + i)

theorem tFw_verifies : verifyImage { tS.nv.fuses with keyHash0 := tKeyHash } (some 3) (tBytes tFwN) = 0 := by decide +kernel
theorem tToken_accepted :
    tokenAccepted { tS.nv.fuses with debugKeyHash := tKeyHash } (some (zeroBytes 32)) tToken = true := by decide +kernel

/-- The bytes of that flash. -/
def tFwByte (x : Nat) : Byte := if slotBase 0 ≤ x ∧ x < slotBase 0 + 0x1010 then tByte tFwN (x - slotBase 0) else 0xFF

def tFwNv : Nv :=
  { tS.nv with fuses := { tS.nv.fuses with keyHash0 := tKeyHash }, flash := tFlash (slotBase 0) 0x1010 tFwN }

theorem tFwNv_bytes : tFwNv.bytes = fun a c => (List.range c).map fun i => tFwByte (a + i) := by
  funext a c; unfold tFwByte; exact tFlash_bytes tFwNv _ _ _ a c (by unfold tFwNv; with_reducible rfl)

theorem tFwNv_slot (k : Nat) : tFwNv.slotReader k = fun a c => (List.range c).map fun i => tFwByte (slotBase k + a + i) := by
  unfold Nv.slotReader; rw [tFwNv_bytes]

theorem tFwNv_bcb : tFwNv.bcb = none := by
  have h0 : tFwNv.bcbCopy 0 = none := by unfold Nv.bcbCopy; rw [tFwNv_bytes]; decide +kernel
  have h1 : tFwNv.bcbCopy 1 = none := by unfold Nv.bcbCopy; rw [tFwNv_bytes]; decide +kernel
  unfold Nv.bcb; rw [h0, h1]

theorem tFwNv_bootable : bootable tFwNv (bootCandidates tFwNv true) = [(0, false)] := by
  have h0 : verifyImage tFwNv.fuses none (tFwNv.slotReader 0) = 0 := by rw [tFwNv_slot]; decide +kernel
  have h1 : verifyImage tFwNv.fuses none (tFwNv.slotReader 1) = 1 := by rw [tFwNv_slot]; decide +kernel
  unfold bootCandidates bootable; rw [tFwNv_bcb]
  show List.filter _ [(0, false), (1, false)] = _
  rw [List.filter_cons_of_pos (by show (_ == _) = true; rw [h0]; rfl), List.filter_cons_of_neg (by show ¬ (_ == _) = true; rw [h1]; decide)]
  rfl
/-! ### Witnesses: the block as a whole, JTAG, the sideband -/

theorem witness_StepCarriesOutTheFrontCommand :
    ({ tS with pending := [.refresh 0 1, .guardEvaluate] } : State).pending = .refresh 0 1 :: [.guardEvaluate] := rfl

theorem witness_AnIdleStepPassesOneStitchCount :
    (tS.pending = [] ∧ tS.live = true ∧ 115 < tS.pow.domains.length ∧ (tS.domain 115).state = 2 ∧ tS.dbg.held = none)
    ∧ State.reset.pending = [] ∧ State.reset.live = false := by decide +kernel

theorem witness_FusesAreBlownOnlyAtConfirmation :
    (Instr.refresh 0 1).blowsFuses = false ∧ tS.nv.fuses.revoke0 = false
    ∧ ({ tS.nv.fuses with revoke0 := true } : Fuses).revoke0 = true ∧ ∃ t, exec (.refresh 0 1) tS = .next t := by
  refine ⟨rfl, rfl, rfl, _, rfl⟩

theorem witness_DebugLevelMovesOnlyByTokenOrReset :
    let s : State := { tS with dbg := { tS.dbg with level := 1 } }
    ∃ t, exec (.porNAssert 5000) s = .next t ∧ t.dbg.level ≠ s.dbg.level := by
  refine ⟨_, rfl, ?_⟩; decide

theorem tS_inv : Inv tS := ⟨by decide, rfl, by decide, by decide⟩

theorem witness_EveryStepKeepsTheInvariant : Inv tS ∧ ∃ t, step { tS with pending := [.refresh 0 1] } = .next t :=
  ⟨tS_inv, _, rfl⟩

theorem witness_InResetOnlyBoardSidebandAndTapAct :
    ((Instr.refresh 0 1).needsClock = true ∧ State.reset.live = false ∧ State.reset.ops = [])
    ∧ (({ State.reset with board := { State.reset.board with tripped := true } } : State).board.tripped = true
      ∧ ∃ t, exec .railsGood { State.reset with board := { State.reset.board with tripped := true } } = .next t) :=
  ⟨by decide, rfl, _, rfl⟩

/-- The TAP with POR_N low and with POR_N high. -/
theorem witness_TapInstructionsLoadAsTheTableGives :
    State.reset.tapUp = true ∧ State.reset.board.por = true ∧ tS.tapUp = true ∧ tS.board.por = false
    ∧ (0xFF : Byte).toNat ∉ [0, 1, 2, 3, 4, 5, 6, 0x10, 0x11, 0x12] ∧ 2 ^ 2944 - 1 < 2 ^ 2944 := by decide +kernel

/-- I3C is STRAP[0] low; the alert response belongs to the SMBus. -/
theorem witness_MctpAndPldmAnswer :
    let smbus : State := { tS with boot := { tS.boot with straps := 1 }, sb := { tS.sb with alert := 1 } }
    let e : PlatformEvent := { sensor := 12, value := 1, detail := [] }
    let d : State := { tS with sb := { tS.sb with due := [e], events := [e] } }
    (tS.sbRom = true ∧ tS.sbFirmware = true ∧ busI3c tS = true ∧ (0x60 : Byte).toNat = 0x60 + natBits tS.boot.straps.toNat 1 3
      ∧ tS.sb.dynAddr = none)
    ∧ (smbus.sbRom = true ∧ busI3c smbus = false ∧ smbus.sb.alert ≠ 0)
    ∧ (d.sbRom = true ∧ d.sb.due = e :: [] ∧ d.sb.events.length < 16 ∧ d.sb.events = e :: []) := by decide +kernel

theorem witness_SpdmConnectionRunsInOrder :
    let s3 : State := { tS with sb := { tS.sb with spdm := 3 } }
    let s0 : State := { s3 with rng := { s3.rng with state := 0 } }
    s3.sbFirmware = true ∧ 3 ≤ s3.sb.spdm ∧ s3.rng.state = 1 ∧ s0.rng.state = 0 ∧ s0.sbFirmware = true
    ∧ natBit (0x80 : Word).toNat 7 = true ∧ natBit (2 : Word).toNat 1 = true ∧ natBit (4 : Word).toNat 2 = true := by decide +kernel

theorem witness_SidebandReadsAlertsAndRecovery :
    let r : State := { tS with boot := { tS.boot with recovery := true } }
    let h := fun (n : Nat) => ({ tS with sb := { tS.sb with held := List.replicate n (.alertRead 0) } } : State)
    (tS.sbRom = true ∧ tS.sbFirmware = true ∧ tS.sbHolds = 0 ∧ 0x3FFF < 0x4000 ∧ wselValid 4 31 = true ∧ 0xFFFF < 2 ^ 16)
    ∧ (∀ n ∈ [1, 3], (h n).sbRom = true ∧ 1 ≤ (h n).sbHolds ∧ (h n).sbHolds < 4) ∧ ((h 4).sbRom = true ∧ 4 ≤ (h 4).sbHolds)
    ∧ (r.sbRom = true ∧ r.boot.recovery = true ∧ r.sbHolds = 0 ∧ cellsWf 0xFF r.nv.flash = true ∧ 0x01FFFFD0 + 48 ≤ 0x02000000
      ∧ 48 ≤ 8 * (List.replicate 6 (0 : DWord)).length ∧ 0x01FFF000 % 4096 = 0 ∧ 0x01FF0000 % 65536 = 0
      ∧ 0x01FFFFC0 + 64 ≤ 0x02000000) := by decide +kernel

theorem witness_SidebandRequestsSteerNothing : tS.ops = [] ∧ ∃ t, exec (.sbRead 1 [0]) tS = .next t := ⟨rfl, _, rfl⟩


/-! ### Witnesses: the debug port, rails and resets, start-up -/

def tCoreAt : CoreAt := { die := 7, row := 23, col := 31 }

theorem witness_DebugPortFollowsTheLock :
    let fuses : Fuses := { tS.nv.fuses with debugKeyHash := tKeyHash }
    let d : State := { tS with nv := { tS.nv with fuses := fuses }, dbg := { tS.dbg with challenge := some (zeroBytes 32), level := 2 } }
    let src := tNarrow 0 false
    let w := DebugPacket.writeArray tCoreAt 6143 1
    let r := DebugPacket.readField { tCore with die := 0 } 0
    let run : State := { tRuns tRun with dbg := d.dbg }
    (d.sbRom = true ∧ d.sbFirmware = true ∧ d.sbHolds = 0 ∧ d.tapUp = true ∧ d.live = true ∧ d.nv.fuses.debugDisable = false
      ∧ d.rng.state = 1)
    ∧ (debugWhole (tHead 7 0 0) src (.readWindow 7 0) = true ∧ debugWhole (tHead 7 31 23) src w = true
      ∧ (NarrowHead.ofWord (tHead 7 31 23).bits).col ≠ 127 ∧ debugWhole (tHead 8 0 0) src (.halt false) = true
      ∧ debugWhole (tHead 8 0 0) src (.stepCore false) = true)
    ∧ (debugWhole (tHead 0 0 0) src (.readArray tCore 0) = true ∧ (d.debugRead (.readArray tCore 0)).isSome = true
      ∧ d.readWaits (.readArray tCore 0) = false ∧ debugWhole (tHead 0 0 0) src r = true ∧ (run.debugRead r).isSome = true)
    ∧ ({ d with rng := { d.rng with state := 0 } } : State).sbFirmware = true
    ∧ ({ fuses with debugDisable := true } : Fuses).debugDisable = true
    ∧ tokenAccepted d.nv.fuses d.dbg.challenge tToken = true
    ∧ tokenAccepted d.nv.fuses d.dbg.challenge [] = false
    ∧ (1 ≤ d.dbg.level ∧ d.dbg.level = 2 ∧ tCoreAt.wf = true ∧ 6143 < 6144 ∧ (d.engine tCoreAt.die).pattern = none)
    ∧ tS.dbg.level < 2 ∧ (∃ t, exec (.dbgAccess (tHead 7 31 23) (tNarrow 0 false) (.writeArray tCoreAt 6143 1)) tS = .next t)
    ∧ ((tRuns tRun).engine 0).pattern.isSome = true :=
  ⟨by decide +kernel, by decide +kernel, by decide +kernel, by decide +kernel, rfl, tToken_accepted, by decide +kernel, by decide +kernel,
    by decide +kernel, ⟨_, rfl⟩, rfl⟩

theorem witness_ResetsDiscardAllStateButFusesAndFlash : 5000 ≤ 5000 ∧ 4999 < 5000 := by decide

theorem witness_StartUpBeginsWhenPinsAndRailsAllow :
    let up : State := { State.reset with board := { State.reset.board with railsBad := [], hubRef := true } }
    (up.ops = [] ∧ up.boot.released = false ∧ up.board.railsBad = [] ∧ up.board.hubRef = true ∧ up.board.tripped = false)
    ∧ (tS.ops = [] ∧ tS.boot.released = true)
    ∧ (({ tBoot with boot := { tBoot.boot with latched := false } } : State).live = true)
    ∧ tBoot.live = true ∧ tBoot.boot.latched = true := by decide +kernel

theorem witness_BootRomSelectsAnImageOrHoldsInRecovery :
    let s : State := { tBoot with boot := { tBoot.boot with straps := 1 }, nv := tFwNv }
    (s.live = true ∧ s.boot.fwVerified = false ∧ s.boot.recovery = false ∧ s.fw.noCore = false ∧ s.boot.latched = true)
    ∧ ((true || false) = true ∧ (0x20 : Byte).getLsbD 5 = true)
    ∧ s.boot.straps.getLsbD 5 = false ∧ bootable s.nv (bootCandidates s.nv true) = (0, false) :: [] :=
  ⟨⟨rfl, rfl, rfl, rfl, rfl⟩, by decide, rfl, tFwNv_bootable⟩

theorem witness_StartUpTrainsTestsAndBecomesReady :
    let b : State := { tBoot with boot := { tBoot.boot with fwVerified := true } }
    let s : State := { b with boot := { b.boot with trained := List.range 7 } }
    (let h : State := { b with boot := { b.boot with coldHold := true } }; h.live = true ∧ h.boot.coldHold = true
      ∧ h.boot.fwVerified = true ∧ h.cold = false)
    ∧ (b.live = true ∧ b.boot.fwVerified = true ∧ b.boot.coldHold = false ∧ 7 ∉ b.boot.trained ∧ b.dram.channels.length = 8
      ∧ b.boot.trained.length < 7)
    ∧ (s.boot.fwVerified = true ∧ s.boot.coldHold = false ∧ 7 ∉ s.boot.trained ∧ s.boot.trained.length = 7)
    ∧ (b.boot.enginesIdle = false ∧ tCoreAt.wf = true ∧ b.grid.engines.length = 8
      ∧ (∀ f ∈ (b.engine tCoreAt.die).fenced, f.1 ≠ tCoreAt.row) ∧ tCoreAt.row ∉ (b.engine tCoreAt.die).repaired)
    ∧ (let r : State := { tS with boot := { tS.boot with ready := false } }; r.live = true ∧ r.boot.ready = false
      ∧ r.fw.noCore = false ∧ r.boot.enginesIdle = true ∧ r.boot.trained.length = 8 ∧ r.boot.cfgAnswered = true
      ∧ ∃ c ∈ r.dram.channels, c.hasTrained = true) := by decide +kernel

/-! ### Witnesses: links, heat, power -/

theorem witness_PcieLinkTrainsAndDrops :
    let down : State := { tS with host := { tS.host with link := 0 } }
    (tS.live = true ∧ tS.ops = [] ∧ tS.grid.runs = [] ∧ 999 < 1000 ∧ (∀ r ∈ (tRuns tRun).grid.runs, ((tRuns tRun).engine r.lead).state ≠ 4) ∧ tS.host.session = true ∧ tS.host.link ≠ 0
      ∧ tS.nl.ports.length = 4)
    ∧ ({ tS.host with link := 1 } : HostPort).link = 1
    ∧ (down.live = true ∧ down.host.link = 0 ∧ down.board.perst = false ∧ down.board.pcieRef = true)
    ∧ (let r : State := { tS with board := { tS.board with pcieRef := false } }
       r.live = true ∧ r.nl.ports.length = 4 ∧ r.board.pcieRef = false) := by decide +kernel

theorem witness_DetachPausesEveryRunningRun :
    let s := tRuns tRun
    let d : State := { s with host := { s.host with attached := false } }
    (s.live = true ∧ s.ops = [] ∧ s.host.link = 2 ∧ s.host.session = true ∧ s.host.attached = true
      ∧ ∀ r ∈ s.grid.runs, (s.engine r.lead).state ≠ 4)
    ∧ (d.live = true ∧ d.ops = [] ∧ d.host.link = 2 ∧ ¬ (d.host.session = true ∧ d.host.attached = true)) := by decide +kernel

/-- Below 110 degC, at it with the guard armed or not, and at 115 degC. -/
theorem witness_OverheatingRaisesShutdownAndTrips :
    (tS.sbRom = true ∧ 8 ≤ 8 ∧ tS.pow.guards.length = 9 ∧ tS.live = true ∧ (tS.guard 8).armed = true ∧ (tS.guard 8).level = 0)
    ∧ (∀ r ∈ [(1839 : Int), -640], r < 1840) ∧ (∃ r ∈ [(1840 : Int)], 1840 ≤ r)
    ∧ (∃ t, exec (.sensorSample 8 [1760]) tS = .next t ∧ 1760 ≤ (t.guard 8).temp)
    ∧ ∃ t, exec (.sensorSample 8 [1759, 0]) tS = .next t ∧ (t.guard 8).temp < 1760 := by
  refine ⟨by decide +kernel, by decide, by decide, ⟨_, rfl, by decide +kernel⟩, _, rfl, by decide +kernel⟩

/-- Thresholds at the temperature, 48 above it and 49 above it. -/
theorem witness_GuardLevelsFollowTheThreshold :
    (tS.sbRom = true ∧ tS.live = true ∧ tS.pow.guards.length = 9 ∧ tS.pow.nextThreshold = 1600)
    ∧ ((1600 : Nat) : Int) ≤ 1600 ∧ (1551 : Int) + 48 < (1600 : Nat) ∧ ((1552 : Int) < (1600 : Nat) ∧ ((1600 : Nat) : Int) ≤ 1552 + 48) := by
  decide +kernel

/-- A domain of an idle die, in each state and policy. -/
def tDom (st force : Nat) (s : State := tS) : State :=
  { s with
    pow :=
      { s.pow with
        domains := s.pow.domains.mapIdx fun _ d => { d with state := st, cfg := { d.cfg with force := force } } } }

theorem witness_DomainsRestAndWake :
    (tS.live = true ∧ tS.pow.domains.length = 116)
    ∧ (let s := tDom 2 0; (s.domain 9).state = 2 ∧ mayRest s 9 = true ∧ (s.domain 9).cfg.force % 4 = 0)
    ∧ (let s := tDom 2 1; (s.domain 0).state = 2 ∧ mayRest s 0 = true ∧ (s.domain 0).cfg.force % 4 = 1 ∧ domainMayBeOff 0 = true)
    ∧ (let s := tDom 2 2 (tRuns tRun tPat 2); (s.domain 9).state = 2 ∧ mayRest s 9 = true ∧ mayBeOff s 9 = false
        ∧ (s.domain 9).cfg.force % 4 = 2 ∧ domainMayBeOff 9 = true)
    ∧ (let s := tDom 2 2; (s.domain 9).state = 2 ∧ mayBeOff s 9 = true ∧ (s.domain 9).cfg.force % 4 = 2 ∧ 9 < 96 ∧ 9 % 12 = 9
        ∧ s.grid.engines.length = 8)
    ∧ ((tDom 3 0).domain 115).state = 3 ∧ ((tDom 4 0).domain 9).state = 4 ∧ ((tDom 1 0).domain 9).state = 1
    ∧ (((tDom 0 0).domain 110).state = 0 ∧ mayWake (tDom 0 0) 110 = true)
    ∧ (let s : State := { tDom 0 0 with nl := .reset }; (s.domain 110).state = 0 ∧ mayWake s 110 = false) := by decide +kernel

/-! ### Witnesses: joining devices -/

def tPort : Port := { Port.reset with state := 2, enable := true, prsnt := true }
def tWithPort (i : Nat) (p : Port) (s : State := tS) : State :=
  { s with nl := { s.nl with ports := modifyAt (fun _ => p) i s.nl.ports } }

theorem witness_PortsTrainAndDetach :
    (tS.live = true ∧ tS.nl.ports.length = 4 ∧ tS.grid.runs = [] ∧ tS.host.link = 2 ∧ tS.boot.ready = true ∧ (tS.domain 110).state = 2)
    ∧ ((tWithPort 3 { tPort with retraining := true }).port 3).state = 2
    ∧ ((tWithPort 3 { tPort with retraining := true }).port 3).retraining = true
    ∧ (∀ k, k < 8 → k ∈ List.range 8)
    ∧ ((∀ k, k < 4 → k ∈ List.range 7) ∧ ∃ k, k < 8 ∧ k ∉ List.range 7) ∧ (∃ k, k < 4 ∧ k ∉ [0, 1, 2, 4, 5, 6, 7])
    ∧ ((2 : Word).getLsbD 0 = false ∧ (1 : Word).getLsbD 0 = true)
    ∧ ((tWithPort 0 { tPort with state := 0 }).port 0).state ≤ 1 ∧ ((tWithPort 0 { tPort with prsnt := false, state := 1 }).port 0).prsnt = false := by
  decide +kernel

/-! ### Witnesses: frames and messages -/

/-- A frame to node 1 that carries its CRC. -/
def tFrameOk (ty seq : Nat) (payload : List Byte) : LinkFrame :=
  let f : LinkFrame :=
    { type := ty, dest := 1, src := 2, seq := seq, ack := 4095, ackValid := true, count := 7, stream := 9, first := 0,
      payload := payload, crc := 0 }
  { f with crc := BitVec.ofNat 32 (crc32 (LinkFrame.body f)) }

def tStream : OpenStream := { port := 3, src := 2, stream := 9, dest := 2 ^ 38 - 2 ^ 31 - 64, length := 64, kind := 1, got := 0, bytes := [] }

theorem witness_FramesAreTakenInSequence :
    let f := tFrameOk 0 0 []
    let s : State := tWithPort 3 { tS.port 3 with replay := [tFrameOk 1 4095 []], recvSeq := 4095, failures := 6, resends := 6 }
    let b : State := { s with nl := { s.nl with streams := [tStream] } }
    (s.live = true ∧ 3 < 4 ∧ s.nl.ports.length = 4 ∧ (s.port 3).state = 3 ∧ ∀ r ∈ s.grid.runs, r.blk.loose = false)
    ∧ (f.type = 0 ∧ LinkFrame.good f = true ∧ f.ackValid = true ∧ (s.port 3).replay = [] ++ tFrameOk 1 4095 [] :: [] ∧ (tFrameOk 1 4095 []).seq = f.ack)
    ∧ (∀ ty ∈ [1, 2, 3], LinkFrame.good (tFrameOk ty 4095 (zeroBytes 240)) = true ∧ s.nl.node = some (tFrameOk ty 4095 []).dest
        ∧ (tFrameOk ty 4095 []).seq = (s.port 3).recvSeq)
    ∧ (b.nl.streams.find? (fun y => y.takes 3 2 9) = some tStream ∧ tStream.kind = 1 ∧ b.inDram (tStream.dest + tStream.length) = true
      ∧ (zeroBytes 240).take (min 240 (tStream.length - tStream.got)) ≠ [])
    ∧ (let x : OpenStream := { tStream with kind := 0, length := 241 }
       x.kind ≠ 1 ∧ x.got + ((zeroBytes 240).take (min 240 (x.length - x.got))).length < x.length)
    ∧ (LinkFrame.good (tFrameOk 1 4094 (zeroBytes 240)) = true ∧ (tFrameOk 1 4094 []).seq ≠ (s.port 3).recvSeq)
    ∧ (let p : Port := { tPort with txq := [tFrameOk 2 0 [], tFrameOk 1 0 [], tFrameOk 4 0 []] }
       p.pick = some (tFrameOk 4 0 [], [tFrameOk 2 0 [], tFrameOk 1 0 []]))
    ∧ (LinkFrame.good { tFrameOk 1 4095 [] with crc := 0 } = false ∧ (s.port 3).failures < 7 ∧ (s.port 3).replay ≠ [] ∧ (s.port 3).resends < 7) := by
  decide +kernel

def tVote : VoteMsg := { tag := 0, index := 0, slot := 0, kind := 3, value := 1, origin := 15 }
def tArm (o m : Nat) : ArmMsg :=
  { tag := 0, shardMask := BitVec.ofNat 64 m, hash16 := zeroBytes 16, seeds := [], launch := 0, profile := 0, origin := o }
def tTopo (n : Nat) (ps : List (Nat × Nat × Nat)) : TopoMsg := { unit := 77, node := n, sequence := 0, ports := ps }

/-- Node 2 beyond port 0, both ends up. -/
def tTwo : State :=
  { tS with
    nl :=
      { tS.nl with
        ports := modifyAt (fun p => { p with peerNode := some 2, peerPort := 1, peerUnit := 77 }) 0 tS.nl.ports
        heard := [{ msg := tTopo 2 [(255, 0, 0), (1, 0, 3)], at_ := 0 }] } }

/-- A CONTROL frame with a message. -/
def tCtl (m : PeerMsg) : Arrival := tArr (tFrameOk 4 0 m.encode)
def tSum : SumMsg := { tag := 0, tick := 0, origin := 15, values := [1, -1] }
def tAck : HemAckMsg := { tag := 0, tick := 4, shard := 63, slot := 1, buddy := 3 }
def tLostMsg (n : Nat) : LostMsg := { lost := n, detector := 3, stitch := 2 ^ 64 - 1 }
def tLinkMsg : LinkMsg := { unit := 77, node := 255, port := 3, latency := 97 }

/-- Each message comes out of its frame as it went in. -/
theorem witness_ControlMessagesAndTheStitchDomain_frames :
    ∀ m ∈ [PeerMsg.vote tVote, .sum tSum, .arm { tArm 15 (2 ^ 64 - 1) with seeds := [1, 2, 3, 4] }, .hemAck tAck,
        .peerLost (tLostMsg 15), .link tLinkMsg, .topology (tTopo 2 [(255, 0, 0), (1, 0, 3), (255, 0, 0), (255, 0, 5)]),
        .stitch 5 15 1],
      LinkFrame.good (tCtl m).frame = true ∧ (tCtl m).frame.type = 4 ∧ (tCtl m).frame.seq = (tS.port 3).recvSeq
      ∧ PeerMsg.decode (tCtl m).frame.payload = some m ∧ (m.key = none ∨ ∃ k ∈ m.key, k ∉ tS.nl.flooded) := by decide +kernel

/-- A root other than this node, reached by port 0; a lower and a higher root; a peer of another unit; a message that has grown old. -/
theorem witness_ControlMessagesAndTheStitchDomain :
    (tS.hears 3 = true ∧ tS.nl.ports.length = 4 ∧ tS.grid.runs = [] ∧ tVote ∉ tS.nl.votes ∧ tVote.origin ≠ tS.nodeCode
      ∧ (tArm 15 1) ∉ tS.nl.arms ∧ (tArm 15 1).origin ≠ tS.nodeCode ∧ tS.nl.acks = [] ∧ tS.nl.lost = [] ∧ tS.nl.sums = []
      ∧ 3 ≠ tS.nodeCode ∧ (tTopo 2 []).unit ≠ tS.nv.fuses.unitId ∧ tS.nl.clashed = false)
    ∧ (let h : Heard := { msg := tTopo 2 [], at_ := 0 }
       let s : State := { tTwo with nl := { tTwo.nl with heard := [h] }, cnt := { tTwo.cnt with stitch := 30000001 } }
       s.grid.runs = [] ∧ h ∈ s.nl.heard ∧ h.msg.unit = 77 ∧ h.at_ + 30000000 < s.cnt.stitch)
    ∧ (let s : State := { tTwo with nl := { tTwo.nl with root := some 2 } }
       s.live = true ∧ s.nl.node = some 1 ∧ s.nl.root = some 2 ∧ s.hears 0 = true ∧ 2 < 16 ∧ 2 ∉ s.clashes ∧ 1 ≠ 2 ∧ s.routePort 2 = some 0)
    ∧ (tS.nl.root = some 0 ∧ tS.hears 0 = true ∧ 15 ∉ tS.clashes ∧ 15 ≠ 0) := by decide +kernel

/-- A run over nodes 1 and 2, shard 0 on node 2 and shard 1 here. -/
def tJoint : Run := { tRun with nodes := [1, 2], launched := [1, 2] }
def tShards : Pattern := { tPat with header := { tPat.header with shards := 2 }, places := [(1, 0)] }
def tHem : Hem :=
  { tick := 4, slot := 0, acked := [0], replicas := [], rungMap := [0], pendMap := none, results := .zero 1, cores := [] }

theorem witness_LaunchesAndLossesOfJoinedRuns :
    (let s := tRuns tJoint tShards; s.live = true ∧ s.grid.runs = [tJoint] ∧ s.pattern tJoint.pattern = some tShards
      ∧ s.grid.engines.length = 8 ∧ tJoint.mask % 256 ≠ 0 ∧ s.hears 0 = true ∧ s.nl.ports.length = 4 ∧ s.nl.lost = [] ∧ 1 ≠ 2
      ∧ (tLostMsg 2).detector ≠ s.nodeCode
      ∧ LinkFrame.good (tCtl (.peerLost (tLostMsg 2))).frame = true ∧ (tCtl (.peerLost (tLostMsg 2))).frame.seq = (s.port 0).recvSeq
      ∧ PeerMsg.decode (tCtl (.peerLost (tLostMsg 2))).frame.payload = some (.peerLost (tLostMsg 2))
      ∧ tJoint.begun = true ∧ tJoint.ended = none ∧ 2 ∈ tJoint.nodes ∧ tJoint.wants = [])
    ∧ (let r := { tRun with begun := false, armed := true }; let s := tRuns r tShards
       s.grid.runs = [r] ∧ s.pattern r.pattern = some tShards ∧ r.mask % 256 ≠ 0 ∧ r.armed = true ∧ r.voted = none
       ∧ r.blk.launch.toNat ≤ s.cnt.stitch ∧ (s.badShard r.tag tShards.header.shards).isSome = true ∧ s.nl.votes = []
       ∧ s.selfClash = false ∧ s.launchVote r tShards = 0
       ∧ (let c : State := { s with nl := { s.nl with heard := [{ msg := tTopo 1 [], at_ := 0 }] } }
          c.selfClash = true ∧ c.launchVote r tShards = 2)
       ∧ let s : State := { s with nl := { s.nl with arms := [tArm 1 2, tArm 2 1] } }
         let r := { r with blk := { r.blk with buddies := [2, 2] } }
         let s : State := { s with grid := { s.grid with runs := [r] } }
         s.launchVote r tShards = 1 ∧ s.nl.votes = [] ∧ 2 ∈ s.armNodes r.tag ∧ 2 ≠ s.nodeCode)
    ∧ (let r := { tJoint with lost := [2], nodes := [1], hems := [tHem] }
       let s : State := let s := tRuns r tShards 5; { s with nl := { s.nl with arms := [tArm 1 2, tArm 2 1], acks := [{ tag := 0, tick := 4, shard := 0, slot := 0, buddy := 3 }] } }
       s.grid.runs = [r] ∧ r.begun = true ∧ r.lost ≠ [] ∧ r.ended = none ∧ r.noRehost = false ∧ s.continues r = true
       ∧ (s.engine r.lead).state = 5
       ∧ s.rewindHem r (s.lostShards r tShards) (fun t n => s.buddyOf r.tag t n) = some tHem ∧ (∀ n ∈ s.lostShards r tShards, n = 0)
       ∧ s.buddyOf r.tag 4 0 = some 3 ∧ 3 ∉ r.lost ∧ s.nl.node ≠ some 3
       ∧ let r := { r with hems := [] }; s.rewindHem r (s.lostShards r tShards) (fun t n => s.buddyOf r.tag t n) = none) := by
  decide +kernel

/-! ### Witnesses: the admin mailbox -/

theorem witness_MailboxCommandsNeedTheirOpcodeAndSession :
    let s : State := { tHolds 0x0101 [] with host := { (tHolds 0x0101 []).host with session := false } }
    (Instr.queueCreate.adminOp = some 0x0101 ∧ tS.ops = [] ∧ tS.adminHolds 0x0101 = false)
    ∧ (s.ops = [] ∧ s.adminHolds 0x0101 = true ∧ s.host.session = false ∧ needsSession 0x0101 = true
      ∧ ∃ t, exec .queueCreate s = .next t) :=
  ⟨by decide +kernel, by decide +kernel, by decide +kernel, rfl, by decide, _, rfl⟩

/-- A fault-log entry. -/
def tEntry : LogEntry := { stitch := 5, number := 0, kind := 11, source := 0, queue := 0, place := 0 }

theorem witness_MailboxReadsAnswerFromTheState :
    (∀ op ∈ [0x0001, 0x0402, 0x0411, 0x0501, 0x0301], (tHolds op []).adminHolds op = true ∧ (tHolds op []).host.mbxArgs.length = 8)
    ∧ (let s : State := { tHolds 0x0301 [] with log := { entries := [tEntry], appended := 1 } }
       s.adminHolds 0x0301 = true ∧ s.arg 0 < 2 ^ 32 ∧ s.log.entries.find? (fun x => x.number == s.arg 0) = some tEntry)
    ∧ (let s := tHolds 0x0301 [2 ^ 32 - 1]; s.adminHolds 0x0301 = true ∧ s.arg 0 < 2 ^ 32 ∧ ∀ e ∈ s.log.entries, e.number ≠ s.arg 0)
    ∧ (let s := (tHolds 0x0301 [2 ^ 32]); let s : State := { s with nv := s.nv.record tEntry }
       s.adminHolds 0x0301 = true ∧ s.arg 0 = 2 ^ 32 + 0 ∧ 0 < min s.nv.recordCount 64 ∧ s.host.mbxArgs.length = 8) := by decide +kernel

theorem witness_MailboxSettingsTakeTheirArguments :
    (holdsCommand (tHolds 0x0005 [15]) 0x0005 ∧ (tHolds 0x0005 [15]).arg 0 = 15 ∧ tS.grid.runs = [])
    ∧ (let s := tHolds 0x0003 [2 ^ 48 - 65536]; holdsCommand s 0x0003 ∧ s.arg 0 % 65536 = 0 ∧ s.arg 0 < 2 ^ 48)
    ∧ (let s := tHolds 0x0003 [2 ^ 48]; holdsCommand s 0x0003 ∧ (s.arg 0 % 65536 ≠ 0 ∨ 2 ^ 48 ≤ s.arg 0))
    ∧ (let s := tHolds 0x0201 [2 ^ 38 - 2 ^ 31 - 64, 64]; holdsCommand s 0x0201 ∧ s.arg 0 % 64 = 0 ∧ s.arg 1 % 64 = 0
        ∧ s.arg 0 + s.arg 1 ≤ s.mem.top - 2 ^ 31 ∧ s.mem.wf = true)
    ∧ (holdsCommand (tHolds 0x0202 [1]) 0x0202 ∧ (tHolds 0x0202 [1]).arg 0 < 2 ∧ cellsWf 0xFF tS.nv.flash = true)
    ∧ (∀ ms ∈ [10, 1000], let s := tHolds 0x0107 [ms * 2 ^ 16 + 255]; holdsCommand s 0x0107 ∧ 10 ≤ s.arg 0 / 2 ^ 16 ∧ s.arg 0 / 2 ^ 16 ≤ 1000
        ∧ natBits (s.arg 0) 8 8 = 0)
    ∧ (∀ x ∈ [1360, 1600], holdsCommand (tHolds 0x0502 [x]) 0x0502 ∧ (tHolds 0x0502 [x]).arg 0 = x)
    ∧ (∀ x ∈ [1359, 1601], holdsCommand (tHolds 0x0502 [x]) 0x0502 ∧ ((tHolds 0x0502 [x]).arg 0 < 1360 ∨ 1600 < (tHolds 0x0502 [x]).arg 0))
    ∧ holdsCommand (tHolds 0x0301 [2 ^ 33]) 0x0301 ∧ (tHolds 0x0301 [2 ^ 33]).arg 0 = 2 ^ 33 := by
  unfold holdsCommand; decide +kernel

theorem witness_SidebandMailboxAnswersAtFirmwareLevel :
    let s : State := { tS with log := { entries := [tEntry], appended := 1 }, nv := tS.nv.record tEntry }
    (s.sbRom = true ∧ s.sbFirmware = true ∧ s.grid.runs = [] ∧ s.log.entries.find? (fun x => x.number == 0) = some tEntry
      ∧ 0 < min s.nv.recordCount 64 ∧ cellsWf 0xFF s.nv.flash = true)
    ∧ (let r : State := { s with boot := { s.boot with fwVerified := false } }; r.sbRom = true ∧ r.sbFirmware = false ∧ r.ops = []) := by
  decide +kernel

theorem witness_QueuesAndFencesAreMadeAndUnmade :
    (let s := tHolds 0x0101 [10 * 2 ^ 24 + 1023, 4096, 4096, 16, 16384 * 2 ^ 32, 2 ^ 38 - 2 ^ 31 - 64, 2]
     holdsCommand s 0x0101 ∧ s.arg 0 % 2 ^ 16 = 1023 ∧ s.arg 0 < 2 ^ 28 ∧ natBits (s.arg 0) 20 4 = 0 ∧ natBits (s.arg 0) 24 4 ≤ 10
     ∧ s.arg 1 % 4096 = 0 ∧ s.arg 2 % 4096 = 0 ∧ s.arg 3 % 16 = 0 ∧ 1 ≤ natBits (s.arg 4) 32 16 ∧ natBits (s.arg 4) 32 16 ≤ 16384
     ∧ natBits (s.arg 4) 20 12 = 0 ∧ s.arg 4 < 2 ^ 48 ∧ s.arg 5 % 64 = 0 ∧ 2 ≤ s.arg 6 ∧ s.arg 6 ≤ 65536 ∧ s.queue 1023 = none
     ∧ s.arg 5 + 32 * s.arg 6 ≤ s.mem.top - 2 ^ 31)
    ∧ (let s := tHolds 0x0101 [11 * 2 ^ 24]; holdsCommand s 0x0101 ∧ s.arg 0 % 2 ^ 16 = 0 ∧ 10 < natBits (s.arg 0) 24 4)
    ∧ (∀ op ∈ [0x0102, 0x0103], let s := tHolds op [5] (tWith (tTask tRef 1)); holdsCommand s op ∧ s.arg 0 = 5 ∧ (s.queue 5).isSome = true
        ∧ (∀ q ∈ s.queue 5, q.num = 5 ∧ q.state ≠ .destroying) ∧ ∀ u ∈ s.q.tasks, u.ref.queue = 5 ∧ u.phase = .waiting)
    ∧ (let s : State := { tHolds 0x0102 [5] with q := { tS.q with queues := [tQ 5] } }
       holdsCommand s 0x0102 ∧ s.queue 5 = some (tQ 5) ∧ (tQ 5).state ≠ .destroying ∧ ∀ u ∈ s.q.tasks, u.ref.queue ≠ 5)
    ∧ (let s : State := { tHolds 0x0104 [5] with q := { tS.q with queues := [{ tQ 5 with state := .guilty, cause := 4 }] } }
       holdsCommand s 0x0104 ∧ s.arg 0 = 5 ∧ (s.queue 5).map (·.state) = some .guilty)
    ∧ (let s := tHolds 0x0108 [0, 0, 2 ^ 20 - 1]; holdsCommand s 0x0108 ∧ s.arg 0 = 0 ∧ s.arg 2 < 2 ^ 20 ∧ s.fence 0 = none)
    ∧ (∀ k ∈ [1, 2], let s : State := { tHolds 0x0108 [k, 4095] with q := { tS.q with fences := [{ num := 4095, pasid := 9, value := 3, err := true }] } }
        holdsCommand s 0x0108 ∧ s.arg 0 = k ∧ (s.fence (s.arg 1)).isSome = true) := by
  unfold holdsCommand; decide +kernel

/-- Every fence number taken. -/
theorem witness_QueuesAndFencesAreMadeAndUnmade_full :
    let s : State := { tHolds 0x0108 [0] with q := { tS.q with fences := (List.range 4096).map fun n => { num := n, pasid := 9, value := 0, err := false } } }
    ∀ m, m < 4096 → s.fence m ≠ none := by
  intro s m h
  unfold State.fence
  rw [Ne, List.find?_eq_none]
  intro hn
  exact hn _ (List.mem_map.mpr ⟨m, List.mem_range.mpr h, rfl⟩) (by simp)

/-- A link descriptor in DRAM at 64, and a copy engine with a chain. -/
def tChain (op : Nat) (args : List Nat) (src dst len wait st : Nat) (chain : Option (Nat × Nat)) : State :=
  let s := tHolds op args
  { s with
    mem := { s.mem with cells := cellWriteList 0 [] 64 (toBytesLE 64 (src + dst * 2 ^ 64 + len * 2 ^ 128 + wait * 2 ^ 256)) }
    q := { s.q with queues := [tQ 1023], engines := modifyAt (fun e => { e with state := st, chain := chain }) 3 s.q.engines } }

theorem witness_ChainsRunLinkByLink :
    (∀ w ∈ [0, 1], let s := tChain 0x0109 [3, 64, 1023] 128 256 64 w 0 none
       holdsCommand s 0x0109 ∧ s.q.engines.length = 4 ∧ s.arg 0 = 3 ∧ s.arg 1 = 64 ∧ s.arg 2 = 1023 ∧ natBit (s.copyEngine 3).cfg.force 1 = true
       ∧ (s.copyEngine 3).chain = none ∧ (s.copyEngine 3).task = none ∧ (s.queue 1023).isSome = true ∧ s.mem.inSoft 64 64 = true
       ∧ (readLink s.mem 64).good = true ∧ (s.waitMet 1023 (readLink s.mem 64) = true ↔ w = 0))
    ∧ (readLink (tChain 0x0109 [3, 64, 1023] 128 256 65 0 0 none).mem 64).good = false
    ∧ (let s := tChain 0x010A [3] 128 256 64 0 2 (some (64, 1023)); holdsCommand s 0x010A ∧ s.arg 0 = 3
       ∧ (s.copyEngine 3).chain = some (64, 1023) ∧ (s.copyEngine 3).task = none
       ∧ (s.copyEngine 3).state = 2 ∧ s.hostOpen = true ∧ s.copyPowered = true ∧ (readLink s.mem 64).len = 64 ∧ (readLink s.mem 64).src < hostWindow
       ∧ (readLink s.mem 64).dst < hostWindow ∧ s.mem.linePoisoned ((readLink s.mem 64).src / 64) = false)
    ∧ (let s := tChain 0 [] 128 256 64 0 3 (some (64, 1023)); (s.copyEngine 3).state = 3 ∧ (s.copyEngine 3).chain = some (64, 1023)
       ∧ s.waitMet 1023 (readLink s.mem 64) = true ∧ s.live = true) := by
  unfold holdsCommand; decide +kernel

/-! ### Witnesses: registers, commits, events, the aperture -/

def tSel (c i : Nat) (s : State := tS) : State := { s with host := { s.host with wselClass := c, wselIndex := i } }

theorem witness_RegisterAccessesStageClearAndLatch :
    let b : State := { tS with host := { tS.host with mbxCmd := 0x01020101 } }
    (tS.hostUp = true ∧ tS.boot.ready = true ∧ tS.host.mbxArgs.length = 8 ∧ tS.host.busy = false ∧ (tHolds 1 []).host.busy = true
      ∧ tS.grid.engines.length = 8 ∧ tS.dram.channels.length = 8 ∧ tS.nl.ports.length = 4 ∧ tS.q.slots.length = 32
      ∧ tS.pow.domains.length = 116 ∧ tS.cnt.rcHi = [])
    ∧ (b.hostUp = true ∧ b.host.busy = false ∧ (1 : DWord).getLsbD 0 = true ∧ b.host.mbxCmd.toNat % 2 ^ 16 ∈ adminOpcodes)
    ∧ ∀ x ∈ [(1, 7), (2, 7), (3, 3), (4, 31), (5, 97), (5, 98), (5, 105), (5, 106), (5, 115)],
        (tSel x.1 x.2).host.wselClass = x.1 ∧ (tSel x.1 x.2).host.wselIndex = x.2 ∧ (tSel x.1 x.2).hostUp = true := by decide +kernel

/-- An event ring of 2^11 pages staged, and a commit that has still to complete. -/
def tStage (n : Nat) : State := { tS with host := { tS.host with evtBase := { staged := n, force := 0 } } }
def tCommit (es : List Nat) (p : Option Nat) : State :=
  { tS with host := { tS.host with commit := some { engines := es, banks := [], profile := p } } }

theorem witness_RefusedCommitsChangeNothingInForce :
    (tS.hostUp = true ∧ tS.boot.ready = true)
    ∧ ((tStage 11).hostUp = true ∧ (tStage 11).host.commit = none ∧ commitFaults (tStage 11) = (4, 0, 0) :: [])
    ∧ ((tCommit [0] none).hostUp = true ∧ (tCommit [0] none).boot.ready = true ∧ (tCommit [0] none).host.commit ≠ none) := by decide +kernel

theorem witness_CommitsAndDiscardsActOnEveryStagedValue :
    ((tStage 10).hostUp = true ∧ (tStage 10).boot.ready = true ∧ (tStage 10).host.commit = none ∧ commitFaults (tStage 10) = []
      ∧ (tStage 10).grid.runs = [] ∧ (∀ e, e < 8 → stagedSel (tStage 10) e = ((tStage 10).engine e).sel.force)
      ∧ (tStage 10).pow.domains.length = 116)
    ∧ ((tCommit [] (some 1)).hostUp = true ∧ (tCommit [] (some 1)).boot.ready = true
      ∧ (tCommit [] (some 1)).host.commit = some { engines := [], banks := [], profile := some 1 }) := by decide +kernel

/-- A held record, for a ring that is on. -/
def tHeld : Event :=
  { stitch := 0, seq := 0, cls := 4, code := 1, source := 0, lost := 0, tick := 0, detail := [] }

theorem witness_EventRingAndInterrupts :
    let s : State := { tS with host := { tS.host with evtBase := { staged := 16, force := 16 }, held := [tHeld], msixPending := [1055] } }
    s.hostUp = true ∧ s.boot.ready = true ∧ natBit s.host.evtBase.force 4 = true ∧ s.host.evtOff = false ∧ s.host.evtTail < 2 ^ 32
    ∧ s.host.evtHead < 2 ^ 32 ∧ (s.host.evtHead + 2 ^ 32 - s.host.evtTail) % 2 ^ 32 ≤ s.host.ringSize ∧ 1055 < 1056
    ∧ 1055 ∈ s.host.msixPending ∧ natBit (cellRead 0 s.host.cfg 0xB3).toNat 6 = false ∧ cellsWf 0 s.host.msixTable = true := by decide +kernel

/-- The last line of software DRAM, the first beyond it, and a poisoned line. -/
theorem witness_ApertureReachesSoftwareDram :
    let s : State := { tS with mem := { tS.mem with poisoned := [0] } }
    let top := 2 ^ 38 - 2 ^ 31
    (tS.hostUp = true ∧ tS.boot.ready = true ∧ tS.host.aperture = 0 ∧ 0x10000 ≤ 0x10000 + top - 64)
    ∧ ((top - 64) + 64 ≤ tS.mem.top - 2 ^ 31 ∧ tS.mem.poisonIn (top - 64) 64 = false ∧ 0 < tS.mem.top - 2 ^ 31 - (top - 64))
    ∧ (s.hostUp = true ∧ s.boot.ready = true ∧ 0 + 4 ≤ s.mem.top - 2 ^ 31 ∧ s.mem.poisonIn 0 4 = true)
    ∧ (tS.mem.top - 2 ^ 31 ≤ top ∧ tS.ops = []) := by decide +kernel

theorem witness_RegisterDomainAndLinkCommandsTouchNoWork :
    tS.ops = [] ∧ tS.grid.runs = [] ∧ (∃ t, exec (.domainIdle 9) tS = .next t) ∧ (∃ t, exec .topologyPeriodic tS = .next t)
    ∧ ∃ t, exec .cfgCommitDiscard tS = .next t := ⟨rfl, rfl, ⟨_, rfl⟩, ⟨_, rfl⟩, _, rfl⟩

/-! ### Witnesses: queues, the headgate, tasks -/

def tQs (q : Queue) (s : State := tS) : State := { s with q := { s.q with queues := [q] } }

theorem witness_DoorbellsMoveOneQueue :
    let h : Queue := { tQ 5 with hswap := some 1 }
    ((tQs (tQ 5)).hostUp = true ∧ (tQs (tQ 5)).boot.ready = true ∧ (tQs (tQ 5)).queue 5 = some (tQ 5) ∧ (tQ 5).hswap = none
      ∧ (tQs (tQ 5)).grid.runs = [])
    ∧ (((64 : Word).toNat + 2 ^ 32 - (tQ 5).head % 2 ^ 32) % 2 ^ 32 ≤ (tQ 5).size)
    ∧ ((tQ 5).size < ((65 : Word).toNat + 2 ^ 32 - (tQ 5).head % 2 ^ 32) % 2 ^ 32)
    ∧ ((tQs h).queue 5 = some h ∧ h.hswap ≠ none ∧ (tQs h).ops = [] ∧ h.below 1 = false ∧ ({ h with admitted := 1 } : Queue).below 1 = true) := by
  decide +kernel

/-- A slot bound to the queue. -/
def tBound (q : Queue) : State :=
  let s := tQs q
  { s with q := { s.q with slots := modifyAt (fun b => { b with bound := some 5, burst := 63 }) 31 s.q.slots } }

theorem witness_HeadgateBindsFetchesAndAdmits :
    let q0 : Queue := { tQ 5 with level := 3, tail := 1 }
    let w : State := let s := tQs q0; { s with q := { s.q with waiting := [5] } }
    let nop := zeroBytes 64
    let qf : Queue := { q0 with head := 1, fetched := [(0, 31, nop)] }
    (w.admitting = true ∧ 31 < 32 ∧ w.q.slots.length = 32 ∧ w.queue 5 = some q0 ∧ (w.slot 31).bound = none
      ∧ natBit (w.slot 31).cfg.force 2 = true
      ∧ w.q.waiting.find? (fun m => (w.queue m).map (·.level) == some ((w.slot 31).cfg.force % 4)) = some 5)
    ∧ (let s := tBound q0; s.admitting = true ∧ s.queue 5 = some q0 ∧ (s.slot 31).bound = some 5 ∧ s.fetchable q0 = true ∧ (s.slot 31).burst < 64
       ∧ q0.work = true)
    ∧ (let s := tBound qf
       s.queue 5 = some qf ∧ (s.slot 31).bound = some 5 ∧ qf.lane = [] ∧ qf.hswap = none ∧ 0 + 1 ≤ qf.doneSeq + qf.size
       ∧ s.unretired 5 < qf.quota ∧ s.q.tasks.length < 262144 ∧ (s.admission qf nop { queue := 5, seq := 0 + 1 } 31 none).2 = none
       ∧ s.edgesUsed + (s.admission qf nop { queue := 5, seq := 0 + 1 } 31 none).1.edges.length ≤ 1048576)
    ∧ (qf.state = .active ∧ descriptorRefusal qf (toBytesLE 64 0xFFFF) = some 0 ∧ (tBound qf).edgesUsed ≤ 1048576 ∧ 0 < 2 ^ 63 - 1)
    ∧ (tWith (tTask tRef 0)).task tRef = some (tTask tRef 0) ∧ (tWith (tTask tRef 0)).isReady (tTask tRef 0) = true := by decide +kernel

/-- A fence. -/
def tFence (v : Nat) : Fence := { num := 0, pasid := 9, value := v, err := true }
def tFenced (v : Nat) (u : Task) : State :=
  let s := tWith { u with pattern := 0 }
  { s with q := { s.q with fences := [tFence v], queues := s.q.queues.map fun q => { q with ordered := true } } }

/-- The fence stands at 3, or at 2, and 3 is waited for. -/
theorem witness_TasksRetireWithTheirRecords :
    (∀ op ∈ [0x0000, 0x0020, 0x0021], ∀ v ∈ [2, 3], let s := tFenced v (tTask tRef op)
      ∀ u ∈ s.task tRef, u.opcode = op ∧ s.mayDispatch u = true ∧ u.fenceValue = 3)
    ∧ ((tFenced 3 (tTask tRef 0)).task tRef).isSome = true ∧ ((tFenced 3 (tTask tRef 0)).queue 5).isSome = true
    ∧ (tFenced 3 (tTask tRef 0x21)).fence 0 = some (tFence 3)
    ∧ (let u : Task := { tTask tRef 0x21 with waitSince := some 0, pattern := 0 }; let s := tFenced 3 u
       s.hostOpen = true ∧ s.task tRef = some u ∧ u.waitSince.isSome = true ∧ u.phase = .waiting ∧ s.fence u.pattern = some (tFence 3)
       ∧ u.fenceValue ≤ (tFence 3).value)
    ∧ (let u : Task := { tTask tRef 0 with phase := .ending 0x0100 0 true }; let s := tWith u
       let d : State := { s with host := { s.host with attached := false } }
       s.live = true ∧ s.task tRef = some u ∧ s.mayRetire u = true ∧ s.fw.noCore = false ∧ s.host.wait = .none ∧ s.hostOpen = true
       ∧ d.live = true ∧ d.task tRef = some u ∧ d.mayRetire u = true ∧ d.host.wait = .none ∧ d.hostOpen = false) := by decide +kernel

/-- What holds of the copy engines at rest. -/
theorem tS_idleCopies (s : State) (h : s.q.engines = tS.q.engines) (c : Nat) : (s.copyEngine c).task = none := by
  unfold State.copyEngine; rw [h]; exact getD_all (fun (e : CopyEngine) => e.task = none) _ rfl _ (by decide +kernel) c

theorem witness_GuiltStopsQueues :
    let u : Task := { tTask tRef 1 with phase := .running, wholeInterval := true }
    let s : State := let s := tRuns tRun; { s with q := { s.q with tasks := [u], hangWatch := 1 } }
    let w1 : Task := { tTask tRef 0x21 with waitSince := some 0, pattern := 0 }
    let w2 : Task := { tTask { queue := 5, seq := 2 } 0x20 with pattern := 0 }
    let d : State := let s := tFenced 2 w1; { s with q := { s.q with tasks := [w1, w2] } }
    let r : Run := { tRun with wants := [.kill 0x0102 0] }
    (tS.live = true ∧ ({ tS.q with hangWatch := 0 } : Sched).hangWatch = 0)
    ∧ (s.live = true ∧ (∃ q, s.q.queues = [q] ∧ q.state = .active ∧ u.ref.queue = q.num) ∧ s.q.tasks = [u] ∧ s.grid.runs = [tRun]
      ∧ u.opcode = 1 ∧ u.phase = .running ∧ tRun.ref = u.ref ∧ tRun.ended = none ∧ tRun.begun = true ∧ (s.engine tRun.lead).state = 3
      ∧ u.wholeInterval = true ∧ u.progress = u.lastProgress ∧ s.q.hangReset = false ∧ s.host.attached = true
      ∧ (∀ c, (s.copyEngine c).task = none) ∧ 0 < s.q.hangWatch ∧ s.q.hangWatch ≤ u.still + 1)
    ∧ (tS.fw.noCore = false ∧ tS.fw.running.isSome = true ∧ tS.cycleVictim = none)
    ∧ (d.live = true ∧ d.cycleVictim = some 5 ∧ d.grid.runs = [] ∧ ∀ c, (d.copyEngine c).task = none)
    ∧ (soleRun (tRuns r) r tPat ∧ 0 ∈ r.engines ∧ (tRuns r).task r.ref ≠ none
      ∧ ∀ u, (tRuns r).task r.ref = some u → u.phase = .running) := by
  refine ⟨by decide +kernel, ⟨by decide +kernel, ⟨_, rfl, by decide +kernel, by decide +kernel⟩, rfl, rfl, rfl, rfl, rfl, rfl, rfl, rfl, rfl, rfl, rfl, rfl,
    tS_idleCopies _ rfl, by decide +kernel, by decide +kernel⟩, by decide +kernel, ⟨by decide +kernel, by decide +kernel, rfl, tS_idleCopies _ rfl⟩,
    ⟨by unfold soleRun; decide +kernel, by decide +kernel, by decide +kernel, ?_⟩⟩
  intro u h; cases h; rfl

theorem witness_TaskCancelRetiresWhatHasNotStarted :
    let s := tHolds 0x0105 [5, 1]
    let w := tWith (tTask tRef 0) s
    let h := tRuns { tRun with begun := false } tPat 6 s
    (∀ t ∈ [w, h], holdsCommand t 0x0105 ∧ t.arg 0 = 5 ∧ t.arg 1 = 1 ∧ t.hostOpen = true ∧ (t.queue 5).isSome = true
      ∧ (∀ q ∈ t.queue 5, q.knows 1 = true ∧ q.state = .active) ∧ (t.task tRef).isSome = true)
    ∧ (∀ u ∈ w.task tRef, u.phase = .waiting)
    ∧ ((∀ u ∈ h.task tRef, u.phase = .running) ∧ ∀ r ∈ h.run? tRef, r.begun = false ∧ (h.engine r.lead).state = 6)
    ∧ ((h.run? tRef).isSome = true ∧ ∀ u ∈ (tRuns tRun tPat 3 s).task tRef, u.phase ≠ .waiting)
    ∧ ∀ r ∈ (tRuns tRun tPat 3 s).run? tRef, r.begun = true := by
  unfold holdsCommand; decide +kernel
/-- A pattern image of one variable with h = 5 at 0x4200 (R73-R75, R184, R197, R261, R535-R537, R540), LOAD_PATTERN blocks at 0x4100
(R76) and a handle table at 0x4000 (R381). -/
def tImageN : Nat := 0x100000000000000000000000000000000000000000000000000000000000000000000000000000000000000000000000000000000000000000000000000000000000000000000000000000000000000000000000000000000000000000000000000000000000000000000000000000000000000000000000001000000000000008000000000000000000000000000000000000000000000000000000000000000000000000000000000000000000000000000000000000000400000000000000001000000000000000000000000000000000000000000000000000000000000000000000000000000000000000000000000000000000000000000000000000000000000000000000000000000000000000000000000000000000000000000000000000000000000000000000000000000000000000000000000000000000000000000000000000000000000000000000000000000000000000000000000000000000000000000000000000000000000000000000000000000000000000000000000000000000000000000000000000000000000000000000000000000000000000000000000000000000000000000000000000000000000000000000000000001000000000000000000000000000000000000000000000000000000000000000000000000000000000000000000000000000000000000000000000000000000000000000000000000000000000000000000000000000000000000000000000000000000000000000000000000000000000000000000000001010000000000200020000000000000000000000000000000000000000000000000000000000000000000000000000000000000000000000000000000000000000000000000000000000000000000000000000000000000000000000000000000000000000000000000000000000000000000000000000000000000000000000000000000000000000000000000000000000000000000000000000000000000000000000000000000000000000000000000000000000000004000000000000000000000000100000000000000000000000000000000000000000000000000000000000000000000000000000000000000000000000000000000000000000000000000000000000000050000000000000000000000000000000000000000000000000000000000000000000000000000000000000000000000000000000000000000000000000000000100000000000000000000000000000000000000000000000000000000000000000000000000000000000000000000000000000000000000000000000000000000000000000000000000000000000000000000000000000000000000000000000000000000000000000000000000000000000000000000000000000000000000000000000000000000000000000000000000000000000000000000000000000000000000000000000000000000000000000000000000000000000000000000000000000000000000000000000000000000000000000000000000000000000000c000000000000000800000000000000040000000010000000100000001000000000000000000000000000000000000000000000000000000000000000000000000000000000000000000000000000000000000000000000000000000000000000000000000000000000000000000000000000000000000000000000000000000000000000000000000000000000000000000000000000000000000000000000000000000000000000000000000000000000000000000000680000000010000000a00000000000005c0000000030000000900000000000004800000000500000008000000000000044000000001000000070000000000000380000000030000000300000000000003000000000200000002000000000000020000000004000000010000000000000000000000000000000000000000000000000000000000000000000000000000000000000000000000000000000000000000000000000000000000000000000000000000000000000000000000000000000000000000000000000000000000000000000000000000000000000000000000000000000000000000000000000000000100000000000000000000000000000000000000000000000000000000000000000000000000000001070100000001040000030101000000000f0c6694096eeb40098e78c01739af8de3f6d007fc83035dc6536f6100b29b3d45fc44b5c9803375158715019e31afc500000000000006c000030001545058450000000000000000000000000000000000000000000000000000000000000000000000000000000000000000000000000000000000000000000000000000000000000000000000000000000000000000000000000000000000000000000000000000000000000000000000000000000100000000000080000000000000010000000000000000000000000000000000000000000000000000000000000000000000000000000000010000000000000001000000000000800000000000000042000000000000000000000000000000000000000000000000000000000000000000000000000000000000000000000000010000000000008000000000000000420000000000000000000000000000000000000000000000000000000000000000000000000000000000000000000000000000000000000000000000000000000000000000000000000000000000000000000000000000000000000000000000000000000000000000000000000000000000000000000000000000000000000000000000000000000000000000000000000000000000000000000000000000000000000000000000000000000000000000000000000000000000000000000000000000000000000000000000000000000000000000000000000000000000000000000000000300001000000000000000000000000000000000000000000000000000

/-- The same with h changed to 6. -/
def tImageN2 : Nat := 0x100000000000000000000000000000000000000000000000000000000000000000000000000000000000000000000000000000000000000000000000000000000000000000000000000000000000000000000000000000000000000000000000000000000000000000000000000000000000000000000000001000000000000008000000000000000000000000000000000000000000000000000000000000000000000000000000000000000000000000000000000000000400000000000000001000000000000000000000000000000000000000000000000000000000000000000000000000000000000000000000000000000000000000000000000000000000000000000000000000000000000000000000000000000000000000000000000000000000000000000000000000000000000000000000000000000000000000000000000000000000000000000000000000000000000000000000000000000000000000000000000000000000000000000000000000000000000000000000000000000000000000000000000000000000000000000000000000000000000000000000000000000000000000000000000000000000000000000000000000001000000000000000000000000000000000000000000000000000000000000000000000000000000000000000000000000000000000000000000000000000000000000000000000000000000000000000000000000000000000000000000000000000000000000000000000000000000000000000000000001010000000000200020000000000000000000000000000000000000000000000000000000000000000000000000000000000000000000000000000000000000000000000000000000000000000000000000000000000000000000000000000000000000000000000000000000000000000000000000000000000000000000000000000000000000000000000000000000000000000000000000000000000000000000000000000000000000000000000000000000000000004000000000000000000000000100000000000000000000000000000000000000000000000000000000000000000000000000000000000000000000000000000000000000000000000000000000000000060000000000000000000000000000000000000000000000000000000000000000000000000000000000000000000000000000000000000000000000000000000100000000000000000000000000000000000000000000000000000000000000000000000000000000000000000000000000000000000000000000000000000000000000000000000000000000000000000000000000000000000000000000000000000000000000000000000000000000000000000000000000000000000000000000000000000000000000000000000000000000000000000000000000000000000000000000000000000000000000000000000000000000000000000000000000000000000000000000000000000000000000000000000000000000000000c000000000000000800000000000000040000000010000000100000001000000000000000000000000000000000000000000000000000000000000000000000000000000000000000000000000000000000000000000000000000000000000000000000000000000000000000000000000000000000000000000000000000000000000000000000000000000000000000000000000000000000000000000000000000000000000000000000000000000000000000000000680000000010000000a00000000000005c0000000030000000900000000000004800000000500000008000000000000044000000001000000070000000000000380000000030000000300000000000003000000000200000002000000000000020000000004000000010000000000000000000000000000000000000000000000000000000000000000000000000000000000000000000000000000000000000000000000000000000000000000000000000000000000000000000000000000000000000000000000000000000000000000000000000000000000000000000000000000000000000000000000000000000100000000000000000000000000000000000000000000000000000000000000000000000000000001070100000001040000030101000000000f0c6694096eeb40098e78c01739af8de3f6d007fc83035dc6536f6100b29b3d45fc44b5c9803375158715019e31afc500000000000006c000030001545058450000000000000000000000000000000000000000000000000000000000000000000000000000000000000000000000000000000000000000000000000000000000000000000000000000000000000000000000000000000000000000000000000000000000000000000000000000000100000000000080000000000000010000000000000000000000000000000000000000000000000000000000000000000000000000000000010000000000000001000000000000800000000000000042000000000000000000000000000000000000000000000000000000000000000000000000000000000000000000000000010000000000008000000000000000420000000000000000000000000000000000000000000000000000000000000000000000000000000000000000000000000000000000000000000000000000000000000000000000000000000000000000000000000000000000000000000000000000000000000000000000000000000000000000000000000000000000000000000000000000000000000000000000000000000000000000000000000000000000000000000000000000000000000000000000000000000000000000000000000000000000000000000000000000000000000000000000000000000000000000000000000300001000000000000000000000000000000000000000000000000000

/-- A device whose DRAM holds k bytes of a number at 0x4000. -/
def tSI (k n : Nat) : State := { tS with mem := { tS.mem with cells := cellWriteList 0 [] 0x4000 (toBytesLE k n) } }

theorem tSI_bytes (k n : Nat) (hn : n < 256 ^ k) :
    (tSI k n).mem.bytes = fun x c => (List.range c).map fun i => if 0x4000 ≤ x + i then tByte n (x + i - 0x4000) else 0 := by
  funext x c
  refine List.map_congr_left fun i _ => ?_
  show cellRead 0 (cellWriteList 0 [] 0x4000 (toBytesLE k n)) (x + i) = _
  by_cases h : 0x4000 ≤ x + i
  · rw [if_pos h, cellRead_placed_zero _ _ _ _ hn h]
  · rw [if_neg h, cellRead_placed, if_neg (by omega)]

theorem tImage_bytes : (tSI 0x8C0 tImageN).mem.bytes
    = fun x c => (List.range c).map fun i => if 0x4000 ≤ x + i then tByte tImageN (x + i - 0x4000) else 0 :=
  tSI_bytes _ _ (by decide +kernel)

theorem tImage2_bytes : (tSI 0x8C0 tImageN2).mem.bytes
    = fun x c => (List.range c).map fun i => if 0x4000 ≤ x + i then tByte tImageN2 (x + i - 0x4000) else 0 :=
  tSI_bytes _ _ (by decide +kernel)

/-- LOAD_PATTERN's block with an image and FLAGS (R76). -/
def tLoadBlock (image flags : Nat) : List Byte := toBytesLE 32 (image + 0x8000 * 2 ^ 64 + 2 ^ 128 + flags * 2 ^ 192)
def tLoadTask (param : Nat) : Task := { tTask tRef 0x10 with param := param }
def tLoad : Load :=
  { ref := tRef, image := 0x4200, report := 0x8000, shards := 1, engines := [], hash := toBytesLE 48 (tImageN / 256 ^ 0x210) }

/-- Each block's task may be dispatched: an image that loads, the same with CHECK_ONLY, and zeros. -/
theorem witness_PatternsAreCheckedAndLoaded_check : ∀ x ∈ [(0x4100, 0x4200, 0, none), (0x4140, 0x4200, 1, none), (0x4180, 0x10000, 0, some (2, noDetail))],
    let s := tWith (tLoadTask x.1) (tSI 0x8C0 tImageN)
    let b := tLoadBlock x.2.1 x.2.2.1
    (s.host.commit.any fun c => c.profile.isSome) = false
    ∧ (fieldOf b 0 8 = x.2.1 ∧ fieldOf b 8 8 = 0x8000 ∧ fieldOf b 0x10 8 = 1 ∧ fieldOf b 0x18 1 = x.2.2.1 ∧ fieldOf b 0x19 7 = 0 ∧ x.2.1 < hostWindow)
    ∧ (∃ q, dispatched s tRef (tLoadTask x.1) q 0x0010 32 b
        ∧ s.addressFault q (tLoadTask x.1) [(0, x.2.1, 512, false), (8, 0x8000, 64, true)] = none
        ∧ regionFault s q 0 x.2.1 0x8000 1 = false)
    ∧ lowestFault (checkPhase s x.2.1 1) = x.2.2.2 := by
  intro x hx s b
  have hb : s.mem.bytes = _ := tImage_bytes
  refine ⟨rfl, ?_, ⟨{ tQ 5 with admitted := 1, head := 1, tail := 1 }, ⟨rfl, rfl, ?_, rfl, rfl, ?_, ?_, ?_⟩, ?_, ?_⟩, ?_⟩
  · fin_cases hx <;> decide +kernel
  · fin_cases hx <;> decide +kernel
  · fin_cases hx <;> decide +kernel
  · fin_cases hx <;> decide +kernel
  · rw [hb]; fin_cases hx <;> decide +kernel
  · unfold State.addressFault granted handleRegion Mem.field; rw [hb]; fin_cases hx <;> decide +kernel
  · unfold regionFault handleRegion imageAt Mem.field; rw [hb]; fin_cases hx <;> decide +kernel
  · unfold checkPhase imageFaults imageHash imageAt Mem.field; rw [hb]; fin_cases hx <;> decide +kernel

/-- A load that waits for its array phase, whose image is as it was, or has changed. -/
def tLoading (n : Nat) : State :=
  let s := tWith { tLoadTask 0x4100 with phase := .running } (tSI 0x8C0 n)
  { s with grid := { s.grid with loads := [tLoad] } }

def tArray (s : State) (same : Bool) : Prop :=
  let g := imageAt s.mem tLoad.image
  let h := readHeader g
  let places := [(0, 0)]
  let here := fun v => decide (h.shards ≤ 1)
    || (placementChecks g h (readDirectory g h) fun _ => true).2.any fun x => x.var == v && places.any fun p => p.1 == x.shard
  (s.live = true ∧ s.boot.ready = true ∧ s.grid.loads = [tLoad] ∧ (s.task tLoad.ref).isSome = true ∧ (∀ u ∈ s.task tLoad.ref, u.phase = .running)
    ∧ s.grid.engines.length = 8 ∧ (∀ e ∈ s.grid.engines, e.exhausted = []))
  ∧ loadPlaces s h tLoad = some places ∧ enginesOf h places = [0] ∧ s.ready 0 = true ∧ s.mem.poisonIn tLoad.image h.imageLen = false
  ∧ (imageHash s.mem tLoad.image h.imageLen == h.hash) = same ∧ tLoad.hash = h.hash
  ∧ (placeImage g h here).faults ++ ((placedPlans g h places).flatMap fun x => x.faults h.hash) = []

theorem witness_PatternsAreCheckedAndLoaded_array : tArray (tLoading tImageN) true ∧ tArray (tLoading tImageN2) false := by
  have h1 : (tLoading tImageN).mem.bytes = _ := tImage_bytes
  have h2 : (tLoading tImageN2).mem.bytes = _ := tImage2_bytes
  unfold tArray imageHash imageAt Mem.field
  rw [h1, h2]
  exact ⟨by decide +kernel, by decide +kernel⟩

/-- A checkpoint image of a scoring run at tick 7, header and directory only, at 0x5000 (R426), and a handle table at 0x4000. -/
def tCkptN : Nat := 0x300001000000000000000000000000000000000000000000000000000 + 0x50000000000000000010000000000000000000000000000000000000000000000000000000000010000000000000000000000000000000000070000000000000000000000000000000000000000000000000000000000000000000000000000000000000000000000000000000000000000000000000000000000000000000000000000000000000000603d19df9b1c0f828b2286fcc339470ffa2ad55bf81d9fa37bd6b74daefb0aba70adbb1c0ae621a4d2803f89ccf633b300000000000005000103000150435845 * 256 ^ 0x1000

/-! ### Witnesses: dispatch with a parameter block -/

/-- DRAM with a handle table at 0x4000: entry 1 grants 256 KiB from 0, entry 2 host memory from 0. -/
def tTable (s : State) : State :=
  { s with mem := { s.mem with cells := cellWriteList 0 [] 0x4010 (toBytesLE 32 (2 ^ 76 + 3 * 2 ^ 96 + 2 ^ 175 + 2 ^ 204 + 3 * 2 ^ 224)) } }

/-- The last queue, with three handles and one task whose block lies at 0x6000. -/
def tQ3 : Queue := { tQ 5 with handles := 3, admitted := 1, head := 1, tail := 1 }
def tAsk (op : Nat) : Task := { tTask tRef op with param := 0x6000 }
def tPut (b : List Byte) (s : State) : State := { s with mem := { s.mem with cells := cellWriteList 0 s.mem.cells 0x6000 b } }
def tAsked (op : Nat) (b : List Byte) (s : State := tS) : State :=
  let s := tPut b (tTable s)
  { s with q := { s.q with queues := [tQ3], tasks := [tAsk op] } }

def tCopyBlock (src dst n : Nat) : List Byte := toBytesLE 32 (src + dst * 2 ^ 64 + n * 2 ^ 128)
def tFillBlock (form seed dst first count n : Nat) : List Byte :=
  toBytesLE 64 (form + seed * 2 ^ 64 + dst * 2 ^ 128 + first * 2 ^ 192 + count * 2 ^ 224 + n * 2 ^ 256)

theorem witness_CopiesAndFillsWriteTheirLines :
    (∀ x ∈ [(64, 128, []), (64, 2 ^ 47, []), (64, 2 ^ 47, [0])],
      let b := tCopyBlock x.1 x.2.1 64
      let v : HostView := { tView with unmapped := x.2.2 }
      let s := tAsked 0x11 b
      s.freeCopyEngine = some 0 ∧ s.q.engines.length = 4 ∧ (s.copyEngine 0).chain = none ∧ dispatched s tRef (tAsk 0x11) tQ3 0x0011 32 b
      ∧ fieldOf b 0x18 8 = 0
      ∧ fieldOf b 0x10 8 = 64 ∧ fieldOf b 0 8 = x.1 ∧ fieldOf b 8 8 = x.2.1 ∧ s.mem.linePoisoned (x.1 / 64) = false
      ∧ s.addressFault tQ3 (tAsk 0x11) [(0, fieldOf b 0 8, 64, false), (8, fieldOf b 8 8, 64, true)] = none
      ∧ (x.2.1 < hostWindow ∨ s.lineTranslates v x.2.1 = x.2.2.isEmpty))
    ∧ (∀ st ∈ [0, 1, 2],
      let b := tFillBlock 1 0 128 0 0 64
      let s := tAsked 0x12 b { tS with rng := { tS.rng with state := st } }
      s.freeCopyEngine = some 0 ∧ dispatched s tRef (tAsk 0x12) tQ3 0x0012 64 b ∧ firstBlockFault (fillChecks b) = none
      ∧ fieldOf b 0x10 8 < hostWindow ∧ fieldOf b 0 1 = 1 ∧ fieldOf b 0x20 8 = 64 ∧ s.rng.state = st
      ∧ s.addressFault tQ3 (tAsk 0x12) [(0x10, fieldOf b 0x10 8, fieldOf b 0x20 8, true)] = none) := by
  unfold dispatched; decide +kernel

theorem witness_CopiesAndFillsWriteTheirLines_states :
    let b := tFillBlock 0 9 0x8000 0 1 0
    let u : Task := { tTask tRef 0x12 with param := 0x48C0, pattern := 0x4200, patternLen := 0x6C0 }
    let q : Queue := { tQ3 with handles := 2 }
    let s : State := { tSI 0x900 (tImageN + bytesLE b * 256 ^ 0x8C0) with q := { tS.q with queues := [q], tasks := [u] } }
    let g := imageAt s.mem u.pattern
    let h := readHeader g
    s.freeCopyEngine = some 0 ∧ s.q.engines.length = 4 ∧ dispatched s tRef u q 0x0012 64 b
    ∧ firstBlockFault (fillChecks b) = none ∧ fieldOf b 0x10 8 < hostWindow ∧ fieldOf b 0 1 = 0 ∧ fieldOf b 0x1C 4 = 1
    ∧ stateBytes h.nVars = 64 ∧ s.addressFault q u [(0x10, fieldOf b 0x10 8, 64, true)] = none ∧ 256 ≤ u.patternLen
    ∧ h.imageLen ≤ u.patternLen ∧ u.pattern < hostWindow ∧ s.mem.poisonIn u.pattern h.imageLen = false
    ∧ lowestFault (imageFaults s u.pattern h false ++ (placementChecks g h (readDirectory g h) fun _ => decide (h.shards ≤ 1)).1) = none := by
  intro b u q s g h
  have hb : s.mem.bytes = _ := tSI_bytes 0x900 (tImageN + bytesLE b * 256 ^ 0x8C0) (by decide +kernel)
  show _ ∧ _ ∧ dispatched s _ _ _ _ _ _ ∧ _ ∧ _ ∧ _ ∧ _ ∧ stateBytes (readHeader (imageAt s.mem u.pattern)).nVars = 64 ∧ _ ∧ _
    ∧ (readHeader (imageAt s.mem u.pattern)).imageLen ≤ _ ∧ _ ∧ s.mem.poisonIn u.pattern (readHeader (imageAt s.mem u.pattern)).imageLen = _
    ∧ lowestFault (imageFaults s u.pattern (readHeader (imageAt s.mem u.pattern)) false ++ (placementChecks (imageAt s.mem u.pattern) (readHeader (imageAt s.mem u.pattern)) (readDirectory (imageAt s.mem u.pattern) (readHeader (imageAt s.mem u.pattern))) fun _ => decide ((readHeader (imageAt s.mem u.pattern)).shards ≤ 1)).1) = none
  unfold dispatched State.addressFault granted handleRegion imageFaults imageHash imageAt Mem.field
  rw [hb]
  decide +kernel

/-! ### Witnesses: runs -/

/-- A pattern by a hash of zeros, LOADED on engine 0, with every kind of run allowed. -/
def tPatH : Pattern :=
  { tPat with hash := zeroBytes 48, header := { tPat.header with kinds := 15 }, learn := { tPat.learn with rounds := 1, sweeps := 1 } }

/-- The same with two replicas, for learning. -/
def tPatL : Pattern := { tPatH with header := { tPatH.header with total := 2, resident := 2 } }

/-- RUN's block: kind, flags, the fields from 0x30 that a kind uses (R385). -/
def tRunBlock (kind flags launch : Nat) : List Byte :=
  let on := fun (b : Bool) (x : Nat) => if b then x else 0
  toBytesLE 256 (kind + flags * 2 ^ 8 + 0x10000 * 2 ^ 0x180 + 0x20000 * 2 ^ 0x1C0 + 4 * 2 ^ 0x200
    + on (kind != 1 && flags < 4) 0x24000 * 2 ^ 0x240 + on (kind != 0) (0x28000 * 2 ^ 0x280 + 4 * 2 ^ 0x2C0)
    + on (kind == 2) (0x2C000 * 2 ^ 0x3C0 + 4 * 2 ^ 0x400) + on (flags == 8) (0x5000 * 2 ^ 0x440) + launch * 2 ^ 0x4C0
    + on (launch != 0) (4096 * 2 ^ 0x500 + 0x30000 * 2 ^ 0x540 + 384 * 2 ^ 0x580 + 0x0202 * 2 ^ 0x600))

def tStart (p : Pattern) (b : List Byte) (s : State := tS) : State :=
  let s := tAsked 1 b s
  { s with
    grid :=
      { s.grid with
        engines := { Engine.reset with state := 2, pattern := some 1 } :: List.replicate 7 { Engine.reset with state := 1 }
        patterns := [p] } }

/-- A RUN of a kind with some flags that is accepted, and what its start finds. -/
def tAccepted (s : State) (q : Queue) (p : Pattern) (b : List Byte) (hold : Option (Nat × Nat)) (u : Task := tAsk 1) : Prop :=
  s.ops = [] ∧ dispatched s tRef u q 0x0001 256 b ∧ runAccepted s u q p b ∧ s.run? tRef = none ∧ s.grid.engines.length = 8
  ∧ s.startHold tView (newRun tRef p u.mask u.program (readRunBlock b)) p u.slot = hold

/-- Scoring and learning too; a hold, for physical noise without entropy. -/
theorem witness_RunsStartOrAreHeld :
    (let b := tRunBlock 0 0 0; tAccepted (tStart tPatH b) tQ3 tPatH b none) ∧ (let b := tRunBlock 1 0 0; tAccepted (tStart tPatH b) tQ3 tPatH b none)
    ∧ (let b := tRunBlock 2 0 0; tAccepted (tStart tPatL b) tQ3 tPatL b none) ∧ 0 < tPatL.stepTicks ∧ tPatH.header.shards ≤ 1 ∧ tPatL.header.shards ≤ 1
    ∧ tPatH.plan.samples = false ∧ tPatH.programs = [] ∧ tS.nl.votes = []
    ∧ (let b := tRunBlock 0 1 0; tAccepted (tStart tPatH b { tS with rng := { tS.rng with state := 0 } }) tQ3 tPatH b (some (4, 0))) := by
  refine ⟨by unfold tAccepted dispatched runAccepted; decide +kernel,
    by unfold tAccepted dispatched runAccepted; decide +kernel,
    by unfold tAccepted dispatched runAccepted; decide +kernel, by decide +kernel, by decide +kernel, by decide +kernel,
    rfl, rfl, rfl, by unfold tAccepted dispatched runAccepted; decide +kernel⟩

/-- Two shards, shard 1 on node 2, to be launched at stitch count 1. -/
theorem witness_RunsStartOrAreHeld_joined :
    let p : Pattern := { tPatH with header := { tPatH.header with shards := 2 } }
    let b := tRunBlock 0 0 1
    tAccepted (tStart p b) tQ3 p b none ∧ 1 < p.header.shards ∧ (readRunBlock b).rehost = false
    ∧ (tStart p b).cnt.stitch < (readRunBlock b).launch.toNat := by
  intro p b
  exact ⟨by unfold tAccepted dispatched runAccepted; decide +kernel, by decide +kernel, by decide +kernel, by decide +kernel⟩

/-- A scoring run without a count is not complete. -/
theorem complete_scoring (r : Run) (p : Pattern) (h1 : r.blk.kind = 1) (h2 : r.blk.inputCount = 0) (h3 : r.tick < 2 ^ 48) :
    r.complete p = false := by
  unfold Run.complete
  simp only [h1, h2]
  simp; omega

/-- A scoring run rehosted from a hem of tick 9, kept at 0x8000. -/
theorem witness_RunsStartOrAreHeld_rehost :
    let b := tRunBlock 1 4 0
    let k := readRunBlock b
    let hem : BuddyHem := { tag := 0, shard := 0, slot := 0, tick := 9, addr := 0x8000, lines := 4, complete := true }
    let s : State := let s := tStart tPatH b; { s with nl := { s.nl with hems := [hem] } }
    let r := newRun tRef tPatH 1 0 k
    tAccepted s tQ3 tPatH b none ∧ k.resume = false ∧ k.rehost = true ∧ k.resumeAt = 0 ∧ s.hemTick r.tag tPatH.hosted = some 9
    ∧ ∃ y cores, r.restore tPatH (hemReader s.mem r tPatH (s.hemPlaces r.tag tPatH.hosted 9) 9) = some (y, cores) ∧ y.complete tPatH = false := by
  intro b k hem s r
  refine ⟨by unfold tAccepted dispatched runAccepted; decide +kernel, by decide +kernel, by decide +kernel, by decide +kernel, by decide +kernel, ?_⟩
  have hk : ∀ (r : Run) (g : Reader), r.blk.kind = 1 → r.blk.inputCount = 0 → g 0x90 8 < 2 ^ 48 →
      ∃ y cores, r.restore tPatH g = some (y, cores) ∧ y.complete tPatH = false := by
    intro r g h h2 h3
    unfold Run.restore
    simp only [h]
    exact ⟨_, _, rfl, complete_scoring _ _ rfl h2 h3⟩
  exact hk _ _ (show (readRunBlock (tRunBlock 1 4 0)).kind = 1 by decide +kernel)
    (show (readRunBlock (tRunBlock 1 4 0)).inputCount = 0 by decide +kernel) (show 9 < 2 ^ 48 by decide)

/-- A scoring run resumed from a checkpoint of tick 7; RUN's block stands at 0x4400. -/
theorem witness_RunsStartOrAreHeld_resume :
    let b := tRunBlock 1 8 0
    let k := readRunBlock b
    let u : Task := { tTask tRef 1 with param := 0x4400 }
    let q : Queue := { tQ3 with handles := 2 }
    let n := tCkptN + bytesLE b * 256 ^ 0x400
    let s : State := { tStart tPatH b with mem := (tSI 0x1500 n).mem, q := { tS.q with queues := [q], tasks := [u] } }
    let r := newRun tRef tPatH 1 0 k
    tAccepted s q tPatH b none (u := u) ∧ k.resume = true ∧ (∃ x, r.restore tPatH (imageAt s.mem k.resumeAt) = some x)
    ∧ ∀ x ∈ r.restore tPatH (imageAt s.mem k.resumeAt), x.1.complete tPatH = false := by
  intro b k u q n s r
  have hb : s.mem.bytes = _ := tSI_bytes 0x1500 n (by decide +kernel)
  refine ⟨?_, by decide +kernel, ?_, ?_⟩
  · unfold tAccepted dispatched runAccepted State.addressFault granted handleRegion State.runPattern State.startHold checkpointBad
      checkpointLacks checkpointHash runRegions imageAt State.initState readAny Mem.field
    rw [hb]
    decide +kernel
  · have : (r.restore tPatH (imageAt s.mem k.resumeAt)).isSome = true := by unfold imageAt Mem.field; rw [hb]; decide +kernel
    exact Option.isSome_iff_exists.mp this
  · unfold imageAt Mem.field; rw [hb]; decide +kernel

/-- The run in progress with the admin mailbox holding a command about it. -/
def tHeld2 (op : Nat) (args : List Nat) (r : Run := tRun) (st : Nat := 3) : State := tRuns r tPat st (tHolds op args)

def tControl (s : State) (action : Nat) : Prop :=
  holdsCommand s 0x0106 ∧ s.arg 0 = 5 ∧ s.arg 1 = 1 ∧ s.arg 2 = action ∧ s.arg 3 = 0 ∧ tRun.ended = none
def tSole (s : State) (r : Run) (p : Pattern) : Prop :=
  s.ops = [] ∧ soleRun s r p ∧ (s.task r.ref).isSome = true ∧ (∀ u ∈ s.task r.ref, u.phase = .running)
    ∧ (s.queue r.ref.queue).map (·.state) = some .active

theorem witness_RunsArePausedResumedStoppedAndCheckpointed :
    (∀ st ∈ [3, 4, 5], ∀ a ∈ [0, 1, 2], let s := tHeld2 0x0106 [5, 1, a] tRun st; tControl s a ∧ tSole s tRun tPat ∧ (s.engine tRun.lead).state = st
      ∧ plain s tRun tPat ∧ tRun.ended = none ∧ tRun.begun = true ∧ tRun.wants = [] ∧ tRun.imaging = none)
    ∧ (let r : Run := { tRun with begun := false }; let s := tHeld2 0x0106 [5, 1, 2] r 6; tControl s 2 ∧ tSole s r tPat ∧ (s.engine r.lead).state = 6)
    ∧ (let s := tHeld2 0x0106 [5, 1, 1] tRun 5
       let s : State := { s with grid := { s.grid with engines := s.grid.engines.map fun e => { e with pauseKind := 1 } } }
       tControl s 1 ∧ tSole s tRun tPat ∧ (s.engine tRun.lead).state = 5 ∧ (s.engine tRun.lead).pauseKind = 1) := by
  refine ⟨?_, ?_, ?_⟩
  · unfold tControl tSole holdsCommand soleRun plain unhindered
    refine fun st hs a ha => ?_
    fin_cases hs <;> fin_cases ha <;> exact ⟨by decide +kernel, by decide +kernel, by decide +kernel, by decide +kernel, rfl, rfl, rfl, rfl⟩
  · unfold tControl tSole holdsCommand soleRun; decide +kernel
  · unfold tControl tSole holdsCommand soleRun; decide +kernel

/-- ENG_RELEASE of a run HELD before tick 0 whose cause no longer holds. -/
theorem witness_RunsArePausedResumedStoppedAndCheckpointed_release :
    let r : Run := newRun tRef tPatH 1 0 (readRunBlock (tRunBlock 0 0 0))
    let s := tRuns r tPatH 6 (tHolds 0x0004 [1])
    tSole s r tPatH ∧ holdsCommand s 0x0004 ∧ s.arg 0 = r.mask ∧ r.mask < 256 ∧ (∀ e ∈ r.engines, (s.engine e).state = 6) ∧ r.begun = false
    ∧ r.armed = false ∧ r.lost = [] ∧ r.wants = [] ∧ r.blk.kind = 0 ∧ r.blk.resume = false ∧ r.blk.rehost = false ∧ r.blk.noise = false
    ∧ r.blk.loose = false ∧ tPatH.plan.samples = false ∧ tPatH.programs = [] ∧ tPatH.header.shards ≤ 1 ∧ s.nl.votes = [] ∧ r.pauseAt = 0
    ∧ r.queue = [] ∧ r.complete tPatH = false ∧ s.startHold tView r tPatH 0 = none := by
  unfold tSole holdsCommand soleRun; decide +kernel

theorem witness_RunsArePausedResumedStoppedAndCheckpointed_checkpoint : ∀ st ∈ [3, 5],
    let b := toBytesLE 32 (5 + 2 ^ 64 + 0x8000 * 2 ^ 128 + 0x400 * 2 ^ 192)
    let ref : TaskRef := { queue := 5, seq := 2 }
    let c : Task := { tAsk 0x13 with ref := ref }
    let s : State := tPut b (tTable (tRuns tRun tPat st))
    let s : State := { s with q := { s.q with queues := [tQ3], tasks := s.q.tasks ++ [c] } }
    tSole s tRun tPat ∧ dispatched s ref c tQ3 0x0013 32 b ∧ ref ≠ tRun.ref ∧ fieldOf b 0 2 = tRun.ref.queue
    ∧ fieldOf b 8 8 = tRun.ref.seq ∧ fieldOf b 2 1 < 2 ∧ fieldOf b 3 5 = 0 ∧ fieldOf b 0x10 8 % 64 = 0 ∧ fieldOf b 0x10 8 < hostWindow
    ∧ checkpointLength tRun tPat ≤ 64 * fieldOf b 0x18 8 ∧ (∀ q ∈ s.queue tRun.ref.queue, q.pasid = tQ3.pasid)
    ∧ tRun.begun = true ∧ tRun.ended = none ∧ firstKill tRun.wants = none ∧ (s.engine tRun.lead).state = st
    ∧ s.addressFault tQ3 c [(0x10, fieldOf b 0x10 8, 64 * fieldOf b 0x18 8, true)] = none := by
  unfold tSole soleRun dispatched; decide +kernel

theorem witness_SessionsBeginResumeAndEnd :
    let d := fun (s : State) => { s with host := { s.host with attached := false } }
    (let s := tHolds 2 []; let s : State := { s with host := { s.host with session := false } }
     s.adminHolds 2 = true ∧ s.host.mbxArgs.length = 8 ∧ s.arg 1 = 0 ∧ s.host.session = false)
    ∧ (let s : State := d (tHolds 2 [4]); s.adminHolds 2 = true ∧ s.arg 1 = 0 ∧ s.host.session = true ∧ s.host.attached = false
       ∧ s.arg 0 ≠ s.host.cookie.toNat)
    ∧ (∀ e ∈ [0, 1], let s : State := d (tHolds 2 [5, e]); s.adminHolds 2 = true ∧ s.host.mbxArgs.length = 8 ∧ s.arg 1 = e ∧ s.host.session = true
       ∧ s.host.attached = false ∧ s.arg 0 = s.host.cookie.toNat ∧ s.grid.runs = [] ∧ s.q.tasks = [] ∧ s.host.heldRecords = [] ∧ s.host.held = [])
    ∧ ∀ c, (tS.copyEngine c).task = none := by
  refine ⟨by decide +kernel, by decide +kernel, by decide +kernel, tS_idleCopies _ rfl⟩

/-- One replica in patchwork, one slot of one lane in whole-cloth, and learning with two replicas. -/
def tPatC : Pattern := { tPat with header := { tPat.header with mode := 1 } }
def tRunL (k : Nat) : Run := { tRun with blk := { tRun.blk with kind := k } }
def tPatHarv : Pattern := { tPatL with learn := { tPatL.learn with sweeps := 0 } }

theorem witness_TicksBeginOnReadyEngines :
    (let s := tRuns tRun; soleRun s tRun tPat ∧ 0 ∈ tRun.engines ∧ s.mayTick tRun = true ∧ tPat.header.mode = 0 ∧ tRun.ticking = false
      ∧ tRun.blk.kind = 0 ∧ tRun.blk.loose = false ∧ tRun.resident.contains 0 = true ∧ tRun.weirReady (tRun.rungAt tPat 0 0).1 0 = true)
    ∧ ((tRuns { tRun with resident := [] }).mayTick { tRun with resident := [] } = true)
    ∧ (let r := tRunL 2; let s := tRuns r tPatHarv; soleRun s r tPatHarv ∧ s.mayTick r = true ∧ r.blk.kind = 2 ∧ r.ticking = false
       ∧ tPatHarv.harvestAt 0 = true ∧ tPatL.harvestAt 0 = false)
    ∧ (let r := tRunL 1; let s := tRuns r; soleRun s r tPat ∧ s.mayTick r = true ∧ r.blk.kind = 1 ∧ r.ticking = false)
    ∧ (let s := tRuns tRun tPatC; soleRun s tRun tPatC ∧ s.mayTick tRun = true ∧ tPatC.header.mode = 1 ∧ 0 < tPatC.slots
       ∧ (∀ w ∈ tRun.work, w.slot ≠ 0) ∧ tRun.done.contains 0 = false ∧ s.handoverDue = false
       ∧ ∀ l ∈ tPatC.slotLanes 0, tRun.weirReady (tRun.rungAt tPatC l 0).1 0 = true) := by
  unfold soleRun; decide +kernel

/-- The second slot behind the first, the first slot of the next tick before the run boundary, and a slot that is issued again. -/
theorem witness_TicksBeginOnReadyEngines_slots :
    let p : Pattern := { tPatC with header := { tPatC.header with total := 8, resident := 8 } }
    let r : Run := { tRun with done := [0] }
    let w : Run := { tRun with done := List.range p.slots }
    let a : Run := { tRun with redo := [{ slot := 1, noise := 0, refusals := 1, mended := false, checking := false, tries := 1 }] }
    (soleRun (tRuns r p) r p ∧ 1 < p.slots ∧ r.issued 0 r.tick = true ∧ (∀ x ∈ r.work, x.slot ≠ 1))
    ∧ (soleRun (tRuns w p) w p ∧ w.done.contains 0 = true ∧ (∀ j, j < p.slots → w.issued j w.tick = true)
       ∧ (tRuns w p).boundaryDue w p = false)
    ∧ (soleRun (tRuns a p) a p ∧ (tRuns a p).mayTick a = true ∧ (a.redoOf 1).isSome = true) := by
  unfold soleRun; decide +kernel

theorem witness_HoldsAndWaitsEnd :
    (let s := tRuns tRun tPat 4; soleRun s tRun tPat ∧ 0 ∈ tRun.engines ∧ s.live = true ∧ unhindered s tRun tPat ∧ (s.engine tRun.lead).state = 4
      ∧ s.hostOpen = true ∧ s.counterFails tView tRun tPat = false ∧ s.inputFails tView tRun tPat = false ∧ s.lacking tView tRun tPat = [])
    ∧ (let r := tRunL 1; let s := tRuns r tPat 4; soleRun s r tPat ∧ unhindered s r tPat ∧ s.hostOpen = true
       ∧ s.counterFails tView r tPat = false ∧ s.inputFails tView r tPat = false ∧ s.lacking tView r tPat ≠ [])
    ∧ (let r : Run := { tRun with loading := [0], due := [{ tick := 1, rung := 63, temp := 5 }] }; let s := tRuns r
       soleRun s r tPat ∧ 0 ∈ r.loading ∧ s.mem.poisonIn (r.blk.spool + 64 * 0 * tPat.replicaLines) (64 * tPat.replicaLines) = false
       ∧ (r.due.take 4).find? (fun c => c.rung == 63) = some { tick := 1, rung := 63, temp := 5 }) := by
  unfold soleRun unhindered; decide +kernel

def tEnvF (fs : List TickFault) : BoundaryEnv := { tEnv with faults := fs }

/-- A run of a pattern that has done its tick's work. -/
def tDone (p : Pattern) (k : Nat) : Run :=
  let r := tRunL k
  let r := { r with replicas := (List.range p.header.total).map fun _ => r.build p [false], ticking := true }
  { r with work := if p.header.mode = 0 then [r.raceWork p 0 0 0] else (p.slotLanes 0).map fun l => r.laneWork p l 0 0 }

theorem witness_BoundariesSealOrRefuse :
    let passes' := fun (r : Run) (p : Pattern) (ws : List Work) => r.flitBad = false ∧ zero48 (sumOver ws p.checkSum) = true
    let plain' := fun (r : Run) (p : Pattern) =>
      let s := tRuns r p
      soleRun s r p ∧ 0 ∈ r.engines ∧ s.live = true ∧ s.grid.residues = [] ∧ s.grid.linkFails = [] ∧ s.host.commit = none ∧ plain s r p
    (let r := tDone tPat 0; plain' r tPat ∧ (tRuns r).task r.ref ≠ none ∧ r.tick + 1 < 2 ^ 48 ∧ r.blk.limit = 0 ∧ tPat.header.mode = 0 ∧ r.ticking = true
      ∧ r.redo = [] ∧ passes' r tPat r.work
      ∧ ∃ w, r.work = [w] ∧ w.score = none ∧ w.harvest = false ∧ w.reload = none ∧ w.remote = [] ∧ w.replica < r.replicas.length)
    ∧ ((tEnvF [.residue 0]).faults ≠ [] ∧ ∀ c a b, TickFault.word c a b ∉ (tEnvF [.residue 0]).faults)
    ∧ (let r := tDone tPatC 0; plain' r tPatC ∧ tPatC.header.mode = 1 ∧ (∃ w ∈ r.work, w.slot = 0 ∧ w.sealed = false)
       ∧ passes' r tPatC (r.work.filter fun w => w.slot == 0)
       ∧ ∀ w ∈ r.work, w.slot = 0 → w.sealed = false ∧ w.tick = r.tick)
    ∧ (let r : Run := { tDone tPatC 0 with work := [], done := List.range tPatC.slots }; plain' r tPatC ∧ r.ticking = true ∧ r.work = [] ∧ r.redo = []
       ∧ ∀ k, k < tPatC.slots → k ∈ r.done)
    ∧ (let r : Run := { tRunL 2 with updating := true }; let s := tRuns r tPatL
       soleRun s r tPatL ∧ unhindered s r tPatL ∧ r.blk.kind = 2 ∧ r.updating = true ∧ r.imaging = none ∧ tPatL.shadowed = true)
    ∧ ∀ e ∈ [none, some (0, 0)], let r : Run := { tRunL 2 with imaging := some 1, ended := e }; let s := tRuns r tPatL
       soleRun s r tPatL ∧ r.imaging = some 1 ∧ r.ended = e ∧ ∀ u ∈ s.task r.ref, u.phase = .running := by
  intro passes' plain'
  refine ⟨⟨?_, by decide +kernel, by decide, rfl, rfl, rfl, rfl, ⟨rfl, by decide +kernel⟩, _, rfl, by decide +kernel⟩, ⟨by decide, ?_⟩,
    ⟨?_, rfl, by decide +kernel, ⟨rfl, by decide +kernel⟩, by decide +kernel⟩,
    ⟨?_, rfl, rfl, rfl, by decide +kernel⟩, ?_, ?_⟩
  · show soleRun _ _ _ ∧ _ ∧ _ ∧ _ ∧ _ ∧ _ ∧ plain _ _ _; unfold soleRun plain unhindered; decide +kernel
  · intro c a b h; simp [tEnvF] at h
  · show soleRun _ _ _ ∧ _ ∧ _ ∧ _ ∧ _ ∧ _ ∧ plain _ _ _; unfold soleRun plain unhindered; decide +kernel
  · show soleRun _ _ _ ∧ _ ∧ _ ∧ _ ∧ _ ∧ _ ∧ plain _ _ _; unfold soleRun plain unhindered; decide +kernel
  · unfold soleRun unhindered; decide +kernel
  · unfold soleRun; decide +kernel

/-! ### Witnesses: memory -/

/-- Eight symbols of one codeword in error at one device, and nine over two. -/
def tFew : List Nat := List.range 8
def tMany : List Nat := List.range 9

/-- Every line of the first two units has been written; line 3 is not poisoned; a merge entry waits. -/
def tLines (ls : List Nat) (s : State := tS) : State := { s with mem := { s.mem with valid := ls } }

theorem witness_ReadsScrubAndRefresh :
    (let s := tLines [0, 1, 2, 3]
      let c := s.servingChannel (unitOf s.mem.units 0xC0)
      s.live = true ∧ s.dram.channels.length = 8 ∧ s.inDram 0xC0 = true
      ∧ c < 8 ∧ s.mem.valid.contains 3 = true ∧ s.mem.linePoisoned 3 = false
      ∧ s.pairWhole (unitOf s.mem.units 0xC0) = false
      ∧ corrects ((s.channel c).marked (s.lineAt c 3).key) tFew = true ∧ corrects ((s.channel c).marked (s.lineAt c 3).key) tMany = false
      ∧ (s.channel c).failures.length < 3 ∧ tFew ≠ [] ∧ tMany ≠ [])
    ∧ (let s := tLines [0, 1, 2, 3]
       let s : State := { s with dram := { s.dram with channels := s.dram.channels.map fun c => { c with failures := [3, 2, 1] } } }
       let c := s.servingChannel (unitOf s.mem.units 0xC0)
       c < 8 ∧ (s.channel c).failures = [3, 2, 1] ∧ s.cnt.stitch ≤ 1 + 10 ^ 8 ∧ s.dram.map.findIdx? (fun e => e == c) = some c
       ∧ (s.channel c).state = 2 ∧ s.dram.mirrored = false)
    ∧ (let s := tLines [0, 1]
       let c := s.servingChannel (unitOf s.mem.units 0)
       let s : State := { s with dram := { s.dram with channels := s.dram.channels.map fun c => { c with scrubAt := some 1 } } }
       (s.channel c).scrubAt = some 1 ∧ s.channelLines c = [0, 1] ∧ ∀ x ∈ s.channelLines c, x ≤ 1)
    ∧ (∀ d, (tS.channel d).state ≠ 3)
    ∧ (let s := tLines [0, 1]; (s.channel 0).state = 2 ∧ 0 < (s.channel 0).period ∧ 0 < s.mem.units
       ∧ ∃ line more, (s.channelLines (s.servingChannel (unitOf s.mem.units 0))).filter
           (fun x => match (s.channel (s.servingChannel (unitOf s.mem.units 0))).scrubAt with | none => true | some l => decide (l < x)) = line :: more)
    ∧ (tS.memoryIdle = true ∧ tS.dram.map ≠ [] ∧ tS.pow.domains.length = 116 ∧ (tS.channel 7).state = 2) := by
  refine ⟨by decide +kernel, by decide +kernel, by decide +kernel, fun d => getD_all (fun (c : Channel) => c.state ≠ 3) _ (by decide) _ (by decide +kernel) d, ⟨by decide +kernel, by decide +kernel, by decide +kernel, ?_⟩, by decide +kernel⟩
  exact List.exists_cons_of_ne_nil (by decide +kernel) |>.imp fun _ h => h

/-- Mirrored mode: channel 0 with its partner 1. -/
def tMirror : State := { tS with dram := { tS.dram with mirrored := true, map := [0, 2, 4, 6] }, mem := { tS.mem with units := 4 } }

theorem witness_ReadsScrubAndRefresh_mirrored :
    let s := tLines [3] tMirror
    s.live = true ∧ s.inDram 0xC0 = true ∧ s.mem.valid.contains 3 = true ∧ s.pairWhole (unitOf s.mem.units 0xC0) = true
    ∧ s.servingChannel (unitOf s.mem.units 0xC0) = 0 ∧ corrects ((s.channel 0).marked (s.lineAt 0 3).key) tMany = false
    ∧ corrects ((s.channel 1).marked (s.lineAt 1 3).key) [] = true ∧ corrects ((s.channel 1).marked (s.lineAt 1 3).key) tMany = false
    ∧ (s.channel 1).failures.length < 3 := by decide +kernel

theorem witness_DramReturnsWhatWasWritten :
    let m : MergeEntry := { unit := 7, line := 3, bytes := [(0, 5), (63, 6)] }
    let s : State := { tS with mem := { tS.mem with merge := [m] } }
    s.live = true ∧ s.mem.wf = true ∧ s.mem.poisoned = [] ∧ s.mem.lost = [] ∧ (s.mem.merge.map (·.line)).Nodup
    ∧ (∀ m ∈ s.mem.merge, ascending (m.bytes.map (·.1)) = true) ∧ s.inDram (2 ^ 38 - 1) = true ∧ 2 ^ 38 - 1 + [(9 : Byte)].length ≤ s.mem.top
    ∧ s.mem.entry 3 = some m := by decide +kernel

/-! ### Witnesses: losses, updates, entropy -/

theorem witness_LossesAreContained :
    (tS.live = true ∧ tS.dram.channels.length = 8 ∧ (tS.channel 7).state = 2 ∧ tS.dram.mirrored = false
      ∧ tS.dram.map.findIdx? (fun e => e == 7) = some 7 ∧ tS.grid.loads = [] ∧ tS.grid.runs = [] ∧ soleRun (tRuns tRun) tRun tPat)
    ∧ (tMirror.live = true ∧ (tMirror.channel 1).state = 2 ∧ tMirror.dram.mirrored = true
      ∧ tMirror.dram.map.findIdx? (fun e => e == 1 || e + 1 == 1) = some 0 ∧ (1 = tMirror.dram.map.getD 0 0 → False) ∧ tMirror.dram.map.getD 0 0 = 0
      ∧ (tMirror.channel 0).state = 2)
    ∧ (let s : State := { tS with fw := { tS.fw with standby := none } }; s.live = true ∧ s.fw.noCore = false ∧ s.fw.running.isSome = true
       ∧ s.fw.standby = none ∧ s.grid.runs = [])
    ∧ (tS.fw.running = some tImg ∧ tS.fw.standby = some tImg ∧ tS.fw.phase = 0 ∧ tS.fw.window = none ∧ tS.fw.reloading = none)
    ∧ (let f : Fw := { tS.fw with failed := [0], standby := none, reloading := some tImg, reloadDue := [7] }; let s : State := { tS with fw := f }
       s.live = true ∧ s.fw.failed = 0 :: [] ∧ s.fw.noCore = false ∧ s.fw.standby = none ∧ s.fw.reloading = some tImg ∧ s.fw.running = some tImg
       ∧ 7 ∈ s.fw.reloadDue ∧ (s.engine 7).task = none ∧ 7 < s.fw.sequencers.length) := by
  unfold soleRun; decide +kernel

def tWindow : Window := { openedAt := 0, hostConfirm := true, confirmed := true, trial := true }
def tUpdate (next : Bool) : Update := { addr := 0x4000, length := 0x2000, slot := 0, nextBoot := next, hostConfirm := true, image := tImg }

/-- What a command of an update finds, but for its image. -/
theorem witness_UpdatesRunPhaseByPhase :
    (∀ w ∈ [false, true], let s := tHolds 0x0403 []; let s : State := { s with fw := { s.fw with window := if w then some tWindow else none } }
      holdsCommand s 0x0403 ∧ s.fw.window = (if w then some tWindow else none) ∧ tWindow.hostConfirm = true)
    ∧ (∀ k ∈ [2, 3, 5], let s := tHolds 0x0404 []; let s : State := { s with fw := { s.fw with phase := k, update := some (tUpdate false) } }
      holdsCommand s 0x0404 ∧ s.fw.phase = k ∧ s.fw.update = some (tUpdate false))
    ∧ (let s : State := { tS with fw := { tS.fw with phase := 4, update := some (tUpdate false) } }
       s.live = true ∧ s.handoverWaits = false ∧ s.fw.standby = some tImg ∧ s.fw.handBack = none ∧ s.fw.phase = 4 ∧ s.fw.update = some (tUpdate false))
    ∧ (let s : State := { tS with fw := { tS.fw with handBack := some 1 } }; s.fw.handBack = some 1 ∧ s.fw.running = some tImg ∧ s.fw.standby = some tImg)
    ∧ (let s : State := { tS with fw := { tS.fw with window := some tWindow, scanned := true } }
       s.live = true ∧ s.fw.window = some tWindow ∧ s.fw.running = some tImg ∧ s.fw.scanned = true ∧ tWindow.confirmed = true ∧ s.fw.handBack = none)
    ∧ (({ tWindow with trial := false } : Window).trial = false ∧ tS.boot.ready = true
      ∧ (none : Option Image).map (·.major) ≠ some tImg.major) := by
  unfold holdsCommand; decide +kernel

/-- DRAM that holds the signed image at 0x4000, on a device with its key. -/
def tSF (flags : Nat) : State :=
  let s := tHolds 0x0401 [0x4000, 0x2000, flags]
  { s with mem := (tSI 0x1010 tFwN).mem, nv := { s.nv with fuses := { s.nv.fuses with keyHash0 := tKeyHash } } }

theorem tSF_reader (flags : Nat) :
    (tSF flags).mem.bytes = fun x c => (List.range c).map fun i => if 0x4000 ≤ x + i then tByte tFwN (x + i - 0x4000) else 0 :=
  tSI_bytes 0x1010 tFwN (by decide +kernel)

theorem witness_UpdatesRunPhaseByPhase_update : ∀ f ∈ [1, 3],
    let s := tSF f
    let rd := fun (a n : Nat) => s.mem.bytes (s.arg 0 + a) n
    holdsCommand s 0x0401 ∧ s.fw.running = some tImg ∧ s.fw.phase = 0 ∧ s.fw.window = none ∧ s.arg 0 % 4096 = 0
    ∧ s.mem.inSoft (s.arg 0) (s.arg 1) = true ∧ 0x1000 ≤ s.arg 1 ∧ imgField rd 0x1C 4 ≤ s.arg 1 ∧ s.arg 2 = f ∧ s.fw.standby.isSome = true
    ∧ verifyImage s.nv.fuses (if f = 1 then some tImg.major else none) rd = 0
    ∧ verifyImage tS.nv.fuses (some tImg.major) rd = 2 := by
  intro f hf s rd
  have hr : rd = fun a n => (List.range n).map fun i => if 0x4000 ≤ 0x4000 + a + i then tByte tFwN (0x4000 + a + i - 0x4000) else 0 := by
    have ha : s.arg 0 = 0x4000 := by fin_cases hf <;> rfl
    show (fun a n => s.mem.bytes (s.arg 0 + a) n) = _
    rw [ha, tSF_reader]
  rw [hr]
  refine ⟨?_, rfl, rfl, rfl, ?_, ?_, ?_, ?_, ?_, rfl, ?_, ?_⟩
  · unfold holdsCommand; fin_cases hf <;> decide +kernel
  · fin_cases hf <;> decide +kernel
  · fin_cases hf <;> decide +kernel
  · fin_cases hf <;> decide +kernel
  · fin_cases hf <;> decide +kernel
  · fin_cases hf <;> decide +kernel
  · fin_cases hf <;> decide +kernel
  · decide +kernel

/-- The write, whose image still has digest d, and the second verification. -/
def tWriting (d : List Byte) : State :=
  { tSF 0 with fw := { (tSF 0).fw with phase := 2, update := some { tUpdate false with image := { tImg with digest := d } } } }

theorem tWriting_reader (d : List Byte) : (fun (a n : Nat) => (tWriting d).mem.bytes (0x4000 + a) n)
    = fun a n => (List.range n).map fun i => if 0x4000 ≤ 0x4000 + a + i then tByte tFwN (0x4000 + a + i - 0x4000) else 0 := by
  have h : (tWriting d).mem.bytes = _ := tSF_reader 0
  rw [h]

theorem witness_UpdatesRunPhaseByPhase_write :
    let im := fun (a n : Nat) => (tWriting []).mem.bytes (0x4000 + a) n
    componentsCheck im = true
    ∧ ∀ d, headerDigest im = d → let s := tWriting d
      s.live = true ∧ s.fw.update.map (·.image.digest) = some d ∧ s.fw.update.map (·.addr) = some 0x4000 ∧ s.fw.phase = 2 ∧ s.mem = (tWriting []).mem
      ∧ cellsWf 0xFF s.nv.flash = true := by
  intro im
  have hm : im = _ := tWriting_reader []
  refine ⟨by rw [hm]; decide +kernel, fun d _ => ⟨rfl, rfl, rfl, rfl, rfl, rfl⟩⟩

theorem witness_UpdatesRunPhaseByPhase_load :
    let w : State := { tS with nv := tFwNv, fw := { tS.fw with phase := 3, update := some (tUpdate false) } }
    w.live = true ∧ w.fw.update = some (tUpdate false) ∧ w.fw.phase = 3
    ∧ verifyImage w.nv.fuses (w.fw.running.map (·.major)) (w.nv.slotReader (tUpdate false).slot) = 0 := by
  refine ⟨rfl, rfl, rfl, ?_⟩
  show verifyImage tFwNv.fuses _ (tFwNv.slotReader 0) = 0
  rw [tFwNv_slot]; decide +kernel

theorem witness_EntropyServiceStartsFailsAndRetests :
    let at_ := fun (n k : Nat) (ws : List RngWait) (s : State) => { s with rng := { s.rng with state := n, retests := k, waiting := ws } }
    (∀ ws ∈ [[], [RngWait.mailbox]], ∀ n ∈ [0, 1, 2], let s : State := at_ n 0 ws tS; s.live = true ∧ s.rng.state = n ∧ s.rng.waiting = ws ∧ s.sb.held = [])
    ∧ ((0xF : Byte) ≠ 0 ∧ (at_ 2 2 [] tS).rng.retests < 3 ∧ 3 ≤ (at_ 2 3 [] tS).rng.retests ∧ 2 < tS.rng.drbgs.length ∧ tS.rng.state = 1)
    ∧ ∀ n ∈ [0, 1, 2, 3], let s : State := at_ n 0 [] (tHolds 0x0410 [1]); s.adminHolds 0x0410 = true ∧ s.arg 0 < 2 ∧ s.host.mbxArgs.length = 8
        ∧ s.rng.state = n := by decide +kernel

theorem witness_WorkTouchesNoControl : tS.ops = [] ∧ ∃ t, exec (.taskAgeing tRef) tS = .next t := ⟨rfl, _, rfl⟩

/-! ### Small tests: values from the manual's worked examples, from the standards it names, or by hand -/

/-- The manual's race table: idx of four draws. -/
theorem test_race_index : [0x2E000000, 0xC0000000, 0x00008000, 0x90000000].map weirIndex = [23, 543, 240, 523] := by decide +kernel
/-- The ladder example: (0, 1) of ladders 0 and 1, then (2, 3) of ladder 1. -/
theorem test_ladder_exchange :
    [exchangeAccepts 5120 7680 (-4180) (-4150) 0x7A000000, exchangeAccepts 5120 7680 (-4300) (-4210) 0xB0000000,
     exchangeAccepts 11520 17920 (-4050) (-3990) 0x20000000, exchangeAccepts 11520 17920 (-4020) (-4100) 0]
      = [true, false, true, true] := by decide +kernel
/-- The quantisation table of the row of variable 7, by column. -/
theorem test_pair_values :
    [pairValue 1000 38 38 20, pairValue (-487) 38 19 20, pairValue 250 76 38 20, pairValue 9 38 19 20, pairValue 630 57 38 20]
      = [988, -494, 266, 0, 627] := by decide
/-- Its last columns: a code at one end, an outlier at the other. -/
theorem test_end_codes : [endCode 266 38 127, endCode 266 76 127, endCode 627 38 127, endCode 627 57 127] = [some 7, none, none, some 11] := by
  decide
theorem test_row_converts : convert (-196) 38 0 = -7448 := by decide
/-- round(2^32 / e) (R212), by hand from e. -/
theorem test_escape_constants : escapeX 0 = 2 ^ 32 ∧ escapeX 16 = 1580030169 := by decide +kernel

/-! The learning step worked through, line by line. -/

theorem test_gradient_code : gradientRaw 240 355 = 86 ∧ gradientRaw (-400) 355 = -143 := by decide
theorem test_momentum_scales :
    momentumBound 230 335544 40 60 355 = 3975 ∧ momentumBlock 100000 = 4 ∧ momentumRow 3975 4 = 8 ∧ momentumA 230 40 60 32 = 110400
    ∧ momentumB2 335544 355 32 = 29311 := by decide
theorem test_momentum_code : momentumRaw (-20) 86 110400 29311 = -72 := by decide
theorem test_coupling_update : couplingTarget 12 8 (-72) 32 = 22272 ∧ exponentFor 4 300000 = 2 ∧ coarseCode 22272 16 = 5 := by decide

/-- The worked case of a line: seven units. -/
theorem test_line_found : unitOf 7 0x01234560 = 3 ∧ localAddr 7 0x01234560 = 0x299C60 ∧ unitOf 7 0x01234660 = 4 := by decide

/-- FIPS 180: SHA-384 of "abc". -/
theorem test_sha384 : sha384 [0x61, 0x62, 0x63] = toBytesBE 48
    0xcb00753f45a35e8bb5a03d699ac65007272c32ab0eded1631a8b605a43ff5bed8086072ba1e7cc2358baeca134c825a7 := by decide +kernel
/-- The check value of the CRC catalogue. -/
theorem test_crc32 : crc32 [0x31, 0x32, 0x33, 0x34, 0x35, 0x36, 0x37, 0x38, 0x39] = 0xCBF43926 := by decide +kernel
/-- The zero vector of the Philox4x32-10 test file. -/
theorem test_philox : philox 0 0 0 0 0 0 = (0x6627e8d5, 0xe169c58d, 0xbc57ac4c, 0x9b00dbd8) := by decide +kernel

/-! One step each. -/

/-- The fan failure: the level at seven evaluations, threshold 100 degC, by the readings in sixteenths of a degree. -/
theorem test_fan_failure :
    ([1605, 1616, 1606, 1587, 1549, 1538, 1528].foldl
        (fun (acc : List Nat × Guard) t => let g := { acc.2 with temp := t }; let l := nextLevel 1600 g
          (acc.1 ++ [l], { g with level := l })) ([], Guard.reset)).1 = [1, 2, 3, 3, 2, 1, 0] := by decide
/-- 115 degC is 1,840 sixteenths: every clock stops. -/
theorem test_thermtrip : ∃ t, exec (.sensorSample 3 [0, 1840, 5]) tS = .next t ∧ t.board.tripped = true ∧ t.grid = State.reset.grid :=
  ⟨_, rfl, rfl, by decide +kernel⟩
/-- A queue of one command; the rest waits. -/
theorem test_step_takes_the_front :
    ∃ t, step { tS with pending := [.taskAgeing tRef, .mbxReadySet] } = .next t ∧ t.pending = [.mbxReadySet] := by
  refine ⟨_, rfl, ?_⟩; decide +kernel
theorem test_step_idles : ∃ t, step tS = .next t ∧ t.cnt.stitch = tS.cnt.stitch + 1 ∧ t.pending = [] := ⟨_, rfl, by decide +kernel⟩
/-- Two bytes on either side of a line boundary: they wait in the merge buffer, and reads see them (R326). -/
theorem test_dram_write :
    ∃ t, exec (.dramWrite 0x103F [0xAB, 0xCD]) tS = .next t ∧ t.mem.bytes 0x103E 4 = [0, 0xAB, 0xCD, 0] ∧ t.mem.valid = [] := by
  refine ⟨_, rfl, ?_⟩; decide +kernel
theorem test_node_set : ∃ t, exec (.nodeSet .admin) (tHolds 0x0005 [16]) = .next t ∧ t.nl.node = some 1 ∧ t.host.statResult = 2 := by
  refine ⟨_, rfl, ?_⟩; decide +kernel
/-- The small image of the load witnesses, from its first section on; and with the reserved byte at 0x28 of COUPLINGS, or the
reserved byte of its core word, set (R534). -/
def tReader (add : Nat) : Reader := fun off n => bytesLE ((List.range n).map fun i => tByte (tImageN + add) (0x200 + off + i))
theorem test_layout :
    let faults := fun (add : Nat) =>
      let g := tReader add
      (placeImage g (readHeader g) fun _ => true).faults
    faults 0 = [] ∧ faults (2 ^ (8 * (0x200 + 0x3A8))) = [(0x0E, 3)] ∧ faults (2 ^ (8 * (0x200 + 0x3C6))) = [(0x0E, 3)] := by
  decide +kernel
/-- Capture bits [3:0] in Test-Logic-Reset, locked, and after a refused EXTEST out of reset (R519, R520). -/
theorem test_ir_capture :
    irCapture Dbg.reset = 1 ∧ ∃ t, exec .extest { tS with dbg := { tS.dbg with level := 1 } } = .next t ∧ irCapture t.dbg = 13 :=
  ⟨rfl, _, rfl, by decide +kernel⟩

end Sys2Proof.Tests
end

section
/-! SUPPORT. A refused commit (R353, R355): what a revert leaves and what it brings back, which faults a check can name, and the
statement about them. -/

namespace Sys2Proof.Machine

/-! ### A staged value back at its value in force -/

@[simp] theorem Staged.revert_staged (f : Staged) : f.revert.staged = f.force := rfl

@[simp] theorem Staged.revert_force (f : Staged) : f.revert.force = f.force := rfl

/-! `State.revertStaged` record by record: these functions are the ones it maps over its lists. -/

def Engine.revert (e : Engine) : Engine := { e with sel := e.sel.revert }

def Slot.revert (t : Slot) : Slot := { t with cfg := t.cfg.revert }

def CopyEngine.revert (c : CopyEngine) : CopyEngine := { c with cfg := c.cfg.revert }

def Domain.revert (d : Domain) : Domain := { d with cfg := d.cfg.revert }

theorem State.revertStaged_engine (s : State) (e : Nat) : s.revertStaged.engine e = (s.engine e).revert :=
  List.getD_map _ Engine.reset Engine.revert

theorem State.revertStaged_slot (s : State) (i : Nat) : s.revertStaged.slot i = (s.slot i).revert :=
  List.getD_map _ (Slot.reset i) Slot.revert

theorem State.revertStaged_copyEngine (s : State) (c : Nat) : s.revertStaged.copyEngine c = (s.copyEngine c).revert :=
  List.getD_map _ CopyEngine.reset CopyEngine.revert

theorem State.revertStaged_domain (s : State) (d : Nat) : s.revertStaged.domain d = (s.domain d).revert :=
  List.getD_map _ (Domain.reset d) Domain.revert

@[simp] theorem State.revertStaged_host (s : State) :
    s.revertStaged.host = { s.host with evtBase := s.host.evtBase.revert } := rfl

@[simp] theorem State.revertStaged_runs (s : State) : s.revertStaged.grid.runs = s.grid.runs := rfl

@[simp] theorem State.revertStaged_queues (s : State) : s.revertStaged.q.queues = s.q.queues := rfl

@[simp] theorem State.revertStaged_tasks (s : State) : s.revertStaged.q.tasks = s.q.tasks := rfl

@[simp] theorem State.revertStaged_ops (s : State) : s.revertStaged.ops = s.ops := rfl

@[simp] theorem State.revertStaged_vddMv (s : State) : s.revertStaged.pow.vddMv = s.pow.vddMv := rfl

/-- After a revert no staged value differs from its value in force. -/
theorem anyStaged_revertStaged (s : State) : anyStaged s.revertStaged = false := by
  simp [anyStaged, State.revertStaged]

@[simp] theorem anyStaged_setFault (s : State) (f : Nat × Nat × Nat) : anyStaged (s.setFault f) = anyStaged s := rfl

theorem anyStaged_run (s : State) (g : State → State) : anyStaged (s.run g) = anyStaged (g { s with ops := [] }) := by
  simp [anyStaged]

/-! ### What is in force -/

/-- t has in force what s has: the configuration of engines, slots, copy engines, domains and ring, the set point of the supply,
and the commit still to complete. -/
def SameInForce (s t : State) : Prop :=
  (∀ e, (t.engine e).sel.force = (s.engine e).sel.force ∧ (t.engine e).cur = (s.engine e).cur)
    ∧ (∀ i, (t.slot i).cfg.force = (s.slot i).cfg.force) ∧ (∀ c, (t.copyEngine c).cfg.force = (s.copyEngine c).cfg.force)
    ∧ (∀ d, (t.domain d).cfg.force = (s.domain d).cfg.force) ∧ t.host.evtBase.force = s.host.evtBase.force
    ∧ t.host.evtHead = s.host.evtHead ∧ t.host.evtTail = s.host.evtTail ∧ t.pow.vddMv = s.pow.vddMv
    ∧ t.host.commit = s.host.commit

theorem SameInForce.refl (s : State) : SameInForce s s := by simp [SameInForce]

theorem sameInForce_revertStaged (s : State) : SameInForce s s.revertStaged := by
  simp [SameInForce, State.revertStaged_engine, State.revertStaged_slot, State.revertStaged_copyEngine, State.revertStaged_domain,
    Engine.revert, Slot.revert, CopyEngine.revert, Domain.revert]

/-- The fault fields of CFG_STATUS are no configuration. -/
theorem SameInForce.setFault {s t : State} (h : SameInForce s t) (f : Nat × Nat × Nat) : SameInForce s (t.setFault f) := h

theorem sameInForce_refuseCommit (s : State) (f : Nat × Nat × Nat) : SameInForce s (s.refuseCommit f) := by
  unfold State.refuseCommit
  split
  · exact (SameInForce.refl s).setFault f
  · exact (sameInForce_revertStaged s).setFault f

/-- The wrapper of a command adds nothing to what its effect puts in force. -/
theorem SameInForce.run {s : State} {g : State → State} (h : SameInForce s (g { s with ops := [] })) : SameInForce s (s.run g) := by
  simpa [SameInForce, State.engine, State.slot, State.copyEngine, State.domain] using h

theorem sameInForce_run_refuseCommit (s : State) (f : Nat × Nat × Nat) : SameInForce s (s.run fun s => s.refuseCommit f) :=
  SameInForce.run (g := fun s => s.refuseCommit f) (sameInForce_refuseCommit { s with ops := [] } f)

/-! ### The faults a commit can name -/

/-- A fault other than COMMIT_BUSY whose code, class and index fit their fields of CFG_STATUS (R352). -/
def FitsStatus (f : Nat × Nat × Nat) : Prop := f.1 ≠ 5 ∧ f.1 < 2 ^ 13 ∧ f.2.1 < 2 ^ 4 ∧ f.2.2 < 2 ^ 12

/-- A check names its own code and class and an index below its count. -/
theorem fitsStatus_of_mem_faultAt {code cls n : Nat} {p : Nat → Bool} (h : FitsStatus (code, cls, n)) :
    ∀ f ∈ faultAt code cls n p, FitsStatus f := by
  intro f hf
  unfold faultAt at hf
  split at hf
  case h_1 i hi =>
    obtain ⟨hcode, hcode', hcls, hn⟩ := h
    have hin : i < n := List.mem_range.mp (List.mem_of_find?_eq_some hi)
    rw [List.mem_singleton.mp hf]
    exact ⟨hcode, hcode', hcls, hin.trans hn⟩
  case h_2 => cases hf

/-- Each check of R353, R397, R402 and R474, in the order in which `commitFaults` lists them. -/
theorem fitsStatus_of_mem_commitFaults (s : State) : ∀ f ∈ commitFaults s, FitsStatus f := by
  have none_fits : ∀ f ∈ ([] : List (Nat × Nat × Nat)), FitsStatus f := by simp
  simp only [commitFaults, List.forall_mem_append]
  refine ⟨⟨⟨⟨⟨⟨⟨⟨⟨?selMixed, ?busyEngine⟩, ?noFast⟩, ?ring⟩, ?slots⟩, ?noCopy⟩, ?copyBusy⟩, ?mayNotBeOff⟩, ?noPolicy⟩, ?refresh⟩
  case selMixed | noFast | copyBusy | mayNotBeOff | noPolicy => exact fitsStatus_of_mem_faultAt (by simp [FitsStatus])
  case ring | noCopy => split <;> simp [FitsStatus]
  case busyEngine =>
    split
    · exact fitsStatus_of_mem_faultAt (by simp [FitsStatus])
    · exact none_fits
  case slots | refresh =>
    split
    · exact none_fits
    · exact fitsStatus_of_mem_faultAt (by simp [FitsStatus])

theorem natBit_thirty_of_lt (a b : Bool) {low : Nat} (h : low < 2 ^ 30) :
    natBit (bit a * 2 ^ 31 + bit b * 2 ^ 30 + low) 30 = b := by
  cases a <;> cases b <;> simp [natBit, bit] <;> omega

/-- Bit 30 of CFG_STATUS is STAGED while the fault fields below it hold a fault that fits. -/
theorem natBit_cfgStatus_thirty {s : State} (h : FitsStatus (s.host.fault, s.host.faultClass, s.host.faultIndex)) :
    natBit (cfgStatus s) 30 = anyStaged s := by
  obtain ⟨-, hcode, hcls, hidx⟩ := h
  have hrefused : bit s.host.refused ≤ 1 := by cases s.host.refused <;> decide
  have hlow : bit s.host.refused * 2 ^ 29 + s.host.fault * 2 ^ 16 + s.host.faultClass * 2 ^ 12 + s.host.faultIndex < 2 ^ 30 := by
    dsimp only at hcode hcls hidx
    omega
  simpa only [cfgStatus, ← Nat.add_assoc] using natBit_thirty_of_lt s.host.commit.isSome (anyStaged s) hlow

/-! ### The command -/

/-- A GO that is refused does nothing but refuse. -/
theorem exec_cfgCommitGo_of_refused {s : State} {f : Nat × Nat × Nat} (v : HostView) (hup : s.hostUp = true)
    (hready : s.boot.ready = true) (hf : commitRefusal s = some f) :
    exec (.cfgCommitGo v) s = .next (s.run fun s => s.refuseCommit f) := by
  change execCfgCommitGo v s = _
  simp [execCfgCommitGo, State.run, hup, hready, hf]

/-- COMMIT_BUSY is decided first and alone. -/
theorem commitRefusal_of_pending {s : State} (h : s.host.commit ≠ none) : commitRefusal s = some (5, 0, 0) := by
  simp [commitRefusal, Option.isSome_iff_ne_none.mpr h]

theorem commitRefusal_of_commitFaults {s : State} {f : Nat × Nat × Nat} {rest : List (Nat × Nat × Nat)}
    (h : s.host.commit = none) (hf : commitFaults s = f :: rest) : commitRefusal s = some f := by
  simp [commitRefusal, h, hf]

theorem refuseCommit_busy (s : State) : s.refuseCommit (5, 0, 0) = s.setFault (5, 0, 0) := rfl

theorem refuseCommit_of_ne_busy (s : State) {f : Nat × Nat × Nat} (h : f.1 ≠ 5) : s.refuseCommit f = s.revertStaged.setFault f :=
  if_neg h

/-! ### The statement -/

/-- Settles O36: a refused GO is `State.refuseCommit`, which reverts every staged value and names a fault that fits its fields, or,
for COMMIT_BUSY, writes the fault alone. -/
theorem refusedCommitsChangeNothingInForce : Obligations.RefusedCommitsChangeNothingInForce := by
  intro s v hup hready
  refine ⟨fun f rest hcommit hfaults => ?failed, fun hcommit => ?busy⟩
  case failed =>
    have hfits : FitsStatus f := fitsStatus_of_mem_commitFaults s f (by simp [hfaults])
    have hstaged : anyStaged (s.run fun s => s.refuseCommit f) = false := by
      rw [anyStaged_run, refuseCommit_of_ne_busy _ hfits.1, anyStaged_setFault, anyStaged_revertStaged]
    refine ⟨_, exec_cfgCommitGo_of_refused v hup hready (commitRefusal_of_commitFaults hcommit hfaults),
      sameInForce_run_refuseCommit s f, hstaged, ?stagedBit, ?_⟩
    case stagedBit =>
      rw [natBit_cfgStatus_thirty (by simpa [refuseCommit_of_ne_busy _ hfits.1] using hfits), hstaged]
    simp [refuseCommit_of_ne_busy _ hfits.1, Mem.applyAll]
  case busy =>
    refine ⟨_, exec_cfgCommitGo_of_refused v hup hready (commitRefusal_of_pending hcommit),
      sameInForce_run_refuseCommit s (5, 0, 0), ?_⟩
    simp [refuseCommit_busy, Mem.applyAll]

end Sys2Proof.Machine
end

section
/-! SUPPORT. TASK_CANCEL and TASK_RETIRE (R406, R410): what an admin command's completion leaves, what ending a task and releasing
a run leave, what the retirement of a task does, and the statement about cancelled tasks. -/

namespace Sys2Proof.Machine

/-! ### Tasks, queues and engines after an update -/

theorem find?_modifyIf {α : Type} {p : α → Bool} {f : α → α} (hf : ∀ x, p x = true → p (f x) = true) (xs : List α) :
    (modifyIf p f xs).find? p = (xs.find? p).map f := by
  induction xs with
  | nil => rfl
  | cons x xs ih =>
    cases hx : p x
    · simpa [modifyIf, hx] using ih
    · simp [modifyIf, hx, hf x hx]

theorem State.task_setTask (s : State) (ref : TaskRef) {f : Task → Task} (hf : ∀ u, (f u).ref = u.ref) :
    (s.setTask ref f).task ref = (s.task ref).map f :=
  find?_modifyIf (by simp [hf]) s.q.tasks

theorem State.queue_setQueue (s : State) {n : Nat} {f : Queue → Queue} (hf : ∀ q : Queue, q.num = n → (f q).num = n) :
    (s.setQueue n f).queue n = (s.queue n).map f :=
  find?_modifyIf (by simpa using hf) s.q.queues

theorem State.queue_num {s : State} {n : Nat} {q : Queue} (h : s.queue n = some q) : q.num = n := by
  simpa using List.find?_some h

theorem State.task_ref {s : State} {ref : TaskRef} {u : Task} (h : s.task ref = some u) : u.ref = ref := by
  simpa using List.find?_some h

/-- A task that is not yet set to retire is set to retire by `State.endTask`. -/
theorem ends_endTask {s : State} {ref : TaskRef} {u : Task} {status detail : Nat} (hu : s.task ref = some u)
    (hphase : u.phase = .waiting ∨ u.phase = .running) : ends (s.endTask ref status detail) ref status detail := by
  refine ⟨{ u with phase := .ending status detail false }, ?_, rfl⟩
  rw [State.endTask, State.task_setTask s ref (fun u => by split <;> rfl), hu]
  obtain h | h := hphase <;> simp [h]

theorem State.setEngines_eq (s : State) (es : List Nat) (f : Engine → Engine) :
    s.setEngines es f = { s with grid := { s.grid with engines := es.foldl (fun g e => modifyAt f e g) s.grid.engines } } := by
  induction es generalizing s with
  | nil => rfl
  | cons e es ih => exact ih (s.setEngine e f)

/-! ### The completion of an admin command -/

theorem State.run_congr (s : State) {f g : State → State} (h : f { s with ops := [] } = g { s with ops := [] }) :
    s.run f = s.run g := by
  simp only [State.run, h]

theorem State.admin_of_holdsCommand {s : State} {op : Nat} (h : holdsCommand s op) (f : State → CmdWork) :
    s.admin op f = (f s).2.2.finishMailbox (f s).1 (f s).2.1 := by
  obtain ⟨hop, hsession, -⟩ := h
  simp [State.admin, hop, hsession]

@[simp] theorem State.signal_host (s : State) (v : Nat) :
    (s.signal v).host =
      { s.host with msixPending := if s.host.masked v then insertAsc v s.host.msixPending else s.host.msixPending } := by
  unfold State.signal
  split
  · rfl
  · split <;> rfl

/-- `State.finishMailbox` before it signals its vector. -/
def State.completed (s : State) (result : Nat) (outs : List (Nat × Nat)) : State :=
  { s with
    host :=
      { s.host with
        mbxArgs := outs.foldl (fun a o => modifyAt (fun _ => BitVec.ofNat 64 o.2) o.1 a) s.host.mbxArgs
        statTag := BitVec.ofNat 8 (s.host.mbxCmd.toNat / 2 ^ 16)
        statResult := BitVec.ofNat 16 result
        busy := false
        wait := .none } }

/-- What no signal changes is after a completion as before its signal. -/
theorem State.finishMailbox_of_signal {α : Type} {view : State → α} (hview : ∀ s v, view (State.signal s v) = view s) (s : State)
    (result : Nat) (outs : List (Nat × Nat)) : view (s.finishMailbox result outs) = view (s.completed result outs) := by
  unfold State.finishMailbox
  dsimp only
  split
  · rfl
  · exact hview _ _

section
variable (s : State) (result : Nat) (outs : List (Nat × Nat))

@[simp] theorem State.finishMailbox_board : (s.finishMailbox result outs).board = s.board :=
  State.finishMailbox_of_signal State.signal_board s result outs

@[simp] theorem State.finishMailbox_boot : (s.finishMailbox result outs).boot = s.boot :=
  State.finishMailbox_of_signal State.signal_boot s result outs

@[simp] theorem State.finishMailbox_fw : (s.finishMailbox result outs).fw = s.fw :=
  State.finishMailbox_of_signal State.signal_fw s result outs

@[simp] theorem State.finishMailbox_q : (s.finishMailbox result outs).q = s.q :=
  State.finishMailbox_of_signal State.signal_q s result outs

@[simp] theorem State.finishMailbox_grid : (s.finishMailbox result outs).grid = s.grid :=
  State.finishMailbox_of_signal State.signal_grid s result outs

@[simp] theorem State.finishMailbox_ops : (s.finishMailbox result outs).ops = s.ops :=
  State.finishMailbox_of_signal State.signal_ops s result outs

@[simp] theorem State.finishMailbox_link : (s.finishMailbox result outs).host.link = s.host.link :=
  State.finishMailbox_of_signal (view := (·.host.link)) (by simp) s result outs

@[simp] theorem State.finishMailbox_attached : (s.finishMailbox result outs).host.attached = s.host.attached :=
  State.finishMailbox_of_signal (view := (·.host.attached)) (by simp) s result outs

@[simp] theorem State.finishMailbox_busy : (s.finishMailbox result outs).host.busy = false :=
  State.finishMailbox_of_signal (view := (·.host.busy)) (by simp) s result outs

@[simp] theorem State.finishMailbox_wait : (s.finishMailbox result outs).host.wait = .none :=
  State.finishMailbox_of_signal (view := (·.host.wait)) (by simp) s result outs

@[simp] theorem State.finishMailbox_statResult : (s.finishMailbox result outs).host.statResult = BitVec.ofNat 16 result :=
  State.finishMailbox_of_signal (view := (·.host.statResult)) (by simp) s result outs

@[simp] theorem State.finishMailbox_statTag :
    (s.finishMailbox result outs).host.statTag = BitVec.ofNat 8 (s.host.mbxCmd.toNat / 2 ^ 16) :=
  State.finishMailbox_of_signal (view := (·.host.statTag)) (by simp) s result outs
end

/-! ### Ending a task and releasing a run -/

/-- What the end of a task leaves alone: the host port, the board, start-up, the control cores and the queues; and no operation
on DRAM comes of it. -/
structure SameService (s t : State) : Prop where
  host : t.host = s.host
  board : t.board = s.board
  boot : t.boot = s.boot
  fw : t.fw = s.fw
  queues : t.q.queues = s.q.queues
  ops : t.ops = s.ops

theorem SameService.refl (s : State) : SameService s s := ⟨rfl, rfl, rfl, rfl, rfl, rfl⟩

theorem sameService_endTask (s : State) (ref : TaskRef) (status detail : Nat) : SameService s (s.endTask ref status detail) :=
  ⟨rfl, rfl, rfl, rfl, rfl, rfl⟩

theorem sameService_releaseRun (s : State) (ref : TaskRef) (status detail : Nat) :
    SameService s (s.releaseRun ref status detail) := by
  unfold State.releaseRun
  split
  · rw [State.setEngines_eq]
    dsimp only
    split <;> exact ⟨rfl, rfl, rfl, rfl, rfl, rfl⟩
  · exact .refl s

theorem q_releaseRun {s : State} {ref : TaskRef} {r : Run} (hr : s.run? ref = some r) (status detail : Nat) :
    (s.releaseRun ref status detail).q
      = ((s.setTask ref fun u => { u with progress := r.progress, engines := r.mask }).endTask ref status detail).q := by
  unfold State.releaseRun
  split
  case h_1 x hx =>
    obtain rfl : r = x := Option.some.inj (hr.symm.trans hx)
    rw [State.setEngines_eq]
    dsimp only
    split <;> rfl
  case h_2 hx => simp [hr] at hx

theorem ends_releaseRun {s : State} {ref : TaskRef} {r : Run} {u : Task} {status detail : Nat} (hr : s.run? ref = some r)
    (hu : s.task ref = some u) (hphase : u.phase = .running) : ends (s.releaseRun ref status detail) ref status detail := by
  unfold ends State.task
  rw [q_releaseRun hr]
  refine ends_endTask (u := { u with progress := r.progress, engines := r.mask }) ?_ (.inr hphase)
  rw [State.task_setTask s ref (by intro; rfl), hu]
  rfl

theorem run?_releaseRun (s : State) (ref : TaskRef) (status detail : Nat) :
    (s.releaseRun ref status detail).run? ref = none := by
  unfold State.releaseRun
  split
  case h_1 => simp [State.run?]
  case h_2 h => exact h

/-! ### TASK_RETIRE -/

@[simp] theorem Queue.retireSeq_num (q : Queue) (seq status : Nat) : (q.retireSeq seq status).num = q.num := by
  unfold Queue.retireSeq
  dsimp only
  split <;> rfl

@[simp] theorem Task.resolve_ref (u : Task) (ref : TaskRef) (failed : Bool) : (u.resolve ref failed).ref = u.ref := by
  unfold Task.resolve
  split
  · split
    · split <;> rfl
    · rfl
  · rfl

theorem State.hostOpen_iff (s : State) :
    s.hostOpen = true ↔ s.live = true ∧ s.host.link = 2 ∧ s.host.attached = true := by
  simp [State.hostOpen, and_assoc]

theorem out_hostWrite {s : State} (hlink : s.host.link = 2) (pasid : Option Nat) (a : Nat) (bs : List Byte) :
    (s.hostWrite pasid a bs).out = s.out ++ [Out.hostWrite pasid a bs false] := by
  simp [State.hostWrite, hlink]

theorem out_prefix_hostWrite (s : State) (pasid : Option Nat) (a : Nat) (bs : List Byte) :
    s.out <+: (s.hostWrite pasid a bs).out := by
  unfold State.hostWrite
  split
  · exact List.prefix_append _ _
  · exact List.prefix_rfl

theorem out_prefix_signal (s : State) (v : Nat) : s.out <+: (s.signal v).out := by
  unfold State.signal
  split
  · exact List.prefix_rfl
  · split
    · exact List.prefix_append _ _
    · exact List.prefix_rfl

theorem out_prefix_writeDone (s : State) (old new : Queue) : s.out <+: (s.writeDone old new).out := by
  unfold State.writeDone
  dsimp only
  split <;> split
  · exact List.prefix_rfl
  · exact out_prefix_hostWrite _ _ _ _
  · exact out_prefix_hostWrite _ _ _ _
  · exact (out_prefix_hostWrite _ _ _ _).trans (out_prefix_hostWrite _ _ _ _)

@[simp] theorem State.writeDone_q (s : State) (old new : Queue) : (s.writeDone old new).q = s.q := by
  unfold State.writeDone
  dsimp only
  split <;> split <;> simp

@[simp] theorem State.writeDone_ops (s : State) (old new : Queue) : (s.writeDone old new).ops = s.ops := by
  unfold State.writeDone
  dsimp only
  split <;> split <;> simp

@[simp] theorem State.writeDone_host (s : State) (old new : Queue) : (s.writeDone old new).host = s.host := by
  unfold State.writeDone
  dsimp only
  split <;> split <;> simp

/-- What is sent while a task retires with the host within reach: its record, SEQ last, then the completion words and the vector. -/
def State.sendRecord (s : State) (h : HeldRecord) (old new : Queue) : State :=
  let s := (({ h with signal := false } : HeldRecord) |> s.writeRecord).writeDone old new
  if h.signal then s.signal old.num else s

@[simp] theorem State.sendRecord_q (s : State) (h : HeldRecord) (old new : Queue) : (s.sendRecord h old new).q = s.q := by
  unfold State.sendRecord
  dsimp only
  split <;> simp [State.writeRecord]

@[simp] theorem State.sendRecord_ops (s : State) (h : HeldRecord) (old new : Queue) : (s.sendRecord h old new).ops = s.ops := by
  unfold State.sendRecord
  dsimp only
  split <;> simp [State.writeRecord]

@[simp] theorem State.sendRecord_wait (s : State) (h : HeldRecord) (old new : Queue) :
    (s.sendRecord h old new).host.wait = s.host.wait := by
  unfold State.sendRecord
  dsimp only
  split <;> simp [State.writeRecord]

theorem out_sendRecord {s : State} (hlink : s.host.link = 2) (h : HeldRecord) (old new : Queue) :
    s.out ++ [Out.hostWrite (some h.pasid) (h.addr + 8) (h.bytes.drop 8) false,
      Out.hostWrite (some h.pasid) h.addr (h.bytes.take 8) false] <+: (s.sendRecord h old new).out := by
  have hrecord : (s.writeRecord { h with signal := false }).out = s.out
      ++ [Out.hostWrite (some h.pasid) (h.addr + 8) (h.bytes.drop 8) false,
        Out.hostWrite (some h.pasid) h.addr (h.bytes.take 8) false] := by
    simp [State.writeRecord, out_hostWrite, hlink]
  rw [← hrecord]
  unfold State.sendRecord
  dsimp only
  split
  · exact (out_prefix_writeDone _ _ _).trans (out_prefix_signal _ _)
  · exact out_prefix_writeDone _ _ _

/-- The record of a task as TASK_RETIRE writes it. -/
def Queue.record (q : Queue) (u : Task) (status detail : Nat) (fenceErr : Bool) : HeldRecord :=
  { queue := q.num, seq := u.ref.seq, pasid := q.pasid, addr := q.recordAddr u.ref.seq,
    bytes := recordBytes u status detail fenceErr, signal := u.irq && q.irq }

theorem State.retire_of_hostOpen {s : State} {u : Task} {q : Queue} (hopen : s.hostOpen = true)
    (hq : s.queue u.ref.queue = some q) (status detail : Nat) (fenceErr : Bool) :
    s.retire u status detail fenceErr =
      let new := q.retireSeq u.ref.seq status
      let s := (s.setQueue q.num fun _ => new).sendRecord (q.record u status detail fenceErr) q new
      { s with
        q :=
          { s.q with
            tasks := (s.q.tasks.filter fun x => x.ref != u.ref).map fun x => x.resolve u.ref (decide (0x0100 ≤ status)) } } := by
  have hopen' : (s.setQueue q.num fun _ => q.retireSeq u.ref.seq status).hostOpen = true := hopen
  simp only [State.retire, hq, hopen', Bool.not_true, Bool.false_eq_true, if_false, if_true]
  rfl

theorem retired_retire {s : State} {u : Task} {q : Queue} (hopen : s.hostOpen = true) (hq : s.queue u.ref.queue = some q)
    (status detail : Nat) (fenceErr : Bool) :
    retired s (s.retire u status detail fenceErr) u q status detail fenceErr := by
  obtain ⟨-, hlink, -⟩ := s.hostOpen_iff.mp hopen
  have hnum : q.num = u.ref.queue := State.queue_num hq
  rw [State.retire_of_hostOpen hopen hq]
  refine ⟨?gone, ?books, ?sent⟩
  case gone =>
    intro x hx
    obtain ⟨y, hy, rfl⟩ := List.mem_map.mp hx
    simpa using (List.mem_filter.mp hy).2
  case books =>
    have hset := State.queue_setQueue s (n := u.ref.queue) (f := fun _ => q.retireSeq u.ref.seq status) fun _ _ => by simp [hnum]
    rw [hq] at hset
    simpa [State.queue, hnum] using hset
  case sent =>
    obtain ⟨rest, hrest⟩ := out_sendRecord (s := s.setQueue q.num fun _ => q.retireSeq u.ref.seq status) hlink
      (q.record u status detail fenceErr) q (q.retireSeq u.ref.seq status)
    exact ⟨rest, hrest.symm⟩

theorem ops_retire {s : State} {u : Task} {q : Queue} (hopen : s.hostOpen = true) (hq : s.queue u.ref.queue = some q)
    (status detail : Nat) (fenceErr : Bool) : (s.retire u status detail fenceErr).ops = s.ops := by
  rw [State.retire_of_hostOpen hopen hq]
  simp

theorem State.reloadEngines_eq (s : State) (es : List Nat) : ∃ fw, s.reloadEngines es = { s with fw := fw } := by
  unfold State.reloadEngines
  split
  · exact ⟨_, rfl⟩
  · exact ⟨s.fw, rfl⟩

theorem mayRetire_of_active {s : State} {u : Task} {q : Queue} (hq : s.queue u.ref.queue = some q) (hactive : q.state = .active) :
    s.mayRetire u = true := by
  simp [State.mayRetire, hq, hactive]

theorem State.settleQueues_of_idle {s : State} (h : s.host.wait = .none) : s.settleQueues = s := by
  simp [State.settleQueues, h]

theorem host_wait_retire {s : State} {u : Task} {q : Queue} (hopen : s.hostOpen = true) (hq : s.queue u.ref.queue = some q)
    (status detail : Nat) (fenceErr : Bool) : (s.retire u status detail fenceErr).host.wait = s.host.wait := by
  rw [State.retire_of_hostOpen hopen hq]
  simp

/-- A task that is set to retire does so with the host within reach, unless the mailbox waits for queues to empty. -/
theorem exec_taskRetire_of_hostOpen {s : State} {ref : TaskRef} {u : Task} {q : Queue} {status detail : Nat} {fenceErr : Bool}
    (v : HostView) (hopen : s.hostOpen = true) (hcore : s.fw.noCore = false) (hwait : s.host.wait = .none)
    (hq : s.queue ref.queue = some q) (hu : s.task ref = some u) (hphase : u.phase = .ending status detail fenceErr)
    (hmay : s.mayRetire u = true) :
    ∃ w, exec (.taskRetire ref v) s = .next w ∧ retired s w u q status detail fenceErr ∧ w.mem = s.mem := by
  obtain rfl : u.ref = ref := State.task_ref hu
  obtain ⟨hlive, -, -⟩ := s.hostOpen_iff.mp hopen
  obtain ⟨fw, hfw⟩ := State.reloadEngines_eq { s with ops := [] } (bitsOf 8 u.engines)
  have hopen' : ({ s with ops := [], fw := fw } : State).hostOpen = true := hopen
  have hq' : ({ s with ops := [], fw := fw } : State).queue u.ref.queue = some q := hq
  refine ⟨s.run fun s => ({ s with fw := fw } : State).retire u status detail fenceErr, ?runs, ?retires, ?mem⟩
  case runs =>
    change execTaskRetire u.ref v s = _
    rw [execTaskRetire, State.whenLive_live s _ hlive]
    refine congrArg _ (State.run_congr s ?_)
    have hidle := State.settleQueues_of_idle ((host_wait_retire hopen' hq' status detail fenceErr).trans hwait)
    have hwrites : (MbxWait.none != .attachEnd) = true := rfl
    simp [hu, hq, hphase, hmay, hcore, hwait, hfw, hwrites, hidle]
  case retires => simpa [retired, State.queue] using retired_retire hopen' hq' status detail fenceErr
  case mem => exact State.run_mem_same s _ (ops_retire hopen' hq' status detail fenceErr)

/-! ### TASK_CANCEL -/

/-- The admin mailbox asks to cancel task u, which an ACTIVE queue q has admitted. -/
structure CancelHeld (s : State) (ref : TaskRef) (u : Task) (q : Queue) : Prop where
  command : holdsCommand s 0x0105
  queueArg : s.arg 0 = ref.queue
  seqArg : s.arg 1 = ref.seq
  queue : s.queue ref.queue = some q
  known : q.knows ref.seq = true
  active : q.state = .active
  task : s.task ref = some u

/-- A task has not started: it waits for edges or for dispatch, or is a RUN HELD before tick 0 (R410). -/
def NotStarted (s : State) (ref : TaskRef) (u : Task) : Prop :=
  u.phase = .waiting ∨ (u.phase = .running ∧ ∃ r, s.run? ref = some r ∧ r.begun = false ∧ (s.engine r.lead).state = 6)

/-- What TASK_CANCEL does to a task that has not started. -/
def State.cancelTask (s : State) (ref : TaskRef) (u : Task) : State :=
  if u.phase = .waiting then s.endTask ref 0x0100 0xFFFFFFFF else s.releaseRun ref 0x0100 0xFFFFFFFF

theorem sameService_cancelTask (s : State) (ref : TaskRef) (u : Task) : SameService s (s.cancelTask ref u) := by
  unfold State.cancelTask
  split
  · exact sameService_endTask _ _ _ _
  · exact sameService_releaseRun _ _ _ _

theorem ends_cancelTask {s : State} {ref : TaskRef} {u : Task} (hu : s.task ref = some u) (h : NotStarted s ref u) :
    ends (s.cancelTask ref u) ref 0x0100 0xFFFFFFFF := by
  obtain hw | ⟨hr, r, hrun, -, -⟩ := h
  · simpa only [State.cancelTask, if_pos hw] using ends_endTask hu (.inl hw)
  · simpa only [State.cancelTask, hr, reduceCtorEq, if_false] using ends_releaseRun hrun hu hr

theorem run?_cancelTask (s : State) (ref : TaskRef) (u : Task) :
    (s.cancelTask ref u).run? ref = if u.phase = .waiting then s.run? ref else none := by
  unfold State.cancelTask
  split
  · rfl
  · exact run?_releaseRun _ _ _ _

section
variable {s : State} {ref : TaskRef} {u : Task} {q : Queue}

theorem exec_taskCancel_of_notStarted (h : CancelHeld s ref u q) (hn : NotStarted s ref u) :
    exec .taskCancel s = .next (s.run fun s => (s.cancelTask ref u).finishMailbox 0 []) := by
  change execTaskCancel s = _
  refine congrArg _ (State.run_congr s ?_)
  rw [State.admin_of_holdsCommand (s := { s with ops := [] }) h.command]
  simp only [Clear.arg, Clear.queue, Clear.task, Clear.run?, h.queueArg, h.seqArg, h.queue, h.known, h.task]
  obtain hw | ⟨hr, r, hrun, hbegun, hheld⟩ := hn
  · simp [h.active, hw, State.cancelTask]
  · simp [h.active, hr, hrun, hbegun, hheld, State.cancelTask]

theorem exec_taskCancel_of_started (h : CancelHeld s ref u q) (hn : ¬ NotStarted s ref u) :
    exec .taskCancel s = .next (s.run fun s => s.finishMailbox 3 []) := by
  change execTaskCancel s = _
  refine congrArg _ (State.run_congr s ?_)
  rw [State.admin_of_holdsCommand (s := { s with ops := [] }) h.command]
  simp only [Clear.arg, Clear.queue, Clear.task, Clear.run?, h.queueArg, h.seqArg, h.queue, h.known, h.task]
  cases hphase : u.phase with
  | waiting => exact absurd (.inl hphase) hn
  | ending status detail fenceErr => simp [h.active]
  | running =>
    cases hrun : s.run? ref with
    | none => simp [h.active]
    | some r =>
      have hbegun : ¬ (r.begun = false ∧ (s.engine r.lead).state = 6) := fun hb => hn (.inr ⟨hphase, r, hrun, hb⟩)
      simp [h.active, hbegun]
end

/-! ### The state after an admin command whose work leaves the service as it is -/

section
variable {s : State} {f : State → State} (hf : SameService { s with ops := [] } (f { s with ops := [] })) (result : Nat)
include hf

theorem answered_run_finishMailbox : answered s (s.run fun s => (f s).finishMailbox result []) result := by
  simp [answered, hf.host]

theorem mem_run_finishMailbox : (s.run fun s => (f s).finishMailbox result []).mem = s.mem :=
  State.run_mem_same s _ (by simp [hf.ops])

theorem hostOpen_run_finishMailbox : (s.run fun s => (f s).finishMailbox result []).hostOpen = s.hostOpen := by
  simp [State.hostOpen, State.live, hf.host, hf.board, hf.boot]

theorem noCore_run_finishMailbox : (s.run fun s => (f s).finishMailbox result []).fw.noCore = s.fw.noCore := by
  simp [hf.fw]

theorem queue_run_finishMailbox (n : Nat) : (s.run fun s => (f s).finishMailbox result []).queue n = s.queue n := by
  simp [State.queue, hf.queues]
end

theorem noCore_of_holdsCommand {s : State} {op : Nat} (h : holdsCommand s op) : s.fw.noCore = false := by
  obtain ⟨hholds, -, -⟩ := h
  simp only [State.adminHolds, State.serving, Bool.and_eq_true, Bool.not_eq_true'] at hholds
  obtain ⟨⟨⟨⟨-, hcore⟩, -⟩, -⟩, -⟩ := hholds
  exact hcore

/-! ### The statement -/

/-- Settles O45: TASK_CANCEL is `State.cancelTask` on a task that has not started, which leaves it set to retire, so that
TASK_RETIRE writes its record; on any other task it answers STATE and does nothing. -/
theorem taskCancelRetiresWhatHasNotStarted : Obligations.TaskCancelRetiresWhatHasNotStarted := by
  intro s ref u q hcommand hqueueArg hseqArg hqueue hknown hactive htask
  have hcancel : CancelHeld s ref u q := ⟨hcommand, hqueueArg, hseqArg, hqueue, hknown, hactive, htask⟩
  refine ⟨fun (hn : NotStarted s ref u) => ?notStarted, fun (hn : ¬ NotStarted s ref u) => ?started⟩
  case notStarted =>
    have hsame := sameService_cancelTask { s with ops := [] } ref u
    have hends : ends (s.run fun s => (s.cancelTask ref u).finishMailbox 0 []) ref 0x0100 0xFFFFFFFF := by
      simpa [ends, State.task] using ends_cancelTask (s := { s with ops := [] }) htask hn
    refine ⟨_, exec_taskCancel_of_notStarted hcancel hn, answered_run_finishMailbox hsame 0, mem_run_finishMailbox hsame 0,
      hends, ?run, fun hopen v => ?retires⟩
    case run => simpa [State.run?] using run?_cancelTask { s with ops := [] } ref u
    case retires =>
      obtain ⟨x, hx, hphase⟩ := hends
      have hxref : x.ref = ref := State.task_ref hx
      have hqueue' := (queue_run_finishMailbox (f := fun s => s.cancelTask ref u) hsame 0 ref.queue).trans hqueue
      obtain ⟨w, hexec, hretired, hmem⟩ := exec_taskRetire_of_hostOpen v ((hostOpen_run_finishMailbox hsame 0).trans hopen)
        ((noCore_run_finishMailbox hsame 0).trans (noCore_of_holdsCommand hcommand)) (by simp) hqueue' hx hphase
        (mayRetire_of_active (hxref ▸ hqueue') hactive)
      exact ⟨w, x, hexec, hxref, hretired, hmem.trans (mem_run_finishMailbox hsame 0)⟩
  case started =>
    have hsame := SameService.refl { s with ops := [] }
    exact ⟨_, exec_taskCancel_of_started hcancel hn, answered_run_finishMailbox (f := id) hsame 3, by simp, by simp,
      mem_run_finishMailbox (f := id) hsame 3⟩

end Sys2Proof.Machine
end

section
/-! SUPPORT. A die's sensors at and above 110 degC (R470, R471): what an update of a guard leaves, what raising an event leaves,
what a change of level and an overheated die do, and the statement about them. -/

namespace Sys2Proof.Machine

/-! ### Guards after an update -/

theorem modifyAt_eq_modify {α : Type} (f : α → α) (i : Nat) (xs : List α) : modifyAt f i xs = xs.modify i f := by
  induction xs generalizing i with
  | nil => cases i <;> rfl
  | cons x xs ih =>
    cases i with
    | zero => rfl
    | succ i => simp [modifyAt, ih]

@[simp] theorem State.guards_length_setGuard (s : State) (d : Nat) (f : Guard → Guard) :
    (s.setGuard d f).pow.guards.length = s.pow.guards.length := by
  simp [modifyAt_eq_modify]

theorem State.guard_setGuard_same {s : State} {d : Nat} (hd : d < s.pow.guards.length) (f : Guard → Guard) :
    (s.setGuard d f).guard d = f (s.guard d) := by
  simp [State.guard, modifyAt_eq_modify, List.getD_eq_getElem?_getD, hd]

theorem State.guard_setGuard_ne {d e : Nat} (he : e ≠ d) (s : State) (f : Guard → Guard) :
    (s.setGuard d f).guard e = s.guard e := by
  simp [State.guard, modifyAt_eq_modify, List.getD_eq_getElem?_getD, he.symm]

@[simp] theorem State.event_guard (s : State) (cls code source : Nat) (tick : Option Nat) (detail : List Byte) (d : Nat) :
    (s.event cls code source tick detail).guard d = s.guard d := by
  simp [State.guard]

@[simp] theorem State.alert_guard (s : State) (bits : Byte) (d : Nat) : (s.alert bits).guard d = s.guard d := by
  simp [State.guard]

@[simp] theorem State.run_guard (s : State) (f : State → State) (d : Nat) :
    (s.run f).guard d = (f { s with ops := [] }).guard d := by
  simp [State.guard]

/-! ### Raising an event -/

@[simp] theorem State.ringWrite_evtSeq (s : State) (e : Event) : (s.ringWrite e).host.evtSeq = s.host.evtSeq := by
  simp only [State.ringWrite]
  split <;> simp

@[simp] theorem State.holdEvent_evtSeq (s : State) (e : Event) : (s.holdEvent e).host.evtSeq = s.host.evtSeq := by
  simp only [State.holdEvent]
  split
  · rfl
  · split <;> rfl

@[simp] theorem State.event_evtSeq (s : State) (cls code source : Nat) (tick : Option Nat) (detail : List Byte) :
    (s.event cls code source tick detail).host.evtSeq = s.host.evtSeq + 1 := by
  simp only [State.event]
  split <;> simp

/-- A record that the ring takes is written to host memory (R364, R366). -/
theorem mem_out_ringWrite {s : State} (hready : s.host.ringReady = true) (e : Event) :
    ∃ a, Out.hostWrite none a e.encode false ∈ (s.ringWrite e).out := by
  have hlink : s.host.link = 2 := by
    simp only [HostPort.ringReady, Bool.and_eq_true, beq_iff_eq] at hready
    obtain ⟨⟨⟨hlink, -⟩, -⟩, -⟩ := hready
    exact hlink
  refine ⟨s.host.evtBase.force / 4096 * 4096 + 64 * (s.host.evtHead % s.host.ringSize), ?_⟩
  simp only [State.ringWrite]
  split
  · refine (out_prefix_signal _ _).subset ?_
    simp [out_hostWrite hlink]
  · simp [out_hostWrite hlink]

/-- Any record but a CORRECTED one is held, or meets 4,096 held records (R366). -/
theorem mem_held_holdEvent {e : Event} (hcls : e.cls ≠ 1) (s : State) :
    e ∈ (s.holdEvent e).host.held ∨ 4096 ≤ (s.holdEvent e).host.held.length := by
  by_cases hroom : s.host.held.length < 4096
  · exact .inl (by simp [State.holdEvent, hroom])
  · exact .inr (by simpa [State.holdEvent, hroom, hcls] using Nat.le_of_not_lt hroom)

/-- The record of an event (R366). -/
def State.eventRecord (s : State) (cls code source : Nat) (tick : Option Nat) (detail : List Byte) : Event :=
  { stitch := s.cnt.stitch, seq := s.host.evtSeq, cls := cls, code := code, source := source, lost := s.host.evtLost,
    tick := match tick with | some t => BitVec.ofNat 64 t | none => BitVec.allOnes 64
    detail := (detail ++ zeroBytes 32).take 32 }

/-- The state once an event has taken its number (R366). -/
def State.numbered (s : State) : State := { s with host := { s.host with evtSeq := s.host.evtSeq + 1 } }

theorem State.event_eq (s : State) (cls code source : Nat) (tick : Option Nat) (detail : List Byte) :
    s.event cls code source tick detail =
      let e := s.eventRecord cls code source tick detail
      if s.host.held.isEmpty && s.host.ringReady then
        { s.numbered.ringWrite e with host := { (s.numbered.ringWrite e).host with evtLost := 0 } }
      else s.numbered.holdEvent e := rfl

theorem raised_event {cls : Nat} (hcls : cls ≠ 1) (s : State) (code source : Nat) (tick : Option Nat) (detail : List Byte) :
    raised s (s.event cls code source tick detail) cls code source := by
  let e := s.eventRecord cls code source tick detail
  refine ⟨e, rfl, rfl, rfl, le_rfl, ?seq, ?delivered⟩
  case seq => simp [e, State.eventRecord]
  case delivered =>
    rw [State.event_eq]
    split
    case isTrue hready => exact .inr (.inl (mem_out_ringWrite (s := s.numbered) (Bool.and_eq_true_iff.mp hready).2 e))
    case isFalse => exact (mem_held_holdEvent (e := e) hcls _).imp_right .inr

/-- An event raised after s and before t is raised after what comes before s, and before what sends more. -/
theorem raised_widen {s s' t t' : State} {cls code source : Nat} (h : raised s t cls code source)
    (hseq : s'.host.evtSeq ≤ s.host.evtSeq) (hhost : t'.host = t.host) (hout : t.out <+: t'.out) :
    raised s' t' cls code source := by
  obtain ⟨e, hcls, hcode, hsource, hfrom, hto, hdelivered⟩ := h
  refine ⟨e, hcls, hcode, hsource, hseq.trans hfrom, hhost ▸ hto, ?_⟩
  rw [hhost]
  exact hdelivered.imp_right (.imp_left fun ⟨a, ha⟩ => ⟨a, hout.subset ha⟩)

theorem out_prefix_alert (s : State) (bits : Byte) : s.out <+: (s.alert bits).out := by
  simp only [State.alert]
  split
  · exact List.prefix_rfl
  · exact List.prefix_append _ _

/-! ### What heat leaves -/

/-- What a change of die d's guard leaves, whatever it raises: no other guard, no work and no control state moves, and no operation
on DRAM comes of it. -/
structure OnlyHeats (d : Nat) (s t : State) : Prop where
  board : t.board = s.board
  nv : t.nv = s.nv
  boot : t.boot = s.boot
  fw : t.fw = s.fw
  q : t.q = s.q
  grid : t.grid = s.grid
  nl : t.nl = s.nl
  dram : t.dram = s.dram
  log : t.log = s.log
  ops : t.ops = s.ops
  guards : ∀ e, e ≠ d → t.guard e = s.guard e

section
variable {d : Nat} {s t u : State}

theorem OnlyHeats.refl (d : Nat) (s : State) : OnlyHeats d s s := by constructor <;> simp

theorem OnlyHeats.trans (h : OnlyHeats d s t) (k : OnlyHeats d t u) : OnlyHeats d s u where
  board := k.board.trans h.board
  nv := k.nv.trans h.nv
  boot := k.boot.trans h.boot
  fw := k.fw.trans h.fw
  q := k.q.trans h.q
  grid := k.grid.trans h.grid
  nl := k.nl.trans h.nl
  dram := k.dram.trans h.dram
  log := k.log.trans h.log
  ops := k.ops.trans h.ops
  guards e he := (k.guards e he).trans (h.guards e he)

theorem OnlyHeats.setGuard (h : OnlyHeats d s t) (f : Guard → Guard) : OnlyHeats d s (t.setGuard d f) :=
  h.trans ⟨rfl, rfl, rfl, rfl, rfl, rfl, rfl, rfl, rfl, rfl, fun _ he => State.guard_setGuard_ne he t f⟩

theorem OnlyHeats.event (h : OnlyHeats d s t) (cls code source : Nat) (tick : Option Nat) (detail : List Byte) :
    OnlyHeats d s (t.event cls code source tick detail) :=
  h.trans (by constructor <;> simp)

theorem OnlyHeats.alert (h : OnlyHeats d s t) (bits : Byte) : OnlyHeats d s (t.alert bits) :=
  h.trans (by constructor <;> simp)

/-- A command whose effect only heats leaves the rest of the device. -/
theorem OnlyHeats.run {f : State → State} (h : OnlyHeats d { s with ops := [] } (f { s with ops := [] })) :
    (∀ e, e ≠ d → (s.run f).guard e = s.guard e) ∧ (s.run f).q = s.q ∧ (s.run f).grid = s.grid ∧ (s.run f).mem = s.mem
      ∧ (s.run f).dram = s.dram ∧ (s.run f).nl = s.nl ∧ sameControl s (s.run f) ∧ (s.run f).log = s.log := by
  have hnv : (s.run f).nv = s.nv := by simp [State.run, h.nv]
  refine ⟨fun e he => ?_, ?_, ?_, State.run_mem_same s f h.ops, ?_, ?_, ⟨?_, hnv, ?_, ?_⟩, ?_⟩
  · rw [State.run_guard, h.guards e he, Clear.guard]
  · rw [State.run_q, h.q]
  · rw [State.run_grid, h.grid]
  · rw [State.run_dram, h.dram]
  · rw [State.run_nl, h.nl]
  · rw [State.run_board, h.board]
  · rw [State.run_boot, h.boot]
  · rw [State.run_fw, h.fw]
  · rw [State.run_log, h.log]
end

/-! ### The level of a guard -/

/-- The THROTTLE of die d is less than 10 ms old (R470). -/
def ThrottleQuiet (s : State) (d : Nat) : Prop := ∃ at_, (s.guard d).throttled = some at_ ∧ s.cnt.stitch < at_ + 1000000

/-- A change of die d's level to g raises THROTTLE: it leaves 0 or returns to it, and THROTTLE is not quiet (R470). -/
def ThrottleDue (s : State) (d g : Nat) : Prop := ¬ ((s.guard d).level = 0 ↔ g = 0) ∧ ¬ ThrottleQuiet s d

/-- `ThrottleDue` as `State.setLevel` tests it. -/
def State.throttles (s : State) (d g : Nat) : Bool :=
  ((s.guard d).level == 0) != (g == 0)
    && !(match (s.guard d).throttled with | some t => decide (s.cnt.stitch < t + 1000000) | none => false)

theorem throttleDue_iff (s : State) (d g : Nat) : ThrottleDue s d g ↔ s.throttles d g = true := by
  have hcross : ¬ ((s.guard d).level = 0 ↔ g = 0) ↔ (((s.guard d).level == 0) != (g == 0)) = true := by
    by_cases hg : g = 0 <;> simp [hg]
  rw [ThrottleDue, hcross, State.throttles, Bool.and_eq_true]
  cases hlast : (s.guard d).throttled with
  | none => simp [ThrottleQuiet, hlast]
  | some t => simp [ThrottleQuiet, hlast]

theorem State.setLevel_of_due {s : State} {d g : Nat} (h : ThrottleDue s d g) :
    s.setLevel d g =
      ((s.setGuard d fun x => { x with level := g }).setGuard d fun x => { x with throttled := some s.cnt.stitch }).event 5 1
        (sourceOf 5 (dieDomain d)) none (heatDetail d (s.guard d).temp) :=
  if_pos ((throttleDue_iff s d g).mp h)

theorem State.setLevel_of_not_due {s : State} {d g : Nat} (h : ¬ ThrottleDue s d g) :
    s.setLevel d g = s.setGuard d fun x => { x with level := g } :=
  if_neg (mt (throttleDue_iff s d g).mpr h)

theorem onlyHeats_setLevel (s : State) (d g : Nat) : OnlyHeats d s (s.setLevel d g) := by
  by_cases h : ThrottleDue s d g
  · rw [State.setLevel_of_due h]
    exact (((OnlyHeats.refl d s).setGuard _).setGuard _).event _ _ _ _ _
  · rw [State.setLevel_of_not_due h]
    exact (OnlyHeats.refl d s).setGuard _

theorem State.guard_setLevel {s : State} {d : Nat} (hd : d < s.pow.guards.length) (g : Nat) :
    ∃ last, (s.setLevel d g).guard d = { s.guard d with level := g, throttled := last } := by
  by_cases h : ThrottleDue s d g
  · exact ⟨some s.cnt.stitch, by simp [State.setLevel_of_due h, State.guard_setGuard_same, hd, -State.setGuard_pow]⟩
  · exact ⟨(s.guard d).throttled, by simp [State.setLevel_of_not_due h, State.guard_setGuard_same, hd]⟩

@[simp] theorem State.setLevel_sb (s : State) (d g : Nat) : (s.setLevel d g).sb = s.sb := by
  by_cases h : ThrottleDue s d g
  · simp [State.setLevel_of_due h]
  · simp [State.setLevel_of_not_due h]

@[simp] theorem State.guards_length_setLevel (s : State) (d g : Nat) :
    (s.setLevel d g).pow.guards.length = s.pow.guards.length := by
  by_cases h : ThrottleDue s d g
  · rw [State.setLevel_of_due h, State.event_pow]
    simp only [State.guards_length_setGuard]
  · rw [State.setLevel_of_not_due h, State.guards_length_setGuard]

theorem evtSeq_setLevel_of_due {s : State} {d g : Nat} (h : ThrottleDue s d g) :
    (s.setLevel d g).host.evtSeq = s.host.evtSeq + 1 := by
  simp [State.setLevel_of_due h]

theorem evtSeq_setLevel_of_not_due {s : State} {d g : Nat} (h : ¬ ThrottleDue s d g) :
    (s.setLevel d g).host.evtSeq = s.host.evtSeq := by
  simp [State.setLevel_of_not_due h]

/-! ### An overheated die -/

section
variable {s : State} {d : Nat}

theorem armed_setLevel (hd : d < s.pow.guards.length) (g : Nat) : ((s.setLevel d g).guard d).armed = (s.guard d).armed := by
  obtain ⟨last, hguard⟩ := State.guard_setLevel hd g
  rw [hguard]

theorem State.overheat_of_armed (hd : d < s.pow.guards.length) (hot : 1760 ≤ (s.guard d).temp)
    (harmed : (s.guard d).armed = true) :
    s.overheat d =
      (((s.setLevel d 8).setGuard d fun x => { x with armed := false }).event 5 2 (sourceOf 5 (dieDomain d)) none
        (heatDetail d (s.guard d).temp)).alert 2 := by
  simp [State.overheat, hot, armed_setLevel hd, harmed]

theorem State.overheat_of_disarmed (hd : d < s.pow.guards.length) (hot : 1760 ≤ (s.guard d).temp)
    (harmed : (s.guard d).armed = false) : s.overheat d = s.setLevel d 8 := by
  simp [State.overheat, hot, armed_setLevel hd, harmed]

theorem State.overheat_of_cool (hcool : (s.guard d).temp < 1712) :
    s.overheat d = s.setGuard d fun x => { x with armed := true } := by
  simp [State.overheat, hcool, show (s.guard d).temp < 1760 by omega]

theorem State.overheat_of_warm (hot : (s.guard d).temp < 1760) (hcool : 1712 ≤ (s.guard d).temp) : s.overheat d = s := by
  simp [State.overheat, Int.not_le.mpr hot, Int.not_lt.mpr hcool]

theorem onlyHeats_overheat (s : State) (d : Nat) : OnlyHeats d s (s.overheat d) := by
  unfold State.overheat
  dsimp only
  split
  · split
    · exact (((onlyHeats_setLevel s d 8).setGuard _).event _ _ _ _ _).alert 2
    · exact onlyHeats_setLevel s d 8
  · split
    · exact (OnlyHeats.refl d s).setGuard _
    · exact .refl d s

theorem State.guard_overheat_of_hot (hd : d < s.pow.guards.length) (hot : 1760 ≤ (s.guard d).temp) :
    ∃ last, (s.overheat d).guard d = { s.guard d with level := 8, armed := false, throttled := last } := by
  obtain ⟨last, hguard⟩ := State.guard_setLevel hd 8
  refine ⟨last, ?_⟩
  cases harmed : (s.guard d).armed with
  | true =>
    have hd' : d < (s.setLevel d 8).pow.guards.length := by simpa using hd
    rw [State.overheat_of_armed hd hot harmed, State.alert_guard, State.event_guard, State.guard_setGuard_same hd', hguard]
  | false => simp [State.overheat_of_disarmed hd hot harmed, hguard, harmed]

theorem State.guard_overheat_of_not_hot (hd : d < s.pow.guards.length) (hot : (s.guard d).temp < 1760) :
    (s.overheat d).guard d = { s.guard d with armed := decide ((s.guard d).temp < 1712) || (s.guard d).armed } := by
  by_cases hcool : (s.guard d).temp < 1712
  · simp [State.overheat_of_cool hcool, State.guard_setGuard_same hd, hcool]
  · simp [State.overheat_of_warm hot (Int.not_lt.mp hcool), hcool]

theorem temp_overheat (hd : d < s.pow.guards.length) : ((s.overheat d).guard d).temp = (s.guard d).temp := by
  by_cases hot : (s.guard d).temp < 1760
  · rw [State.guard_overheat_of_not_hot hd hot]
  · obtain ⟨last, hguard⟩ := State.guard_overheat_of_hot hd (Int.not_lt.mp hot)
    rw [hguard]

theorem host_overheat_of_not_hot (hot : (s.guard d).temp < 1760) : (s.overheat d).host = s.host := by
  by_cases hcool : (s.guard d).temp < 1712
  · rw [State.overheat_of_cool hcool, State.setGuard_host]
  · rw [State.overheat_of_warm hot (Int.not_lt.mp hcool)]

theorem sb_overheat_of_not_hot (hot : (s.guard d).temp < 1760) : (s.overheat d).sb = s.sb := by
  by_cases hcool : (s.guard d).temp < 1712
  · rw [State.overheat_of_cool hcool, State.setGuard_sb]
  · rw [State.overheat_of_warm hot (Int.not_lt.mp hcool)]

theorem evtSeq_le_setLevel (s : State) (d g : Nat) : s.host.evtSeq ≤ (s.setLevel d g).host.evtSeq := by
  by_cases h : ThrottleDue s d g
  · exact (Nat.le_succ _).trans_eq (evtSeq_setLevel_of_due h).symm
  · exact (evtSeq_setLevel_of_not_due h).ge

/-- A hot die whose guard is armed raises SHUTDOWN_IMMINENT. -/
theorem raised_overheat (hd : d < s.pow.guards.length) (hot : 1760 ≤ (s.guard d).temp) (harmed : (s.guard d).armed = true) :
    raised s (s.overheat d) 5 2 (sourceOf 5 (dieDomain d)) := by
  rw [State.overheat_of_armed hd hot harmed]
  have hraised := raised_event (cls := 5) (by decide) ((s.setLevel d 8).setGuard d fun x => { x with armed := false }) 2
    (sourceOf 5 (dieDomain d)) none (heatDetail d (s.guard d).temp)
  exact raised_widen hraised (evtSeq_le_setLevel s d 8) (State.alert_host _ _) (out_prefix_alert _ _)
end

/-! ### SENSOR_SAMPLE -/

theorem max?_eq_hottest {rs : List Int} (h : rs ≠ []) : rs.max? = some (hottest rs) := by
  cases rs with
  | nil => exact absurd rfl h
  | cons r rs => exact List.max?_cons'

theorem hottest_mem {rs : List Int} (h : rs ≠ []) : hottest rs ∈ rs :=
  (List.max?_eq_some_iff.mp (max?_eq_hottest h)).1

theorem le_hottest {rs : List Int} {r : Int} (hr : r ∈ rs) : r ≤ hottest rs :=
  (List.max?_eq_some_iff.mp (max?_eq_hottest (List.ne_nil_of_mem hr))).2 r hr

/-- Die d's guard with a temperature read. -/
def State.heated (s : State) (d : Nat) (temp : Int) : State := s.setGuard d fun g => { g with temp := temp }

/-- What SENSOR_SAMPLE does with a die's temperature below 115 degC. -/
def State.sample (s : State) (d : Nat) (temp : Int) : State :=
  if (s.heated d temp).live then (s.heated d temp).overheat d else s.heated d temp

section
variable {s : State} {d : Nat} {rs : List Int}

theorem exec_sensorSample_of_cooler (hrom : s.sbRom = true) (hd : d ≤ 8) (h : hottest rs < 1840) :
    exec (.sensorSample d rs) s = .next (s.run fun s => s.sample d (hottest rs)) := by
  have hread : ¬ (!s.sbRom || decide (8 < d)) = true := by simp [hrom, hd]
  exact (if_neg hread).trans (if_neg (Int.not_le.mpr h))

theorem exec_sensorSample_of_hotter (hrom : s.sbRom = true) (hd : d ≤ 8) (h : 1840 ≤ hottest rs) :
    exec (.sensorSample d rs) s = .next { s.enterReset with board := { s.board with tripped := true } } := by
  have hread : ¬ (!s.sbRom || decide (8 < d)) = true := by simp [hrom, hd]
  exact (if_neg hread).trans (if_pos h)

theorem State.guard_heated (hd : d < s.pow.guards.length) (temp : Int) :
    (s.heated d temp).guard d = { s.guard d with temp := temp } :=
  State.guard_setGuard_same hd _

@[simp] theorem State.guards_length_heated (s : State) (d : Nat) (temp : Int) :
    (s.heated d temp).pow.guards.length = s.pow.guards.length :=
  State.guards_length_setGuard s d _

theorem State.sample_of_live (hlive : s.live = true) (temp : Int) : s.sample d temp = (s.heated d temp).overheat d :=
  if_pos hlive

theorem onlyHeats_sample (s : State) (d : Nat) (temp : Int) : OnlyHeats d s (s.sample d temp) := by
  have hheated : OnlyHeats d s (s.heated d temp) := (OnlyHeats.refl d s).setGuard _
  unfold State.sample
  split
  · exact hheated.trans (onlyHeats_overheat _ d)
  · exact hheated

theorem temp_sample (hd : d < s.pow.guards.length) (temp : Int) : ((s.sample d temp).guard d).temp = temp := by
  unfold State.sample
  split
  · rw [temp_overheat (by simpa using hd), State.guard_heated hd]
  · rw [State.guard_heated hd]
end

/-! ### The statement -/

/-- What a live device does at a temperature of 110 degC or above: level 8, and SHUTDOWN_IMMINENT and SB_ALERT_N where the guard is
armed; k counts the THROTTLE that the level raises. -/
structure Overheated (s t : State) (d k : Nat) : Prop where
  level : (t.guard d).level = 8
  armed : (t.guard d).armed = false
  due : (s.guard d).level = 0 ∧ ¬ ThrottleQuiet s d → k = 1
  notDue : (s.guard d).level ≠ 0 ∨ ThrottleQuiet s d → k = 0
  shutdown : (s.guard d).armed = true →
    raised s t 5 2 (sourceOf 5 (dieDomain d)) ∧ t.host.evtSeq = s.host.evtSeq + k + 1 ∧ t.sb.alert = s.sb.alert ||| 2
  again : (s.guard d).armed = false → t.host.evtSeq = s.host.evtSeq + k ∧ t.sb.alert = s.sb.alert

/-- The THROTTLEs of a change of level to 8. -/
theorem evtSeq_setLevel_eight (s : State) (d : Nat) :
    ∃ k, (s.setLevel d 8).host.evtSeq = s.host.evtSeq + k ∧ ((s.guard d).level = 0 ∧ ¬ ThrottleQuiet s d → k = 1)
      ∧ ((s.guard d).level ≠ 0 ∨ ThrottleQuiet s d → k = 0) := by
  by_cases h : ThrottleDue s d 8
  · refine ⟨1, evtSeq_setLevel_of_due h, fun _ => rfl, fun hnot => ?_⟩
    obtain ⟨hcross, hquiet⟩ := h
    exact absurd hnot (by simpa [hquiet] using hcross)
  · refine ⟨0, evtSeq_setLevel_of_not_due h, fun ⟨hlevel, hquiet⟩ => ?_, fun _ => rfl⟩
    exact absurd ⟨by simp [hlevel], hquiet⟩ h

theorem overheated_overheat {s : State} {d : Nat} (hd : d < s.pow.guards.length) (hot : 1760 ≤ (s.guard d).temp) :
    ∃ k, Overheated s (s.overheat d) d k := by
  obtain ⟨last, hguard⟩ := State.guard_overheat_of_hot hd hot
  obtain ⟨k, hseq, hdue, hnotDue⟩ := evtSeq_setLevel_eight s d
  refine ⟨k, by rw [hguard], by rw [hguard], hdue, hnotDue, fun harmed => ?shutdown, fun harmed => ?again⟩
  case shutdown =>
    refine ⟨raised_overheat hd hot harmed, ?_, ?_⟩ <;> simp [State.overheat_of_armed hd hot harmed, hseq]
  case again => simp [State.overheat_of_disarmed hd hot harmed, hseq]

theorem Overheated.run {s : State} {d k : Nat} {f : State → State}
    (h : Overheated { s with ops := [] } (f { s with ops := [] }) d k) : Overheated s (s.run f) d k where
  level := (congrArg Guard.level (State.run_guard s f d)).trans h.level
  armed := (congrArg Guard.armed (State.run_guard s f d)).trans h.armed
  due := h.due
  notDue := h.notDue
  shutdown harmed := by
    obtain ⟨hraised, hseq, halert⟩ := h.shutdown harmed
    rw [State.run_host, State.run_sb_alert]
    exact ⟨raised_widen hraised le_rfl (State.run_host s f) (State.run_out s f ▸ List.prefix_rfl), hseq, halert⟩
  again harmed := by
    rw [State.run_host, State.run_sb_alert]
    exact h.again harmed

section
variable {s : State} {d : Nat} {temp : Int} (hd : d < s.pow.guards.length) (hlive : s.live = true)
include hd hlive

theorem overheated_sample (hot : 1760 ≤ temp) : ∃ k, Overheated s (s.sample d temp) d k := by
  have hguard := State.guard_heated hd temp
  have hquiet : ThrottleQuiet (s.heated d temp) d ↔ ThrottleQuiet s d := by
    rw [ThrottleQuiet, hguard]
    rfl
  obtain ⟨k, hlevel, harmed, hdue, hnotDue, hshutdown, hagain⟩ :=
    overheated_overheat (s := s.heated d temp) (by simpa using hd) (by rwa [hguard])
  rw [hguard] at hdue hnotDue hshutdown hagain
  rw [hquiet] at hdue hnotDue
  rw [State.sample_of_live hlive]
  exact ⟨k, hlevel, harmed, hdue, hnotDue, hshutdown, hagain⟩

theorem guard_sample_of_not_hot (hot : temp < 1760) :
    (s.sample d temp).guard d = { s.guard d with temp := temp, armed := decide (temp < 1712) || (s.guard d).armed } := by
  have hguard := State.guard_heated hd temp
  rw [State.sample_of_live hlive, State.guard_overheat_of_not_hot (by simpa using hd) (by rwa [hguard]), hguard]

theorem host_sample_of_not_hot (hot : temp < 1760) : (s.sample d temp).host = s.host := by
  rw [State.sample_of_live hlive, host_overheat_of_not_hot (by rwa [State.guard_heated hd]), State.heated, State.setGuard_host]

theorem sb_sample_of_not_hot (hot : temp < 1760) : (s.sample d temp).sb = s.sb := by
  rw [State.sample_of_live hlive, sb_overheat_of_not_hot (by rwa [State.guard_heated hd]), State.heated, State.setGuard_sb]
end

/-- THERMTRIP_N leaves the state of a reset with every clock stopped. -/
theorem wiped_enterReset (s : State) (board : Board) : wiped s { s.enterReset with board := board } :=
  ⟨rfl, rfl, rfl, rfl, rfl, rfl, rfl, rfl, rfl, rfl, rfl, rfl, rfl, rfl, rfl, rfl, rfl, rfl, rfl⟩

/-- Settles O22: below 115 degC SENSOR_SAMPLE is `State.sample` of the hottest reading, which only heats that die and acts by
`State.overheat` on a live device; at 115 degC it enters reset with THERMTRIP_N. -/
theorem overheatingRaisesShutdownAndTrips : Obligations.OverheatingRaisesShutdownAndTrips := by
  intro s d rs hrom hd hlen hne
  have hd' : d < ({ s with ops := [] } : State).pow.guards.length := hlen ▸ Nat.lt_succ_of_le hd
  refine ⟨fun hcooler => ?sampled, fun ⟨r, hr, hhot⟩ => ?tripped⟩
  case sampled =>
    have htemp : ((s.run fun s => s.sample d (hottest rs)).guard d).temp = hottest rs := by
      rw [State.run_guard, temp_sample hd']
    refine ⟨_, exec_sensorSample_of_cooler hrom hd (hcooler _ (hottest_mem hne)), ?_⟩
    rw [htemp]
    refine ⟨hottest_mem hne, fun _ => le_hottest, fun hlive => ⟨fun hot => ?hot, fun hot => ?notHot⟩,
      (onlyHeats_sample { s with ops := [] } d _).run⟩
    case hot =>
      obtain ⟨k, h⟩ := overheated_sample hd' hlive hot
      exact ⟨h.run.level, h.run.armed, k, h.due, h.notDue, h.run.shutdown, h.run.again⟩
    case notHot =>
      rw [State.run_guard, State.run_host, State.run_sb_alert, guard_sample_of_not_hot hd' hlive hot,
        host_sample_of_not_hot hd' hlive hot, sb_sample_of_not_hot hd' hlive hot]
      exact ⟨rfl, rfl, rfl, fun hcool => by simp [hcool], fun hwarm => by simp [Int.not_lt.mpr hwarm]⟩
  case tripped =>
    exact ⟨_, exec_sensorSample_of_hotter hrom hd (hhot.trans (le_hottest hr)), wiped_enterReset s _, rfl, rfl⟩

end Sys2Proof.Machine
end

section
/-! SUPPORT. What the work of tasks, ticks and memory channels leaves of the device's control: one view of the state, and for each
operation a lemma that the view is the same after it. -/

namespace Sys2Proof.Machine

/-- The device's control: what only the board, the sideband, the mailbox and the control cores move. -/
structure Control where
  board : Board
  fuses : Fuses
  boot : Boot
  level : Nat
  challenge : Option (List Byte)
  running : Option Image
  standby : Option Image
  guards : List Guard
  threshold : Nat
  session : Bool
  attached : Bool
  cookie : DWord
  aperture : Nat
  mbxArgs : List DWord
  mbxCmd : Word
  busy : Bool
  node : Option Nat
  rngState : Nat
  sbHeld : List Instr
  pending : List Instr

/-- The control of a state. -/
def State.control (s : State) : Control where
  board := s.board
  fuses := s.nv.fuses
  boot := s.boot
  level := s.dbg.level
  challenge := s.dbg.challenge
  running := s.fw.running
  standby := s.fw.standby
  guards := s.pow.guards
  threshold := s.pow.threshold
  session := s.host.session
  attached := s.host.attached
  cookie := s.host.cookie
  aperture := s.host.aperture
  mbxArgs := s.host.mbxArgs
  mbxCmd := s.host.mbxCmd
  busy := s.host.busy
  node := s.nl.node
  rngState := s.rng.state
  sbHeld := s.sb.held
  pending := s.pending

theorem control_foldl {α : Type} {f : State → α → State} (h : ∀ s x, (f s x).control = s.control) (xs : List α) (s : State) :
    (xs.foldl f s).control = s.control := by
  induction xs generalizing s with
  | nil => rfl
  | cons x xs ih => exact (ih _).trans (h s x)

@[simp] theorem control_setTask (s : State) (r : TaskRef) (f : Task → Task) : (s.setTask r f).control = s.control := rfl
@[simp] theorem control_endTask (s : State) (r : TaskRef) (a b : Nat) : (s.endTask r a b).control = s.control := rfl
@[simp] theorem control_setCopyEngine (s : State) (c : Nat) (f : CopyEngine → CopyEngine) : (s.setCopyEngine c f).control = s.control := rfl
@[simp] theorem control_send (s : State) (o : Out) : (s.send o).control = s.control := rfl
@[simp] theorem control_store (s : State) (o : MemOp) : (s.store o).control = s.control := rfl
@[simp] theorem control_setDomain (s : State) (d : Nat) (f : Domain → Domain) : (s.setDomain d f).control = s.control := rfl
@[simp] theorem control_setChannel (s : State) (d : Nat) (f : Channel → Channel) : (s.setChannel d f).control = s.control := rfl

@[simp] theorem control_hostWrite (s : State) (pasid : Option Nat) (a : Nat) (bs : List Byte) (poison : Bool) :
    (s.hostWrite pasid a bs poison).control = s.control := by
  unfold State.hostWrite
  split <;> rfl

@[simp] theorem control_keepTranslation (s : State) (a : Nat) : (s.keepTranslation a).control = s.control := by
  unfold State.keepTranslation
  split <;> rfl

@[simp] theorem control_wakeChannels (s : State) : s.wakeChannels.control = s.control := by
  refine control_foldl (fun s c => ?_) _ s
  split <;> rfl

@[simp] theorem control_write (s : State) (a : Nat) (bs : List Byte) : (s.write a bs).control = s.control := by
  unfold State.write
  split <;> rfl

@[simp] theorem control_writeDram (s : State) (a : Nat) (bs : List Byte) : (s.writeDram a bs).control = s.control := by
  unfold State.writeDram
  split <;> simp

@[simp] theorem control_putLine (s : State) (pasid : Option Nat) (a : Nat) (bs : List Byte) (poison : Bool) :
    (s.putLine pasid a bs poison).control = s.control := by
  unfold State.putLine
  split
  · split <;> simp
  · simp

@[simp] theorem control_putLines (v : HostView) (pasid : Option Nat) (c n : Nat) (s : State) (a : Nat) (bs : List Byte) :
    (s.putLines v pasid c n a bs).1.control = s.control := by
  induction n generalizing s a bs with
  | zero => rfl
  | succ n ih =>
    unfold State.putLines
    split
    · rfl
    · simp [ih]

@[simp] theorem control_beginLink (s : State) (c a owner : Nat) : (s.beginLink c a owner).control = s.control := by
  unfold State.beginLink
  dsimp only
  split <;> simp

@[simp] theorem control_takeTurn (s : State) (c : Nat) : (s.takeTurn c).control = s.control := by
  unfold State.takeTurn
  dsimp only
  split
  · split <;> simp
  · rfl

@[simp] theorem control_freeCopy (s : State) (c : Nat) : (s.freeCopy c).control = s.control := by
  simp [State.freeCopy]

@[simp] theorem control_fill (s : State) (v : HostView) (task : TaskRef) (q : Queue) (c dst : Nat) (bs : List Byte) :
    (s.fill v task q c dst bs).control = s.control := by
  unfold State.fill
  dsimp only
  split <;> simp

@[simp] theorem control_reseed (s : State) (i : Nat) : (s.reseed i).control = s.control := rfl

@[simp] theorem control_countCall (s : State) (i : Nat) : (s.countCall i).control = s.control := by
  unfold State.countCall
  dsimp only
  split <;> rfl

@[simp] theorem control_drawFill (s : State) (n : Nat) : (s.drawFill n).2.control = s.control :=
  control_foldl (f := fun s _ => s.countCall 1) (fun s _ => control_countCall s 1) _ _

@[simp] theorem control_serveFill (s : State) (task : TaskRef) : (s.serveFill task).control = s.control := by
  unfold State.serveFill
  split <;> simp

end Sys2Proof.Machine
end

section
/-! SUPPORT. The step, and what every command leaves as it was: the queue of commands, fuses, the debug lock and DRAM's form. -/

namespace Sys2Proof.Machine

/-! ### Accepted tokens and the debug level -/

/-- A command brings token on a port, against the challenge in force, or the device held it behind a challenge (R515, R522). -/
def BringsToken (c : Instr) (s : State) (port : DebugPort) (token : List Byte) (challenge : Option (List Byte)) : Prop :=
  c = .debugUnlock port token ∧ challenge = s.dbg.challenge ∨ Instr.debugUnlock port token ∈ s.sb.held

/-- A level is the one in force, LOCKED as by a reset, or that of an accepted token which `brings` admits (R521, R522). -/
def LevelMoves (s : State) (level : Nat) (brings : DebugPort → List Byte → Option (List Byte) → Prop) : Prop :=
  level = s.dbg.level ∨ level = 0
    ∨ ∃ port token challenge, tokenAccepted s.nv.fuses challenge token = true ∧ s.nv.fuses.debugDisable = false
        ∧ level = bytesLE ((token.drop 0x28).take 1) ∧ brings port token challenge

theorem LevelMoves.imp {s : State} {level : Nat} {b b' : DebugPort → List Byte → Option (List Byte) → Prop}
    (h : LevelMoves s level b) (hb : ∀ p x c, b p x c → b' p x c) : LevelMoves s level b' := by
  obtain h | h | ⟨p, x, c, hacc, hdis, hlevel, hbrings⟩ := h
  · exact .inl h
  · exact .inr (.inl h)
  · exact .inr (.inr ⟨p, x, c, hacc, hdis, hlevel, hb p x c hbrings⟩)

theorem LevelMoves.trans {s t : State} {level : Nat} {b : DebugPort → List Byte → Option (List Byte) → Prop} (hfuses : t.nv.fuses = s.nv.fuses)
    (h : LevelMoves s t.dbg.level b) (k : LevelMoves t level b) : LevelMoves s level b := by
  obtain k | k | ⟨p, x, c, hacc, hdis, hlevel, hbrings⟩ := k
  · exact k ▸ h
  · exact .inr (.inl k)
  · exact .inr (.inr ⟨p, x, c, hfuses ▸ hacc, hfuses ▸ hdis, hlevel, hbrings⟩)

/-- An accepted token names OBSERVE or FULL (R522). -/
theorem tokenAccepted_level {f : Fuses} {challenge : Option (List Byte)} {token : List Byte}
    (h : tokenAccepted f challenge token = true) : bytesLE ((token.drop 0x28).take 1) ≤ 2 := by
  simp only [tokenAccepted, Bool.and_eq_true, Bool.or_eq_true, beq_iff_eq] at h
  omega

/-! ### What every command keeps -/

/-- What holds of any next state, but for fuses. -/
structure Keeps (s t : State) (brings : DebugPort → List Byte → Option (List Byte) → Prop) : Prop where
  pending : t.pending = s.pending
  ops : s.ops = [] → t.ops = []
  mem : s.mem.wf = true → t.mem.wf = true
  level : LevelMoves s t.dbg.level brings

section
variable {s t u : State} {brings : DebugPort → List Byte → Option (List Byte) → Prop}

theorem Keeps.refl (s : State) : Keeps s s brings := ⟨rfl, id, id, .inl rfl⟩

theorem Keeps.trans (hfuses : t.nv.fuses = s.nv.fuses) (h : Keeps s t brings) (k : Keeps t u brings) : Keeps s u brings where
  pending := k.pending.trans h.pending
  ops ho := k.ops (h.ops ho)
  mem hm := k.mem (h.mem hm)
  level := h.level.trans hfuses k.level

theorem Keeps.imp {b' : DebugPort → List Byte → Option (List Byte) → Prop} (h : Keeps s t brings)
    (hb : ∀ p x c, brings p x c → b' p x c) : Keeps s t b' :=
  ⟨h.pending, h.ops, h.mem, h.level.imp hb⟩

theorem keeps_run (s : State) (f : State → State) : Keeps s (s.run f) brings :=
  ⟨rfl, fun _ => rfl, fun h => by simpa using Mem.applyAll_wf _ _ h, .inl rfl⟩

theorem keeps_enterReset (s : State) : Keeps s s.enterReset brings :=
  ⟨rfl, fun _ => rfl, fun _ => Mem.reset_wf, .inr (.inl rfl)⟩

/-- A state that differs in the TAP, the board or the boot state alone. -/
theorem Keeps.of_eq (hp : t.pending = s.pending) (ho : t.ops = s.ops) (hm : t.mem = s.mem) (hl : t.dbg.level = s.dbg.level) :
    Keeps s t brings :=
  ⟨hp, fun h => ho.trans h, fun h => by rwa [hm], .inl hl⟩

theorem keeps_runDebug {f : State → State × Dbg}
    (h : LevelMoves s (s.runDebug f).dbg.level brings) : Keeps s (s.runDebug f) brings :=
  have k := keeps_run (brings := brings) s fun s => (f s).1
  ⟨k.pending, k.ops, k.mem, h⟩
end

theorem fuses_runDebug (s : State) (f : State → State × Dbg) : (s.runDebug f).nv.fuses = s.nv.fuses := rfl

theorem level_runDebug (s : State) (f : State → State × Dbg) :
    (s.runDebug f).dbg.level = (f s).2.level := rfl

theorem keeps_loadDriving {brings : DebugPort → List Byte → Option (List Byte) → Prop} (s : State) (ir : TapIr) (v : Nat) :
    Keeps s (s.loadDriving ir v) brings := by
  unfold State.loadDriving
  split
  · exact .refl s
  · split <;> exact .of_eq rfl rfl rfl rfl

theorem nv_loadDriving (s : State) (ir : TapIr) (v : Nat) : (s.loadDriving ir v).nv = s.nv := by
  unfold State.loadDriving
  split
  · rfl
  · split <;> rfl

@[simp] theorem Dbg.release_level (d : Dbg) : d.release.level = d.level := by
  unfold Dbg.release
  split <;> rfl

/-! ### The debug port -/

theorem debugAnswer_jtag (s : State) (result : Nat) (bs : List Byte) :
    (s.debugAnswer .jtag result bs).2 = { s.dbg with dr := result + bytesLE bs * 2 ^ 64, held := none } := rfl

@[simp] theorem debugAnswer_level (s : State) (port : DebugPort) (result : Nat) (bs : List Byte) :
    (s.debugAnswer port result bs).2.level = s.dbg.level := by
  cases port with
  | sideband => rfl
  | jtag => rw [debugAnswer_jtag]

@[simp] theorem debugAnswer_dbg (s : State) (port : DebugPort) (result : Nat) (bs : List Byte) :
    (s.debugAnswer port result bs).1.dbg = s.dbg := by
  unfold State.debugAnswer
  split <;> rfl

@[simp] theorem debugAnswer_held (s : State) (port : DebugPort) (result : Nat) (bs : List Byte) :
    (s.debugAnswer port result bs).1.sb.held = s.sb.held := by
  unfold State.debugAnswer
  split <;> rfl

@[simp] theorem countCall_sb (s : State) (i : Nat) : (s.countCall i).sb = s.sb := by
  unfold State.countCall
  dsimp only
  split <;> rfl

@[simp] theorem countCall_dbg (s : State) (i : Nat) : (s.countCall i).dbg = s.dbg := by
  unfold State.countCall
  dsimp only
  split <;> rfl

@[simp] theorem giveChallenge_level (s : State) (port : DebugPort) : (s.giveChallenge port).2.level = s.dbg.level := by
  simp [State.giveChallenge, State.drawBytes]

@[simp] theorem giveChallenge_held (s : State) (port : DebugPort) : (s.giveChallenge port).1.sb.held = s.sb.held := by
  simp [State.giveChallenge, State.drawBytes]

theorem debugTurn_level {s : State} {port : DebugPort} {i : Instr} {f : State → State × Dbg} {P : Nat → Prop}
    (hstand : P s.dbg.level) (hf : P (f s).2.level) : P (s.debugTurn port i f).2.level := by
  unfold State.debugTurn
  split
  · split
    · exact hf
    · exact hstand
  · exact hf

theorem level_debugChallenge (port : DebugPort) (s : State) :
    ∃ t, exec (.debugChallenge port) s = .next t ∧ t.dbg.level = s.dbg.level ∧ t.nv.fuses = s.nv.fuses
      ∧ ∃ f, t = s.runDebug f := by
  refine ⟨_, rfl, ?_, rfl, _, rfl⟩
  rw [level_runDebug]
  refine debugTurn_level (P := (· = s.dbg.level)) rfl ?_
  split
  · split
    · split <;> rfl
    · rfl
  · split
    · simp
    · split
      · simp
      · split <;> simp

theorem level_debugUnlock (port : DebugPort) (token : List Byte) (s : State) :
    ∃ t, exec (.debugUnlock port token) s = .next t ∧ t.nv.fuses = s.nv.fuses ∧ (∃ f, t = s.runDebug f)
      ∧ LevelMoves s t.dbg.level fun p x c => p = port ∧ x = token ∧ c = s.dbg.challenge := by
  refine ⟨_, rfl, rfl, ⟨_, rfl⟩, ?_⟩
  rw [level_runDebug]
  refine debugTurn_level (P := fun l => LevelMoves s l _) (.inl rfl) ?_
  split
  · left
    split
    · split <;> rfl
    · rfl
  · split
    case isTrue h =>
      obtain ⟨hacc, hdis⟩ := Bool.and_eq_true_iff.mp h
      exact .inr (.inr ⟨port, token, s.dbg.challenge, hacc, by simpa using hdis, rfl, rfl, rfl, rfl⟩)
    case isFalse => exact .inl (by simp)

theorem level_dbgAccess (head source : NarrowWord) (packet : DebugPacket) (s : State) :
    ∃ t, exec (.dbgAccess head source packet) s = .next t ∧ t.dbg.level = s.dbg.level ∧ t.nv.fuses = s.nv.fuses
      ∧ ∃ f, t = s.runDebug f := by
  refine ⟨_, rfl, ?_, rfl, _, rfl⟩
  rw [level_runDebug]
  dsimp only
  split
  · rfl
  · split
    · rfl
    · split
      · split
        · rfl
        · split <;> rfl
      · split
        · rfl
        · split
          · split <;> rfl
          · split <;> rfl
          · split <;> rfl
          · rfl

end Sys2Proof.Machine
end

section
/-! SUPPORT. What waits for random output, held sideband requests, and what every command keeps (R42, R515, R521, R522). -/

namespace Sys2Proof.Machine

/-! ### What waits for random output -/

/-- The lock and the held requests stand. -/
def SameLock (s t : State) : Prop := t.dbg.level = s.dbg.level ∧ t.sb.held = s.sb.held

theorem SameLock.trans {s t u : State} (h : SameLock s t) (k : SameLock t u) : SameLock s u :=
  ⟨k.1.trans h.1, k.2.trans h.2⟩

theorem SameLock.of_control {s t : State} (h : t.control = s.control) : SameLock s t :=
  ⟨congrArg Control.level h, congrArg Control.sbHeld h⟩

theorem SameLock.foldl {α : Type} {f : State → α → State} (h : ∀ s x, SameLock s (f s x)) (xs : List α) (s : State) :
    SameLock s (xs.foldl f s) := by
  induction xs generalizing s with
  | nil => exact ⟨rfl, rfl⟩
  | cons x xs ih => exact (h s x).trans (ih _)

theorem sameLock_finishMailbox (s : State) (result : Nat) (outs : List (Nat × Nat)) : SameLock s (s.finishMailbox result outs) :=
  State.finishMailbox_of_signal (view := fun t => SameLock s t) (fun t v => by simp [SameLock]) s result outs ▸ ⟨rfl, rfl⟩

theorem sameLock_signedReply (s : State) (body : List Byte) : SameLock s (s.signedReply body) := by
  constructor <;> simp [State.signedReply, State.drawBytes, State.sbBytes]

@[simp] theorem reseed_dbg (s : State) (i : Nat) : (s.reseed i).dbg = s.dbg := rfl
@[simp] theorem reseed_sb (s : State) (i : Nat) : (s.reseed i).sb = s.sb := rfl

theorem sameLock_rngOutput (s : State) (resist : Bool) : SameLock s (s.rngOutput resist).2 := by
  unfold State.rngOutput
  cases resist <;> constructor <;> simp [State.drawBytes]

theorem sameLock_serve (s : State) (w : RngWait) : SameLock s (s.serve w) := by
  cases w with
  | mailbox => exact (sameLock_rngOutput s _).trans (sameLock_finishMailbox _ _ _)
  | fill task => exact .of_control (control_serveFill s task)
  | debugChallenge port => exact ⟨rfl, rfl⟩
  | spdmChallenge slot nonce => exact sameLock_signedReply s _
  | spdmMeasurements index nonce =>
    unfold State.serve
    dsimp only
    split
    · exact sameLock_signedReply s _
    · exact ⟨rfl, rfl⟩

theorem sameLock_failWait (s : State) (w : RngWait) : SameLock s (s.failWait w) := by
  cases w with
  | mailbox => exact sameLock_finishMailbox s _ _
  | fill task =>
    unfold State.failWait
    dsimp only
    split
    · exact .of_control (control_freeCopy _ _)
    · exact ⟨rfl, rfl⟩
  | debugChallenge port => exact ⟨rfl, rfl⟩
  | spdmChallenge slot nonce => exact ⟨rfl, rfl⟩
  | spdmMeasurements index nonce => exact ⟨rfl, rfl⟩

theorem sameLock_rngReady (s : State) : SameLock s s.rngReady :=
  SameLock.foldl sameLock_serve s.rng.waiting { s with rng := _ }

theorem sameLock_answerChallenges (s : State) (ports : List DebugPort) (good : Bool) :
    SameLock s { (s.answerChallenges ports good).1 with dbg := (s.answerChallenges ports good).2 } := by
  let answer := fun (x : State × Dbg) p =>
    if good then ({ x.1 with dbg := x.2 } : State).giveChallenge p else ({ x.1 with dbg := x.2 } : State).debugAnswer p 0x0300 []
  suffices h : ∀ (ports : List DebugPort) (x : State × Dbg),
      SameLock { x.1 with dbg := x.2 } { (ports.foldl answer x).1 with dbg := (ports.foldl answer x).2 } from h ports (s, s.dbg)
  intro ports
  induction ports with
  | nil => exact fun x => ⟨rfl, rfl⟩
  | cons p ports ih =>
    intro x
    refine SameLock.trans (t := { (answer x p).1 with dbg := (answer x p).2 }) ?_ (ih (answer x p))
    cases good
    · exact ⟨debugAnswer_level _ _ _ _, debugAnswer_held _ _ _ _⟩
    · exact ⟨giveChallenge_level _ _, giveChallenge_held _ _⟩

@[simp] theorem State.occasions_sb_held (s : State) (evs : List PlatformEvent) : (s.occasions evs).sb.held = s.sb.held := by
  unfold State.occasions; split <;> rfl

@[simp] theorem State.run_sb_held (s : State) (f : State → State) : (s.run f).sb.held = (f { s with ops := [] }).sb.held := by
  simp [State.run]

theorem sameLock_runDebug {f : State → State × Dbg} (h : ∀ s, SameLock s { (f s).1 with dbg := (f s).2 }) (s : State) :
    SameLock s (s.runDebug f) := by
  obtain ⟨hlevel, -⟩ := h s
  obtain ⟨-, hheld⟩ := h { s with ops := [] }
  exact ⟨hlevel, (State.run_sb_held s fun s => (f s).1).trans hheld⟩

/-! ### Held sideband requests -/

theorem carryOut_eq (s : State) (i : Instr) : s.carryOut i = s ∨ exec i s = .next (s.carryOut i) := by
  cases i with
  | getInfo | nodeSet | faultLogRead | faultRecordRead | faultRecordClear | fwStatus | rngStatus | powerRead | guardSet | sbRead
  | alertRead | alertClear | flashRead | flashErase | flashWrite | recoveryReboot | debugChallenge | debugUnlock => exact .inr rfl
  | _ => exact .inl rfl

/-! ### Every command -/

/-- A command is carried out to a state t that keeps what every command keeps, and but for IMAGE_CONFIRM the fuses. -/
def Answers (c : Instr) (s : State) (brings : DebugPort → List Byte → Option (List Byte) → Prop) : Prop :=
  ∃ t, exec c s = .next t ∧ Keeps s t brings ∧ (c.blowsFuses = false → t.nv.fuses = s.nv.fuses)

theorem answers_run {c : Instr} {s : State} {brings : DebugPort → List Byte → Option (List Byte) → Prop} {f : State → State}
    (h : exec c s = .next (s.run f)) : Answers c s brings :=
  ⟨_, h, keeps_run s f, fun _ => rfl⟩

theorem answers_debug {c : Instr} {s : State} {brings : DebugPort → List Byte → Option (List Byte) → Prop}
    (h : ∃ t, exec c s = .next t ∧ t.dbg.level = s.dbg.level ∧ t.nv.fuses = s.nv.fuses ∧ ∃ f, t = s.runDebug f) :
    Answers c s brings := by
  obtain ⟨t, hexec, hlevel, hfuses, f, rfl⟩ := h
  exact ⟨_, hexec, keeps_runDebug (.inl hlevel), fun _ => hfuses⟩

theorem answers_debugUnlock (port : DebugPort) (token : List Byte) (s : State) :
    Answers (.debugUnlock port token) s fun p x c => p = port ∧ x = token ∧ c = s.dbg.challenge := by
  obtain ⟨t, hexec, hfuses, ⟨f, rfl⟩, hlevel⟩ := level_debugUnlock port token s
  exact ⟨_, hexec, keeps_runDebug hlevel, fun _ => hfuses⟩

theorem answers_recoveryReboot (tag : Byte) (s : State) {brings : DebugPort → List Byte → Option (List Byte) → Prop} :
    Answers (.recoveryReboot tag) s brings := by
  refine ⟨_, rfl, ?_, fun _ => ?_⟩
  · split
    · exact keeps_enterReset s
    · exact keeps_run s _
  · split <;> rfl

/-- A held request is carried out as its command, which DEBUG_UNLOCK alone may make an unlocking. -/
theorem carryOut_keeps (s : State) (i : Instr) :
    (s.carryOut i).nv.fuses = s.nv.fuses ∧ Keeps s (s.carryOut i) fun p x _ => i = .debugUnlock p x := by
  have of_answers {brings : DebugPort → List Byte → Option (List Byte) → Prop} (hc : i.blowsFuses = false)
      (hb : ∀ p x c, brings p x c → i = .debugUnlock p x) (h : Answers i s brings) :
      (s.carryOut i).nv.fuses = s.nv.fuses ∧ Keeps s (s.carryOut i) fun p x _ => i = .debugUnlock p x := by
    obtain heq | heq := carryOut_eq s i
    · rw [heq]; exact ⟨rfl, .refl s⟩
    · obtain ⟨t, hexec, hkeeps, hfuses⟩ := h
      cases hexec.symm.trans heq
      exact ⟨hfuses hc, hkeeps.imp hb⟩
  cases i with
  | getInfo | nodeSet | faultLogRead | faultRecordRead | faultRecordClear | fwStatus | rngStatus | powerRead | guardSet | sbRead
  | alertRead | alertClear | flashRead | flashErase | flashWrite =>
    exact of_answers rfl (fun _ _ _ h => h) (answers_run rfl)
  | recoveryReboot tag => exact of_answers rfl (fun _ _ _ h => h) (answers_recoveryReboot tag s)
  | debugChallenge port => exact of_answers rfl (fun _ _ _ h => h) (answers_debug (level_debugChallenge port s))
  | debugUnlock port token =>
    exact of_answers rfl (fun _ _ _ ⟨hp, hx, _⟩ => by rw [hp, hx]) (answers_debugUnlock port token s)
  | _ => exact ⟨rfl, .refl s⟩

theorem carryAll_keeps (is : List Instr) (s : State) :
    (is.foldl State.carryOut s).nv.fuses = s.nv.fuses
      ∧ Keeps s (is.foldl State.carryOut s) fun p x _ => Instr.debugUnlock p x ∈ is := by
  induction is generalizing s with
  | nil => exact ⟨rfl, .refl s⟩
  | cons i is ih =>
    obtain ⟨hfuses, hfirst⟩ := carryOut_keeps s i
    obtain ⟨hfuses', hrest⟩ := ih (s.carryOut i)
    exact ⟨hfuses'.trans hfuses,
      (hfirst.imp fun p x _ h => by simp [h]).trans hfuses (hrest.imp fun p x _ h => List.mem_cons_of_mem i h)⟩

theorem carryHeld_keeps (s : State) :
    s.carryHeld.nv.fuses = s.nv.fuses ∧ Keeps s s.carryHeld fun p x _ => Instr.debugUnlock p x ∈ s.sb.held := by
  unfold State.carryHeld
  split
  · obtain ⟨hfuses, hkeeps⟩ := carryAll_keeps s.sb.held { s with sb := { s.sb with held := [] } }
    exact ⟨hfuses, hkeeps.pending, hkeeps.ops, hkeeps.mem, hkeeps.level⟩
  · exact ⟨rfl, .refl s⟩

/-- The entropy service changes its state and what waited is answered; then the held requests follow (R515). -/
theorem keeps_carryHeld_runDebug {c : Instr} {f : State → State × Dbg} (h : ∀ s, SameLock s { (f s).1 with dbg := (f s).2 })
    (s : State) :
    (State.carryHeld (s.runDebug f)).nv.fuses = s.nv.fuses ∧ Keeps s (State.carryHeld (s.runDebug f)) (BringsToken c s) := by
  obtain ⟨hlevel, hheld⟩ := sameLock_runDebug h s
  obtain ⟨hfuses, hcarried⟩ := carryHeld_keeps (s.runDebug f)
  exact ⟨hfuses, Keeps.trans (fuses_runDebug s f) (keeps_runDebug (.inl hlevel)) (hcarried.imp fun p x _ hx => .inr (hheld ▸ hx))⟩

theorem answers_entropyStartupComplete (s : State) :
    Answers .entropyStartupComplete s (BringsToken .entropyStartupComplete s) := by
  refine ⟨_, rfl, ?_⟩
  split
  · obtain ⟨hfuses, hkeeps⟩ := keeps_carryHeld_runDebug (c := .entropyStartupComplete)
      (f := fun s => s.rngReady.answerChallenges (debugWaits s.rng.waiting) true)
      (fun s => (sameLock_rngReady s).trans (sameLock_answerChallenges s.rngReady _ true)) s
    exact ⟨hkeeps, fun _ => hfuses⟩
  · exact ⟨.refl s, fun _ => rfl⟩

/-- What a failing cell does before held requests follow: the service's new state, and what waits fails. -/
def State.rngFail (s : State) (rng : Rng) (waits : List RngWait) : State := waits.foldl State.failWait { s with rng := rng }

theorem sameLock_rngFail (s : State) (rng : Rng) (waits : List RngWait) : SameLock s (s.rngFail rng waits) :=
  SameLock.foldl sameLock_failWait waits { s with rng := rng }

theorem exec_healthTestFailure (cells : Byte) (test : Nat) (s : State) :
    exec (.healthTestFailure cells test) s = .next (
      if s.live && decide (s.rng.state ≤ 1) && cells != 0 && (test == 1 || test == 2) then
        State.carryHeld (s.runDebug fun s =>
          (s.rngFail
            { s.rng with
              state := 2, retests := 1, failMask := cells &&& 15, failTest := test, failures := s.rng.failures + 1,
              drbgs := List.replicate 3 { up := false, calls := 0 }, waiting := [], lastFail := s.cnt.stitch,
              firstFail := s.cnt.stitch } s.rng.waiting).answerChallenges (debugWaits s.rng.waiting) false)
      else s) := rfl

theorem answers_healthTestFailure (cells : Byte) (test : Nat) (s : State) :
    Answers (.healthTestFailure cells test) s (BringsToken (.healthTestFailure cells test) s) := by
  refine ⟨_, exec_healthTestFailure cells test s, ?_⟩
  split
  · obtain ⟨hfuses, hkeeps⟩ := keeps_carryHeld_runDebug (c := .healthTestFailure cells test)
      (fun s => (sameLock_rngFail s _ _).trans (sameLock_answerChallenges _ _ false)) s
    exact ⟨hkeeps, fun _ => hfuses⟩
  · exact ⟨.refl s, fun _ => rfl⟩

theorem Keeps.with_nv {s t : State} {brings : DebugPort → List Byte → Option (List Byte) → Prop} (h : Keeps s t brings) (n : Nv) :
    Keeps s { t with nv := n } brings :=
  ⟨h.pending, h.ops, h.mem, h.level⟩

theorem answers_imageConfirm (s : State) {brings : DebugPort → List Byte → Option (List Byte) → Prop} :
    Answers .imageConfirm s brings := by
  change ∃ t, execImageConfirm s = .next t ∧ _
  unfold execImageConfirm
  split
  · split
    · exact ⟨_, rfl, (keeps_run s _).with_nv _, nofun⟩
    · exact ⟨_, rfl, .refl s, fun _ => rfl⟩
  · exact ⟨_, rfl, .refl s, fun _ => rfl⟩

theorem answers_confirmWindowTimeout (s : State) {brings : DebugPort → List Byte → Option (List Byte) → Prop} :
    Answers .confirmWindowTimeout s brings := by
  change ∃ t, execConfirmWindowTimeout s = .next t ∧ _
  unfold execConfirmWindowTimeout
  split
  · split
    · exact ⟨_, rfl, .refl s, fun _ => rfl⟩
    · split
      · exact ⟨_, rfl, ⟨rfl, fun _ => rfl, fun _ => Mem.reset_wf, .inr (.inl rfl)⟩, fun _ => rfl⟩
      · exact ⟨_, rfl, keeps_run s _, fun _ => rfl⟩
  · exact ⟨_, rfl, .refl s, fun _ => rfl⟩

theorem answers_sensorSample (die : Nat) (rs : List Int) (s : State) {brings : DebugPort → List Byte → Option (List Byte) → Prop} :
    Answers (.sensorSample die rs) s brings := by
  change ∃ t, execSensorSample die rs s = .next t ∧ _
  unfold execSensorSample
  dsimp only
  split
  · exact ⟨_, rfl, .refl s, fun _ => rfl⟩
  · split
    · exact ⟨_, rfl, ⟨rfl, fun _ => rfl, fun _ => Mem.reset_wf, .inr (.inl rfl)⟩, fun _ => rfl⟩
    · exact ⟨_, rfl, keeps_run s _, fun _ => rfl⟩

/-- A command that leaves the device or enters reset, the board's own state apart. -/
theorem answers_tap {c : Instr} {s t : State} {brings : DebugPort → List Byte → Option (List Byte) → Prop}
    (hexec : exec c s = .next t) (hp : t.pending = s.pending) (ho : t.ops = s.ops) (hm : t.mem = s.mem)
    (hl : t.dbg.level = s.dbg.level) (hnv : t.nv = s.nv) : Answers c s brings :=
  ⟨t, hexec, .of_eq hp ho hm hl, fun _ => by rw [hnv]⟩

theorem answers_loadDriving {c : Instr} {s : State} {ir : TapIr} {v : Nat} {brings : DebugPort → List Byte → Option (List Byte) → Prop}
    (h : exec c s = .next (s.loadDriving ir v)) : Answers c s brings :=
  ⟨_, h, keeps_loadDriving s ir v, fun _ => by rw [nv_loadDriving]⟩

/-- A command keeps what every command keeps. -/
theorem exec_answers (c : Instr) (s : State) : Answers c s (BringsToken c s) := by
  cases c with
  | porNAssert n =>
    refine ⟨_, rfl, ?_⟩
    split
    · exact ⟨.refl s, fun _ => rfl⟩
    · exact ⟨⟨rfl, fun _ => rfl, fun _ => Mem.reset_wf, .inr (.inl rfl)⟩, fun _ => rfl⟩
  | resetRelease =>
    refine ⟨_, rfl, ?_⟩
    split
    · exact ⟨.refl s, fun _ => rfl⟩
    · exact ⟨.of_eq rfl rfl rfl (Dbg.release_level s.dbg), fun _ => rfl⟩
  | railLoss rail => exact ⟨_, rfl, ⟨rfl, fun _ => rfl, fun _ => Mem.reset_wf, .inr (.inl rfl)⟩, fun _ => rfl⟩
  | hubReferenceLoss => exact ⟨_, rfl, ⟨rfl, fun _ => rfl, fun _ => Mem.reset_wf, .inr (.inl rfl)⟩, fun _ => rfl⟩
  | sensorSample die rs => exact answers_sensorSample die rs s
  | imageConfirm => exact answers_imageConfirm s
  | confirmWindowTimeout => exact answers_confirmWindowTimeout s
  | entropyStartupComplete => exact answers_entropyStartupComplete s
  | healthTestFailure cells test => exact answers_healthTestFailure cells test s
  | recoveryReboot tag => exact answers_recoveryReboot tag s
  | debugChallenge port => exact answers_debug (level_debugChallenge port s)
  | debugUnlock port token =>
    obtain ⟨t, hexec, hkeeps, hfuses⟩ := answers_debugUnlock port token s
    exact ⟨t, hexec, hkeeps.imp fun p x c ⟨hp, hx, hc⟩ => .inl ⟨by rw [hp, hx], hc⟩, hfuses⟩
  | dbgAccess head source packet => exact answers_debug (level_dbgAccess head source packet s)
  | extest | extestPulse | extestTrain | highz | clamp => exact answers_loadDriving rfl
  | samplePreload v | idcode | trstNAssert | bypass code =>
    refine ⟨_, rfl, ?_⟩
    split
    · exact ⟨.of_eq rfl rfl rfl rfl, fun _ => rfl⟩
    · exact ⟨.refl s, fun _ => rfl⟩
  | _ => exact answers_run rfl

/-! ### The statements -/

theorem keeps_of_exec {c : Instr} {s t : State} (h : exec c s = .next t) : Keeps s t (BringsToken c s) := by
  obtain ⟨u, hexec, hkeeps, -⟩ := exec_answers c s
  cases h.symm.trans hexec
  exact hkeeps

theorem fuses_of_exec {c : Instr} {s t : State} (h : exec c s = .next t) (hc : c.blowsFuses = false) :
    t.nv.fuses = s.nv.fuses := by
  obtain ⟨u, hexec, -, hfuses⟩ := exec_answers c s
  cases h.symm.trans hexec
  exact hfuses hc

/-- Settles O1: the step matches on the queue. -/
theorem stepCarriesOutTheFrontCommand : Obligations.StepCarriesOutTheFrontCommand := by
  intro c rest s hpending
  simp only [step, hpending]

/-- Settles O5, by `exec_answers`. -/
theorem everyCommandAnswersAndLeavesTheQueue : Obligations.EveryCommandAnswersAndLeavesTheQueue := by
  intro c s
  obtain ⟨t, hexec, hkeeps, -⟩ := exec_answers c s
  exact ⟨t, hexec, hkeeps.pending⟩

/-- The fuses that a confirmation blows (R477, R490). -/
theorem fuses_imageConfirm {s t : State} (h : exec .imageConfirm s = .next t) :
    t.nv.fuses = s.nv.fuses
      ∨ ∃ i : Image, t.nv.fuses = { s.nv.fuses with
          rollback := blownRollback s.nv.fuses.rollback i.svn, revoke0 := s.nv.fuses.revoke0 || i.revokePrev } := by
  change execImageConfirm s = _ at h
  unfold execImageConfirm at h
  split at h
  · split at h
    · cases h; exact .inr ⟨_, rfl⟩
    · cases h; exact .inl rfl
  · cases h; exact .inl rfl

/-- Settles O6: no command but IMAGE_CONFIRM touches the fuses, and it only raises ROLLBACK and sets REVOKE0. -/
theorem fusesAreBlownOnlyAtConfirmation : Obligations.FusesAreBlownOnlyAtConfirmation := by
  intro c s t hexec
  refine ⟨fuses_of_exec hexec, ?_⟩
  have hblown : t.nv.fuses = s.nv.fuses
      ∨ ∃ i : Image, t.nv.fuses = { s.nv.fuses with
          rollback := blownRollback s.nv.fuses.rollback i.svn, revoke0 := s.nv.fuses.revoke0 || i.revokePrev } := by
    cases c with
    | imageConfirm => exact fuses_imageConfirm hexec
    | _ => exact .inl (fuses_of_exec hexec rfl)
  obtain h | ⟨i, h⟩ := hblown
  · rw [h]
    exact ⟨le_rfl, id, rfl⟩
  · rw [h]
    exact ⟨Nat.le_max_left _ _, fun hr => by simp [hr], rfl⟩

/-- Settles O7, by `exec_answers`. -/
theorem debugLevelMovesOnlyByTokenOrReset : Obligations.DebugLevelMovesOnlyByTokenOrReset := by
  intro c s t hexec hne
  exact (keeps_of_exec hexec).level.resolve_left hne

theorem Keeps.inv {s t : State} {brings : DebugPort → List Byte → Option (List Byte) → Prop} (h : Keeps s t brings)
    (hdisable : t.nv.fuses.debugDisable = s.nv.fuses.debugDisable) (hs : Inv s) : Inv t := by
  refine ⟨h.mem hs.mem, h.ops hs.ops, ?_, fun hblown => ?_⟩
  · obtain hl | hl | ⟨_, _, _, hacc, -, hl, -⟩ := h.level
    · exact hl ▸ hs.level
    · exact hl ▸ Nat.zero_le _
    · exact hl ▸ tokenAccepted_level hacc
  · rw [hdisable] at hblown
    obtain hl | hl | ⟨_, _, _, -, hnot, -⟩ := h.level
    · exact hl.trans (hs.disabled hblown)
    · exact hl
    · rw [hblown] at hnot
      cases hnot

end Sys2Proof.Machine
end

section
/-! SUPPORT. A step without a command, and the state after reset. -/

namespace Sys2Proof.Machine

/-- Ports send frames: nothing moves but the link and what has been sent. -/
def SendsFrames (s t : State) : Prop :=
  ∃ (nl : NuthesLink) (frames : List (Nat × LinkFrame)),
    t = { s with nl := nl, out := s.out ++ frames.map fun x => Out.frame x.1 x.2 }

theorem SendsFrames.refl (s : State) : SendsFrames s s := ⟨s.nl, [], by simp⟩

theorem SendsFrames.trans {s t u : State} (h : SendsFrames s t) (k : SendsFrames t u) : SendsFrames s u := by
  obtain ⟨nl, frames, rfl⟩ := h
  obtain ⟨nl', frames', rfl⟩ := k
  exact ⟨nl', frames ++ frames', by simp⟩

theorem SendsFrames.foldl {α : Type} {f : State → α → State} (h : ∀ s x, SendsFrames s (f s x)) (xs : List α) (s : State) :
    SendsFrames s (xs.foldl f s) := by
  induction xs generalizing s with
  | nil => exact .refl s
  | cons x xs ih => exact (h s x).trans (ih _)

theorem sendsFrames_sendNext (s : State) (i : Nat) : SendsFrames s (s.sendNext i) := by
  unfold State.sendNext
  dsimp only
  split
  · exact .refl s
  · split
    · exact ⟨_, [(i, _)], rfl⟩
    · split
      · exact ⟨_, [(i, _)], rfl⟩
      · exact .refl s

theorem sendsFrames_pump (s : State) : SendsFrames s s.pump :=
  SendsFrames.foldl (fun s i => (((sendsFrames_sendNext s i).trans (sendsFrames_sendNext _ i)).trans
    (sendsFrames_sendNext _ i)).trans (sendsFrames_sendNext _ i)) _ s

/-- A debug read that waited is answered or waits on: the level stands, and without such a read the TAP. -/
theorem answerStopped_eq (s : State) :
    ∃ (d : Dbg) (n : Nat), s.answerStopped = { s with dbg := d, free := n } ∧ d.level = s.dbg.level
      ∧ (s.dbg.held = none → d = s.dbg) := by
  have answerHeld_eq : ∃ (d : Dbg) (n : Nat), s.answerHeld = { s with dbg := d, free := n } ∧ d.level = s.dbg.level
      ∧ (s.dbg.held = none → d = s.dbg) := by
    unfold State.answerHeld
    split
    · exact ⟨s.dbg, s.free, rfl, rfl, fun _ => rfl⟩
    · rename_i h
      exact ⟨_, _, rfl, rfl, fun hnone => by rw [hnone] at h; cases h⟩
  unfold State.answerStopped
  split
  · split
    · exact ⟨s.dbg, s.free, rfl, rfl, fun _ => rfl⟩
    · exact answerHeld_eq
  · exact answerHeld_eq

/-- One count of the stitch counter and of the domains that are ON. -/
def State.counted (s : State) : State :=
  { s with
    cnt := { s.cnt with stitch := (s.cnt.stitch + s.nl.tickStep.1) % 2 ^ 64 }
    nl := s.nl.tickStep.2
    pow := { s.pow with domains := s.pow.domains.map fun d => if d.state = 2 then { d with onTime := d.onTime + 1 } else d } }

theorem idle_eq (s : State) (hlive : s.live = true) :
    ∃ (nl : NuthesLink) (frames : List (Nat × LinkFrame)) (d : Dbg) (n : Nat),
      idle s = { s.counted with
        nl := nl, out := s.out ++ frames.map (fun x => Out.frame x.1 x.2), dbg := d, free := n }
      ∧ d.level = s.dbg.level ∧ (s.dbg.held = none → d = s.dbg) := by
  obtain ⟨nl, frames, hpump⟩ := sendsFrames_pump s.counted
  obtain ⟨d, n, hanswer, hlevel, hdbg⟩ := answerStopped_eq s.counted.pump
  have hidle : idle s = s.counted.pump.answerStopped := by
    rw [idle, if_pos hlive]
    rfl
  rw [hpump] at hlevel hdbg
  refine ⟨nl, frames, d, n, ?_, hlevel, hdbg⟩
  rw [hidle, hanswer, hpump]
  rfl

theorem idle_of_not_live {s : State} (h : s.live = false) : idle s = s := by simp [idle, h]

theorem tickStep_fst (l : NuthesLink) :
    l.tickStep.1 = if l.slew = 0 ∨ l.slewIn + 1 < 5000 then 1 else if 0 < l.slew then 2 else 0 := by
  unfold NuthesLink.tickStep
  by_cases hslew : l.slew = 0
  · simp [hslew]
  · by_cases hin : l.slewIn + 1 < 5000
    · simp [hslew, hin]
    · by_cases hpos : 0 < l.slew <;> simp [hslew, hin, hpos]

theorem step_of_idle {s : State} (h : s.pending = []) : step s = .next (idle s) := by
  simp only [step, h]

theorem onTime_counted {s : State} {d : Nat} (hd : d < s.pow.domains.length) (hon : (s.domain d).state = 2) :
    (s.counted.domain d).onTime = (s.domain d).onTime + 1 := by
  simp only [State.domain, List.getD_eq_getElem?_getD, List.getElem?_eq_getElem hd, Option.getD_some] at hon
  simp [State.domain, State.counted, List.getD_eq_getElem?_getD, hd, hon]

/-- Settles O2: an idle step of a live device is `State.counted`, and frames that leave. -/
theorem anIdleStepPassesOneStitchCount : Obligations.AnIdleStepPassesOneStitchCount := by
  intro s hpending
  rw [step_of_idle hpending]
  refine ⟨fun hlive => ?live, fun hdead => by rw [idle_of_not_live hdead]⟩
  case live =>
    obtain ⟨nl, frames, d, n, hidle, hlevel, hdbg⟩ := idle_eq s hlive
    rw [hidle]
    refine ⟨_, rfl, ?stitch, rfl, rfl, fun i hi hon => onTime_counted hi hon, rfl, rfl, rfl, rfl, rfl, ⟨rfl, rfl, rfl, rfl⟩, rfl, rfl,
      rfl, rfl, hlevel, hdbg, frames, rfl⟩
    case stitch => rw [← tickStep_fst]; rfl

theorem inv_idle {s : State} (h : Inv s) : Inv (idle s) := by
  cases hlive : s.live
  · rwa [idle_of_not_live hlive]
  · obtain ⟨nl, frames, d, n, hidle, hlevel, -⟩ := idle_eq s hlive
    rw [hidle]
    exact ⟨h.mem, h.ops, hlevel ▸ h.level, fun hblown => hlevel.trans (h.disabled hblown)⟩

/-- DEBUG_DISABLE stands through every command, IMAGE_CONFIRM included. -/
theorem debugDisable_of_exec {c : Instr} {s t : State} (h : exec c s = .next t) :
    t.nv.fuses.debugDisable = s.nv.fuses.debugDisable := by
  obtain ⟨-, -, -, hfuses⟩ := fusesAreBlownOnlyAtConfirmation c s t h
  rw [hfuses]

/-- Settles O8: a command keeps the invariant by `exec_answers`, an idle step because it moves neither DRAM nor the lock. -/
theorem everyStepKeepsTheInvariant : Obligations.EveryStepKeepsTheInvariant := by
  intro s t hinv hstep
  unfold step at hstep
  split at hstep
  case h_1 c rest _ =>
    have hpopped : Inv { s with pending := rest } := ⟨hinv.mem, hinv.ops, hinv.level, hinv.disabled⟩
    exact (keeps_of_exec hstep).inv (debugDisable_of_exec hstep) hpopped
  case h_2 =>
    cases hstep
    exact inv_idle hinv

/-- Settles O4. -/
theorem resetMeetsTheInvariant : Obligations.ResetMeetsTheInvariant :=
  ⟨Mem.reset_wf, rfl, Nat.zero_le _, fun _ => rfl⟩

/-- Settles O3: the state after reset is a literal, and each register word of it is computed. -/
theorem resetHoldsTheManualsValues : Obligations.ResetHoldsTheManualsValues := by
  refine ⟨rfl, rfl, by decide, by decide, rfl, rfl, rfl, rfl, rfl, rfl, rfl, rfl, by decide, rfl, by decide, rfl, by decide, rfl, by decide,
    rfl, by decide, rfl, rfl, rfl, rfl, rfl, rfl, rfl⟩

end Sys2Proof.Machine
end

section
/-! SUPPORT. A device in reset or with its clocks stopped (R25-R37): what serves nobody then, and a latched thermal trip. -/

namespace Sys2Proof.Machine

/-! ### What a device that is not live does not do -/

section
variable {s : State} (hdead : s.live = false)
include hdead

theorem hostUp_of_dead : s.hostUp = false := by simp [State.hostUp, hdead]
theorem hostOpen_of_dead : s.hostOpen = false := by simp [State.hostOpen, hdead]
theorem serving_of_dead : s.serving = false := by simp [State.serving, hdead]
theorem adminHolds_of_dead (op : Nat) : s.adminHolds op = false := by simp [State.adminHolds, serving_of_dead hdead]
theorem admitting_of_dead : s.admitting = false := by simp [State.admitting, serving_of_dead hdead]
theorem hears_of_dead (port : Nat) : s.hears port = false := by simp [State.hears, hdead]
theorem sbFirmware_of_dead : s.sbFirmware = false := by simp [State.sbFirmware, hdead]

theorem admin_of_dead (op : Nat) (f : State → CmdWork) : s.admin op f = s := by
  simp [State.admin, adminHolds_of_dead hdead]

theorem runControl_of_dead (f : Run → Pattern → Nat → State → CmdWork) : s.runControl f = s := admin_of_dead hdead _ _

theorem doorbell_of_dead (n : Nat) (f : Queue → State → State) : s.doorbell n f = s := by
  simp [State.doorbell, hostUp_of_dead hdead]

theorem dispatch_of_dead (r : TaskRef) (opcode : Nat) (f : Task → State → State) : s.dispatch r opcode f = s := by
  unfold State.dispatch
  split
  · simp [State.mayDispatch, admitting_of_dead hdead]
  · rfl

theorem dispatchBlock_of_dead (r : TaskRef) (opcode : Nat) (f : Task → Queue → List Byte → State → State) :
    s.dispatchBlock r opcode f = s :=
  dispatch_of_dead hdead r opcode _

theorem startRun_of_dead (v : HostView) (task : TaskRef) : s.startRun v task = s := dispatchBlock_of_dead hdead task 0x0001 _

theorem receiveData_of_dead (i type : Nat) (a : Arrival) (f : State → State) : s.receiveData i type a f = s := by
  simp [State.receiveData, State.receive, hears_of_dead hdead]

end

theorem run_of_stands {s : State} {f : State → State} (ho : s.ops = []) (h : f s = s) : s.run f = s := by
  have hs : ({ s with ops := [] } : State) = s := by rw [← ho]
  exact State.run_self s f ho (by rw [hs, h])

/-- A command that needs the device out of reset does nothing while it is not (R25, R26, R30, R33, R37). -/
theorem exec_of_dead {c : Instr} {s : State} (hc : c.needsClock = true) (hdead : s.live = false) (ho : s.ops = []) :
    exec c s = .next s := by
  have stands {f : State → State} (hexec : exec c s = .next (s.run f)) (h : f s = s) : exec c s = .next s := by
    rw [hexec, run_of_stands ho h]
  have hup := hostUp_of_dead hdead
  cases c with
  | porNAssert | resetRelease | railLoss | hubReferenceLoss | pcieReferenceLoss | perstNAssert | perstNDeassert | railsGood
  | hubReferenceRestored | pcieReferenceRestored | sensorSample | guardEvaluate | getInfo | nodeSet | faultLogRead | faultRecordRead
  | faultRecordClear | fwStatus | rngStatus | powerRead | guardSet | sbRead | alertRead | alertClear | alertResponseAddress | flashRead
  | flashErase | flashWrite | recoveryReboot | debugChallenge | debugUnlock | dbgAccess | extest | samplePreload | idcode | highz
  | clamp | extestPulse | extestTrain | bypass | trstNAssert | i3cSetdasa | i3cEntdaa | setEndpointId | getEndpointId
  | getVersionSupport | getMessageTypeSupport | gettid | settid | getpldmtypes | getpdrrepositoryinfo | getpdr | getsensorreading
  | getstatesensorreadings | seteventreceiver | platformeventmessage | platformEventResend | platformEventAck | getVersion
  | getCapabilities | negotiateAlgorithms | getDigests | getCertificate | challenge | getMeasurements => exact nomatch hc
  | memFresh | memMirrorSet | apertureSet | hangSet | fwConfirm | fwAbort | queueCreate | queueQuery | queueRearm | ceChainStart
  | ceChainStop | engRelease | taskCancel => exact stands rfl (admin_of_dead hdead _ _)
  | tailWrite | hswap | sproutAck => exact stands rfl (doorbell_of_dead hdead _ _)
  | nop | fenceSignal | fenceWait => exact stands rfl (dispatch_of_dead hdead _ _ _)
  | copy | checkpoint => exact stands rfl (dispatchBlock_of_dead hdead _ _ _)
  | flit | openStream | bulk => exact stands rfl (receiveData_of_dead hdead _ _ _ _)
  | randomFillStates | randomFillBytes | loadPattern =>
    refine stands rfl ?_
    split
    · rfl
    · exact dispatchBlock_of_dead hdead _ _ _
  | runAnneal | runScoring | runLearning | runFromCheckpoint | runRehostStart =>
    refine stands rfl ?_
    split
    · exact startRun_of_dead hdead _ _
    · rfl
  | fwUpdate | fenceAllocate | fenceFree | fenceClearErr =>
    refine stands rfl ?_
    split
    · rfl
    · exact admin_of_dead hdead _ _
  | fwUpdateNextBoot =>
    refine stands rfl ?_
    split
    · exact admin_of_dead hdead _ _
    · rfl
  | runPause | runResume | runStop =>
    refine stands rfl ?_
    split
    · rfl
    · exact runControl_of_dead hdead _
  | rngRead | queueDestroy | sessionAttachResume | sessionAttachEnd =>
    exact stands rfl (by simp [adminHolds_of_dead hdead])
  | registerReadClear | latchingLowRead | registerWrite | evtRingTailWrite | cfgCommitDiscard | msixUnmask | atsInvalidation
  | doeDiscovery | apertureRead | apertureWrite | nlCtrlWrite | cfgCommitGo => exact stands rfl (by simp [hup])
  | taskAdmit | slotBind => exact stands rfl (by simp [admitting_of_dead hdead])
  | descriptorFetch =>
    refine stands rfl ?_
    split
    · rfl
    · simp [admitting_of_dead hdead]
  | chainLinkComplete =>
    refine stands rfl ?_
    dsimp only
    split
    · rfl
    · simp [hostOpen_of_dead hdead]
  | imageConfirm =>
    change execImageConfirm s = _
    unfold execImageConfirm
    split
    · simp [hdead]
    · rfl
  | confirmWindowTimeout =>
    change execConfirmWindowTimeout s = _
    unfold execConfirmWindowTimeout
    split
    · simp [hdead]
    · rfl
  | entropyStartupComplete | healthTestFailure => exact congrArg Host.Outcome.next (by simp [hdead])
  | _ => exact congrArg Host.Outcome.next (State.whenLive_self s _ ho hdead)

/-! ### A latched thermal trip -/

section
variable {s : State} (htrip : s.board.tripped = true)
include htrip

theorem dead_of_tripped : s.live = false := by simp [State.live, htrip]
theorem sbRom_of_tripped : s.sbRom = false := by simp [State.sbRom, htrip]
theorem tapUp_of_tripped : s.tapUp = false := by simp [State.tapUp, htrip]

theorem whenRom_of_tripped (f : State → State) (ho : s.ops = []) : s.whenRom f = s :=
  run_of_stands ho (by simp [sbRom_of_tripped htrip])

theorem spdm_of_tripped (f : State → State) (ho : s.ops = []) : s.spdm f = s :=
  run_of_stands ho (by simp [sbRom_of_tripped htrip, sbFirmware_of_dead (dead_of_tripped htrip)])

theorem sideband_of_tripped (tag : Byte) (f : State → CmdWork) : s.sideband tag f = s := by
  simp [State.sideband, sbRom_of_tripped htrip]

theorem inTurn_of_tripped (tag : Byte) (i : Instr) (f : State → State) : s.inTurn tag i f = f s := by
  simp [State.inTurn, sbRom_of_tripped htrip]

theorem command_of_tripped (via : Via) (i : Via → Instr) (op : Nat) (mine : (Nat → Nat) → Bool) (f : (Nat → Nat) → State → CmdWork) :
    s.command via i op mine f = s := by
  unfold State.command
  split
  · split
    · exact admin_of_dead (dead_of_tripped htrip) _ _
    · rfl
  · dsimp only
    split
    · rw [inTurn_of_tripped htrip, sideband_of_tripped htrip]
    · rfl

theorem loadDriving_of_tripped (ir : TapIr) (v : Nat) : s.loadDriving ir v = s := by
  simp [State.loadDriving, tapUp_of_tripped htrip]
end

theorem board_runDebug (s : State) (f : State → State × Dbg) : (s.runDebug f).board = (f { s with ops := [] }).1.board :=
  State.run_board s fun s => (f s).1

theorem board_inTurn (s : State) (tag : Byte) (i : Instr) : (s.inTurn tag i id).board = s.board := by
  unfold State.inTurn
  split
  · rfl
  · split <;> rfl

theorem board_debugTurn {s : State} {port : DebugPort} {i : Instr} {f : State → State × Dbg} (hf : (f s).1.board = s.board) :
    (s.debugTurn port i f).1.board = s.board := by
  unfold State.debugTurn
  split
  · split
    · exact hf
    · exact board_inTurn s _ i
  · exact hf

theorem debugPortUp_of_tripped {s : State} (htrip : s.board.tripped = true) (port : DebugPort) : s.debugPortUp port = false := by
  cases port <;> simp [State.debugPortUp, sbRom_of_tripped htrip, tapUp_of_tripped htrip]

/-- Whatever is commanded, THERMTRIP_N stays latched unless VDD_IO18 is removed (R37). -/
theorem exec_of_tripped {c : Instr} {s : State} (htrip : s.board.tripped = true) (ho : s.ops = []) (hc : c ≠ .railLoss .vddIo18) :
    ∃ t, exec c s = .next t ∧ t.board.tripped = true := by
  have hdead := dead_of_tripped htrip
  have hrom := sbRom_of_tripped htrip
  have stands {f : State → State} (hexec : exec c s = .next (s.run f)) (h : f s = s) : ∃ t, exec c s = .next t ∧ t.board.tripped = true :=
    ⟨s, by rw [hexec, run_of_stands ho h], htrip⟩
  cases c with
  | porNAssert n =>
    refine ⟨_, rfl, ?_⟩
    split <;> exact htrip
  | resetRelease => exact ⟨s, by simp [exec, execResetRelease, htrip], htrip⟩
  | railLoss rail => exact ⟨_, rfl, by cases rail <;> simp_all⟩
  | hubReferenceLoss => exact ⟨_, rfl, htrip⟩
  | railsGood | hubReferenceRestored => exact ⟨_, rfl, by simpa using htrip⟩
  | pcieReferenceLoss => exact ⟨_, rfl, by simp [State.live, htrip]⟩
  | perstNDeassert => exact ⟨_, rfl, by simp [State.live, htrip]⟩
  | perstNAssert n =>
    refine ⟨_, rfl, ?_⟩
    rw [State.run_board]
    split <;> simp [State.live, htrip]
  | pcieReferenceRestored =>
    refine ⟨_, rfl, ?_⟩
    rw [State.run_board]
    split <;> simp [State.live, htrip]
  | sensorSample die rs => exact ⟨s, by simp [exec, execSensorSample, hrom], htrip⟩
  | guardEvaluate => exact stands rfl (by simp [hrom])
  | getInfo | nodeSet | faultLogRead | faultRecordRead | faultRecordClear | fwStatus | rngStatus | powerRead | guardSet =>
    exact stands rfl (command_of_tripped htrip _ _ _ _ _)
  | sbRead tag args => exact stands rfl (by rw [inTurn_of_tripped htrip, sideband_of_tripped htrip])
  | getVersion | getCapabilities | negotiateAlgorithms | getDigests | getCertificate | challenge | getMeasurements =>
    exact ⟨s, congrArg Host.Outcome.next (spdm_of_tripped htrip _ ho), htrip⟩
  | recoveryReboot tag =>
    refine ⟨s, congrArg Host.Outcome.next ?_, htrip⟩
    rw [hrom]
    exact whenRom_of_tripped htrip _ ho
  | debugChallenge port =>
    refine ⟨_, rfl, (congrArg Board.tripped ((board_runDebug s _).trans (board_debugTurn ?_))).trans htrip⟩
    rw [debugPortUp_of_tripped (s := { s with ops := [] }) htrip]
    cases port <;> simp [hrom]
  | debugUnlock port token =>
    refine ⟨_, rfl, (congrArg Board.tripped ((board_runDebug s _).trans (board_debugTurn ?_))).trans htrip⟩
    rw [debugPortUp_of_tripped (s := { s with ops := [] }) htrip]
    cases port <;> simp [hrom]
  | dbgAccess head source packet =>
    refine ⟨_, rfl, (congrArg Board.tripped (board_runDebug s _)).trans ?_⟩
    simp [tapUp_of_tripped htrip, htrip]
  | extest | extestPulse | extestTrain | highz | clamp =>
    exact ⟨s, congrArg Host.Outcome.next (loadDriving_of_tripped htrip _ _), htrip⟩
  | samplePreload | idcode | trstNAssert | bypass =>
    exact ⟨s, congrArg Host.Outcome.next (by simp [tapUp_of_tripped htrip]), htrip⟩
  | alertRead | alertClear | alertResponseAddress | flashRead | flashErase | flashWrite | i3cSetdasa | i3cEntdaa | setEndpointId
  | getEndpointId | getVersionSupport | getMessageTypeSupport | gettid | settid | getpldmtypes | getpdrrepositoryinfo | getpdr
  | getsensorreading | getstatesensorreadings | seteventreceiver | platformeventmessage | platformEventResend | platformEventAck =>
    exact ⟨s, congrArg Host.Outcome.next (whenRom_of_tripped htrip _ ho), htrip⟩
  | _ => exact ⟨s, exec_of_dead rfl hdead ho, htrip⟩

/-- Settles O9. -/
theorem inResetOnlyBoardSidebandAndTapAct : Obligations.InResetOnlyBoardSidebandAndTapAct := by
  refine ⟨fun c s hc hdead ho => exec_of_dead hc hdead ho, fun c s t htrip ho hexec => ?_⟩
  by_cases hc : c = .railLoss .vddIo18
  · exact .inr hc
  · obtain ⟨u, hu, hlatched⟩ := exec_of_tripped htrip ho hc
    cases hexec.symm.trans hu
    exact .inl hlatched

end Sys2Proof.Machine
end

section
/-! SUPPORT. The TAP, and the resets and start-up of the board. -/

namespace Sys2Proof.Machine

/-! ### What a command answers -/

/-- A command of the clocked device, out of reset, carries out the function it wraps. -/
theorem exec_eq_run {c : Instr} {s : State} {f : State → State} (hexec : exec c s = .next (s.whenLive f)) (hlive : s.live = true) :
    exec c s = .next (s.run f) := by rw [hexec, State.whenLive_live s f hlive]

/-- A command that runs a function ends as that function does, but for what `State.run` settles. -/
theorem exec_lands {c : Instr} {s u : State} {f : State → State} (hexec : exec c s = .next (s.run f)) (h : f { s with ops := [] } = u) :
    exec c s = .next (s.run fun _ => u) := by rw [hexec, State.run_congr s (g := fun _ => u) h]

theorem exec_lands_live {c : Instr} {s u : State} {f : State → State} (hexec : exec c s = .next (s.whenLive f)) (hlive : s.live = true)
    (h : f { s with ops := [] } = u) : exec c s = .next (s.run fun _ => u) := exec_lands (exec_eq_run hexec hlive) h

theorem natBit_toNat {w : Nat} (b : BitVec w) (i : Nat) : natBit b.toNat i = b.getLsbD i := by
  rw [natBit, BitVec.getLsbD, Nat.testBit_eq_decide_div_mod_eq]
  rfl

theorem State.run_nv_same (s : State) (f : State → State) (h : (f { s with ops := [] }).nv = s.nv) : (s.run f).nv = s.nv := by
  have hnv : (s.run f).nv = { (f { s with ops := [] }).nv with fuses := s.nv.fuses } := by simp [State.run]
  rw [hnv, h]

/-- A function that answers the state with one part replaced, run on a state with no DRAM operation left over. -/
theorem sameBeyondStartUp_run {s : State} {f : State → State} (h : sameBeyondStartUp s (f { s with ops := [] }))
    (hops : (f { s with ops := [] }).ops = []) : sameBeyondStartUp s (s.run f) := by
  obtain ⟨hq, hgrid, -, hnv, hcnt, hlog, hrng⟩ := h
  exact ⟨by simpa using hq, by simpa using hgrid, State.run_mem_same s f hops, State.run_nv_same s f hnv, by simpa using hcnt,
    by simpa using hlog, by simpa using hrng⟩

/-! ### The TAP -/

theorem loadDriving_of_por {s : State} (hup : s.tapUp = true) (hpor : s.board.por = true) (ir : TapIr) (v : Nat) :
    s.loadDriving ir v = s.loadIr ir false v := by simp [State.loadDriving, hup, hpor]

theorem loadDriving_of_not_por {s : State} (hup : s.tapUp = true) (hpor : s.board.por = false) (ir : TapIr) (v : Nat) :
    s.loadDriving ir v = s.loadIr .bypass true 0 := by simp [State.loadDriving, hup, hpor]

/-- A code that the table does not list is neither one of the first seven nor one of the debug port's three. -/
theorem unlisted_code {n : Nat} (h : n ∉ [0, 1, 2, 3, 4, 5, 6, 0x10, 0x11, 0x12]) :
    ((decide (n ≤ 6)) || (decide (0x10 ≤ n) && decide (n ≤ 0x12))) = false := by
  simp only [List.mem_cons, List.not_mem_nil, or_false, not_or] at h
  simp only [Bool.or_eq_false_iff, Bool.and_eq_false_iff, decide_eq_false_iff_not]
  omega

theorem exec_bypass_of_unlisted {s : State} {code : Byte} (hup : s.tapUp = true)
    (h : code.toNat ∉ [0, 1, 2, 3, 4, 5, 6, 0x10, 0x11, 0x12]) : exec (.bypass code) s = .next (s.loadIr .bypass false 0) := by
  refine congrArg Host.Outcome.next (if_pos ?_)
  rw [unlisted_code h, hup]
  rfl

/-- Settles O10: an instruction that drives pins is `State.loadDriving`, the others load or sample outright. -/
theorem tapInstructionsLoadAsTheTableGives : Obligations.TapInstructionsLoadAsTheTableGives := by
  refine ⟨fun s hup => ?instructions, fun s v hup hv => ?sample⟩
  case instructions =>
    refine ⟨congrArg Host.Outcome.next (if_pos hup), congrArg Host.Outcome.next (if_pos hup),
      fun code h => exec_bypass_of_unlisted hup h, fun hpor => ?driven, fun hpor c hc => ?refused⟩
    case driven =>
      exact ⟨congrArg Host.Outcome.next (loadDriving_of_por hup hpor _ _), congrArg Host.Outcome.next (loadDriving_of_por hup hpor _ _),
        congrArg Host.Outcome.next (loadDriving_of_por hup hpor _ _), congrArg Host.Outcome.next (loadDriving_of_por hup hpor _ _),
        congrArg Host.Outcome.next (loadDriving_of_por hup hpor _ _)⟩
    case refused =>
      simp only [List.mem_cons, List.not_mem_nil, or_false] at hc
      rcases hc with rfl | rfl | rfl | rfl | rfl <;> exact congrArg Host.Outcome.next (loadDriving_of_not_por hup hpor _ _)
  case sample =>
    refine ⟨_, congrArg Host.Outcome.next (if_pos hup), rfl, rfl, Nat.mod_eq_of_lt hv, rfl, rfl, ⟨rfl, rfl, rfl, rfl, rfl, rfl⟩,
      ⟨rfl, rfl, rfl, rfl⟩, ⟨rfl, rfl, rfl⟩, rfl, rfl, rfl⟩

/-! ### Resets -/

theorem mem_addNew {α : Type} [DecidableEq α] (x : α) (xs : List α) : x ∈ addNew x xs := by
  unfold addNew
  split <;> simp_all

/-- Settles O16: each of them is `State.enterReset` with a pin of the board moved. -/
theorem resetsDiscardAllStateButFusesAndFlash : Obligations.ResetsDiscardAllStateButFusesAndFlash := by
  intro s
  refine ⟨fun n hn => ⟨_, congrArg Host.Outcome.next (if_neg (Nat.not_lt.mpr hn)), wiped_enterReset s _, rfl⟩,
    fun n hn => congrArg Host.Outcome.next (if_pos hn), fun r => ⟨_, rfl, ?_, mem_addNew r _, rfl, rfl, rfl⟩,
    _, rfl, wiped_enterReset s _, rfl⟩
  exact ⟨rfl, rfl, rfl, rfl, rfl, rfl, rfl, rfl, rfl, rfl, rfl, rfl, rfl, rfl, rfl, rfl, rfl, rfl, rfl⟩

/-! ### Start-up -/

theorem cold_iff {s : State} : s.cold = true ↔ ∃ g ∈ s.pow.guards, g.temp < if s.nv.fuses.gradeX then -640 else 0 := by
  simp only [State.cold, List.any_eq_true, decide_eq_true_eq]
  rfl

theorem getD_mapIdx {α : Type} (f : Nat → α → α) (xs : List α) (i : Nat) (d : α) (h : i < xs.length) :
    (xs.mapIdx f).getD i d = f i (xs.getD i d) := by
  simp [List.getD_eq_getElem?_getD, h]

theorem domain_wakeFixed_state {s : State} {d : Nat} (h : d < s.pow.domains.length) :
    (s.pow.wakeFixed.domains.getD d (.reset d)).state = if domainMayBeOff d = true then (s.domain d).state else 2 := by
  simp only [Power.wakeFixed, getD_mapIdx _ _ _ _ h, State.domain]
  split <;> rfl

/-- Settles O17. -/
theorem startUpBeginsWhenPinsAndRailsAllow : Obligations.StartUpBeginsWhenPinsAndRailsAllow := by
  intro s ho
  refine ⟨⟨_, rfl, by simp, by simp, sameBeyondStartUp_run ⟨rfl, rfl, rfl, rfl, rfl, rfl, rfl⟩ rfl, by simp, by simp, by simp, by simp⟩,
    ⟨_, rfl, by simp, by simp, sameBeyondStartUp_run ⟨rfl, rfl, rfl, rfl, rfl, rfl, rfl⟩ rfl, by simp, by simp, by simp, by simp⟩,
    fun hrel hrails href htrip => ?release, fun hnot => ?stays, fun pins hlive => ⟨fun hlat => ?latch, fun hlat => ?latched⟩⟩
  case release =>
    refine ⟨_, congrArg Host.Outcome.next (if_neg (by simp [hrel, hrails, href, htrip])), by simp [State.live, htrip], rfl, ?_, cold_iff,
      fun d hd => domain_wakeFixed_state hd, ⟨rfl, rfl, rfl, rfl, rfl, rfl, rfl⟩, rfl, rfl⟩
    cases hperst : s.board.perst <;> cases hpcie : s.board.pcieRef <;> rfl
  case stays =>
    refine congrArg Host.Outcome.next (if_pos ?_)
    simp only [Bool.or_eq_true, Bool.not_eq_true', List.isEmpty_eq_false_iff]
    tauto
  case latch =>
    refine ⟨_, exec_lands_live rfl hlive (if_neg (Bool.eq_false_iff.mp hlat)), by simp, by simp, fun p hp => ?_,
      sameBeyondStartUp_run ⟨rfl, rfl, rfl, rfl, rfl, rfl, rfl⟩ rfl, by simp, by simp, by simp⟩
    simp only [State.run_nl, List.mem_map] at hp
    obtain ⟨port, -, rfl⟩ := hp
    rw [← natBit_toNat]
    exact ⟨rfl, rfl⟩
  case latched =>
    rw [exec_eq_run rfl hlive]
    exact congrArg Host.Outcome.next (run_of_stands ho (if_pos hlat))

end Sys2Proof.Machine
end

section
/-! SUPPORT. The boot ROM's choice, training, the array test and readiness. -/

namespace Sys2Proof.Machine

/-! ### Parts of a list of devices -/

theorem getD_modifyAt_same {α : Type} {i : Nat} {xs : List α} (h : i < xs.length) (f : α → α) (d : α) :
    (modifyAt f i xs).getD i d = f (xs.getD i d) := by
  simp [modifyAt_eq_modify, List.getD_eq_getElem?_getD, h]

theorem getD_modifyAt_ne {α : Type} {i j : Nat} (h : j ≠ i) (f : α → α) (xs : List α) (d : α) :
    (modifyAt f i xs).getD j d = xs.getD j d := by
  simp [modifyAt_eq_modify, List.getD_eq_getElem?_getD, h.symm]

@[simp] theorem length_modifyAt {α : Type} (f : α → α) (i : Nat) (xs : List α) : (modifyAt f i xs).length = xs.length := by
  simp [modifyAt_eq_modify]

theorem length_insertAsc_of_not_mem {x : Nat} {xs : List Nat} (h : x ∉ xs) : (insertAsc x xs).length = xs.length + 1 := by
  induction xs with
  | nil => rfl
  | cons z zs ih =>
    simp only [List.mem_cons, not_or] at h
    unfold insertAsc
    split
    · rfl
    · rw [if_neg h.1, List.length_cons, ih h.2, List.length_cons]

/-! ### The image that the boot ROM selects -/

theorem State.nv_startHub (s : State) (avs : Bool) (running : Image) (standby : Option Image) :
    (s.startHub avs running standby).nv = s.nv := by
  unfold State.startHub
  dsimp only
  split <;> split <;> rfl

theorem State.ops_startHub (s : State) (avs : Bool) (running : Image) (standby : Option Image) :
    (s.startHub avs running standby).ops = s.ops := by
  unfold State.startHub
  dsimp only
  split <;> split <;> rfl

theorem State.boot_startHub (s : State) (avs : Bool) (running : Image) (standby : Option Image) :
    (s.startHub avs running standby).boot = { s.boot with fwVerified := true } := by
  unfold State.startHub
  dsimp only
  split <;> split <;> rfl

theorem State.fw_startHub (s : State) (avs : Bool) (running : Image) (standby : Option Image) :
    (s.startHub avs running standby).fw
      = { s.fw with running := some running, standby := standby, sequencers := List.replicate 8 running.seqDigest } := by
  unfold State.startHub
  dsimp only
  split <;> split <;> rfl

theorem State.fastOk_startHub (s : State) (avs : Bool) (running : Image) (standby : Option Image) :
    (s.startHub avs running standby).pow.fastOk = avs := by
  unfold State.startHub
  dsimp only
  split <;> split <;> rfl

theorem State.engines_startHub (s : State) (avs : Bool) (running : Image) (standby : Option Image) :
    (s.startHub avs running standby).grid.engines
      = s.grid.engines.map fun e => { e with sel := .reset (if avs then 0 else 1), cur := if avs then 0 else 1 } := by
  unfold State.startHub
  dsimp only
  split <;> split <;> rfl

/-- DRAM training begins with the hub, unless the package is cold (R39, R526). -/
theorem State.channels_startHub (s : State) (avs : Bool) (running : Image) (standby : Option Image) :
    (s.startHub avs running standby).dram.channels
      = if s.boot.coldHold then s.dram.channels else s.dram.channels.map fun c => { c with state := 1 } := by
  unfold State.startHub State.beginTraining
  dsimp only
  split <;> split <;> simp_all [State.trainPresent, State.send]

/-- What the boot ROM makes of the device whose first bootable candidate is an image, both cores good (R478): the image runs, with its
copy as standby, and a candidate before it that did not verify is reported. -/
def State.bootsFrom (s : State) (avs : Bool) (slot : Nat) : State :=
  { s with fw := { s.fw with active := 0, failed := [] } }.startHub avs (readImage slot (s.nv.slotReader slot))
    (some (readImage slot (s.nv.slotReader slot)))

theorem execHubFirmwareVerified_of_bootable {s : State} {avs : Bool} {slot : Nat} {rest : List (Nat × Bool)} (hlive : s.live = true)
    (hfw : s.boot.fwVerified = false) (hrec : s.boot.recovery = false) (hcore : s.fw.noCore = false) (hlat : s.boot.latched = true)
    (hstrap : s.boot.straps.getLsbD 5 = false) (hboot : bootable s.nv (bootCandidates s.nv true) = (slot, false) :: rest) :
    ∃ u, exec (.hubFirmwareVerified avs true true) s = .next (s.run fun _ => u)
      ∧ (u = { s with ops := [] }.bootsFrom avs slot
        ∨ ∃ other reason digest, u = ({ s with ops := [] }.bootsFrom avs slot).imageFallback other 4 reason digest) := by
  rw [← natBit_toNat] at hstrap
  refine ⟨_, exec_lands_live rfl hlive rfl, ?_⟩
  cases hcand : (bootCandidates s.nv true).head? with
  | none =>
    left
    simp [hfw, hrec, hcore, hlat, hstrap, hboot, State.bootsFrom, hcand]
  | some c =>
    by_cases hslot : c.1 = slot
    · left
      simp [hfw, hrec, hcore, hlat, hstrap, hboot, State.bootsFrom, hcand, hslot]
    · refine .inr ⟨c.1, verifyImage s.nv.fuses none (s.nv.slotReader c.1), headerDigest (s.nv.slotReader c.1), ?_⟩
      simp [hfw, hrec, hcore, hlat, hstrap, hboot, State.bootsFrom, hcand, hslot, State.nv_startHub]

/-- A report of a fallback moves nothing that booting sets. -/
theorem imageFallback_keeps (s : State) (slot cause reason : Nat) (digest : List Byte) :
    let t := s.imageFallback slot cause reason digest
    t.nv = s.nv ∧ t.boot = s.boot ∧ t.fw = s.fw ∧ t.pow = s.pow ∧ t.grid = s.grid ∧ t.dram = s.dram := by
  simp [State.imageFallback]

/-- Settles O18: the ROM's choice falls to no core, to recovery, or to the first candidate that verifies (`State.bootsFrom`). -/
theorem bootRomSelectsAnImageOrHoldsInRecovery : Obligations.BootRomSelectsAnImageOrHoldsInRecovery := by
  intro s avs hlive hfw hrec hcore hlat
  refine ⟨?dead, fun a b hab hnone => ?recovery, fun slot rest hstrap hboot => ?boots⟩
  case dead =>
    refine ⟨_, exec_lands_live rfl hlive rfl, ?_⟩
    simp [hfw, hrec, hcore, hlat]
  case recovery =>
    have hcores : (!a && !b) = false := by cases a <;> cases b <;> simp_all
    rw [← natBit_toNat] at hnone
    refine ⟨_, exec_lands_live rfl hlive rfl, ?_⟩
    by_cases hstrap : natBit s.boot.straps.toNat 5 = true
    · simp [hfw, hrec, hcore, hlat, hcores, hstrap, State.enterRecovery, -Bool.not_eq_eq_eq_not]
    · have hempty := hnone.resolve_left hstrap
      simp [hfw, hrec, hcore, hlat, hcores, hstrap, hempty, State.enterRecovery, -Bool.not_eq_eq_eq_not]
  case boots =>
    obtain ⟨u, hexec, hu⟩ := execHubFirmwareVerified_of_bootable (avs := avs) hlive hfw hrec hcore hlat hstrap hboot
    have hparts : u.nv = s.nv ∧ u.boot = { s.boot with fwVerified := true } ∧ u.fw = ({ s with ops := [] }.bootsFrom avs slot).fw
        ∧ u.pow = ({ s with ops := [] }.bootsFrom avs slot).pow ∧ u.grid = ({ s with ops := [] }.bootsFrom avs slot).grid
        ∧ u.dram = ({ s with ops := [] }.bootsFrom avs slot).dram := by
      rcases hu with rfl | ⟨other, reason, digest, rfl⟩
      · exact ⟨State.nv_startHub _ _ _ _, State.boot_startHub _ _ _ _, rfl, rfl, rfl, rfl⟩
      · obtain ⟨hnv, hboot', hfw', hpow, hgrid, hdram⟩ := imageFallback_keeps ({ s with ops := [] }.bootsFrom avs slot) other 4 reason digest
        exact ⟨hnv.trans (State.nv_startHub _ _ _ _), hboot'.trans (State.boot_startHub _ _ _ _), hfw', hpow, hgrid, hdram⟩
    obtain ⟨hnv, hboot', hfw', hpow, hgrid, hdram⟩ := hparts
    refine ⟨_, hexec, by simp [hboot'], by simp [hfw', State.bootsFrom, State.fw_startHub], by simp [hfw', State.bootsFrom, State.fw_startHub],
      State.run_nv_same s _ hnv, by simp [hboot', hrec], by simp [hpow, State.bootsFrom, State.fastOk_startHub], ?engines, ?trains, ?cold⟩
    case engines =>
      simp only [State.run_grid, hgrid, State.bootsFrom, State.engines_startHub, List.mem_map]
      rintro e ⟨x, -, rfl⟩
      rfl
    case trains =>
      intro hwarm
      simp only [State.run_dram, hdram, State.bootsFrom, State.channels_startHub, hwarm, Bool.false_eq_true, if_false, List.mem_map]
      rintro c ⟨x, -, rfl⟩
      rfl
    case cold =>
      intro hcold
      simp [hdram, State.bootsFrom, State.channels_startHub, hcold]

end Sys2Proof.Machine
end

section
/-! SUPPORT. Training, the array test and readiness. -/

namespace Sys2Proof.Machine

theorem State.channel_setChannel_same {s : State} {c : Nat} (hc : c < s.dram.channels.length) (f : Channel → Channel) :
    (s.setChannel c f).channel c = f (s.channel c) := getD_modifyAt_same hc f _

theorem State.channel_setChannel_ne {c d : Nat} (hd : d ≠ c) (s : State) (f : Channel → Channel) :
    (s.setChannel c f).channel d = s.channel d := getD_modifyAt_ne hd f _ _

theorem State.engine_setEngine_same {s : State} {e : Nat} (he : e < s.grid.engines.length) (f : Engine → Engine) :
    (s.setEngine e f).engine e = f (s.engine e) := getD_modifyAt_same he f _

theorem State.engine_setEngine_ne {d e : Nat} (hd : d ≠ e) (s : State) (f : Engine → Engine) :
    (s.setEngine e f).engine d = s.engine d := getD_modifyAt_ne hd f _ _

@[simp] theorem State.event_engine (s : State) (cls code source : Nat) (tick : Option Nat) (detail : List Byte) (e : Nat) :
    (s.event cls code source tick detail).engine e = s.engine e := by simp [State.engine]

@[simp] theorem State.logFault_engine (s : State) (kind source : Nat) (queue : Option Nat) (place e : Nat) :
    (s.logFault kind source queue place).engine e = s.engine e := by simp [State.engine]

@[simp] theorem State.logFault_appended (s : State) (kind source : Nat) (queue : Option Nat) (place : Nat) :
    (s.logFault kind source queue place).log.appended = s.log.appended + 1 := by
  simp only [State.logFault]
  split <;> simp

@[simp] theorem State.run_channel (s : State) (f : State → State) (c : Nat) : (s.run f).channel c = (f { s with ops := [] }).channel c := by
  simp [State.channel]

@[simp] theorem State.run_engine (s : State) (f : State → State) (e : Nat) : (s.run f).engine e = (f { s with ops := [] }).engine e := by
  simp [State.engine]

/-- A channel's training has ended, and its end is noted. -/
def State.channelTrained (s : State) (c : Nat) (o : Training) : State :=
  { s.setChannel c fun ch => ch.train o with boot := { s.boot with trained := insertAsc c s.boot.trained } }

theorem execDramTrainingComplete_eq {s : State} {c : Nat} {o : Training} (hlive : s.live = true) (hfw : s.boot.fwVerified = true)
    (hcold : s.boot.coldHold = false) (hc : c < 8) (hnew : c ∉ s.boot.trained) :
    exec (.dramTrainingComplete c o) s = .next (s.run fun _ =>
      let s := ({ s with ops := [] } : State).channelTrained c o
      if s.boot.trained.length = 8 then s.buildMap else s) := by
  refine exec_lands_live rfl hlive (if_pos ?_)
  simp [hfw, hcold, hc, hnew]

/-- A core that failed its array test, in a row where no core is fenced: fenced, its row repaired, one entry in the fault log. -/
theorem fenceAtStart_of_sound {s : State} {c : CoreAt} (hdie : c.die < s.grid.engines.length) (hrow : ∀ f ∈ (s.engine c.die).fenced, f.1 ≠ c.row) :
    let t := s.fenceAtStart c
    (t.engine c.die).fenced = (s.engine c.die).fenced ++ [(c.row, c.col)]
      ∧ (t.engine c.die).repaired = (s.engine c.die).repaired ++ [c.row] ∧ t.log.appended = s.log.appended + 1
      ∧ t.boot = s.boot ∧ t.grid.engines.length = s.grid.engines.length := by
  have hfenced : ((s.engine c.die).fenced.contains (c.row, c.col)) = false := by
    rw [Bool.eq_false_iff, ne_eq, List.contains_iff_mem]
    exact fun h => hrow _ h rfl
  have hspent : ((s.engine c.die).fenced.any fun f => f.1 == c.row) = false := by simpa using hrow
  unfold State.fenceAtStart
  simp only [hfenced, hspent, Bool.false_eq_true, if_false]
  split <;> simp [State.engine_setEngine_same, hdie]

/-- Every engine leaves OFF as the sequencers start. -/
theorem state_ne_off {gs : List Engine} {e : Engine} (h : e ∈ gs.map fun e => if e.state = 0 then { e with state := 1 } else e) :
    e.state ≠ 0 := by
  simp only [List.mem_map] at h
  obtain ⟨x, -, rfl⟩ := h
  split
  · exact Nat.one_ne_zero
  · assumption

theorem getD_map_reset {gs : List Engine} {i : Nat} (h : i < gs.length) (f : Engine → Engine) :
    (gs.map f).getD i .reset = f (gs.getD i .reset) := by
  simp [List.getD_eq_getElem?_getD, h]

theorem mbxStat_of_ready {s : State} (h : s.boot.ready = true) : 2 ^ 31 ≤ mbxStat s := by
  have hbit : bit s.boot.ready = 1 := by rw [h]; rfl
  rw [mbxStat, hbit]
  omega

/-- Settles O19. -/
theorem startUpTrainsTestsAndBecomesReady : Obligations.StartUpTrainsTestsAndBecomesReady := by
  intro s hlive
  refine ⟨fun hcold hfw hwarm => ?release, fun c o hfw hcold hc hnew hlen => ⟨fun hmore => ?trains, fun hlast => ?map⟩,
    fun hfw hcold hidle => ⟨?idle, fun c hwf hlen hrow hrep => ?failed⟩, fun hready hcore hidle htr hcfg hch => ?ready⟩
  case release =>
    have hcold' : ({ s with ops := [] } : State).cold = false := hwarm
    refine ⟨_, exec_lands_live (u := ({ s with boot := { s.boot with coldHold := false }, ops := [] } : State).beginTraining) rfl hlive
      (by simp [hcold, hcold', hfw]), by simp [State.beginTraining], ?_, sameBeyondStartUp_run ⟨rfl, rfl, rfl, rfl, rfl, rfl, rfl⟩ rfl⟩
    simp only [State.run_dram, State.beginTraining, List.mem_map]
    rintro c ⟨x, -, rfl⟩
    rfl
  case trains =>
    have hlength : (insertAsc c s.boot.trained).length ≠ 8 := by rw [length_insertAsc_of_not_mem hnew]; omega
    have hc' : c < s.dram.channels.length := hlen ▸ hc
    refine ⟨_, (execDramTrainingComplete_eq hlive hfw hcold hc hnew).trans
      (congrArg Host.Outcome.next (State.run_congr s (g := fun _ => ({ s with ops := [] } : State).channelTrained c o) (if_neg hlength))),
      ?_, fun d hd => ?_, ?_, sameBeyondStartUp_run ⟨rfl, rfl, rfl, rfl, rfl, rfl, rfl⟩ rfl⟩
    · exact (State.run_channel s _ c).trans (State.channel_setChannel_same hc' _)
    · exact (State.run_channel s _ d).trans (State.channel_setChannel_ne hd _ _)
    · simp [State.channelTrained, mem_insertAsc]
  case map =>
    have hlength : (insertAsc c s.boot.trained).length = 8 := by rw [length_insertAsc_of_not_mem hnew, hlast]
    refine ⟨_, (execDramTrainingComplete_eq hlive hfw hcold hc hnew).trans
      (congrArg Host.Outcome.next (State.run_congr s (g := fun _ => (({ s with ops := [] } : State).channelTrained c o).buildMap)
        (if_pos hlength))), by simp [State.buildMap, State.channelTrained, State.store], ?_⟩
    simp [State.buildMap, State.channelTrained, State.store, Mem.applyAll, Mem.apply, Mem.reset]
  case idle =>
    refine ⟨_, exec_lands_live rfl hlive (if_neg (by simp [hfw, hcold, hidle])), by simp, fun e he => ?_, by simp, State.run_mem_same s _ rfl⟩
    simp only [State.run_grid] at he
    exact state_ne_off he
  case failed =>
    have hdie8 : c.die < 8 := by
      simp only [CoreAt.wf, Bool.and_eq_true, decide_eq_true_eq] at hwf
      exact hwf.1.1
    obtain ⟨hfenced, hrepaired, happ, hboot, hlen'⟩ :=
      fenceAtStart_of_sound (s := { s with boot := { s.boot with enginesIdle := true }, ops := [] }) (c := c) (hlen ▸ hdie8 : c.die < s.grid.engines.length) hrow
    have hdies : ([c].filter fun c => decide (c.die < 8)) = [c] := by simp [hdie8]
    refine ⟨_, exec_lands_live rfl hlive (if_neg (by simp [hfw, hcold, hidle])), ?_⟩
    simp only [State.run_boot, State.run_engine, State.run_log, hdies, List.foldl_cons, List.foldl_nil, hboot, happ]
    refine ⟨trivial, ?_, ?_, trivial⟩ <;> rw [State.engine, getD_map_reset (by rw [hlen', hlen]; exact hdie8)] <;> split
    · exact hfenced
    · exact hfenced
    · exact hrepaired
    · exact hrepaired
  case ready =>
    obtain ⟨ch, hmem, htrained⟩ := hch
    have hstarted : ({ s with ops := [] } : State).startedUp = true := by
      simp only [State.startedUp, Bool.and_eq_true, List.any_eq_true, Bool.or_eq_true, beq_iff_eq]
      exact ⟨⟨⟨hcfg, hidle⟩, htr⟩, ch, hmem, htrained⟩
    refine ⟨_, exec_lands_live rfl hlive (if_neg (by simp [hready, hcore, hstarted])), by simp, mbxStat_of_ready (by simp),
      sameBeyondStartUp_run ⟨rfl, rfl, rfl, rfl, rfl, rfl, rfl⟩ rfl, by simp, by simp⟩

end Sys2Proof.Machine
end

section
/-! SUPPORT. The evaluation of the thermal guards. -/

namespace Sys2Proof.Machine

/-- The guards, the sideband, what is sent and the host's events aside, two states agree. -/
structure OnlyGuards (s t : State) : Prop where
  control : sameControl s t
  q : t.q = s.q
  grid : t.grid = s.grid
  log : t.log = s.log
  ops : t.ops = s.ops
  threshold : t.pow.threshold = s.pow.threshold
  domains : t.pow.domains = s.pow.domains
  length : t.pow.guards.length = s.pow.guards.length

theorem OnlyGuards.refl (s : State) : OnlyGuards s s := ⟨⟨rfl, rfl, rfl, rfl⟩, rfl, rfl, rfl, rfl, rfl, rfl, rfl⟩

theorem OnlyGuards.trans {s t u : State} (h : OnlyGuards s t) (k : OnlyGuards t u) : OnlyGuards s u := by
  obtain ⟨hboard, hnv, hboot, hfw⟩ := h.control
  obtain ⟨kboard, knv, kboot, kfw⟩ := k.control
  exact ⟨⟨kboard.trans hboard, knv.trans hnv, kboot.trans hboot, kfw.trans hfw⟩, k.q.trans h.q, k.grid.trans h.grid, k.log.trans h.log,
    k.ops.trans h.ops, k.threshold.trans h.threshold, k.domains.trans h.domains, k.length.trans h.length⟩

theorem onlyGuards_setLevel (s : State) (d g : Nat) : OnlyGuards s (s.setLevel d g) := by
  obtain ⟨hboard, hnv, hboot, hfw, hq, hgrid, -, -, hlog, hops, -⟩ := onlyHeats_setLevel s d g
  refine ⟨⟨hboard, hnv, hboot, hfw⟩, hq, hgrid, hlog, hops, ?_, ?_, State.guards_length_setLevel s d g⟩ <;>
    by_cases h : ThrottleDue s d g <;> simp [State.setLevel_of_due, State.setLevel_of_not_due, h]

theorem onlyGuards_refreshReadings (s : State) : OnlyGuards s s.refreshReadings := by
  constructor <;> simp [State.refreshReadings, sameControl]

/-- One guard of an evaluation. -/
def State.evaluateGuard (s : State) (d : Nat) : State := s.setLevel d (nextLevel s.pow.threshold (s.guard d))

/-- An evaluation of some guards, each named once: those take their next level, the others stand. -/
theorem foldl_evaluateGuard {ds : List Nat} (hnodup : ds.Nodup) {s : State} (hlen : ∀ d ∈ ds, d < s.pow.guards.length) :
    let t := ds.foldl State.evaluateGuard s
    OnlyGuards s t
      ∧ (∀ d ∈ ds, (t.guard d).temp = (s.guard d).temp ∧ (t.guard d).level = nextLevel s.pow.threshold (s.guard d))
      ∧ ∀ e, e ∉ ds → t.guard e = s.guard e := by
  induction ds generalizing s with
  | nil => exact ⟨OnlyGuards.refl s, by simp, fun _ _ => rfl⟩
  | cons d ds ih =>
    obtain ⟨hd, hnodup⟩ := List.nodup_cons.mp hnodup
    have hfirst := onlyGuards_setLevel s d (nextLevel s.pow.threshold (s.guard d))
    have hne : ∀ e, e ≠ d → (s.evaluateGuard d).guard e = s.guard e :=
      fun e he => (onlyHeats_setLevel s d (nextLevel s.pow.threshold (s.guard d))).guards e he
    obtain ⟨hrest, hlevels, hothers⟩ := ih (s := s.evaluateGuard d) hnodup fun e he => by
      rw [State.evaluateGuard, State.guards_length_setLevel]
      exact hlen e (List.mem_cons_of_mem _ he)
    refine ⟨hfirst.trans hrest, fun e he => ?_, fun e he => ?_⟩
    · rcases List.mem_cons.mp he with rfl | he
      · obtain ⟨last, hguard⟩ := State.guard_setLevel (hlen e List.mem_cons_self) (nextLevel s.pow.threshold (s.guard e))
        have hlast : (List.foldl State.evaluateGuard s (e :: ds)).guard e = _ := (hothers e hd).trans hguard
        rw [hlast]
        exact ⟨rfl, rfl⟩
      · have hstands := hne e fun hed => hd (hed ▸ he)
        have hlevel := hlevels e he
        rw [hstands] at hlevel
        rw [List.foldl_cons]
        refine ⟨hlevel.1, hlevel.2.trans ?_⟩
        rw [State.evaluateGuard, hfirst.threshold]
    · simp only [List.mem_cons, not_or] at he
      exact (hothers e he.2).trans (hne e he.1)

/-- Settles O23: GUARD_EVALUATE is one `State.evaluateGuard` for each die at the threshold in force. -/
theorem guardLevelsFollowTheThreshold : Obligations.GuardLevelsFollowTheThreshold := by
  intro s hrom hlive hlen
  let u : State := { s with pow := { s.pow with threshold := s.pow.nextThreshold }, ops := [] }
  obtain ⟨hguards, hlevels, -⟩ := foldl_evaluateGuard (List.nodup_range (n := 9)) (s := u) fun d hd =>
    hlen ▸ List.mem_range.mp hd
  have hends := hguards.trans (onlyGuards_refreshReadings _)
  have hexec : exec .guardEvaluate s = .next (s.run fun _ => ((List.range 9).foldl State.evaluateGuard u).refreshReadings) := by
    refine exec_lands rfl ?_
    have hrom' : ({ s with ops := [] } : State).sbRom = true := hrom
    have hlive' : ({ s with ops := [] } : State).live = true := hlive
    simp only [hrom', hlive', Bool.not_true, Bool.false_eq_true, if_false]
    rfl
  obtain ⟨hboard, hnv, hboot, hfw⟩ := hends.control
  refine ⟨_, hexec, (congrArg Power.threshold (State.run_pow s _)).trans hends.threshold, fun d hd => ?_,
    (congrArg Power.domains (State.run_pow s _)).trans hends.domains, (State.run_q s _).trans hends.q,
    (State.run_grid s _).trans hends.grid, State.run_mem_same s _ hends.ops,
    ⟨(State.run_board s _).trans hboard, State.run_nv_same s _ hnv, (State.run_boot s _).trans hboot, (State.run_fw s _).trans hfw⟩,
    (State.run_log s _).trans hends.log⟩
  obtain ⟨htemp, hlevel⟩ := hlevels d (List.mem_range.mpr hd)
  have hguard : (s.run fun _ => ((List.range 9).foldl State.evaluateGuard u).refreshReadings).guard d
      = ((List.range 9).foldl State.evaluateGuard u).guard d := by simp [State.guard, State.refreshReadings]
  have htemp' : (u.guard d).temp = (s.guard d).temp := rfl
  rw [hguard, hlevel, htemp]
  refine ⟨rfl, fun hhot => ?up, fun hcool => ?down, fun hbelow habove => ?stands, ?reading⟩
  case up => rw [nextLevel, if_pos (by rw [htemp']; exact hhot)]; rfl
  case down =>
    rw [nextLevel, if_neg (by rw [htemp']; show ¬ (s.pow.nextThreshold : Int) ≤ _; omega), if_pos (by rw [htemp']; exact hcool)]
    rfl
  case stands =>
    rw [nextLevel, if_neg (by rw [htemp']; show ¬ (s.pow.nextThreshold : Int) ≤ _; omega),
      if_neg (by rw [htemp']; show ¬ _ < (s.pow.nextThreshold : Int); omega)]
    rfl
  case reading =>
    simp only [State.run_sb_readings, State.refreshReadings, State.occasions_sb_readings, sensorReadings]
    rw [List.getD_append _ _ _ _ (by simpa using hd)]
    simp [List.getD_eq_getElem?_getD, hd, htemp, htemp']

end Sys2Proof.Machine
end

section
/-! SUPPORT. The power domains' own decisions. -/

namespace Sys2Proof.Machine

theorem State.domain_setDomain_same {s : State} {d : Nat} (hd : d < s.pow.domains.length) (f : Domain → Domain) :
    (s.setDomain d f).domain d = f (s.domain d) := getD_modifyAt_same hd f _

theorem State.domain_setDomain_ne {d e : Nat} (he : e ≠ d) (s : State) (f : Domain → Domain) :
    (s.setDomain d f).domain e = s.domain e := getD_modifyAt_ne he f _ _

@[simp] theorem State.run_domain (s : State) (f : State → State) (d : Nat) : (s.run f).domain d = (f { s with ops := [] }).domain d := by
  simp [State.domain]

/-- A command whose function moves neither work nor DRAM moves no work. -/
theorem sameWork_run {s : State} {f : State → State} (h : sameWork s (f { s with ops := [] })) (hops : (f { s with ops := [] }).ops = []) :
    sameWork s (s.run f) := by
  obtain ⟨hq, hgrid, -, hdram, hnl, hhost⟩ := h
  exact ⟨(State.run_q s f).trans hq, (State.run_grid s f).trans hgrid, State.run_mem_same s f hops, (State.run_dram s f).trans hdram,
    (State.run_nl s f).trans hnl, (State.run_host s f).trans hhost⟩

section
variable {s : State} {d : Nat} (hlive : s.live = true) (hd : d < 116)
include hlive hd

/-- A domain that is ON rests where its controller takes it, unless that is OFF (R461). -/
theorem exec_domainIdle_of_kept {n : Nat} (hon : (s.domain d).state = 2) (hrest : restState s d = n) (hn : n = 3 ∨ n = 4) :
    exec (.domainIdle d) s = .next (s.run fun s => s.setDomain d fun x => { x with state := n }) := by
  refine (exec_eq_run rfl hlive).trans (congrArg Host.Outcome.next (State.run_congr s ?_))
  have hrest' : restState { s with ops := [] } d = n := hrest
  rcases hn with rfl | rfl <;> simp [hon, hrest', hd]

/-- A domain that goes OFF takes its engine's sequencer, or the cores of its bank, with it (R463). -/
theorem exec_domainIdle_of_off (hon : (s.domain d).state = 2) (hrest : restState s d = 0) :
    exec (.domainIdle d) s = .next (s.run fun s =>
      let s := s.setDomain d fun x => { x with state := 0 }
      let s := if d < 96 ∧ d % 12 < 8 then s.clearBank d else s
      if d < 96 ∧ d % 12 = 9 then { s with grid := { s.grid with engines := modifyAt (fun e => { e with state := 0 }) (d / 12) s.grid.engines } }
      else s) := by
  refine (exec_eq_run rfl hlive).trans (congrArg Host.Outcome.next (State.run_congr s ?_))
  have hrest' : restState { s with ops := [] } d = 0 := hrest
  simp [hon, hrest', hd]

theorem exec_domainWake_of_waking (hwake : (s.domain d).state ≠ 0 ∨ mayWake s d = true) :
    exec (.domainWake d) s = .next (s.run fun s => s.wakeDomain d) := by
  refine (exec_eq_run rfl hlive).trans (congrArg Host.Outcome.next (State.run_congr s (if_neg ?_)))
  have hwake' : (s.domain d).state ≠ 0 ∨ mayWake { s with ops := [] } d = true := hwake
  rcases hwake' with h | h <;> simp [h, hd]

omit hd in
theorem exec_domainWake_of_kept (hoff : (s.domain d).state = 0) (hstays : mayWake s d = false) :
    exec (.domainWake d) s = .next (s.run fun _ => { s with ops := [] }) := by
  refine exec_lands_live rfl hlive (if_pos ?_)
  have hstays' : mayWake { s with ops := [] } d = false := hstays
  simp [hoff, hstays']

theorem exec_domainWakeComplete (hwaking : (s.domain d).state = 1) :
    exec (.domainWakeComplete d) s = .next (s.run fun s =>
      let s := s.setDomain d fun x => { x with state := 2, wakes := (x.wakes + 1) % 2 ^ 32 }
      if d < 96 ∧ d % 12 = 9 then
        { s with grid := { s.grid with
            engines := modifyAt (fun e => if e.state = 0 then { e with state := 1 } else e) (d / 12) s.grid.engines } }
      else s) :=
  (exec_eq_run rfl hlive).trans (congrArg Host.Outcome.next (State.run_congr s (if_pos ⟨hd, hwaking⟩)))
end

/-- Settles O24: a domain's controller follows `restState`, and a wake `State.wakeDomain`. -/
theorem domainsRestAndWake : Obligations.DomainsRestAndWake := by
  intro s d hlive hlen hd
  have hlen' : d < ({ s with ops := [] } : State).pow.domains.length := hlen ▸ hd
  have rests {n : Nat} (hon : (s.domain d).state = 2) (hrest : restState s d = n) (hn : n = 3 ∨ n = 4) :
      ∃ t, exec (.domainIdle d) s = .next t ∧ (t.domain d).state = n ∧ sameWork s t :=
    ⟨_, exec_domainIdle_of_kept hlive hd hon hrest hn,
      by rw [State.run_domain, State.domain_setDomain_same hlen'], sameWork_run ⟨rfl, rfl, rfl, rfl, rfl, rfl⟩ rfl⟩
  refine ⟨fun hon hmay hpol => rests hon ?_ (.inl rfl), fun hon hmay hpol hoff => rests hon ?_ (.inr rfl),
    fun hon hmay hkeep hpol hoff => rests hon ?_ (.inr rfl), fun hon hmay hpol => ?off, fun hgated => ?gated, fun hretained => ?waking,
    fun hoff hstays => ?stays, fun hwaking => ?complete⟩
  · simp [restState, hpol, hmay]
  · simp [restState, hpol, hmay, hoff]
  · simp [restState, hpol, hmay, hkeep, hoff]
  case off =>
    refine ⟨_, exec_domainIdle_of_off hlive hd hon (by simp [restState, hpol, hmay]), ?_, fun hdie hseq hengines => ?_⟩
    · rw [State.run_domain]
      dsimp only
      split <;> split <;> exact congrArg Domain.state (State.domain_setDomain_same hlen' _)
    · rw [State.run_engine]
      have hbank : ¬ (d < 96 ∧ d % 12 < 8) := by omega
      simp only [if_neg hbank, if_pos (And.intro hdie hseq)]
      exact congrArg Engine.state (getD_modifyAt_same (by rw [State.setDomain_grid, hengines]; omega) _ _)
  case gated =>
    refine ⟨_, exec_domainWake_of_waking hlive hd (.inl (by simp [hgated])), ?_, sameWork_run ⟨rfl, rfl, rfl, rfl, rfl, rfl⟩ rfl⟩
    rw [State.run_domain, State.wakeDomain, State.domain_setDomain_same hlen', Clear.domain, hgated]
    rfl
  case waking =>
    refine ⟨_, exec_domainWake_of_waking hlive hd (hretained.imp (by simp_all) And.right), ?_,
      sameWork_run ⟨rfl, rfl, rfl, rfl, rfl, rfl⟩ rfl⟩
    rw [State.run_domain, State.wakeDomain, State.domain_setDomain_same hlen', Clear.domain]
    rcases hretained with h | ⟨h, -⟩ <;> rw [h] <;> rfl
  case stays =>
    exact ⟨_, exec_domainWake_of_kept hlive hoff hstays, (congrArg Domain.state (State.run_domain s _ d)).trans hoff,
      sameWork_run ⟨rfl, rfl, rfl, rfl, rfl, rfl⟩ rfl⟩
  case complete =>
    refine ⟨_, exec_domainWakeComplete hlive hd hwaking, ?_, ?_, fun hdie hseq hengines => ?_, ?_, State.run_mem_same s _ ?_, ?_⟩
    · rw [State.run_domain]
      dsimp only
      split <;> exact congrArg Domain.state (State.domain_setDomain_same hlen' _)
    · rw [State.run_domain]
      dsimp only
      split <;> exact congrArg Domain.wakes (State.domain_setDomain_same hlen' _)
    · rw [State.run_engine]
      simp only [if_pos (And.intro hdie hseq)]
      have hlt : d / 12 < s.grid.engines.length := by omega
      rw [State.engine, getD_modifyAt_same (by simpa using hlt)]
      split
      · exact Nat.one_ne_zero
      · assumption
    · rw [State.run_q]
      dsimp only
      split <;> rfl
    · dsimp only
      split <;> rfl
    · rw [State.run_host]
      dsimp only
      split <;> rfl

end Sys2Proof.Machine
end

section
/-! SUPPORT. Requests that only talk: bus, MCTP, PLDM, SPDM and the alert commands. -/

namespace Sys2Proof.Machine

/-! ### What only talks -/

/-- Only the sideband, the entropy service's books and what has been sent move, the entropy service in the state it was in. -/
def OnlyTalks (s t : State) : Prop :=
  ∃ sb rng out free, t = { s with sb := sb, rng := rng, out := out, free := free } ∧ rng.state = s.rng.state

theorem OnlyTalks.refl (s : State) : OnlyTalks s s := ⟨s.sb, s.rng, s.out, s.free, rfl, rfl⟩

theorem OnlyTalks.trans {s t u : State} (h : OnlyTalks s t) (k : OnlyTalks t u) : OnlyTalks s u := by
  obtain ⟨sb, rng, out, free, rfl, hstate⟩ := h
  obtain ⟨sb', rng', out', free', rfl, hstate'⟩ := k
  exact ⟨sb', rng', out', free', rfl, hstate'.trans hstate⟩

theorem OnlyTalks.ite {c : Prop} [Decidable c] {s t u : State} (ht : OnlyTalks s t) (hu : OnlyTalks s u) :
    OnlyTalks s (if c then t else u) := by
  split
  · exact ht
  · exact hu

theorem OnlyTalks.ofSideband (s : State) (sb : Sb) : OnlyTalks s { s with sb := sb } := ⟨sb, s.rng, s.out, s.free, rfl, rfl⟩

theorem onlyTalks_send (s : State) (o : Out) : OnlyTalks s (s.send o) := ⟨s.sb, s.rng, _, s.free, rfl, rfl⟩

theorem onlyTalks_sbBytes (s : State) (tag : Byte) (result : Nat) (bs : List Byte) : OnlyTalks s (s.sbBytes tag result bs) :=
  .ofSideband s _

theorem onlyTalks_sbReply (s : State) (tag : Byte) (result : Nat) (outs : List (Nat × Nat)) : OnlyTalks s (s.sbReply tag result outs) :=
  .ofSideband s _

theorem onlyTalks_countCall (s : State) (i : Nat) : OnlyTalks s (s.countCall i) := by
  unfold State.countCall
  dsimp only
  split
  · exact ⟨s.sb, _, s.out, s.free, rfl, rfl⟩
  · exact ⟨s.sb, _, s.out, s.free, rfl, rfl⟩

theorem onlyTalks_signedReply (s : State) (body : List Byte) : OnlyTalks s (s.signedReply body) := by
  have hdraw (t : State) (n : Nat) : OnlyTalks t { t with free := n } := ⟨t.sb, t.rng, t.out, n, rfl, rfl⟩
  exact ((((hdraw s _).trans (onlyTalks_countCall _ 0)).trans (onlyTalks_countCall _ 0)).trans (hdraw _ _)).trans (onlyTalks_sbBytes _ _ _ _)

theorem onlyTalks_signOrWait (s : State) (body : State → List Byte) (wait : RngWait) : OnlyTalks s (s.signOrWait body wait) :=
  .ite (onlyTalks_signedReply s _) (.ite ⟨s.sb, _, s.out, s.free, rfl, rfl⟩ (onlyTalks_sbBytes s _ _ _))

theorem onlyTalks_inTurn {s : State} {f : State → State} (tag : Byte) (i : Instr) (h : OnlyTalks s (f s)) :
    OnlyTalks s (s.inTurn tag i f) :=
  .ite h (.ite (onlyTalks_sbReply s _ _ _) (.ofSideband s _))

/-- A command that only talks leaves the state its function leaves. -/
theorem run_of_talks {s : State} {f : State → State} (h : OnlyTalks { s with ops := [] } (f { s with ops := [] })) :
    s.run f = f { s with ops := [] } := by
  obtain ⟨sb, rng, out, free, hf, hstate⟩ := h
  rw [State.run, hf]
  have hquiet : stateOccasions s { { s with ops := [] } with sb := sb, rng := rng, out := out, free := free } = [] := by
    simp only [stateOccasions, deviceSensor, hstate]
    simpa using engine_occasions_self s.grid.engines (List.range 8)
  simp only [hquiet, State.occasions, List.append_nil]
  cases sb with
  | mk => dsimp only; split <;> rfl

/-- The commands that are `State.whenRom` of a function that only talks. -/
theorem exec_of_rom {c : Instr} {s : State} {f : State → State} (hexec : exec c s = .next (s.whenRom f)) (hrom : s.sbRom = true)
    (h : OnlyTalks { s with ops := [] } (f { s with ops := [] })) : exec c s = .next (f { s with ops := [] }) := by
  have hrom' : ({ s with ops := [] } : State).sbRom = true := hrom
  rw [hexec, State.whenRom, run_of_talks]
  · simp only [hrom', if_true]
  · simpa only [hrom', if_true] using h

/-- The commands that are `State.pldm` of a function that only talks. -/
theorem exec_of_pldm {c : Instr} {s : State} {f : State → State} (hexec : exec c s = .next (s.pldm f)) (hrom : s.sbRom = true)
    (hfw : s.sbFirmware = true) (h : OnlyTalks { s with ops := [] } (f { s with ops := [] })) : exec c s = .next (f { s with ops := [] }) := by
  have hfw' : ({ s with ops := [] } : State).sbFirmware = true := hfw
  refine (exec_of_rom hexec hrom ?_).trans ?_
  · simpa only [hfw', if_true] using h
  · simp only [hfw', if_true]

/-- The commands that are `State.spdm` of a function that only talks. -/
theorem exec_of_spdm {c : Instr} {s : State} {f : State → State} (hexec : exec c s = .next (s.spdm f)) (hfw : s.sbFirmware = true)
    (h : OnlyTalks { s with ops := [] } (f { s with ops := [] })) : exec c s = .next (f { s with ops := [] }) := by
  have hfw' : ({ s with ops := [] } : State).sbFirmware = true := hfw
  rw [hexec, State.spdm, run_of_talks]
  · simp only [hfw', if_true]
  · simpa only [hfw', if_true] using h

end Sys2Proof.Machine
end

section
/-! SUPPORT. Bus addressing, MCTP control and PLDM. -/

namespace Sys2Proof.Machine

theorem onlyTalks_resend (es : List PlatformEvent) (s : State) : OnlyTalks s (es.foldl (fun s e => s.send (.platformEvent e)) s) := by
  induction es generalizing s with
  | nil => exact .refl s
  | cons e es ih => exact (onlyTalks_send s _).trans (ih _)

/-- Messages sent again leave one behind the other. -/
theorem resend_eq (es : List PlatformEvent) (s : State) :
    es.foldl (fun s e => s.send (.platformEvent e)) s = { s with out := s.out ++ es.map Out.platformEvent } := by
  induction es generalizing s with
  | nil => simp
  | cons e es ih => rw [List.foldl_cons, ih]; simp [State.send]

/-- The identifier of record k of the repository (R512). -/
theorem sensorIds_getD {k : Nat} (h1 : 1 ≤ k) (hk : k ≤ 25) : sensorIds.getD (k - 1) 0 = if k ≤ 15 then k else k + 4 := by
  interval_cases k <;> rfl

/-- The first bytes of an answer, the rest left out. -/
theorem take_getpdr (a b : Nat) (rest : List Byte) :
    (0 :: toBytesLE 4 a ++ toBytesLE 2 b ++ rest).take 7 = 0 :: toBytesLE 4 a ++ toBytesLE 2 b := by
  have hlen : (0 :: toBytesLE 4 a ++ toBytesLE 2 b).length = 7 := by simp [toBytesLE]
  rw [List.take_append_of_le_length hlen.ge, List.take_of_length_le hlen.le]

/-- Bus addressing and MCTP control, at ROM level (R32, R510). -/
theorem mctp_answers {s : State} (hrom : s.sbRom = true) :
    (∀ a n : Byte, busI3c s = true → a.toNat = 0x60 + natBits s.boot.straps.toNat 1 3 → s.sb.dynAddr = none →
       ∃ t, exec (.i3cSetdasa a n) s = .next t ∧ t.sb.dynAddr = some n)
    ∧ (∀ n : Byte, busI3c s = true → s.sb.dynAddr = none → ∃ t, exec (.i3cEntdaa n) s = .next t ∧ t.sb.dynAddr = some n)
    ∧ (busI3c s = false → s.sb.alert ≠ 0 → ∃ t, exec .alertResponseAddress s = .next t
      ∧ t.sb.reply.map (·.bytes) = some [BitVec.ofNat 8 (2 * (0x60 + natBits s.boot.straps.toNat 1 3))])
    ∧ (∀ e : Byte, ∃ t, exec (.setEndpointId e) s = .next t ∧ t.sb.eid = e)
    ∧ (∃ t, exec .getEndpointId s = .next t ∧ t.sb.reply.map (·.bytes) = some [0, s.sb.eid, 0, 0])
    ∧ (∀ m : Byte, m = 0x00 ∨ m = 0x01 ∨ m = 0x05 ∨ m = 0x7E →
      ∃ t, exec (.getVersionSupport m) s = .next t ∧ t.sb.reply.map (·.bytes) = some [0, 1, 0xF1, 0xF3, 0xF1, 0])
    ∧ ∃ t, exec .getMessageTypeSupport s = .next t ∧ t.sb.reply.map (·.bytes) = some [0, 3, 0x01, 0x05, 0x7E] := by
  refine ⟨fun a n hbus haddr hnone => ⟨_, exec_of_rom rfl hrom (.ite (.ofSideband _ _) (.refl _)), ?setdasa⟩,
    fun n hbus hnone => ⟨_, exec_of_rom rfl hrom (.ite (.ofSideband _ _) (.refl _)), ?entdaa⟩,
    fun hbus halert => ⟨_, exec_of_rom rfl hrom (.ite (onlyTalks_sbBytes _ _ _ _) (.refl _)), ?alert⟩,
    fun e => ⟨_, exec_of_rom rfl hrom ((OnlyTalks.ofSideband _ _).trans (onlyTalks_sbBytes _ _ _ _)), rfl⟩,
    ⟨_, exec_of_rom rfl hrom (onlyTalks_sbBytes _ _ _ _), rfl⟩,
    fun m hm => ⟨_, exec_of_rom rfl hrom (.ite (onlyTalks_sbBytes _ _ _ _) (onlyTalks_sbBytes _ _ _ _)), ?version⟩,
    ⟨_, exec_of_rom rfl hrom (onlyTalks_sbBytes _ _ _ _), rfl⟩⟩
  case setdasa =>
    have hbus' : busI3c { s with ops := [] } = true := hbus
    have haddr' : a.toNat = staticAddr { s with ops := [] } := haddr
    simp [hbus', haddr', hnone]
  case entdaa =>
    have hbus' : busI3c { s with ops := [] } = true := hbus
    simp [hbus', hnone]
  case alert =>
    have hbus' : busI3c { s with ops := [] } = false := hbus
    simp only [hbus', Bool.not_false, Bool.true_and, bne_iff_ne, ne_eq, halert, not_false_eq_true, if_true]
    rfl
  case version => rcases hm with rfl | rfl | rfl | rfl <;> rfl

/-- PLDM discovery, at firmware level (R510, R512, R513). -/
theorem pldm_discovers {s : State} (hrom : s.sbRom = true) (hfw : s.sbFirmware = true) :
    (∃ t, exec .gettid s = .next t ∧ t.sb.reply.map (·.bytes) = some [0, s.sb.tid])
    ∧ (∀ n : Byte, ∃ t, exec (.settid n) s = .next t ∧ t.sb.tid = n)
    ∧ (∃ t, exec .getpldmtypes s = .next t ∧ t.sb.reply.map (·.bytes) = some (0 :: toBytesLE 8 (2 ^ 0 + 2 ^ 2)))
    ∧ (∃ t, exec .getpdrrepositoryinfo s = .next t ∧ (t.sb.reply.map fun r => r.bytes.take 6) = some ([0, 0] ++ toBytesLE 4 25))
    ∧ (∀ k : Nat, 1 ≤ k → k ≤ 25 → ∃ t, exec (.getpdr k) s = .next t
      ∧ (t.sb.reply.map fun r => r.bytes.take 7)
        = some (0 :: toBytesLE 4 (if k = 25 then 0 else k + 1) ++ toBytesLE 2 (if k ≤ 15 then k else k + 4)))
    ∧ ∀ r : Byte, ∃ t, exec (.seteventreceiver r) s = .next t ∧ t.sb.receiver = some r := by
  refine ⟨⟨_, exec_of_pldm rfl hrom hfw (onlyTalks_sbBytes _ _ _ _), rfl⟩,
    fun n => ⟨_, exec_of_pldm rfl hrom hfw ((OnlyTalks.ofSideband _ _).trans (onlyTalks_sbBytes _ _ _ _)), rfl⟩,
    ⟨_, exec_of_pldm rfl hrom hfw (onlyTalks_sbBytes _ _ _ _), rfl⟩, ⟨_, exec_of_pldm rfl hrom hfw (onlyTalks_sbBytes _ _ _ _), rfl⟩,
    fun k h1 hk => ⟨_, exec_of_pldm rfl hrom hfw (.ite (onlyTalks_sbBytes _ _ _ _) (onlyTalks_sbBytes _ _ _ _)), ?_⟩,
    fun r => ⟨_, exec_of_pldm rfl hrom hfw ((OnlyTalks.ofSideband _ _).trans (onlyTalks_sbBytes _ _ _ _)), rfl⟩⟩
  have hlen : sensorIds.length = 25 := rfl
  simp only [hlen, h1, hk, and_self, if_true, sensorIds_getD h1 hk]
  exact congrArg some (take_getpdr _ _ _)

theorem exec_getstatesensorreadings {s : State} {k v : Nat} (hrom : s.sbRom = true) (hlevel : k = 20 ∨ s.sbFirmware = true)
    (hv : stateSensor s k = some v) :
    ∃ t, exec (.getstatesensorreadings k) s = .next t ∧ t.sb.reply.map (·.bytes) = some [0, 1, BitVec.ofNat 8 v] := by
  have hv' : stateSensor { s with ops := [] } k = some v := hv
  have hserved : (!s.sbFirmware && k != 20) = false := by rcases hlevel with rfl | h <;> simp_all
  have hf : (if !({ s with ops := [] } : State).sbFirmware && k != 20 then ({ s with ops := [] } : State).sbBytes 0 0 [notReady]
      else match stateSensor { s with ops := [] } k with
        | some v => ({ s with ops := [] } : State).sbBytes 0 0 [0, 1, BitVec.ofNat 8 v]
        | none => ({ s with ops := [] } : State).sbBytes 0 0 [0x80]) = ({ s with ops := [] } : State).sbBytes 0 0 [0, 1, BitVec.ofNat 8 v] := by
    simp [hserved, hv']
  refine ⟨_, exec_of_rom (f := fun s => s.sbBytes 0 0 [0, 1, BitVec.ofNat 8 v]) ?_ hrom (onlyTalks_sbBytes _ _ _ _), rfl⟩
  have hrom' : ({ s with ops := [] } : State).sbRom = true := hrom
  refine congrArg Host.Outcome.next (State.run_congr s ?_)
  rw [if_pos hrom', if_pos hrom']
  exact hf

/-- PLDM sensors and event messages (R512, R513). -/
theorem pldm_reports {s : State} (hrom : s.sbRom = true) :
    (∀ k : Nat, 1 ≤ k → k ≤ 15 → (k ≤ 9 ∨ s.sbFirmware = true) → ∃ t, exec (.getsensorreading k) s = .next t
      ∧ t.sb.reply.map (·.bytes) = some (0 :: toBytesLE 4 (unsigned 32 (s.sb.readings.getD (k - 1) 0))))
    ∧ (∃ t, exec (.getstatesensorreadings 20) s = .next t ∧ t.sb.reply.map (·.bytes) = some [0, 1, BitVec.ofNat 8 (deviceSensor s)])
    ∧ (s.sbFirmware = true → ∃ t, exec (.getstatesensorreadings 21) s = .next t
      ∧ t.sb.reply.map (·.bytes) = some [0, 1, BitVec.ofNat 8 s.rng.state])
    ∧ (∀ e : Nat, e < 8 → s.sbFirmware = true → ∃ t, exec (.getstatesensorreadings (22 + e)) s = .next t
      ∧ t.sb.reply.map (·.bytes) = some [0, 1, BitVec.ofNat 8 (s.engine e).state])
    ∧ (∀ (e : PlatformEvent) (rest : List PlatformEvent), s.sb.due = e :: rest → s.sb.events.length < 16 →
      ∃ t, exec (.platformeventmessage e.sensor e.value) s = .next t
        ∧ t.sb.due = rest ∧ t.sb.events = s.sb.events ++ [e] ∧ t.out = s.out ++ [.platformEvent e])
    ∧ (∃ t, exec .platformEventResend s = .next t
      ∧ t.sb.events = s.sb.events ∧ t.out = s.out ++ s.sb.events.map .platformEvent)
    ∧ ∀ (e : PlatformEvent) (rest : List PlatformEvent), s.sb.events = e :: rest →
      ∃ t, exec (.platformEventAck e.sensor) s = .next t ∧ t.sb.events = rest := by
  refine ⟨fun k h1 hk hlevel => ⟨_, exec_of_rom rfl hrom (.ite (onlyTalks_sbBytes _ _ _ _) (.ite (onlyTalks_sbBytes _ _ _ _)
      (onlyTalks_sbBytes _ _ _ _))), ?reading⟩,
    exec_getstatesensorreadings hrom (.inl rfl) rfl, fun hfw => exec_getstatesensorreadings hrom (.inr hfw) rfl,
    fun e he hfw => exec_getstatesensorreadings hrom (.inr hfw) ?state, fun e rest hdue hroom => ?message,
    ⟨_, exec_of_rom rfl hrom (onlyTalks_resend _ _), ?resend⟩,
    fun e rest hevents => ⟨_, exec_of_rom rfl hrom (.ofSideband _ _), by simp [hevents]⟩⟩
  case reading =>
    have hserved : (!({ s with ops := [] } : State).sbFirmware && !romSensor k) = false := by
      rcases hlevel with hk9 | hfw
      · simp [romSensor, h1, hk9]
      · rw [Clear.sbFirmware, hfw]
        rfl
    rw [if_neg (by rw [hserved]; exact Bool.false_ne_true), if_pos ⟨h1, hk⟩]
    rfl
  case state =>
    rw [stateSensor, if_neg (by omega), if_neg (by omega), if_pos (by omega), Nat.add_sub_cancel_left]
  case message =>
    refine ⟨_, exec_of_rom (f := fun s => { s with
      sb := { s.sb with due := rest, events := s.sb.events ++ [e] }, out := s.out ++ [.platformEvent e] }) ?_ hrom
      ⟨_, s.rng, _, s.free, rfl, rfl⟩, rfl, rfl, rfl⟩
    have hrom' : ({ s with ops := [] } : State).sbRom = true := hrom
    refine congrArg Host.Outcome.next (State.run_congr s ?_)
    rw [if_pos hrom', if_pos hrom']
    simp [hdue, queueMessage, dropsMessage, hroom, State.send, Nat.not_le.mpr hroom]
  case resend => simp [resend_eq]

/-- Settles O11: each request only talks (`OnlyTalks`), so its answer is what its function writes. -/
theorem mctpAndPldmAnswer : Obligations.MctpAndPldmAnswer :=
  ⟨fun _ hrom => mctp_answers hrom, fun _ hrom hfw => pldm_discovers hrom hfw, fun _ hrom => pldm_reports hrom⟩

end Sys2Proof.Machine
end

section
/-! SUPPORT. The SPDM responder, and what no request of the sideband steers. -/

namespace Sys2Proof.Machine

section
variable {s : State}

theorem signOrWait_of_ready {body : State → List Byte} {wait : RngWait} (h : s.rng.state = 1) :
    s.signOrWait body wait = s.signedReply (body s) := if_pos h

theorem signOrWait_of_starting {body : State → List Byte} {wait : RngWait} (h : s.rng.state = 0) :
    s.signOrWait body wait = { s with rng := { s.rng with waiting := s.rng.waiting ++ [wait] } } := by
  rw [State.signOrWait, if_neg (by rw [h]; exact Nat.zero_ne_one), if_pos h]

/-- A signed answer begins with its body. -/
theorem take_signedReply (s : State) (body : List Byte) :
    ((s.signedReply body).sb.reply.map fun r => r.bytes.take body.length) = some body := by
  have hbytes : (s.signedReply body).sb.reply.map (·.bytes)
      = some (body ++ (s.drawBytes 0 32).1 ++ (List.range 96).map fun k => Config.signatureByte (((s.drawBytes 0 32).2.countCall 0).countCall 0).free k) := rfl
  cases hreply : (s.signedReply body).sb.reply with
  | none => rw [hreply] at hbytes; cases hbytes
  | some r =>
    rw [hreply] at hbytes
    have hr : r.bytes = _ := Option.some.inj hbytes
    rw [Option.map_some, hr, List.append_assoc, List.take_left']
    rfl

theorem measurementIndices_one {i : Nat} (h1 : 1 ≤ i) (hi : i ≤ 14) : measurementIndices i = some [i] := by
  rw [measurementIndices, if_neg (by omega), if_neg (by omega), if_pos hi]

/-- GET_MEASUREMENTS of one block on a connection negotiated to its end. -/
theorem exec_getMeasurements_one {i : Nat} {signed_ : Bool} {n : List Byte} (hfw : s.sbFirmware = true) (hdone : 3 ≤ s.sb.spdm)
    (h1 : 1 ≤ i) (hi : i ≤ 14) :
    exec (.getMeasurements i signed_ n) s = .next
      (if signed_ then ({ s with ops := [] } : State).signOrWait (fun s => measurementsBody s i [i]) (.spdmMeasurements i n)
       else ({ s with ops := [] } : State).sbBytes 0 0 (measurementsBody { s with ops := [] } i [i])) := by
  have hspdm : ¬ ({ s with ops := [] } : State).sb.spdm < 3 := Nat.not_lt.mpr hdone
  have hf : exec (.getMeasurements i signed_ n) s = .next (s.spdm fun s =>
      if s.sb.spdm < 3 then s.sbBytes 0 0 (spdmError 0x04)
      else if signed_ then s.signOrWait (fun s => measurementsBody s i [i]) (.spdmMeasurements i n)
        else s.sbBytes 0 0 (measurementsBody s i [i])) := by
    change execGetMeasurements i signed_ n s = _
    simp only [execGetMeasurements, measurementIndices_one h1 hi]
  rw [exec_of_spdm hf hfw (.ite (onlyTalks_sbBytes _ _ _ _) (.ite (onlyTalks_signOrWait _ _ _) (onlyTalks_sbBytes _ _ _ _)))]
  simp only [if_neg hspdm]

/-- CHALLENGE for slot 0 on a connection negotiated to its end. -/
theorem exec_challenge_slot0 {n : List Byte} (hfw : s.sbFirmware = true) (hdone : 3 ≤ s.sb.spdm) :
    exec (.challenge 0 n) s = .next (({ s with ops := [] } : State).signOrWait challengeBody (.spdmChallenge 0 n)) := by
  have hspdm : ¬ ({ s with ops := [] } : State).sb.spdm < 3 := Nat.not_lt.mpr hdone
  rw [exec_of_spdm (c := .challenge 0 n) rfl hfw
    (.ite (onlyTalks_sbBytes _ _ _ _) (.ite (onlyTalks_sbBytes _ _ _ _) (onlyTalks_signOrWait _ _ _)))]
  simp only [if_neg hspdm, ne_eq, not_true_eq_false, if_false]

/-- The blocks of a MEASUREMENTS answer stand behind its eight bytes of header. -/
theorem drop_measurementsBody (s : State) (i : Nat) : (measurementsBody s i [i]).drop 8 = measurementBlock s i := by
  simp [measurementsBody, toBytesLE]

end

/-- The answers of a connection negotiated to its end (R496-R499). -/
theorem spdm_answers {s : State} (hfw : s.sbFirmware = true) (hdone : 3 ≤ s.sb.spdm) :
    (∃ t, exec .getDigests s = .next t ∧ (t.sb.reply.map fun r => r.bytes.drop 4) = some (sha384 (certChain s)))
    ∧ (∀ off len : Nat, ∃ t, exec (.getCertificate 0 off len) s = .next t
      ∧ (off < (certChain s).length → (t.sb.reply.map fun r => r.bytes.drop 8) = some (((certChain s).drop off).take len))
      ∧ ((certChain s).length ≤ off → t.sb.reply.map (·.bytes) = some (spdmError 0x01)))
    ∧ (∀ (i : Nat) (n : List Byte), 1 ≤ i → i ≤ 14 → ∃ t, exec (.getMeasurements i false n) s = .next t
      ∧ (t.sb.reply.map fun r => r.bytes.drop 8) = some (measurementBlock s i))
    ∧ (∀ n : List Byte, s.rng.state = 1 → ∃ t, exec (.challenge 0 n) s = .next t
      ∧ (t.sb.reply.map fun r => r.bytes.take (challengeBody s).length) = some (challengeBody s))
    ∧ (∀ n : List Byte, s.rng.state = 0 → ∃ t, exec (.challenge 0 n) s = .next t
      ∧ t.rng.waiting = s.rng.waiting ++ [.spdmChallenge 0 n] ∧ t.sb.reply = s.sb.reply)
    ∧ (∀ (i : Nat) (n : List Byte), 1 ≤ i → i ≤ 14 → s.rng.state = 1 → ∃ t, exec (.getMeasurements i true n) s = .next t
      ∧ (t.sb.reply.map fun r => r.bytes.take (measurementsBody s i [i]).length) = some (measurementsBody s i [i]))
    ∧ ∀ (i : Nat) (n : List Byte), 1 ≤ i → i ≤ 14 → s.rng.state = 0 → ∃ t, exec (.getMeasurements i true n) s = .next t
      ∧ t.rng.waiting = s.rng.waiting ++ [.spdmMeasurements i n] ∧ t.sb.reply = s.sb.reply := by
  have hspdm : ¬ ({ s with ops := [] } : State).sb.spdm < 3 := Nat.not_lt.mpr hdone
  refine ⟨⟨_, exec_of_spdm rfl hfw (.ite (onlyTalks_sbBytes _ _ _ _) (onlyTalks_sbBytes _ _ _ _)), ?digests⟩,
    fun off len => ⟨_, exec_of_spdm rfl hfw (.ite (onlyTalks_sbBytes _ _ _ _) (.ite (onlyTalks_sbBytes _ _ _ _) (onlyTalks_sbBytes _ _ _ _))),
      fun hoff => ?portion, fun hoff => ?beyond⟩,
    fun i n h1 hi => ⟨_, exec_getMeasurements_one hfw hdone h1 hi, congrArg some (drop_measurementsBody _ i)⟩,
    fun n hready => ⟨_, exec_challenge_slot0 hfw hdone, ?_⟩, fun n hstarting => ⟨_, exec_challenge_slot0 hfw hdone, ?_⟩,
    fun i n h1 hi hready => ⟨_, exec_getMeasurements_one hfw hdone h1 hi, ?_⟩,
    fun i n h1 hi hstarting => ⟨_, exec_getMeasurements_one hfw hdone h1 hi, ?_⟩⟩
  case digests =>
    rw [if_neg hspdm]
    rfl
  case portion =>
    have hgood : ¬ ((0 : Nat) ≠ 0 ∨ (certChain { s with ops := [] }).length ≤ off) :=
      fun h => h.elim (fun h => h rfl) (Nat.not_le.mpr hoff)
    simp only [if_neg hspdm, if_neg hgood]
    rfl
  case beyond =>
    have hbad : (0 : Nat) ≠ 0 ∨ (certChain { s with ops := [] }).length ≤ off := .inr hoff
    simp only [if_neg hspdm, if_pos hbad]
    rfl
  · rw [signOrWait_of_ready (s := { s with ops := [] }) hready]
    exact take_signedReply _ (challengeBody s)
  · rw [signOrWait_of_starting (s := { s with ops := [] }) hstarting]
    exact ⟨rfl, rfl⟩
  · rw [if_pos rfl, signOrWait_of_ready (s := { s with ops := [] }) hready]
    exact take_signedReply _ (measurementsBody s i [i])
  · rw [if_pos rfl, signOrWait_of_starting (s := { s with ops := [] }) hstarting]
    exact ⟨rfl, rfl⟩

/-- Settles O12: the negotiation here, the answers behind it in `spdm_answers`. -/
theorem spdmConnectionRunsInOrder : Obligations.SpdmConnectionRunsInOrder := by
  intro s hfw
  refine ⟨⟨_, exec_of_spdm rfl hfw ((OnlyTalks.ofSideband _ _).trans (onlyTalks_sbBytes _ _ _ _)), rfl⟩,
    fun v hbegun hv => ⟨_, exec_of_spdm rfl hfw (.ite (onlyTalks_sbBytes _ _ _ _)
      (.ite ((OnlyTalks.ofSideband _ _).trans (onlyTalks_sbBytes _ _ _ _)) (onlyTalks_sbBytes _ _ _ _))), ?capabilities⟩,
    fun a h m hbegun ha hh hm => ⟨_, exec_of_spdm rfl hfw (.ite (onlyTalks_sbBytes _ _ _ _)
      (.ite ((OnlyTalks.ofSideband _ _).trans (onlyTalks_sbBytes _ _ _ _)) (onlyTalks_sbBytes _ _ _ _))), ?algorithms⟩,
    fun hdone => spdm_answers hfw hdone⟩
  case capabilities =>
    have hspdm : ¬ ({ s with ops := [] } : State).sb.spdm = 0 := Nat.one_le_iff_ne_zero.mp hbegun
    rw [if_neg hspdm, if_pos hv]
    exact ⟨rfl, rfl⟩
  case algorithms =>
    have hspdm : ¬ ({ s with ops := [] } : State).sb.spdm < 2 := Nat.not_lt.mpr hbegun
    rw [if_neg hspdm, if_pos (by rw [ha, hh, hm]; rfl)]
    rfl

/-! ### What no request steers -/

/-- The requests of the bus, MCTP control, PLDM, SPDM, SB_READ and the alert commands, as O14 names them. -/
theorem exec_of_talks {c : Instr} {s : State} {f : State → State} (hexec : exec c s = .next (s.run f))
    (h : OnlyTalks { s with ops := [] } (f { s with ops := [] })) (ho : s.ops = []) {t : State} (ht : exec c s = .next t) : OnlyTalks s t := by
  have hs : ({ s with ops := [] } : State) = s := by rw [← ho]
  rw [hexec, run_of_talks h] at ht
  cases ht
  exact hs ▸ h

theorem exec_of_spdm_talks {c : Instr} {s : State} {f : State → State} (hexec : exec c s = .next (s.spdm f))
    (h : OnlyTalks { s with ops := [] } (f { s with ops := [] })) (ho : s.ops = []) {t : State} (ht : exec c s = .next t) : OnlyTalks s t :=
  exec_of_talks hexec (.ite h (.ite (onlyTalks_sbBytes _ _ _ _) (.refl _))) ho ht

theorem OnlyTalks.steersNothing {s t : State} (h : OnlyTalks s t) : sameWork s t ∧ sameControl s t ∧ samePlant s t ∧ t.dbg = s.dbg := by
  obtain ⟨sb, rng, out, free, rfl, -⟩ := h
  exact ⟨⟨rfl, rfl, rfl, rfl, rfl, rfl⟩, ⟨rfl, rfl, rfl, rfl⟩, ⟨rfl, rfl, rfl⟩, rfl⟩

theorem onlyTalks_sideband {s : State} {f : State → CmdWork} (tag : Byte) (h : OnlyTalks s (f s).2.2) : OnlyTalks s (s.sideband tag f) :=
  .ite (.refl _) (.ite (h.trans (onlyTalks_sbReply _ _ _ _)) (onlyTalks_sbReply _ _ _ _))

/-- Settles O14: every one of these requests only talks. -/
theorem sidebandRequestsSteerNothing : Obligations.SidebandRequestsSteerNothing := by
  intro c s t ho hc ht
  refine OnlyTalks.steersNothing ?_
  have bytes (tag result bs) : OnlyTalks { s with ops := [] } (({ s with ops := [] } : State).sbBytes tag result bs) := onlyTalks_sbBytes _ _ _ _
  cases c with
  | i3cSetdasa | i3cEntdaa => exact exec_of_talks rfl (.ite (.ite (.ofSideband _ _) (.refl _)) (.refl _)) ho ht
  | alertResponseAddress => exact exec_of_talks rfl (.ite (.ite (bytes _ _ _) (.refl _)) (.refl _)) ho ht
  | setEndpointId => exact exec_of_talks rfl (.ite ((OnlyTalks.ofSideband _ _).trans (onlyTalks_sbBytes _ _ _ _)) (.refl _)) ho ht
  | getEndpointId | getMessageTypeSupport => exact exec_of_talks rfl (.ite (bytes _ _ _) (.refl _)) ho ht
  | getVersionSupport => exact exec_of_talks rfl (.ite (.ite (bytes _ _ _) (bytes _ _ _)) (.refl _)) ho ht
  | gettid | getpldmtypes | getpdrrepositoryinfo => exact exec_of_talks rfl (.ite (.ite (bytes _ _ _) (bytes _ _ _)) (.refl _)) ho ht
  | settid | seteventreceiver =>
    exact exec_of_talks rfl (.ite (.ite ((OnlyTalks.ofSideband _ _).trans (onlyTalks_sbBytes _ _ _ _)) (bytes _ _ _)) (.refl _)) ho ht
  | getpdr => exact exec_of_talks rfl (.ite (.ite (.ite (bytes _ _ _) (bytes _ _ _)) (bytes _ _ _)) (.refl _)) ho ht
  | getsensorreading =>
    exact exec_of_talks rfl (.ite (.ite (bytes _ _ _) (.ite (bytes _ _ _) (bytes _ _ _))) (.refl _)) ho ht
  | getstatesensorreadings =>
    refine exec_of_talks rfl (.ite (.ite (bytes _ _ _) ?_) (.refl _)) ho ht
    split
    · exact bytes _ _ _
    · exact bytes _ _ _
  | platformeventmessage =>
    refine exec_of_talks rfl (.ite ?_ (.refl _)) ho ht
    dsimp only
    split
    · exact .ite (.ofSideband _ _) ((OnlyTalks.ofSideband _ _).trans (onlyTalks_send _ _))
    · exact .refl _
  | platformEventResend => exact exec_of_talks rfl (.ite (onlyTalks_resend _ _) (.refl _)) ho ht
  | platformEventAck => exact exec_of_talks rfl (.ite (.ofSideband _ _) (.refl _)) ho ht
  | getVersion =>
    refine exec_of_spdm_talks rfl ?_ ho ht
    exact (OnlyTalks.ofSideband _ _).trans (onlyTalks_sbBytes _ _ _ _)
  | getCapabilities | negotiateAlgorithms =>
    refine exec_of_spdm_talks rfl ?_ ho ht
    exact .ite (bytes _ _ _) (.ite ((OnlyTalks.ofSideband _ _).trans (onlyTalks_sbBytes _ _ _ _)) (bytes _ _ _))
  | getDigests =>
    refine exec_of_spdm_talks rfl ?_ ho ht
    exact .ite (bytes _ _ _) (bytes _ _ _)
  | getCertificate =>
    refine exec_of_spdm_talks rfl ?_ ho ht
    exact .ite (bytes _ _ _) (.ite (bytes _ _ _) (bytes _ _ _))
  | challenge =>
    refine exec_of_spdm_talks rfl ?_ ho ht
    exact .ite (bytes _ _ _) (.ite (bytes _ _ _) (onlyTalks_signOrWait _ _ _))
  | getMeasurements =>
    refine exec_of_spdm_talks rfl ?_ ho ht
    refine .ite (bytes _ _ _) ?_
    split
    · exact .ite (onlyTalks_signOrWait _ _ _) (bytes _ _ _)
    · exact bytes _ _ _
  | sbRead =>
    refine exec_of_talks rfl (onlyTalks_inTurn _ _ (onlyTalks_sideband _ ?_)) ho ht
    dsimp only
    split
    · exact .refl _
    · split
      · exact .refl _
      · split <;> exact .refl _
  | alertRead => exact exec_of_talks rfl (.ite (onlyTalks_inTurn _ _ (onlyTalks_sbReply _ _ _ _)) (.refl _)) ho ht
  | alertClear =>
    exact exec_of_talks rfl (.ite (onlyTalks_inTurn _ _ ((OnlyTalks.ofSideband _ _).trans (onlyTalks_sbReply _ _ _ _))) (.refl _)) ho ht
  | _ => exact hc.elim

end Sys2Proof.Machine
end

section
/-! SUPPORT. The sideband mailbox: turns, register reads, alerts, and the flash commands of recovery. -/

namespace Sys2Proof.Machine

/-! ### Answers of the sideband mailbox -/

section
variable {s : State} {tag : Byte}

theorem inTurn_free {i : Instr} {f : State → State} (h : s.sbHolds = 0) : s.inTurn tag i f = f s := by simp [State.inTurn, h]

theorem sideband_of_firmware {f : State → CmdWork} (hrom : s.sbRom = true) (hfw : s.sbFirmware = true) :
    s.sideband tag f = (f s).2.2.sbReply tag (f s).1 (f s).2.1 := by simp [State.sideband, hrom, hfw]

/-- Behind a held challenge a request waits in its turn (R515). -/
theorem inTurn_held {i : Instr} {f : State → State} (hrom : s.sbRom = true) (h1 : 1 ≤ s.sbHolds) (h4 : s.sbHolds < 4) :
    s.inTurn tag i f = { s with sb := { s.sb with held := s.sb.held ++ [i] } } := by
  rw [State.inTurn, hrom, if_neg (by simp; omega), if_neg (Nat.not_le.mpr h4)]

/-- A fifth request is answered at once with STATE (R515). -/
theorem inTurn_full {i : Instr} {f : State → State} (hrom : s.sbRom = true) (h4 : 4 ≤ s.sbHolds) :
    s.inTurn tag i f = s.sbReply tag 3 [] := by
  rw [State.inTurn, hrom, if_neg (by simp; omega), if_pos h4]
end

theorem replyWords_one (v : Nat) : replyWords [(0, v)] = [BitVec.ofNat 64 v] := rfl

/-- The outputs of a list of words, from word 0 on. -/
theorem replyWords_mapIdx (ws : List Nat) : replyWords (ws.mapIdx fun i w => (i, w)) = ws.map (BitVec.ofNat 64) := by
  have hcount (xs : List Nat) (k m : Nat) :
      (xs.mapIdx fun i w => (i + k, w)).foldl (fun m (o : Nat × Nat) => max m (o.1 + 1)) m = if xs = [] then m else max m (xs.length + k) := by
    induction xs generalizing k m with
    | nil => rfl
    | cons x xs ih =>
      rw [List.mapIdx_cons, List.foldl_cons]
      have hshift : (fun (i : Nat) (w : Nat) => (i + 1 + k, w)) = fun i w => (i + (k + 1), w) := by
        funext i w
        rw [Nat.add_assoc, Nat.add_comm 1 k]
      rw [hshift, ih]
      by_cases hxs : xs = []
      · simp [hxs]
        omega
      · rw [if_neg hxs, if_neg (List.cons_ne_nil x xs), List.length_cons]
        omega
  have hlen : (ws.mapIdx fun i w => (i, w)).foldl (fun m (o : Nat × Nat) => max m (o.1 + 1)) 0 = ws.length := by
    have h := hcount ws 0 0
    simp only [Nat.add_zero] at h
    rw [h]
    cases ws <;> simp
  have hfind (xs : List Nat) (k j : Nat) (hj : j < xs.length) :
      (xs.mapIdx fun i w => (i + k, w)).find? (fun o => o.1 == j + k) = some (j + k, xs[j]) := by
    induction xs generalizing k j with
    | nil => cases hj
    | cons x xs ih =>
      rw [List.mapIdx_cons]
      cases j with
      | zero => simp
      | succ j =>
        have hshift : (fun (i : Nat) (w : Nat) => (i + 1 + k, w)) = fun i w => (i + (k + 1), w) := by
          funext i w
          rw [Nat.add_assoc, Nat.add_comm 1 k]
        rw [List.find?_cons_of_neg (by simp), hshift, show j + 1 + k = j + (k + 1) by omega,
          ih (k + 1) j (Nat.lt_of_succ_lt_succ hj)]
        rfl
  rw [replyWords, hlen]
  refine List.ext_getElem (by simp) fun j hj hj' => ?_
  have hj'' : j < ws.length := by simpa using hj
  have h := hfind ws 0 j hj''
  simp only [Nat.add_zero] at h
  simp [h]

/-! ### SB_READ and the alert commands -/

/-- A sideband read carried out at once, of a place it may read (R516). -/
theorem exec_sbRead {s : State} {tag : Byte} {a cls i off : Nat} (hrom : s.sbRom = true) (hfw : s.sbFirmware = true)
    (hholds : s.sbHolds = 0) (ha : a = off * 2 ^ 16 + cls * 2 ^ 12 + i) (hi : i < 4096) (hcls : cls < 16) (hoff : off < 2 ^ 16)
    (hplace : if cls = 0 then off < 0x4000 ∧ i = 0 else wselValid cls i = true) :
    exec (.sbRead tag [BitVec.ofNat 64 a]) s = .next (({ s with ops := [] } : State).sbReply tag 0 [(0, regRead s cls i off 8)]) := by
  have hword : (([BitVec.ofNat 64 a] : List DWord).getD 0 0).toNat = a := by
    show (BitVec.ofNat 64 a).toNat = a
    rw [BitVec.toNat_ofNat, Nat.mod_eq_of_lt (by omega)]
  have hfields : natBits a 12 4 = cls ∧ a % 4096 = i ∧ natBits a 16 16 = off := by
    simp only [natBits]
    omega
  obtain ⟨hc, hindex, ho⟩ := hfields
  have hrom' : ({ s with ops := [] } : State).sbRom = true := hrom
  have hfw' : ({ s with ops := [] } : State).sbFirmware = true := hfw
  have hholds' : ({ s with ops := [] } : State).sbHolds = 0 := hholds
  have hsmall : ¬ 2 ^ 32 ≤ a := by omega
  have hhub : ¬ (cls = 0 ∧ (0x4000 ≤ off ∨ i ≠ 0)) := by
    rintro ⟨rfl, hbad⟩
    simp only [if_true] at hplace
    omega
  have hwindow : ¬ (cls ≠ 0 ∧ wselValid cls i = false) := by
    rintro ⟨hne, hbad⟩
    rw [if_neg hne, hbad] at hplace
    cases hplace
  have hexec : exec (.sbRead tag [BitVec.ofNat 64 a]) s
      = .next (s.run fun _ => ({ s with ops := [] } : State).sbReply tag 0 [(0, regRead s cls i off 8)]) := by
    refine exec_lands rfl ?_
    rw [inTurn_free hholds', sideband_of_firmware hrom' hfw']
    simp only [hword, hc, hindex, ho, if_neg hsmall, if_neg hhub, if_neg hwindow, Clear.regRead]
  rw [hexec, run_of_talks (onlyTalks_sbReply _ _ _ _)]

theorem wselValid_lt {cls i : Nat} (h : wselValid cls i = true) : cls ≠ 0 ∧ cls < 16 ∧ i < 4096 := by
  unfold wselValid at h
  split at h <;> simp only [decide_eq_true_eq, Bool.false_eq_true] at h <;> omega

theorem exec_alertRead {s : State} {tag : Byte} (hrom : s.sbRom = true) (hholds : s.sbHolds = 0) :
    exec (.alertRead tag) s = .next (({ s with ops := [] } : State).sbReply tag 0 [(0, s.sb.alert.toNat)]) := by
  have hholds' : ({ s with ops := [] } : State).sbHolds = 0 := hholds
  rw [exec_of_rom (c := .alertRead tag) rfl hrom (onlyTalks_inTurn _ _ (onlyTalks_sbReply _ _ _ _)), inTurn_free hholds']

theorem exec_alertClear {s : State} {tag : Byte} {args : List DWord} (hrom : s.sbRom = true) (hholds : s.sbHolds = 0) :
    exec (.alertClear tag args) s = .next
      (({ s with
          ops := []
          sb := { s.sb with
            alert := (s.sb.alert &&& ~~~((args.getD 0 0).setWidth 8)) ||| (s.sb.alert &&& lastingCauses s) } } : State).sbReply tag 0 []) := by
  have hholds' : ({ s with ops := [] } : State).sbHolds = 0 := hholds
  rw [exec_of_rom (c := .alertClear tag args) rfl hrom
    (onlyTalks_inTurn _ _ ((OnlyTalks.ofSideband _ _).trans (onlyTalks_sbReply _ _ _ _))), inTurn_free hholds']
  rfl

/-! ### Recovery -/

/-- A recovery command in recovery, carried out at once (R518). -/
theorem recover_lands {c : Instr} {s : State} {tag : Byte} {i : Instr} {f : State → CmdWork} (hexec : exec c s = .next (s.recover tag i f))
    (hrom : s.sbRom = true) (hrec : s.boot.recovery = true) (hholds : s.sbHolds = 0) {result : Nat} {outs : List (Nat × Nat)} {u : State}
    (hf : f { s with ops := [] } = (result, outs, u)) : exec c s = .next (s.run fun _ => u.sbReply tag result outs) := by
  have hrom' : ({ s with ops := [] } : State).sbRom = true := hrom
  have hholds' : ({ s with ops := [] } : State).sbHolds = 0 := hholds
  refine exec_lands hexec ?_
  rw [if_pos hrom']
  dsimp only
  rw [inTurn_free hholds', if_pos hrec, hf]

theorem length_toBytesLE (k n : Nat) : (toBytesLE k n).length = k := by
  induction k generalizing n with
  | zero => rfl
  | succ k ih => rw [toBytesLE, List.length_cons, ih]

theorem length_flatMap_toBytesLE (ws : List DWord) : (ws.flatMap fun w => toBytesLE 8 w.toNat).length = 8 * ws.length := by
  simp [List.length_flatMap, length_toBytesLE, Nat.mul_comm]

/-- The bytes written are what a read of their range returns. -/
theorem Nv.bytes_write_same {n : Nv} {a : Nat} {bs : List Byte} (hwf : cellsWf 0xFF n.flash = true) :
    (n.write a bs).bytes a bs.length = bs := by
  refine List.ext_getElem (by simp [Nv.bytes, cellReadList]) fun i hi hi' => ?_
  simp only [Nv.bytes, cellReadList, Nv.write, List.getElem_map, List.getElem_range]
  exact cellRead_cellWriteList_inside 0xFF bs _ a i ((cellsWf_iff _ _).mp hwf).1 hi'

theorem Nv.bytes_write_outside {n : Nv} {a x : Nat} {bs : List Byte} (hwf : cellsWf 0xFF n.flash = true) (hx : x < a ∨ a + bs.length ≤ x) :
    (n.write a bs).bytes x 1 = n.bytes x 1 := by
  simp only [Nv.bytes, cellReadList, Nv.write, List.range_one, List.map_cons, List.map_nil, Nat.add_zero]
  rw [cellRead_cellWriteList_outside 0xFF bs _ a x ((cellsWf_iff _ _).mp hwf).1 hx]

/-- A byte of a store with some of its bytes forgotten. -/
theorem cellRead_filter (d : Byte) (p : Nat → Bool) {l : List (Nat × Byte)} (h : l.Pairwise fun x y => x.1 < y.1) (a : Nat) :
    cellRead d (l.filter fun c => p c.1) a = if p a then cellRead d l a else d := by
  induction l with
  | nil => simp [cellRead]
  | cons x xs ih =>
    obtain ⟨k, v⟩ := x
    obtain ⟨hbelow, hrest⟩ := List.pairwise_cons.mp h
    specialize ih hrest
    by_cases hp : p k = true
    · rw [List.filter_cons_of_pos (a := (k, v)) hp]
      by_cases hka : k = a
      · subst hka
        simp [cellRead, hp]
      · rw [cellRead, cellRead, if_neg hka, if_neg hka, ih]
        by_cases hlt : k < a <;> simp [hlt]
    · rw [List.filter_cons_of_neg (a := (k, v)) hp, ih]
      by_cases hka : k = a
      · subst hka
        simp [hp]
      · rw [cellRead, if_neg hka]
        by_cases hlt : k < a
        · rw [if_pos hlt]
        · rw [if_neg hlt, cellRead_below d xs a fun c hc => Nat.lt_of_le_of_lt (Nat.le_of_not_lt hlt) (hbelow c hc)]

/-- Flash with a range erased. -/
def Nv.erase (n : Nv) (a size : Nat) : Nv := { n with flash := n.flash.filter fun c => decide (c.1 < a) || decide (a + size ≤ c.1) }

theorem Nv.bytes_erase {n : Nv} (hwf : cellsWf 0xFF n.flash = true) (a size x : Nat) :
    (n.erase a size).bytes x 1 = if x < a ∨ a + size ≤ x then n.bytes x 1 else [0xFF] := by
  have hread := cellRead_filter 0xFF (fun k => decide (k < a) || decide (a + size ≤ k)) ((cellsWf_iff _ _).mp hwf).1 x
  simp only [Nv.bytes, cellReadList, Nv.erase, List.range_one, List.map_cons, List.map_nil, Nat.add_zero]
  rw [hread]
  by_cases hx : x < a ∨ a + size ≤ x <;> simp [hx]

theorem Nv.erase_wf {n : Nv} (hwf : cellsWf 0xFF n.flash = true) (a size : Nat) : cellsWf 0xFF (n.erase a size).flash = true := by
  obtain ⟨hasc, hne⟩ := (cellsWf_iff _ _).mp hwf
  exact (cellsWf_iff _ _).mpr ⟨hasc.filter _, fun c hc => hne c (List.mem_of_mem_filter hc)⟩

theorem State.run_nvFlash {s u : State} (h : u.nv.fuses = s.nv.fuses) : (s.run fun _ => u).nv = u.nv := by
  have hnv : (s.run fun _ => u).nv = { u.nv with fuses := s.nv.fuses } := by simp [State.run]
  rw [hnv, ← h]

theorem toNat_ofNat_of_lt {a : Nat} (h : a < 2 ^ 64) : (BitVec.ofNat 64 a).toNat = a := by
  rw [BitVec.toNat_ofNat, Nat.mod_eq_of_lt h]

/-- The flash commands and the reboot of recovery (R518). -/
theorem recovery_acts {s : State} {tag : Byte} (hrom : s.sbRom = true) (hrec : s.boot.recovery = true) (hholds : s.sbHolds = 0) :
    (∀ (a n : Nat) (ws : List DWord), 1 ≤ n → n ≤ 48 → n ≤ 8 * ws.length → a + n ≤ 0x02000000 → cellsWf 0xFF s.nv.flash = true →
       ∃ t, exec (.flashWrite tag (BitVec.ofNat 64 a :: BitVec.ofNat 64 n :: ws)) s = .next t
         ∧ t.nv.bytes a n = (ws.flatMap fun w => toBytesLE 8 w.toNat).take n
         ∧ (∀ x, x < a ∨ a + n ≤ x → t.nv.bytes x 1 = s.nv.bytes x 1) ∧ cellsWf 0xFF t.nv.flash = true)
    ∧ (∀ k a : Nat, k < 2 → a % (if k = 0 then 4096 else 65536) = 0 → a < 0x02000000 → cellsWf 0xFF s.nv.flash = true →
       ∃ t, exec (.flashErase tag [BitVec.ofNat 64 a, BitVec.ofNat 64 k]) s = .next t
         ∧ (∀ x, a ≤ x → x < a + (if k = 0 then 4096 else 65536) → t.nv.bytes x 1 = [0xFF])
         ∧ (∀ x, x < a ∨ a + (if k = 0 then 4096 else 65536) ≤ x → t.nv.bytes x 1 = s.nv.bytes x 1)
         ∧ cellsWf 0xFF t.nv.flash = true)
    ∧ (∀ a n : Nat, 1 ≤ n → n ≤ 64 → a + n ≤ 0x02000000 →
       ∃ t, exec (.flashRead tag [BitVec.ofNat 64 a, BitVec.ofNat 64 n]) s = .next t
         ∧ (t.sb.reply.map fun r => (r.result, r.words)) = some (0, (wordsOf (s.nv.bytes a n)).map (BitVec.ofNat 64))
         ∧ t.nv = s.nv)
    ∧ exec (.recoveryReboot tag) s = .next s.enterReset := by
  refine ⟨fun a n ws h1 h48 hws hend hwf => ?write, fun k a hk halign hend hwf => ?erase, fun a n h1 h64 hend => ?read,
    congrArg Host.Outcome.next (if_pos (by rw [hrom, hrec]; rfl))⟩
  case write =>
    have hbytes : ((ws.flatMap fun w => toBytesLE 8 w.toNat) ++ zeroBytes 48).take n = (ws.flatMap fun w => toBytesLE 8 w.toNat).take n :=
      List.take_append_of_le_length (by rw [length_flatMap_toBytesLE]; exact hws)
    have hlen : ((ws.flatMap fun w => toBytesLE 8 w.toNat).take n).length = n := by
      rw [List.length_take, length_flatMap_toBytesLE, Nat.min_eq_left hws]
    refine ⟨_, recover_lands (result := 0) (outs := [])
      (u := { s with nv := s.nv.write a ((ws.flatMap fun w => toBytesLE 8 w.toNat).take n), ops := [] }) rfl hrom hrec hholds ?_, ?_⟩
    · simp only [List.getD_cons_zero, List.getD_cons_succ, List.drop_succ_cons, List.drop_zero,
        toNat_ofNat_of_lt (show a < 2 ^ 64 by omega), toNat_ofNat_of_lt (show n < 2 ^ 64 by omega)]
      rw [if_neg (by omega), if_neg (show ¬ flashEnd < a + n from Nat.not_lt.mpr hend), hbytes]
    · rw [State.run_nvFlash (by rfl)]
      refine ⟨?_, fun x hx => Nv.bytes_write_outside hwf (by rwa [hlen]), cellWriteList_wf _ _ _ _ hwf⟩
      have hsame := Nv.bytes_write_same (a := a) (bs := (ws.flatMap fun w => toBytesLE 8 w.toNat).take n) hwf
      rwa [hlen] at hsame
  case erase =>
    refine ⟨_, recover_lands (result := 0) (outs := [])
      (u := { s with nv := s.nv.erase a (if k = 0 then 4096 else 65536), ops := [] }) rfl hrom hrec hholds ?_, ?_⟩
    · simp only [List.getD_cons_zero, List.getD_cons_succ, toNat_ofNat_of_lt (show a < 2 ^ 64 by omega),
        toNat_ofNat_of_lt (show k < 2 ^ 64 by omega)]
      rw [if_neg (by omega), if_neg (show ¬ flashEnd ≤ a from Nat.not_le.mpr hend)]
      rfl
    · rw [State.run_nvFlash (by rfl)]
      exact ⟨fun x hlo hhi => (Nv.bytes_erase hwf a _ x).trans (if_neg (by omega)),
        fun x hx => (Nv.bytes_erase hwf a _ x).trans (if_pos hx), Nv.erase_wf hwf a _⟩
  case read =>
    refine ⟨_, recover_lands (result := 0) (outs := (wordsOf (s.nv.bytes a n)).mapIdx fun i w => (i, w))
      (u := { s with ops := [] }) rfl hrom hrec hholds ?_, ?_, State.run_nvFlash rfl⟩
    · simp only [List.getD_cons_zero, List.getD_cons_succ, toNat_ofNat_of_lt (show a < 2 ^ 64 by omega),
        toNat_ofNat_of_lt (show n < 2 ^ 64 by omega)]
      rw [if_neg (by omega), if_neg (show ¬ flashEnd < a + n from Nat.not_lt.mpr hend)]
    · rw [State.run_sb_reply, ← replyWords_mapIdx]
      rfl

/-- Settles O13. -/
theorem sidebandReadsAlertsAndRecovery : Obligations.SidebandReadsAlertsAndRecovery := by
  refine ⟨fun s tag hrom hholds => ⟨fun off hfw hoff => ?hub, fun cls i off hfw hvalid hoff => ?window,
      ⟨_, exec_alertRead hrom hholds, ?alert⟩, fun bits => ⟨_, exec_alertClear hrom hholds, ?clear⟩⟩,
    fun s tag args hrom => ⟨fun h1 h4 => ?waits, fun h4 => ?full⟩, fun s tag hrom hrec hholds => recovery_acts hrom hrec hholds⟩
  case hub =>
    exact ⟨_, exec_sbRead (cls := 0) (i := 0) hrom hfw hholds (by omega) (by omega) (by omega) (by omega) (by simp; omega), rfl, rfl⟩
  case window =>
    obtain ⟨hne, hcls, hi⟩ := wselValid_lt hvalid
    exact ⟨_, exec_sbRead hrom hfw hholds rfl hi hcls hoff (by rwa [if_neg hne]), rfl, rfl, rfl, rfl, rfl, rfl⟩
  case alert => rfl
  case clear =>
    have hbits : (bits.setWidth 64).setWidth 8 = bits := by simp
    show (s.sb.alert &&& ~~~((bits.setWidth 64).setWidth 8)) ||| _ = _
    rw [hbits]
  case waits =>
    refine ⟨_, (exec_lands (c := .sbRead tag args) rfl (inTurn_held hrom h1 h4)).trans (congrArg Host.Outcome.next (run_of_talks (.ofSideband _ _))),
      rfl, rfl⟩
  case full =>
    refine ⟨_, (exec_lands (c := .sbRead tag args) rfl (inTurn_full hrom h4)).trans
      (congrArg Host.Outcome.next (run_of_talks (onlyTalks_sbReply _ _ _ _))), rfl, rfl⟩

end Sys2Proof.Machine
end

section
/-! SUPPORT. The debug port. -/

namespace Sys2Proof.Machine

/-! ### Challenges and tokens over the sideband -/

section
variable {s : State} {tag : Byte} (hrom : s.sbRom = true) (hfw : s.sbFirmware = true)
include hrom hfw

theorem debugPortUp_sideband : s.debugPortUp (.sideband tag) = true := by rw [State.debugPortUp, hrom, hfw]; rfl
end

theorem debugTurn_free {s : State} {tag : Byte} {i : Instr} {f : State → State × Dbg} (h : s.sbHolds = 0) :
    s.debugTurn (.sideband tag) i f = f s := if_pos h

theorem exec_debug_lands {c : Instr} {s u : State} {f : State → State × Dbg} {d : Dbg} (hexec : exec c s = .next (s.runDebug f))
    (hlock : (f s).2 = d) (hstate : (f { s with ops := [] }).1 = u) : exec c s = .next { s.run fun _ => u with dbg := d } := by
  have hrun : s.run (fun s => (f s).1) = s.run fun _ => u := State.run_congr s hstate
  rw [hexec, State.runDebug, hlock, hrun]

/-- The work of DEBUG_CHALLENGE in its turn. -/
def challengeWork (port : DebugPort) (s : State) : State × Dbg :=
  if !s.debugPortUp port then
    match port with
    | .sideband tag => if s.sbRom then (s.sbReply tag 3 [], s.dbg) else (s, s.dbg)
    | .jtag => (s, s.dbg)
  else if s.nv.fuses.debugDisable then s.debugAnswer port 3 []
  else if s.rng.state = 1 then s.giveChallenge port
  else if s.rng.state = 0 then ({ s with rng := { s.rng with waiting := s.rng.waiting ++ [.debugChallenge port] } }, s.dbg)
  else s.debugAnswer port 0x0300 []

theorem exec_debugChallenge (port : DebugPort) (s : State) :
    exec (.debugChallenge port) s = .next (s.runDebug fun s => s.debugTurn port (.debugChallenge port) (challengeWork port)) := rfl

/-- The work of DEBUG_UNLOCK in its turn. -/
def unlockWork (port : DebugPort) (token : List Byte) (s : State) : State × Dbg :=
  if !s.debugPortUp port then
    match port with
    | .sideband tag => if s.sbRom then (s.sbReply tag 3 [], s.dbg) else (s, s.dbg)
    | .jtag => (s, s.dbg)
  else if tokenAccepted s.nv.fuses s.dbg.challenge token && !s.nv.fuses.debugDisable then
    ((s.debugAnswer port 0 []).1, { (s.debugAnswer port 0 []).2 with level := bytesLE ((token.drop 0x28).take 1), challenge := none })
  else ((s.debugAnswer port 2 []).1, { (s.debugAnswer port 2 []).2 with challenge := none })

theorem exec_debugUnlock (port : DebugPort) (token : List Byte) (s : State) :
    exec (.debugUnlock port token) s = .next (s.runDebug fun s => s.debugTurn port (.debugUnlock port token) (unlockWork port token)) := rfl

section
variable {s : State} {tag : Byte} (hrom : s.sbRom = true) (hfw : s.sbFirmware = true)
include hrom hfw

theorem challengeWork_of_ready (hopen : s.nv.fuses.debugDisable = false) (hready : s.rng.state = 1) :
    challengeWork (.sideband tag) s = s.giveChallenge (.sideband tag) := by
  simp [challengeWork, debugPortUp_sideband hrom hfw, hopen, hready]

theorem challengeWork_of_starting (hopen : s.nv.fuses.debugDisable = false) (hstarting : s.rng.state = 0) :
    challengeWork (.sideband tag) s
      = ({ s with rng := { s.rng with waiting := s.rng.waiting ++ [.debugChallenge (.sideband tag)] } }, s.dbg) := by
  simp [challengeWork, debugPortUp_sideband hrom hfw, hopen, hstarting]

theorem challengeWork_of_disabled (hblown : s.nv.fuses.debugDisable = true) :
    challengeWork (.sideband tag) s = s.debugAnswer (.sideband tag) 3 [] := by
  simp [challengeWork, debugPortUp_sideband hrom hfw, hblown]

theorem unlockWork_of_accepted {token : List Byte} (hgood : tokenAccepted s.nv.fuses s.dbg.challenge token = true)
    (hopen : s.nv.fuses.debugDisable = false) :
    unlockWork (.sideband tag) token s = ((s.debugAnswer (.sideband tag) 0 []).1,
      { (s.debugAnswer (.sideband tag) 0 []).2 with level := bytesLE ((token.drop 0x28).take 1), challenge := none }) := by
  simp [unlockWork, debugPortUp_sideband hrom hfw, hgood, hopen]

theorem unlockWork_of_refused {token : List Byte} (hbad : tokenAccepted s.nv.fuses s.dbg.challenge token = false) :
    unlockWork (.sideband tag) token s = ((s.debugAnswer (.sideband tag) 2 []).1,
      { (s.debugAnswer (.sideband tag) 2 []).2 with challenge := none }) := by
  simp [unlockWork, debugPortUp_sideband hrom hfw, hbad]
end

/-- Serving a challenge over the sideband: the draw becomes the challenge (R522). -/
theorem giveChallenge_sideband (s : State) (tag : Byte) :
    (s.giveChallenge (.sideband tag)).2
      = { (s.giveChallenge (.sideband tag)).1.dbg with challenge := some ((List.range 32).map fun k => Config.drbgByte 0 (s.free + k)) }
    ∧ (s.giveChallenge (.sideband tag)).1.dbg = s.dbg ∧ (s.giveChallenge (.sideband tag)).1.free = s.free + 32 := by
  obtain ⟨sb, rng, out, free, hcount, -⟩ := onlyTalks_countCall { s with free := s.free + 32 } 0
  refine ⟨rfl, ?_, ?_⟩
  · show (({ s with free := s.free + 32 } : State).countCall 0).dbg = s.dbg
    rw [hcount]
  · show (({ s with free := s.free + 32 } : State).countCall 0).free = s.free + 32
    unfold State.countCall
    dsimp only
    split <;> rfl

/-- Challenges and tokens over the sideband, no request held (R42, R521, R522). -/
theorem debug_unlocks {s : State} (hrom : s.sbRom = true) (hfw : s.sbFirmware = true) (hholds : s.sbHolds = 0) :
    (∀ tag : Byte, s.nv.fuses.debugDisable = false → s.rng.state = 1 →
      ∃ t, exec (.debugChallenge (.sideband tag)) s = .next t
        ∧ t.dbg.challenge = some ((List.range 32).map fun k => Config.drbgByte 0 (s.free + k))
        ∧ t.free = s.free + 32 ∧ t.dbg.level = s.dbg.level)
    ∧ (∀ tag : Byte, s.nv.fuses.debugDisable = false → s.rng.state = 0 →
      ∃ t, exec (.debugChallenge (.sideband tag)) s = .next t
        ∧ t.rng.waiting = s.rng.waiting ++ [.debugChallenge (.sideband tag)] ∧ t.dbg = s.dbg)
    ∧ (∀ tag : Byte, s.nv.fuses.debugDisable = true → ∃ t, exec (.debugChallenge (.sideband tag)) s = .next t
        ∧ (t.sb.reply.map fun r => r.result) = some 3 ∧ t.dbg = s.dbg)
    ∧ (∀ (tag : Byte) (token : List Byte), tokenAccepted s.nv.fuses s.dbg.challenge token = true → s.nv.fuses.debugDisable = false →
      ∃ t, exec (.debugUnlock (.sideband tag) token) s = .next t
        ∧ t.dbg.level = bytesLE ((token.drop 0x28).take 1) ∧ t.dbg.challenge = none ∧ (t.sb.reply.map fun r => r.result) = some 0)
    ∧ (∀ (tag : Byte) (token : List Byte), tokenAccepted s.nv.fuses s.dbg.challenge token = false →
      ∃ t, exec (.debugUnlock (.sideband tag) token) s = .next t
        ∧ t.dbg.level = s.dbg.level ∧ t.dbg.challenge = none ∧ (t.sb.reply.map fun r => r.result) = some 2) := by
  have hholds' : ({ s with ops := [] } : State).sbHolds = 0 := hholds
  have hrom' : ({ s with ops := [] } : State).sbRom = true := hrom
  have hfw' : ({ s with ops := [] } : State).sbFirmware = true := hfw
  refine ⟨fun tag hopen hready => ?ready, fun tag hopen hstarting => ?starting, fun tag hblown => ?blown,
    fun tag token hgood hopen => ?accepted, fun tag token hbad => ?refused⟩
  case ready =>
    obtain ⟨hlock, hdbg, -⟩ := giveChallenge_sideband s tag
    obtain ⟨-, -, hfree⟩ := giveChallenge_sideband { s with ops := [] } tag
    rw [hdbg] at hlock
    refine ⟨_, exec_debug_lands (exec_debugChallenge _ s)
      ((congrArg Prod.snd ((debugTurn_free hholds).trans (challengeWork_of_ready hrom hfw hopen hready))).trans hlock)
      (congrArg Prod.fst ((debugTurn_free hholds').trans (challengeWork_of_ready hrom' hfw' hopen hready))), rfl, ?_, rfl⟩
    simpa using hfree
  case starting =>
    exact ⟨_, exec_debug_lands (exec_debugChallenge _ s)
      (congrArg Prod.snd ((debugTurn_free hholds).trans (challengeWork_of_starting hrom hfw hopen hstarting)))
      (congrArg Prod.fst ((debugTurn_free hholds').trans (challengeWork_of_starting hrom' hfw' hopen hstarting))),
      by simp, rfl⟩
  case blown =>
    exact ⟨_, exec_debug_lands (exec_debugChallenge _ s)
      (congrArg Prod.snd ((debugTurn_free hholds).trans (challengeWork_of_disabled hrom hfw hblown)))
      (congrArg Prod.fst ((debugTurn_free hholds').trans (challengeWork_of_disabled hrom' hfw' hblown))),
      by simp [State.debugAnswer], rfl⟩
  case accepted =>
    exact ⟨_, exec_debug_lands (exec_debugUnlock _ token s)
      (congrArg Prod.snd ((debugTurn_free hholds).trans (unlockWork_of_accepted hrom hfw hgood hopen)))
      (congrArg Prod.fst ((debugTurn_free hholds').trans (unlockWork_of_accepted hrom' hfw' hgood hopen))), rfl, rfl,
      by simp [State.debugAnswer]⟩
  case refused =>
    exact ⟨_, exec_debug_lands (exec_debugUnlock _ token s)
      (congrArg Prod.snd ((debugTurn_free hholds).trans (unlockWork_of_refused hrom hfw hbad)))
      (congrArg Prod.fst ((debugTurn_free hholds').trans (unlockWork_of_refused hrom' hfw' hbad))), rfl, rfl,
      by simp [State.debugAnswer]⟩

/-! ### Packets of the debug port -/

/-- The work of DBG_ACCESS on a whole packet at a level that allows reads. -/
def packetWork (head : NarrowWord) (packet : DebugPacket) (s : State) : State × Dbg :=
  let d := { s.dbg with ir := .dbgAccess, refused := false, dr := 0, held := none }
  let h := NarrowHead.ofWord head.bits
  match s.debugRead packet with
  | some w =>
    if h.col = 127 then ({ s with free := s.free + 1 }, { d with dr := (Config.debugWord (2 ^ 43 + h.die) s.free).toNat })
    else if s.readWaits packet then (s, { d with held := some packet })
    else ({ s with free := s.free + 1 }, { d with dr := w.toNat })
  | none =>
    if s.dbg.level ≠ 2 then (s, d)
    else
      match packet with
      | .writeArray c w v =>
        if (s.engine c.die).pattern.isSome || decide (8 ≤ c.die) || decide (6144 ≤ w) then (s, d)
        else
          let at_ := h.reaches c
          let rest := s.grid.scratch.filter fun x => !(at_.contains x.1 && x.2.1 == w)
          ({ s with grid := { s.grid with scratch := rest ++ at_.map fun c => (c, w, v) } }, d)
      | .halt active => (s, if active then d else { d with halted := true })
      | .stepCore active => (s, if active || !d.halted then d else { d with stepped := d.stepped + 1 })
      | _ => (s, d)

theorem exec_dbgAccess (head source : NarrowWord) (packet : DebugPacket) (s : State) :
    exec (.dbgAccess head source packet) s = .next (s.runDebug fun s =>
      if !s.tapUp then (s, s.dbg)
      else if !s.live || s.dbg.level == 0 || !debugWhole head source packet then
        (s, { s.dbg with ir := .dbgAccess, refused := false, dr := 0, held := none })
      else packetWork head packet s) := rfl

/-- A whole packet at a level that allows reads is carried out. -/
theorem dbgAccess_lands {s u : State} {head source : NarrowWord} {packet : DebugPacket} {d : Dbg} (hlive : s.live = true)
    (hup : s.tapUp = true) (hlevel : 1 ≤ s.dbg.level) (hwhole : debugWhole head source packet = true)
    (hlock : (packetWork head packet s).2 = d) (hstate : (packetWork head packet { s with ops := [] }).1 = u) :
    exec (.dbgAccess head source packet) s = .next { s.run fun _ => u with dbg := d } := by
  have hskip : (!s.live || s.dbg.level == 0 || !debugWhole head source packet) = false := by
    rw [hlive, hwhole, beq_eq_false_iff_ne.mpr (Nat.one_le_iff_ne_zero.mp hlevel)]
    rfl
  refine exec_debug_lands (exec_dbgAccess head source packet s) ?_ ?_
  · rw [hup, hskip]
    exact hlock
  · have hup' : ({ s with ops := [] } : State).tapUp = true := hup
    have hskip' : (!({ s with ops := [] } : State).live || ({ s with ops := [] } : State).dbg.level == 0
        || !debugWhole head source packet) = false := hskip
    rw [hup', hskip']
    exact hstate

/-- A core that a whole packet names is among those it reaches. -/
theorem mem_reaches {h : NarrowHead} {c : CoreAt} {w : Nat} {v : DWord} (hnames : h.names (.writeArray c w v) = true)
    (hwf : c.wf = true) : c ∈ h.reaches c := by
  simp only [NarrowHead.names, Bool.and_eq_true, beq_iff_eq] at hnames
  simp only [CoreAt.wf, Bool.and_eq_true, decide_eq_true_eq] at hwf
  obtain ⟨⟨-, hcol⟩, hrow⟩ := hwf
  unfold NarrowHead.reaches
  split
  · simp only [List.mem_flatMap, List.mem_range, List.mem_map]
    exact ⟨c.col, by omega, c.row, hrow, by rw [hnames.1]⟩
  · exact List.mem_singleton_self c

/-- The word last written to a core of a written set is the one that is found. -/
theorem find?_scratch {cs : List CoreAt} {c : CoreAt} (hc : c ∈ cs) (w : Nat) (v : DWord) (old : List (CoreAt × Nat × DWord)) :
    ((old.filter fun x => !(cs.contains x.1 && x.2.1 == w)) ++ cs.map fun c => (c, w, v)).find? (fun x => x.1 == c && x.2.1 == w)
      = some (c, w, v) := by
  have hold : (old.filter fun x => !(cs.contains x.1 && x.2.1 == w)).find? (fun x => x.1 == c && x.2.1 == w) = none := by
    rw [List.find?_eq_none]
    intro x hx hfound
    have hkept := (List.mem_filter.mp hx).2
    simp only [Bool.and_eq_true, beq_iff_eq] at hfound
    obtain ⟨rfl, hw⟩ := hfound
    simp [hc, hw] at hkept
  rw [List.find?_append, hold, Option.none_or]
  induction cs with
  | nil => cases hc
  | cons d ds ih =>
    by_cases hd : d = c
    · subst hd
      simp
    · have hc' : c ∈ ds := (List.mem_cons.mp hc).resolve_left (Ne.symm hd)
      simp only [List.map_cons]
      rw [List.find?_cons_of_neg (by simp [hd])]
      simp only [List.find?_map, Option.map_eq_some_iff, Function.comp_def]
      refine ⟨c, ?_, rfl⟩
      simp only [beq_self_eq_true, Bool.and_true]
      have hsome : (ds.find? fun x => x == c).isSome := by simp [hc']
      obtain ⟨x, hx⟩ := Option.isSome_iff_exists.mp hsome
      have hxc : x = c := by simpa using List.find?_some hx
      rw [hx, hxc]

/-- The packets that reach a device out of reset, with the TAP powered (R42, R266, R521). -/
theorem debug_accesses {s : State} {head source : NarrowWord} (hlive : s.live = true) (hup : s.tapUp = true) :
    (∀ (e off : Nat), e < 8 → 1 ≤ s.dbg.level → debugWhole head source (.readWindow e off) = true →
        (NarrowHead.ofWord head.bits).col ≠ 127 →
      ∃ t, exec (.dbgAccess head source (.readWindow e off)) s = .next t ∧ t.dbg.dr = regRead s 1 e off 8 % 2 ^ 64)
    ∧ (∀ (packet : DebugPacket) (w : DWord), 1 ≤ s.dbg.level → debugWhole head source packet = true →
        (NarrowHead.ofWord head.bits).col ≠ 127 → s.debugRead packet = some w →
      ∃ t, exec (.dbgAccess head source packet) s = .next t
        ∧ (s.readWaits packet = false → t.dbg.dr = w.toNat ∧ t.dbg.held = none)
        ∧ (s.readWaits packet = true → t.dbg.held = some packet))
    ∧ (∀ (c : CoreAt) (w : Nat) (v : DWord), s.dbg.level = 2 → debugWhole head source (.writeArray c w v) = true → c.wf = true →
        w < 6144 → (s.engine c.die).pattern = none →
      ∃ t, exec (.dbgAccess head source (.writeArray c w v)) s = .next t
        ∧ (t.grid.scratch.find? fun x => x.1 == c && x.2.1 == w) = some (c, w, v))
    ∧ (s.dbg.level = 2 → debugWhole head source (.halt false) = true →
      ∃ t, exec (.dbgAccess head source (.halt false)) s = .next t ∧ t.dbg.halted = true)
    ∧ (s.dbg.level = 2 → s.dbg.halted = true → debugWhole head source (.stepCore false) = true →
      ∃ t, exec (.dbgAccess head source (.stepCore false)) s = .next t
        ∧ t.dbg.halted = true ∧ t.dbg.stepped = s.dbg.stepped + 1) := by
  refine ⟨fun e off he hlevel hwhole hcol => ⟨_, dbgAccess_lands hlive hup hlevel hwhole rfl rfl, ?window⟩,
    fun packet w hlevel hwhole hcol hread => ⟨_, dbgAccess_lands hlive hup hlevel hwhole rfl rfl, fun hnow => ?now, fun hwaits => ?waits⟩,
    fun c w v hfull hwhole hwf hw hfree => ⟨_, dbgAccess_lands hlive hup (by omega) hwhole rfl rfl, ?write⟩,
    fun hfull hwhole => ⟨_, dbgAccess_lands hlive hup (by omega) hwhole rfl rfl, ?halt⟩,
    fun hfull hhalted hwhole => ⟨_, dbgAccess_lands hlive hup (by omega) hwhole rfl rfl, ?step⟩⟩
  case window => simp [packetWork, State.debugRead, he, hcol, State.readWaits, State.holdsRead]
  case now => simp [packetWork, hread, hcol, hnow]
  case waits => simp [packetWork, hread, hcol, hwaits]
  case write =>
    simp only [debugWhole, Bool.and_eq_true] at hwhole
    obtain ⟨-, hnames⟩ := hwhole
    have hdie : ¬ 8 ≤ c.die := by
      simp only [CoreAt.wf, Bool.and_eq_true, decide_eq_true_eq] at hwf
      omega
    have hgrid : (packetWork head (.writeArray c w v) { s with ops := [] }).1.grid.scratch
        = (s.grid.scratch.filter fun x => !(((NarrowHead.ofWord head.bits).reaches c).contains x.1 && x.2.1 == w))
          ++ ((NarrowHead.ofWord head.bits).reaches c).map fun c => (c, w, v) := by
      simp [packetWork, State.debugRead, hfull, hfree, hdie, Nat.not_le.mpr hw]
    simp only [State.run_grid, hgrid]
    exact find?_scratch (mem_reaches hnames hwf) w v _
  case halt => simp [packetWork, State.debugRead, hfull]
  case step => simp [packetWork, State.debugRead, hfull, hhalted]

/-- No write reaches an engine that holds a pattern, nor any core below FULL (R521). -/
theorem packetWork_grid {s : State} {head : NarrowWord} {c : CoreAt} {w : Nat} {v : DWord}
    (h : (s.engine c.die).pattern.isSome = true ∨ s.dbg.level < 2) : (packetWork head (.writeArray c w v) s).1.grid = s.grid := by
  rcases h with h | h
  · by_cases hlevel : s.dbg.level = 2 <;> simp [packetWork, State.debugRead, hlevel, h]
  · simp [packetWork, State.debugRead, Nat.ne_of_lt h]

/-- Settles O15. -/
theorem debugPortFollowsTheLock : Obligations.DebugPortFollowsTheLock := by
  refine ⟨fun s hrom hfw hholds => debug_unlocks hrom hfw hholds, fun s head source hlive hup => debug_accesses hlive hup,
    fun s head source c w v t hno ht => ?_⟩
  rw [exec_dbgAccess] at ht
  cases ht
  refine (State.run_grid s fun s => _).trans ?_
  dsimp only
  split
  · rfl
  · split
    · rfl
    · exact packetWork_grid (s := { s with ops := [] }) hno

end Sys2Proof.Machine
end

section
/-! SUPPORT. The completion of a mailbox command, and its output words. -/

namespace Sys2Proof.Machine

/-! ### Little-endian numbers -/

theorem bytesLE_append (xs ys : List Byte) : bytesLE (xs ++ ys) = bytesLE xs + 256 ^ xs.length * bytesLE ys := by
  induction xs with
  | nil => simp [bytesLE]
  | cons x xs ih =>
    rw [List.cons_append, bytesLE, bytesLE, ih, List.length_cons, Nat.pow_succ, Nat.mul_add, Nat.add_assoc,
      Nat.mul_comm (256 ^ xs.length) 256, Nat.mul_assoc]

theorem bytesLE_lt (bs : List Byte) : bytesLE bs < 256 ^ bs.length := by
  induction bs with
  | nil => simp [bytesLE]
  | cons b bs ih =>
    have hb : b.toNat < 256 := b.isLt
    rw [bytesLE, List.length_cons, Nat.pow_succ]
    omega

/-- A number written little-endian reads back as its low bytes. -/
theorem bytesLE_toBytesLE (k n : Nat) : bytesLE (toBytesLE k n) = n % 256 ^ k := by
  induction k generalizing n with
  | zero => simp [toBytesLE, bytesLE, Nat.mod_one]
  | succ k ih =>
    rw [toBytesLE, bytesLE, ih, BitVec.toNat_ofNat, show 256 ^ (k + 1) = 256 * 256 ^ k from Nat.pow_succ', Nat.mod_mul]

/-! ### Output words -/

/-- An output word whose argument number no other output names. -/
theorem getD_outs {outs : List (Nat × Nat)} {args : List DWord} {k v : Nat} (hk : k < args.length) (hmem : (k, v) ∈ outs)
    (hnodup : (outs.map Prod.fst).Nodup) :
    (outs.foldl (fun a (o : Nat × Nat) => modifyAt (fun _ => BitVec.ofNat 64 o.2) o.1 a) args).getD k 0 = BitVec.ofNat 64 v := by
  have hstands (outs : List (Nat × Nat)) (args : List DWord) (hnot : k ∉ outs.map Prod.fst) :
      (outs.foldl (fun a (o : Nat × Nat) => modifyAt (fun _ => BitVec.ofNat 64 o.2) o.1 a) args).getD k 0 = args.getD k 0 := by
    induction outs generalizing args with
    | nil => rfl
    | cons o outs ih =>
      simp only [List.map_cons, List.mem_cons, not_or] at hnot
      rw [List.foldl_cons, ih _ hnot.2, getD_modifyAt_ne hnot.1]
  induction outs generalizing args with
  | nil => cases hmem
  | cons o outs ih =>
    obtain ⟨hnew, hrest⟩ := List.nodup_cons.mp hnodup
    rcases List.mem_cons.mp hmem with rfl | hmem
    · rw [List.foldl_cons, hstands _ _ hnew, getD_modifyAt_same hk]
    · rw [List.foldl_cons, ih (by simpa using hk) hmem hrest]

/-- A word of a sideband answer. -/
theorem replyWords_getD {outs : List (Nat × Nat)} {k v : Nat} (hmem : (k, v) ∈ outs) (hnodup : (outs.map Prod.fst).Nodup) :
    (replyWords outs).getD k 0 = BitVec.ofNat 64 v := by
  have hlen : k < outs.foldl (fun m (o : Nat × Nat) => max m (o.1 + 1)) 0 := by
    have hmono (outs : List (Nat × Nat)) (m : Nat) : m ≤ outs.foldl (fun m (o : Nat × Nat) => max m (o.1 + 1)) m := by
      induction outs generalizing m with
      | nil => exact Nat.le_refl m
      | cons o outs ih => exact Nat.le_trans (Nat.le_max_left _ _) (ih _)
    have hbound (m : Nat) : k < outs.foldl (fun m (o : Nat × Nat) => max m (o.1 + 1)) m := by
      clear hnodup
      induction outs generalizing m with
      | nil => cases hmem
      | cons o outs ih =>
        rcases List.mem_cons.mp hmem with rfl | hmem
        · exact Nat.lt_of_lt_of_le (Nat.le_max_right _ _) (hmono outs _)
        · exact ih hmem _
    exact hbound 0
  have hfind : outs.find? (fun o => o.1 == k) = some (k, v) := by
    clear hlen
    induction outs with
    | nil => cases hmem
    | cons o outs ih =>
      obtain ⟨hnew, hrest⟩ := List.nodup_cons.mp hnodup
      rcases List.mem_cons.mp hmem with rfl | hmem
      · simp
      · have hne : (o.1 == k) = false := by
          rw [beq_eq_false_iff_ne]
          rintro rfl
          exact hnew (List.mem_map.mpr ⟨_, hmem, rfl⟩)
        rw [List.find?_cons_of_neg (by simp [hne]), ih hmem hrest]
  simp [replyWords, List.getD_eq_getElem?_getD, List.getElem?_map, List.getElem?_range hlen, hfind]

/-! ### What a completion leaves -/

section
variable (s : State) (result : Nat) (outs : List (Nat × Nat))

@[simp] theorem State.finishMailbox_nv : (s.finishMailbox result outs).nv = s.nv :=
  State.finishMailbox_of_signal State.signal_nv s result outs

@[simp] theorem State.finishMailbox_rng : (s.finishMailbox result outs).rng = s.rng :=
  State.finishMailbox_of_signal State.signal_rng s result outs

@[simp] theorem State.finishMailbox_cnt : (s.finishMailbox result outs).cnt = s.cnt :=
  State.finishMailbox_of_signal State.signal_cnt s result outs

@[simp] theorem State.finishMailbox_nl : (s.finishMailbox result outs).nl = s.nl :=
  State.finishMailbox_of_signal State.signal_nl s result outs

@[simp] theorem State.finishMailbox_dram : (s.finishMailbox result outs).dram = s.dram :=
  State.finishMailbox_of_signal State.signal_dram s result outs

@[simp] theorem State.finishMailbox_pow : (s.finishMailbox result outs).pow = s.pow :=
  State.finishMailbox_of_signal State.signal_pow s result outs

@[simp] theorem State.finishMailbox_log : (s.finishMailbox result outs).log = s.log :=
  State.finishMailbox_of_signal State.signal_log s result outs

@[simp] theorem State.finishMailbox_sb : (s.finishMailbox result outs).sb = s.sb :=
  State.finishMailbox_of_signal State.signal_sb s result outs

@[simp] theorem State.finishMailbox_mem : (s.finishMailbox result outs).mem = s.mem :=
  State.finishMailbox_of_signal State.signal_mem s result outs

@[simp] theorem State.finishMailbox_free : (s.finishMailbox result outs).free = s.free :=
  State.finishMailbox_of_signal State.signal_free s result outs

@[simp] theorem State.finishMailbox_aperture : (s.finishMailbox result outs).host.aperture = s.host.aperture :=
  State.finishMailbox_of_signal (view := (·.host.aperture)) (by simp) s result outs

@[simp] theorem State.finishMailbox_session : (s.finishMailbox result outs).host.session = s.host.session :=
  State.finishMailbox_of_signal (view := (·.host.session)) (by simp) s result outs

@[simp] theorem State.finishMailbox_cookie : (s.finishMailbox result outs).host.cookie = s.host.cookie :=
  State.finishMailbox_of_signal (view := (·.host.cookie)) (by simp) s result outs

@[simp] theorem State.finishMailbox_mbxArgs : (s.finishMailbox result outs).host.mbxArgs
    = outs.foldl (fun a o => modifyAt (fun _ => BitVec.ofNat 64 o.2) o.1 a) s.host.mbxArgs :=
  State.finishMailbox_of_signal (view := (·.host.mbxArgs)) (by simp) s result outs

/-- An output word of a completed command. -/
theorem outWord_finishMailbox {k v : Nat} (hk : k < s.host.mbxArgs.length) (hmem : (k, v) ∈ outs) (hnodup : (outs.map Prod.fst).Nodup) :
    outWord (s.finishMailbox result outs) k = v % 2 ^ 64 := by
  rw [outWord, State.finishMailbox_mbxArgs, getD_outs hk hmem hnodup, BitVec.toNat_ofNat]
end

theorem outWord_run (s : State) (f : State → State) (k : Nat) : outWord (s.run f) k = outWord (f { s with ops := [] }) k := by
  rw [outWord, State.run_host]
  rfl

/-- An admin command that needs no session. -/
theorem admin_of_adminHolds {s : State} {op : Nat} (h : s.adminHolds op = true) (hfree : needsSession op = false) (f : State → CmdWork) :
    s.admin op f = (f s).2.2.finishMailbox (f s).1 (f s).2.1 := by
  simp [State.admin, h, hfree]

theorem adminHolds_of_holdsCommand {s : State} {op : Nat} (h : holdsCommand s op) : s.adminHolds op = true := h.1

/-- The command that the mailbox holds, as its rows find it: opcode's own row, session or none. -/
theorem command_admin {s : State} {i : Via → Instr} {op : Nat} {mine : (Nat → Nat) → Bool} {f : (Nat → Nat) → State → CmdWork}
    (hmine : mine s.arg = true) : s.command .admin i op mine f = s.admin op (f s.arg) := if_pos hmine

/-- A completed command answers with its RESULT and TAG (R359). -/
theorem answered_run {s u : State} {result : Nat} {outs : List (Nat × Nat)} (hcmd : u.host.mbxCmd = s.host.mbxCmd) :
    answered s (s.run fun _ => u.finishMailbox result outs) result := by
  simp [answered, hcmd]

end Sys2Proof.Machine
end

section
/-! SUPPORT. What announcing on Nuthes Link moves. -/

namespace Sys2Proof.Machine

/-- Only the ports, the book of what has been flooded, the own sequence number, the root and the note of a clash move. -/
def Relinks (s t : State) : Prop :=
  ∃ ports flooded sequence root clashed,
    t = { s with nl := { s.nl with ports := ports, flooded := flooded, sequence := sequence, root := root, clashed := clashed } }

theorem Relinks.refl (s : State) : Relinks s s := ⟨_, _, _, _, _, rfl⟩

theorem Relinks.trans {s t u : State} (h : Relinks s t) (k : Relinks t u) : Relinks s u := by
  obtain ⟨_, _, _, _, _, rfl⟩ := h
  obtain ⟨_, _, _, _, _, rfl⟩ := k
  exact ⟨_, _, _, _, _, rfl⟩

theorem Relinks.ite {c : Prop} [Decidable c] {s t u : State} (ht : Relinks s t) (hu : Relinks s u) : Relinks s (if c then t else u) := by
  split
  · exact ht
  · exact hu

theorem Relinks.foldl {α : Type} {f : State → α → State} (h : ∀ s x, Relinks s (f s x)) (xs : List α) (s : State) :
    Relinks s (xs.foldl f s) := by
  induction xs generalizing s with
  | nil => exact .refl s
  | cons x xs ih => exact (h s x).trans (ih _)

theorem relinks_setPort (s : State) (i : Nat) (f : Port → Port) : Relinks s (s.setPort i f) := ⟨_, _, _, _, _, rfl⟩

theorem relinks_sendControl (s : State) (i : Nat) (m : PeerMsg) : Relinks s (s.sendControl i m) := relinks_setPort s i _

theorem relinks_flood (s : State) (except : Option Nat) (m : PeerMsg) : Relinks s (s.flood except m) := by
  unfold State.flood
  dsimp only
  split
  · exact Relinks.trans ⟨_, _, _, _, _, rfl⟩ (.foldl (fun s i => relinks_sendControl s i m) _ _)
  · exact .foldl (fun s i => relinks_sendControl s i m) _ _

theorem relinks_forward (s : State) (port : Nat) (m : PeerMsg) : Relinks s (s.forward port m) := by
  unfold State.forward
  split
  · exact .ite (.refl s) (relinks_flood s _ m)
  · exact .refl s

theorem relinks_announce (s : State) : Relinks s s.announce :=
  .ite (Relinks.trans ⟨_, _, _, _, _, rfl⟩ (relinks_flood _ _ _)) ⟨_, _, _, _, _, rfl⟩

theorem relinks_levelPorts (s : State) : Relinks s s.levelPorts :=
  .ite (Relinks.trans ⟨_, _, _, _, _, rfl⟩ (relinks_announce _)) ⟨_, _, _, _, _, rfl⟩

theorem relinks_sendLink (s : State) (i : Nat) : Relinks s (s.sendLink i) := relinks_sendControl s i _

theorem relinks_keepRoot (s : State) : Relinks s s.keepRoot := by
  unfold State.keepRoot
  dsimp only
  split
  · exact ⟨_, _, _, _, _, rfl⟩
  · exact .ite (.refl s) ⟨_, _, _, _, _, rfl⟩
  · exact .ite ⟨_, _, _, _, _, rfl⟩ (.refl s)

/-- The messages that follow a new node number (R282). -/
theorem relinks_renumber (s : State) :
    Relinks s ((List.range 4).foldl (fun s i => if 3 ≤ (s.port i).state ∧ (s.port i).state ≤ 4 then s.sendLink i else s)
      s.levelPorts.announce).keepRoot :=
  (((relinks_levelPorts s).trans (relinks_announce _)).trans
    (.foldl (fun s i => .ite (relinks_sendLink s i) (.refl s)) _ _)).trans (relinks_keepRoot _)

end Sys2Proof.Machine
end

section
/-! SUPPORT. The commands of the mailbox that read and that set. -/

namespace Sys2Proof.Machine

/-! ### Landing -/

/-- An admin command that needs no session, carried out by its own work. -/
theorem admin_lands {c : Instr} {s u : State} {op result : Nat} {outs : List (Nat × Nat)} {i : Via → Instr} {mine : (Nat → Nat) → Bool}
    {f : (Nat → Nat) → State → CmdWork} (hexec : exec c s = .next (s.run fun s => s.command .admin i op mine f))
    (hholds : s.adminHolds op = true) (hfree : needsSession op = false) (hmine : mine s.arg = true)
    (hf : f s.arg { s with ops := [] } = (result, outs, u)) : exec c s = .next (s.run fun _ => u.finishMailbox result outs) := by
  refine exec_lands hexec ?_
  have hmine' : mine ({ s with ops := [] } : State).arg = true := hmine
  have hf' : f ({ s with ops := [] } : State).arg { s with ops := [] } = (result, outs, u) := hf
  have hholds' : ({ s with ops := [] } : State).adminHolds op = true := hholds
  rw [command_admin hmine', admin_of_adminHolds hholds' hfree, hf']

/-- The same in a session. -/
theorem session_lands {c : Instr} {s u : State} {op result : Nat} {outs : List (Nat × Nat)}
    {f : State → CmdWork} (hexec : exec c s = .next (s.run fun s => s.admin op f)) (hholds : holdsCommand s op)
    (hf : f { s with ops := [] } = (result, outs, u)) : exec c s = .next (s.run fun _ => u.finishMailbox result outs) := by
  refine exec_lands hexec ?_
  have hholds' : holdsCommand { s with ops := [] } op := hholds
  rw [State.admin_of_holdsCommand hholds', hf]

/-- What a command of the mailbox that reads leaves: all but the mailbox. -/
def OnlyMailbox (s t : State) : Prop :=
  t.q = s.q ∧ t.grid = s.grid ∧ t.mem = s.mem ∧ t.dram = s.dram ∧ t.nl = s.nl ∧ sameControl s t ∧ samePlant s t ∧ t.rng = s.rng

theorem reads_leave {s u : State} {result : Nat} {outs : List (Nat × Nat)} {n : Nat} (hu : u = { s with ops := [], free := n }) :
    OnlyMailbox s (s.run fun _ => u.finishMailbox result outs) := by
  subst hu
  have hmem : (s.run fun _ => State.finishMailbox { s with ops := [], free := n } result outs).mem = s.mem :=
    State.run_mem_same s _ (by simp)
  have hnv : (s.run fun _ => State.finishMailbox { s with ops := [], free := n } result outs).nv = s.nv := State.run_nv_same s _ (by simp)
  exact ⟨by simp, by simp, hmem, by simp, by simp, ⟨by simp, hnv, by simp, by simp⟩, ⟨by simp, by simp, by simp⟩, by simp⟩

theorem outWord_lands {s u : State} {result : Nat} {outs : List (Nat × Nat)} {k v : Nat} (hargs : u.host.mbxArgs = s.host.mbxArgs)
    (hlen : s.host.mbxArgs.length = 8) (hk : k < 8) (hmem : (k, v) ∈ outs) (hnodup : (outs.map Prod.fst).Nodup) :
    outWord (s.run fun _ => u.finishMailbox result outs) k = v % 2 ^ 64 := by
  rw [outWord_run, outWord_finishMailbox u result outs (by rw [hargs, hlen]; exact hk) hmem hnodup]

/-! ### The words of the reads -/

/-- The first information word: straps at bit 16, the session at bit 32 (R361). -/
theorem infoWord_fields {version straps node level rest : Nat} {session mirrored mirror fast clash : Bool}
    (hversion : version < 2 ^ 16) (hstraps : straps < 2 ^ 8)
    (hrest : rest = version + straps * 2 ^ 16 + node % 256 * 2 ^ 24 + bit session * 2 ^ 32 + bit mirrored * 2 ^ 33 + bit mirror * 2 ^ 34
      + bit fast * 2 ^ 35 + level % 4 * 2 ^ 36 + bit clash * 2 ^ 38) :
    natBits (rest % 2 ^ 64) 16 8 = straps ∧ (natBit (rest % 2 ^ 64) 32 = true ↔ session = true) := by
  have hbit (b : Bool) : bit b = if b then 1 else 0 := rfl
  have hle (b : Bool) : bit b ≤ 1 := by cases b <;> decide
  have h1 := hle mirrored
  have h2 := hle mirror
  have h3 := hle fast
  have h4 := hle clash
  have h5 := hle session
  constructor
  · simp only [natBits]
    omega
  · have hfield : rest % 2 ^ 64 / 2 ^ 32 % 2 = bit session := by omega
    rw [natBit, hfield]
    cases session <;> simp [bit]

theorem wordsOf_entry (e : LogEntry) : ∃ w2 w3, wordsOf e.encode = [e.stitch % 2 ^ 64, e.number % 2 ^ 64, w2, w3] := by
  refine ⟨bytesLE ((e.encode.drop 16).take 8), bytesLE ((e.encode.drop 24).take 8), ?_⟩
  have hwords : wordsOf e.encode = [bytesLE (toBytesLE 8 e.stitch), bytesLE (toBytesLE 8 e.number),
    bytesLE ((e.encode.drop 16).take 8), bytesLE ((e.encode.drop 24).take 8)] := rfl
  rw [hwords, bytesLE_toBytesLE, bytesLE_toBytesLE]
  norm_num

theorem wordsOf_bytes (n : Nv) (a : Nat) :
    ∃ w1 w2 w3, wordsOf (n.bytes a 32) = [bytesLE (n.bytes a 8), w1, w2, w3] := ⟨_, _, _, rfl⟩

theorem bytes_lt (n : Nv) (a : Nat) : bytesLE (n.bytes a 8) < 2 ^ 64 := by
  have h := bytesLE_lt (n.bytes a 8)
  simpa [Nv.bytes, cellReadList] using h

theorem packageWord_high (power mv : Nat) : (power % 2 ^ 32 + mv * 2 ^ 32) % 2 ^ 64 / 2 ^ 32 = mv % 2 ^ 32 := by omega

theorem powerRead_lands {s : State} (hholds : s.adminHolds 0x0501 = true) : ∃ power w1 w2 w3 : Nat,
    exec (.powerRead .admin) s = .next (s.run fun _ => State.finishMailbox { s with ops := [], free := s.free + 1 } 0
      [(0, power % 2 ^ 32 + s.pow.vddMv * 2 ^ 32), (1, w1), (2, w2), (3, w3), (4, s.pow.threshold)]) :=
  ⟨packagePower { s with ops := [] }, _, _, _, admin_lands rfl hholds rfl rfl rfl⟩

/-! ### The commands that read -/

section
variable {s : State} (hlen : s.host.mbxArgs.length = 8)
include hlen

theorem getInfo_answers (hholds : s.adminHolds 0x0001 = true) : ∃ t, exec (.getInfo .admin) s = .next t ∧ answered s t 0
    ∧ outWord t 1 = s.mem.top % 2 ^ 64 ∧ natBits (outWord t 0) 16 8 = s.boot.straps.toNat
    ∧ (natBit (outWord t 0) 32 = true ↔ s.host.session = true) ∧ OnlyMailbox s t := by
  refine ⟨_, admin_lands rfl hholds rfl rfl rfl, answered_run rfl, outWord_lands rfl hlen (by decide) (List.mem_cons_of_mem _ List.mem_cons_self)
    (by simp), ?_⟩
  rw [outWord_lands (s := s) (u := { s with ops := [] }) rfl hlen (by decide) List.mem_cons_self (by simp)]
  obtain ⟨hstraps, hsession⟩ := infoWord_fields (version := match s.fw.running with | some i => i.major % 256 + i.minor % 256 * 2 ^ 8 | none => 0)
    (node := s.nodeCode) (level := s.dbg.level) (session := s.host.session) (mirrored := s.dram.mirrored) (mirror := s.nv.mirrorWord)
    (fast := s.pow.fastOk) (clash := !s.clashes.isEmpty) (by split <;> omega) s.boot.straps.isLt rfl
  exact ⟨hstraps, hsession, reads_leave rfl⟩

theorem fwStatus_answers (hholds : s.adminHolds 0x0402 = true) : ∃ t, exec (.fwStatus .admin) s = .next t ∧ answered s t 0
    ∧ (∀ i, s.fw.running = some i → outWord t 1 = i.build % 2 ^ 64) ∧ (s.fw.window = none → outWord t 4 = 0) ∧ OnlyMailbox s t := by
  refine ⟨_, admin_lands rfl hholds rfl rfl rfl, answered_run rfl, fun i hi => ?_, fun hwindow => ?_, reads_leave rfl⟩
  · exact outWord_lands rfl hlen (by decide) (by simp [fwStatusWords, hi]) (by simp [fwStatusWords])
  · exact outWord_lands (v := 0) rfl hlen (by decide) (by simp [fwStatusWords, hwindow]) (by simp [fwStatusWords])

theorem rngStatus_answers (hholds : s.adminHolds 0x0411 = true) : ∃ t, exec (.rngStatus .admin) s = .next t ∧ answered s t 0
    ∧ outWord t 1 = s.rng.failures % 2 ^ 64 ∧ outWord t 2 = s.rng.reseeds % 2 ^ 64 ∧ outWord t 3 = s.rng.bytes % 2 ^ 64
    ∧ outWord t 4 = s.rng.lastFail % 2 ^ 64 ∧ OnlyMailbox s t := by
  refine ⟨_, admin_lands rfl hholds rfl rfl rfl, answered_run rfl, ?_, ?_, ?_, ?_, reads_leave rfl⟩ <;>
    exact outWord_lands rfl hlen (by decide) (by simp) (by simp)

theorem powerRead_answers (hholds : s.adminHolds 0x0501 = true) : ∃ t, exec (.powerRead .admin) s = .next t ∧ answered s t 0
    ∧ outWord t 0 / 2 ^ 32 = s.pow.vddMv % 2 ^ 32 ∧ outWord t 4 = s.pow.threshold % 2 ^ 64 ∧ OnlyMailbox s t := by
  obtain ⟨power, w1, w2, w3, hpower⟩ := powerRead_lands hholds
  refine ⟨_, hpower, answered_run rfl, ?_, ?_, reads_leave rfl⟩
  · rw [outWord_lands (s := s) (u := { s with ops := [], free := s.free + 1 }) rfl hlen (by decide) List.mem_cons_self (by simp)]
    exact packageWord_high power s.pow.vddMv
  · exact outWord_lands rfl hlen (by decide) (by simp) (by simp)

theorem faultLogRead_answers {e : LogEntry} (hholds : s.adminHolds 0x0301 = true) (harg : s.arg 0 < 2 ^ 32)
    (he : s.log.entries.find? (fun x => x.number == s.arg 0) = some e) : ∃ t, exec (.faultLogRead .admin) s = .next t ∧ answered s t 0
    ∧ outWord t 0 = e.stitch % 2 ^ 64 ∧ outWord t 1 = e.number % 2 ^ 64 ∧ outWord t 4 = s.log.appended % 2 ^ 64 ∧ OnlyMailbox s t := by
  obtain ⟨w2, w3, hwords⟩ := wordsOf_entry e
  have hentry : entryWords e.encode = [(0, e.stitch % 2 ^ 64), (1, e.number % 2 ^ 64), (2, w2), (3, w3)] := by rw [entryWords, hwords]; rfl
  refine ⟨_, admin_lands (result := 0) (u := { s with ops := [] })
    (outs := [(0, e.stitch % 2 ^ 64), (1, e.number % 2 ^ 64), (2, w2), (3, w3)] ++ faultCounts s) rfl hholds rfl
    (by simp; omega) ?_, answered_run rfl, ?_, ?_, ?_, reads_leave rfl⟩
  · rw [if_neg (Nat.not_le.mpr harg)]
    simp only [he, hentry]
    rfl
  · exact (outWord_lands (s := s) (u := { s with ops := [] }) (v := e.stitch % 2 ^ 64) rfl hlen (by decide) (by simp) (by simp [faultCounts])).trans (Nat.mod_mod _ _)
  · exact (outWord_lands (s := s) (u := { s with ops := [] }) (v := e.number % 2 ^ 64) rfl hlen (by decide) (by simp) (by simp [faultCounts])).trans (Nat.mod_mod _ _)
  · exact outWord_lands rfl hlen (by decide) (by simp [faultCounts]) (by simp [faultCounts])

omit hlen in
theorem faultLogRead_missing (hholds : s.adminHolds 0x0301 = true) (harg : s.arg 0 < 2 ^ 32) (hnone : ∀ e ∈ s.log.entries, e.number ≠ s.arg 0) :
    ∃ t, exec (.faultLogRead .admin) s = .next t ∧ answered s t 2 ∧ OnlyMailbox s t := by
  have hfind : s.log.entries.find? (fun e => e.number == s.arg 0) = none := by simpa using hnone
  refine ⟨_, admin_lands (result := 2) (outs := []) (u := { s with ops := [] }) rfl hholds rfl (by simp; omega) ?_, answered_run rfl,
    reads_leave rfl⟩
  rw [if_neg (Nat.not_le.mpr harg)]
  simp only [hfind]

theorem faultRecordRead_answers {k : Nat} (hholds : s.adminHolds 0x0301 = true) (harg : s.arg 0 = 2 ^ 32 + k)
    (hk : k < min s.nv.recordCount 64) : ∃ t, exec (.faultRecordRead .admin) s = .next t ∧ answered s t 0
    ∧ outWord t 0 = bytesLE (s.nv.bytes (0x3000 + 32 * k) 8) ∧ outWord t 5 = s.nv.recordCount % 2 ^ 64 ∧ OnlyMailbox s t := by
  have hindex : s.arg 0 % 2 ^ 32 = k := by omega
  obtain ⟨w1, w2, w3, hwords⟩ := wordsOf_bytes s.nv (0x3000 + 32 * k)
  have hentry : entryWords (s.nv.bytes (0x3000 + 32 * k) 32)
      = [(0, bytesLE (s.nv.bytes (0x3000 + 32 * k) 8)), (1, w1), (2, w2), (3, w3)] := by rw [entryWords, hwords]; rfl
  refine ⟨_, admin_lands (result := 0) (u := { s with ops := [] })
    (outs := [(0, bytesLE (s.nv.bytes (0x3000 + 32 * k) 8)), (1, w1), (2, w2), (3, w3)] ++ faultCounts s) rfl hholds rfl (by simp; omega) ?_, answered_run rfl, ?_, ?_, reads_leave rfl⟩
  · dsimp only
    rw [hindex, if_neg (by omega), recordBase, hentry]
    rfl
  · exact (outWord_lands (s := s) (u := { s with ops := [] }) (v := bytesLE (s.nv.bytes (0x3000 + 32 * k) 8)) rfl hlen (by decide) (by simp) (by simp [faultCounts])).trans
      (Nat.mod_eq_of_lt (bytes_lt s.nv _))
  · exact outWord_lands rfl hlen (by decide) (by simp [faultCounts]) (by simp [faultCounts])

end

/-- Settles O30: each read's words come from the state it finds, and only the mailbox moves. -/
theorem mailboxReadsAnswerFromTheState : Obligations.MailboxReadsAnswerFromTheState := by
  intro s hlen same
  exact ⟨getInfo_answers hlen, fwStatus_answers hlen, rngStatus_answers hlen, powerRead_answers hlen,
    fun _ => faultLogRead_answers hlen, faultLogRead_missing, fun _ => faultRecordRead_answers hlen⟩

end Sys2Proof.Machine
end

section
/-! SUPPORT. Waking the memory channels, fresh lines, and the commands of the mailbox that set. -/

namespace Sys2Proof.Machine

/-! ### Waking the channels -/

/-- Only the memory channels and the power domains move. -/
def Wakes (s t : State) : Prop :=
  ∃ channels domains, t = { s with dram := { s.dram with channels := channels }, pow := { s.pow with domains := domains } }

theorem wakes_wakeChannels (s : State) : Wakes s s.wakeChannels := by
  have h (cs : List Nat) (s : State) : Wakes s (cs.foldl (fun s c =>
      if (s.channel c).state = 3 then
        (s.setChannel c fun ch => { ch with state := 2 }).setDomain (98 + c) fun d => { d with state := 2, wakes := (d.wakes + 1) % 2 ^ 32 }
      else s) s) := by
    induction cs generalizing s with
    | nil => exact ⟨_, _, rfl⟩
    | cons c cs ih =>
      obtain ⟨_, _, hu⟩ := ih (if (s.channel c).state = 3 then
        (s.setChannel c fun ch => { ch with state := 2 }).setDomain (98 + c) fun d => { d with state := 2, wakes := (d.wakes + 1) % 2 ^ 32 }
        else s)
      rw [List.foldl_cons, hu]
      split
      · exact ⟨_, _, rfl⟩
      · exact ⟨_, _, rfl⟩
  exact h _ s

section
variable (s : State)

@[simp] theorem State.wakeChannels_mem : s.wakeChannels.mem = s.mem := by obtain ⟨_, _, h⟩ := wakes_wakeChannels s; rw [h]
@[simp] theorem State.wakeChannels_ops : s.wakeChannels.ops = s.ops := by obtain ⟨_, _, h⟩ := wakes_wakeChannels s; rw [h]
@[simp] theorem State.wakeChannels_host : s.wakeChannels.host = s.host := by obtain ⟨_, _, h⟩ := wakes_wakeChannels s; rw [h]
@[simp] theorem State.wakeChannels_q : s.wakeChannels.q = s.q := by obtain ⟨_, _, h⟩ := wakes_wakeChannels s; rw [h]
@[simp] theorem State.wakeChannels_grid : s.wakeChannels.grid = s.grid := by obtain ⟨_, _, h⟩ := wakes_wakeChannels s; rw [h]
@[simp] theorem State.wakeChannels_nl : s.wakeChannels.nl = s.nl := by obtain ⟨_, _, h⟩ := wakes_wakeChannels s; rw [h]
@[simp] theorem State.wakeChannels_nv : s.wakeChannels.nv = s.nv := by obtain ⟨_, _, h⟩ := wakes_wakeChannels s; rw [h]
@[simp] theorem State.wakeChannels_rng : s.wakeChannels.rng = s.rng := by obtain ⟨_, _, h⟩ := wakes_wakeChannels s; rw [h]
@[simp] theorem State.wakeChannels_fw : s.wakeChannels.fw = s.fw := by obtain ⟨_, _, h⟩ := wakes_wakeChannels s; rw [h]
@[simp] theorem State.wakeChannels_log : s.wakeChannels.log = s.log := by obtain ⟨_, _, h⟩ := wakes_wakeChannels s; rw [h]
@[simp] theorem State.wakeChannels_cnt : s.wakeChannels.cnt = s.cnt := by obtain ⟨_, _, h⟩ := wakes_wakeChannels s; rw [h]
@[simp] theorem State.wakeChannels_out : s.wakeChannels.out = s.out := by obtain ⟨_, _, h⟩ := wakes_wakeChannels s; rw [h]
@[simp] theorem State.wakeChannels_free : s.wakeChannels.free = s.free := by obtain ⟨_, _, h⟩ := wakes_wakeChannels s; rw [h]
@[simp] theorem State.wakeChannels_boot : s.wakeChannels.boot = s.boot := by obtain ⟨_, _, h⟩ := wakes_wakeChannels s; rw [h]
@[simp] theorem State.wakeChannels_sb : s.wakeChannels.sb = s.sb := by obtain ⟨_, _, h⟩ := wakes_wakeChannels s; rw [h]
@[simp] theorem State.wakeChannels_map : s.wakeChannels.dram.map = s.dram.map := by obtain ⟨_, _, h⟩ := wakes_wakeChannels s; rw [h]
end

/-! ### One DRAM operation in a command -/

/-- A command that makes one DRAM operation. -/
theorem run_mem_one {s u : State} {op : MemOp} (h : u.ops = [op]) : (s.run fun _ => u).mem = s.mem.apply op := by
  rw [State.run_mem, h]
  rfl

/-! ### Fresh lines -/

theorem Mem.byte_of_no_entry {m : Mem} {a : Nat} (h : m.entry (a / 64) = none) : m.byte a = cellRead 0 m.cells a := by
  simp [Mem.byte, h]

theorem Mem.byte_congr {m m' : Mem} {a : Nat} (hentry : m'.entry (a / 64) = m.entry (a / 64))
    (hcell : cellRead 0 m'.cells a = cellRead 0 m.cells a) : m'.byte a = m.byte a := by
  rw [Mem.byte, Mem.byte, hentry, hcell]

/-- The merge entry of a line, where only lines that pass a test keep theirs. -/
theorem entry_filter (merge : List MergeEntry) (p : Nat → Bool) (line : Nat) :
    (merge.filter fun e => p e.line).find? (fun e => e.line == line) = if p line then merge.find? (fun e => e.line == line) else none := by
  induction merge with
  | nil => simp
  | cons e merge ih =>
    by_cases hline : e.line = line
    · subst hline
      by_cases hp : p e.line = true <;> simp_all
    · by_cases hp : p e.line = true <;> simp_all

/-- Fresh lines read as zero, and every other line as before (R327). -/
theorem Mem.byte_fresh {m : Mem} (hwf : m.wf = true) (first count a : Nat) :
    (m.fresh first count).byte a = if a / 64 < first ∨ first + count ≤ a / 64 then m.byte a else 0 := by
  have hasc := ((Mem.wf_iff m).mp hwf).1.1
  have hentry := entry_filter m.merge (fun line => decide (line < first) || decide (first + count ≤ line)) (a / 64)
  have hcell := cellRead_filter 0 (fun k => decide (k / 64 < first) || decide (first + count ≤ k / 64)) hasc a
  by_cases hout : a / 64 < first ∨ first + count ≤ a / 64
  · have hpass : (decide (a / 64 < first) || decide (first + count ≤ a / 64)) = true := by simpa using hout
    rw [if_pos hout]
    exact Mem.byte_congr (hentry.trans (if_pos hpass)) (hcell.trans (if_pos hpass))
  · have hpass : ¬(decide (a / 64 < first) || decide (first + count ≤ a / 64)) = true := by simpa using hout
    rw [if_neg hout, Mem.byte_of_no_entry (show (m.fresh first count).entry (a / 64) = none from hentry.trans (if_neg hpass))]
    exact hcell.trans (if_neg hpass)

/-! ### The commands that set -/

section
variable {s : State}

/-- A node number in range is taken where no run is on the device (R282). -/
theorem nodeSet_work {s : State} {n : Nat} (hruns : s.grid.runs = []) (hn : n < 16) :
    ∃ u, Relinks { s with nl := { s.nl with node := some n, root := none } } u
      ∧ (if 16 ≤ n ∧ n ≠ 0xFF then ((2, [], s) : CmdWork)
        else if s.grid.runs.any fun r => match s.pattern r.pattern with | some p => decide (1 < p.header.shards) | none => false then
          (3, [], s)
        else
          let s := { s with nl := { s.nl with node := if n = 0xFF then none else some n, root := none } }
          let s := s.levelPorts.announce
          (0, [], ((List.range 4).foldl (fun s i => if 3 ≤ (s.port i).state ∧ (s.port i).state ≤ 4 then s.sendLink i else s) s).keepRoot))
        = (0, [], u) := by
  refine ⟨_, relinks_renumber { s with nl := { s.nl with node := some n, root := none } }, ?_⟩
  rw [if_neg (by omega), if_neg (by simp [hruns])]
  simp only [if_neg (show n ≠ 0xFF by omega)]

theorem nodeSet_answers {n : Nat} (hholds : holdsCommand s 0x0005) (harg : s.arg 0 = n) (hruns : s.grid.runs = []) (hn : n < 16) :
    ∃ t, exec (.nodeSet .admin) s = .next t ∧ answered s t 0 ∧ t.nl.node = some n ∧ t.q = s.q ∧ t.grid = s.grid ∧ t.mem = s.mem := by
  obtain ⟨u, ⟨ports, flooded, sequence, root, clashed, hu⟩, hwork⟩ := nodeSet_work (s := { s with ops := [] }) hruns (harg ▸ hn)
  refine ⟨_, session_lands rfl hholds hwork, ?_⟩
  subst hu
  exact ⟨answered_run rfl, by simp [harg], by simp, by simp, State.run_mem_same s _ (by simp)⟩

theorem apertureSet_answers (hholds : holdsCommand s 0x0003) :
    (s.arg 0 % 65536 = 0 → s.arg 0 < 2 ^ 48 → ∃ t, exec .apertureSet s = .next t ∧ answered s t 0 ∧ t.host.aperture = s.arg 0 ∧ t.mem = s.mem
      ∧ t.q = s.q)
    ∧ (s.arg 0 % 65536 ≠ 0 ∨ 2 ^ 48 ≤ s.arg 0 → ∃ t, exec .apertureSet s = .next t ∧ answered s t 2 ∧ t.host.aperture = s.host.aperture) := by
  constructor
  · intro halign hlt
    refine ⟨_, session_lands (outs := []) (u := { s with ops := [], host := { s.host with aperture := s.arg 0 } }) rfl hholds ?_,
      answered_run rfl, by simp, State.run_mem_same s _ (by simp), by simp⟩
    exact if_neg (show ¬(s.arg 0 % 65536 ≠ 0 ∨ 2 ^ 48 ≤ s.arg 0) by omega)
  · intro hbad
    exact ⟨_, session_lands (outs := []) (u := { s with ops := [] }) rfl hholds (if_pos hbad), answered_run rfl, by simp⟩

theorem memFresh_answers (hholds : holdsCommand s 0x0201) (hstart : s.arg 0 % 64 = 0) (hcount : s.arg 1 % 64 = 0)
    (hsoft : s.arg 0 + s.arg 1 ≤ s.mem.top - 2 ^ 31) (hwf : s.mem.wf = true) :
    ∃ t, exec .memFresh s = .next t ∧ answered s t 0 ∧ (∀ a, s.arg 0 ≤ a → a < s.arg 0 + s.arg 1 → t.mem.byte a = 0)
      ∧ (∀ a, a < s.arg 0 ∨ s.arg 0 + s.arg 1 ≤ a → t.mem.byte a = s.mem.byte a) := by
  have hin : s.mem.inSoft (s.arg 0) (s.arg 1) = true := decide_eq_true hsoft
  have hwork (u : State) (hu : u = if s.arg 1 = 0 then { s with ops := [] }
      else ({ s with ops := [] } : State).wakeChannels.store (.fresh (s.arg 0 / 64) (s.arg 1 / 64))) :
      exec .memFresh s = .next (s.run fun _ => u.finishMailbox 0 []) := by
    refine session_lands (f := fun s => let a := s.arg 0; let n := s.arg 1
      if a % 64 ≠ 0 ∨ n % 64 ≠ 0 then (2, [], s)
      else if !s.mem.inSoft a n then (5, [], s)
      else (0, [], if n = 0 then s else s.wakeChannels.store (.fresh (a / 64) (n / 64)))) rfl hholds ?_
    subst hu
    have halign : ¬(s.arg 0 % 64 ≠ 0 ∨ s.arg 1 % 64 ≠ 0) := by omega
    exact (if_neg halign).trans (if_neg (by simp [hin]))
  by_cases hnone : s.arg 1 = 0
  · refine ⟨_, hwork _ (if_pos hnone).symm, answered_run rfl, fun a _ _ => by omega, fun a _ => ?_⟩
    rw [State.run_mem_same s _ (by simp)]
  · obtain ⟨u, hu⟩ : ∃ u, u = ({ s with ops := [] } : State).wakeChannels.store (.fresh (s.arg 0 / 64) (s.arg 1 / 64)) := ⟨_, rfl⟩
    have hops : (u.finishMailbox 0 []).ops = [.fresh (s.arg 0 / 64) (s.arg 1 / 64)] := by rw [hu]; simp
    have hcmd : u.host.mbxCmd = s.host.mbxCmd := by rw [hu]; simp
    have hmem : (s.run fun _ => u.finishMailbox 0 []).mem = s.mem.fresh (s.arg 0 / 64) (s.arg 1 / 64) := run_mem_one hops
    refine ⟨_, hwork u (hu.trans (if_neg hnone).symm), answered_run hcmd, fun a hlow hhigh => ?_, fun a hout => ?_⟩
    · rw [hmem, Mem.byte_fresh hwf, if_neg (by omega)]
    · rw [hmem, Mem.byte_fresh hwf, if_pos (by omega)]

theorem memMirrorSet_answers (hholds : holdsCommand s 0x0202) (harg : s.arg 0 < 2) (hwf : cellsWf 0xFF s.nv.flash = true) :
    ∃ t, exec .memMirrorSet s = .next t ∧ answered s t 0 ∧ (t.nv.mirrorWord = true ↔ s.arg 0 = 1)
      ∧ (∀ a, a < 0x2004 ∨ 0x2008 ≤ a → t.nv.bytes a 1 = s.nv.bytes a 1) ∧ t.dram = s.dram := by
  have hnv : (s.run fun _ => State.finishMailbox { s with ops := [], nv := s.nv.write 0x2004 (toBytesLE 4 (s.arg 0)) } 0 []).nv
      = s.nv.write 0x2004 (toBytesLE 4 (s.arg 0)) := (State.run_nvFlash (by simp [Nv.write])).trans (by simp)
  have hlen : (toBytesLE 4 (s.arg 0)).length = 4 := length_toBytesLE 4 _
  refine ⟨_, session_lands (outs := []) (u := { s with ops := [], nv := s.nv.write 0x2004 (toBytesLE 4 (s.arg 0)) }) rfl hholds ?_,
    answered_run rfl, ?_, fun a ha => ?_, by simp⟩
  · exact if_neg (show ¬s.arg 0 ≥ 2 by omega)
  · have hword := Nv.bytes_write_same (a := 0x2004) (bs := toBytesLE 4 (s.arg 0)) hwf
    rw [hlen] at hword
    rw [hnv, Nv.mirrorWord, hword, bytesLE_toBytesLE, natBit, beq_iff_eq]
    omega
  · rw [hnv, Nv.bytes_write_outside hwf (by rw [hlen]; omega)]

theorem hangSet_answers (hholds : holdsCommand s 0x0107) (hlow : 10 ≤ s.arg 0 / 2 ^ 16) (hhigh : s.arg 0 / 2 ^ 16 ≤ 1000)
    (hzero : natBits (s.arg 0) 8 8 = 0) : ∃ t, exec .hangSet s = .next t ∧ answered s t 0 ∧ t.q.hangWatch = s.arg 0 % 256
      ∧ t.q.hangMs = s.arg 0 / 2 ^ 16 ∧ t.q.queues = s.q.queues ∧ t.grid = s.grid := by
  refine ⟨_, session_lands (outs := []) (u := { s with ops := [], q := { s.q with
      hangWatch := s.arg 0 % 256, hangMs := s.arg 0 / 2 ^ 16, hangReset := false
      tasks := s.q.tasks.map fun t => { t with wholeInterval := t.phase == .running } } }) rfl hholds ?_,
    answered_run rfl, by simp, by simp, by simp, by simp⟩
  exact if_neg (show ¬(s.arg 0 / 2 ^ 16 < 10 ∨ 1000 < s.arg 0 / 2 ^ 16 ∨ natBits (s.arg 0) 8 8 ≠ 0) by omega)

theorem guardSet_answers (hholds : holdsCommand s 0x0502) :
    (1360 ≤ s.arg 0 → s.arg 0 ≤ 1600 → ∃ t, exec (.guardSet .admin) s = .next t ∧ answered s t 0 ∧ t.pow.nextThreshold = s.arg 0
      ∧ t.pow.threshold = s.pow.threshold)
    ∧ (s.arg 0 < 1360 ∨ 1600 < s.arg 0 → ∃ t, exec (.guardSet .admin) s = .next t ∧ answered s t 2 ∧ t.pow = s.pow) := by
  constructor
  · intro hlow hhigh
    refine ⟨_, session_lands (outs := []) (u := { s with ops := [], pow := { s.pow with nextThreshold := s.arg 0 } }) rfl hholds ?_,
      answered_run rfl, by simp, by simp⟩
    exact if_neg (show ¬(s.arg 0 < 1360 ∨ 1600 < s.arg 0) by omega)
  · intro hbad
    exact ⟨_, session_lands (outs := []) (u := { s with ops := [] }) rfl hholds (if_pos hbad), answered_run rfl, by simp⟩

/-- What a cleared fault record reads as (R455). -/
def erasedRecord : List Byte := List.replicate 0x1000 0xFF

theorem erasedRecord_length : erasedRecord.length = 0x1000 := List.length_replicate

theorem erasedRecord_getElem (i : Nat) (h : i < erasedRecord.length) : erasedRecord[i] = 0xFF := List.getElem_replicate h

theorem Nv.write_flash (n : Nv) (a : Nat) (bs : List Byte) : (n.write a bs).flash = cellWriteList 0xFF n.flash a bs := rfl

/-- An erased counter word counts no entry (R455). -/
theorem Nv.recordCount_cleared {n : Nv} (hwf : cellsWf 0xFF n.flash = true) :
    (n.write recordBase erasedRecord).recordCount = 0 := by
  have hbyte (i : Nat) (hi : i < 4) : cellRead 0xFF (n.write recordBase erasedRecord).flash (0x3800 + i) = 0xFF := by
    have h := cellRead_cellWriteList_inside 0xFF erasedRecord n.flash recordBase (0x800 + i)
      ((cellsWf_iff _ _).mp hwf).1 (by rw [erasedRecord_length]; omega)
    rw [erasedRecord_getElem] at h
    have hplace : 0x3800 + i = recordBase + (0x800 + i) := by rw [recordBase]; omega
    rw [hplace, Nv.write_flash, h]
  have hword : (n.write recordBase erasedRecord).bytes 0x3800 4 = [0xFF, 0xFF, 0xFF, 0xFF] := by
    rw [Nv.bytes, cellReadList, List.map_congr_left (g := fun _ => (0xFF : Byte)) fun i hi => hbyte i (List.mem_range.mp hi)]
    rfl
  have hfull : bytesLE [0xFF, 0xFF, 0xFF, 0xFF] = 2 ^ 32 - 1 := by decide
  exact (congrArg (fun bs => 2 ^ 32 - 1 - bytesLE bs) hword).trans (by rw [hfull, Nat.sub_self])

theorem faultRecordClear_answers (hholds : holdsCommand s 0x0301) (harg : s.arg 0 = 2 ^ 33) (hwf : cellsWf 0xFF s.nv.flash = true) :
    ∃ t, exec (.faultRecordClear .admin) s = .next t ∧ answered s t 0 ∧ t.nv.recordCount = 0 ∧ t.log = s.log := by
  have hnv (outs : List (Nat × Nat)) : (s.run fun _ =>
      State.finishMailbox { s with ops := [], nv := s.nv.write recordBase erasedRecord } 0 outs).nv
      = s.nv.write recordBase erasedRecord := (State.run_nvFlash (by simp [Nv.write])).trans (by simp)
  refine ⟨_, admin_lands (outs := faultCounts { s with nv := s.nv.write recordBase erasedRecord }) (u := { s with ops := [], nv := s.nv.write recordBase erasedRecord }) rfl hholds.1 rfl
    (by rw [harg]; decide) (if_neg (by omega)), answered_run rfl, ?_, by simp⟩
  rw [hnv, Nv.recordCount_cleared hwf]
end

/-- Settles O31: an argument in its range is taken and nothing else moves, one outside is BAD_ARG. -/
theorem mailboxSettingsTakeTheirArguments : Obligations.MailboxSettingsTakeTheirArguments := fun _ =>
  ⟨fun _ hholds harg hruns hn => nodeSet_answers hholds harg hruns hn, fun hholds => (apertureSet_answers hholds).1,
    fun hholds => (apertureSet_answers hholds).2, memFresh_answers, memMirrorSet_answers, hangSet_answers,
    fun hholds => (guardSet_answers hholds).1, fun hholds => (guardSet_answers hholds).2, faultRecordClear_answers⟩

end Sys2Proof.Machine
end

section
/-! SUPPORT. The commands of the mailbox through the sideband. -/

namespace Sys2Proof.Machine

section
variable {s : State} {tag : Byte} {args : List DWord}

/-- A command that the sideband carries out, with the word it answers (R514-R516). -/
theorem sideband_done {c : Instr} {i : Via → Instr} {op : Nat} {mine : (Nat → Nat) → Bool} {f : (Nat → Nat) → State → CmdWork}
    {outs : List (Nat × Nat)} {u : State} {shows : State → Prop}
    (hexec : exec c s = .next (s.run fun s => s.command (.sideband tag args) i op mine f))
    (hrom : s.sbRom = true) (hholds : s.sbHolds = 0) (hfw : s.sbFirmware = true)
    (hmine : mine (fun k => (args.getD k 0).toNat) = true)
    (hf : f (fun k => (args.getD k 0).toNat) { s with ops := [] } = (0, outs, u))
    (hhost : u.host = s.host) (hq : u.q = s.q) (hgrid : u.grid = s.grid) (hops : u.ops = [])
    (hshows : shows (s.run fun _ => u.sbReply tag 0 outs)) :
    ∃ t, exec c s = .next t ∧ (t.sb.reply.map fun r => (r.tag, r.result)) = some (tag, 0) ∧ shows t ∧ t.host = s.host ∧ t.q = s.q
      ∧ t.grid = s.grid ∧ t.mem = s.mem := by
  have hholds' : ({ s with ops := [] } : State).sbHolds = 0 := hholds
  refine ⟨_, exec_lands hexec ?_, by simp [State.sbReply], hshows, by simp [State.sbReply, hhost], by simp [State.sbReply, hq],
    by simp [State.sbReply, hgrid], State.run_mem_same s _ hops⟩
  simp only [State.command, hmine, if_true]
  rw [inTurn_free hholds', sideband_of_firmware (s := { s with ops := [] }) hrom hfw, hf]

/-- A word of the answer. -/
theorem replyWord_run {u : State} {result k v : Nat} {outs : List (Nat × Nat)} (hmem : (k, v) ∈ outs) (hnodup : (outs.map Prod.fst).Nodup) :
    ((s.run fun _ => u.sbReply tag result outs).sb.reply.map fun r => (r.words.getD k 0).toNat) = some (v % 2 ^ 64) := by
  have hreply : (s.run fun _ => u.sbReply tag result outs).sb.reply
      = some { tag := tag, result := BitVec.ofNat 16 result, words := replyWords outs, bytes := [] } := State.run_sb_reply s _
  rw [hreply]
  exact congrArg some ((congrArg BitVec.toNat (replyWords_getD hmem hnodup)).trans (BitVec.toNat_ofNat _ _))

/-- At ROM level the same command is answered with STATE and has no effect (R511). -/
theorem sideband_refused {c : Instr} {i : Via → Instr} {op : Nat} {mine : (Nat → Nat) → Bool} {f : (Nat → Nat) → State → CmdWork}
    (hexec : exec c s = .next (s.run fun s => s.command (.sideband tag args) i op mine f))
    (hrom : s.sbRom = true) (hholds : s.sbHolds = 0) (hfw : s.sbFirmware = false) (ho : s.ops = [])
    (hmine : mine (fun k => (args.getD k 0).toNat) = true) :
    ∃ t, exec c s = .next t ∧ (t.sb.reply.map fun r => (r.tag, r.result)) = some (tag, 3) ∧ t = { s with sb := t.sb } := by
  have hs : ({ s with ops := [] } : State) = s := by rw [← ho]
  have hwork : ({ s with ops := [] } : State).command (.sideband tag args) i op mine f = s.sbReply tag 3 [] := by
    rw [hs]
    simp only [State.command, hmine, if_true]
    rw [inTurn_free hholds]
    simp [State.sideband, hrom, hfw]
  refine ⟨s.sbReply tag 3 [], ?_, rfl, rfl⟩
  rw [hexec, run_of_talks (by rw [hwork, hs]; exact onlyTalks_sbReply s tag 3 []), hwork]

/-- At firmware level the reads and the threshold. -/
theorem sideband_status (hrom : s.sbRom = true) (hholds : s.sbHolds = 0) (hfw : s.sbFirmware = true) {shows : State → Prop}
    {c : Instr} {i : Via → Instr} {op : Nat} {mine : (Nat → Nat) → Bool} {f : (Nat → Nat) → State → CmdWork} {outs : List (Nat × Nat)} {n : Nat}
    (hexec : exec c s = .next (s.run fun s => s.command (.sideband tag args) i op mine f))
    (hmine : mine (fun k => (args.getD k 0).toNat) = true)
    (hf : f (fun k => (args.getD k 0).toNat) { s with ops := [] } = (0, outs, { s with ops := [], free := n }))
    (hshows : shows (s.run fun _ => State.sbReply { s with ops := [], free := n } tag 0 outs)) :
    ∃ t, exec c s = .next t ∧ (t.sb.reply.map fun r => (r.tag, r.result)) = some (tag, 0) ∧ shows t ∧ t.host = s.host ∧ t.q = s.q
      ∧ t.grid = s.grid ∧ t.mem = s.mem :=
  sideband_done hexec hrom hholds hfw hmine hf rfl rfl rfl rfl hshows

theorem sideband_nv {outs : List (Nat × Nat)} : (s.run fun _ => State.sbReply { s with ops := [] } tag 0 outs).nv = s.nv :=
  State.run_nv_same s _ rfl
end

/-- Settles O32: at firmware level each command is served in its turn, at ROM level each is answered with STATE. -/
theorem sidebandMailboxAnswersAtFirmwareLevel : Obligations.SidebandMailboxAnswersAtFirmwareLevel := by
  intro s tag args hrom hholds a0 ok
  refine ⟨fun hfw => ⟨?info, ?firmware, ?random, ?power, fun hlow hhigh => ?threshold, fun hn hruns => ?node, fun e ha he => ?entry,
    fun k ha hk => ?record, fun ha hwf => ?clear⟩, fun hfw ho c hc => ?refused⟩
  case info =>
    exact sideband_status hrom hholds hfw rfl rfl rfl (replyWord_run (List.mem_cons_of_mem _ List.mem_cons_self) (by simp))
  case firmware => exact sideband_status (shows := fun t => t.nv = s.nv) hrom hholds hfw rfl rfl rfl sideband_nv
  case random => exact sideband_status hrom hholds hfw rfl rfl rfl (replyWord_run (by simp) (by simp))
  case power => exact sideband_status hrom hholds hfw rfl rfl rfl (replyWord_run (by simp) (by simp))
  case threshold =>
    refine sideband_done (u := { s with ops := [], pow := { s.pow with nextThreshold := a0 } }) (outs := []) rfl hrom hholds hfw rfl ?_
      rfl rfl rfl rfl ?_
    · exact if_neg (show ¬(a0 < 1360 ∨ 1600 < a0) by omega)
    · simp [State.sbReply]
  case node =>
    obtain ⟨u, ⟨ports, flooded, sequence, root, clashed, hu⟩, hwork⟩ := nodeSet_work (s := { s with ops := [] }) hruns hn
    refine sideband_done rfl hrom hholds hfw rfl hwork ?_ ?_ ?_ ?_ ?_ <;> simp [hu, State.sbReply]
  case entry =>
    obtain ⟨w2, w3, hwords⟩ := wordsOf_entry e
    have hentry : entryWords e.encode = [(0, e.stitch % 2 ^ 64), (1, e.number % 2 ^ 64), (2, w2), (3, w3)] := by rw [entryWords, hwords]; rfl
    refine sideband_status (n := s.free) (outs := [(0, e.stitch % 2 ^ 64), (1, e.number % 2 ^ 64), (2, w2), (3, w3)] ++ faultCounts s) hrom hholds hfw rfl
      (show (a0 / 2 ^ 32 % 4 == 0) = true by simp; omega) ?_
      ((replyWord_run (v := e.number % 2 ^ 64) (by simp) (by simp [faultCounts])).trans (congrArg some (Nat.mod_mod _ _)))
    rw [if_neg (Nat.not_le.mpr ha)]
    simp only [show s.log.entries.find? (fun x => x.number == (args.getD 0 0).toNat) = some e from he, hentry]
    rfl
  case record =>
    have hindex : a0 % 2 ^ 32 = k := by omega
    refine sideband_status (n := s.free) (shows := fun t => t.nv = s.nv) (outs := entryWords (s.nv.bytes (recordBase + 32 * k) 32) ++ faultCounts s)
      hrom hholds hfw rfl (show (a0 / 2 ^ 32 % 4 == 1) = true by simp; omega) ?_ sideband_nv
    refine (if_neg (show ¬(a0 ≥ 2 ^ 33 ∨ min s.nv.recordCount 64 ≤ a0 % 2 ^ 32) by omega)).trans ?_
    rw [← hindex]
    rfl
  case clear =>
    obtain ⟨n, hn⟩ : ∃ n, n = s.nv.write recordBase erasedRecord := ⟨_, rfl⟩
    have hflash : (s.run fun _ => State.sbReply { s with ops := [], nv := n } tag 0 (faultCounts { s with ops := [], nv := n })).nv = n :=
      State.run_nvFlash (by simp [State.sbReply, hn, Nv.write])
    have hmine : natBit a0 33 = true := by rw [ha]; decide
    refine sideband_done (u := { s with ops := [], nv := n }) (outs := faultCounts { s with ops := [], nv := n }) rfl hrom hholds hfw hmine ?_
      rfl rfl rfl rfl ?_
    · rw [hn]
      exact if_neg (show ¬a0 ≥ 2 ^ 34 by omega)
    · rw [hflash, hn, Nv.recordCount_cleared hwf]
  case refused =>
    simp only [List.mem_cons, List.not_mem_nil, or_false] at hc
    rcases hc with rfl | rfl | rfl | rfl | rfl | rfl <;> exact sideband_refused rfl hrom hholds hfw ho rfl

end Sys2Proof.Machine
end

section
/-! SUPPORT. Queues, tasks, fences and slots after an update, and the doorbells. -/

namespace Sys2Proof.Machine

/-! ### One entry of a list changed -/

theorem find?_modifyIf_other {α : Type} {p p' : α → Bool} {f : α → α} (hp : ∀ x, p x = true → p' x = false ∧ p' (f x) = false) (xs : List α) :
    (modifyIf p f xs).find? p' = xs.find? p' := by
  induction xs with
  | nil => rfl
  | cons x xs ih =>
    cases hx : p x
    · have hcons (ys : List α) : (x :: ys).find? p' = if p' x = true then some x else ys.find? p' := by
        cases hx' : p' x <;> simp [hx']
      have hmap : modifyIf p f (x :: xs) = x :: modifyIf p f xs := by simp [modifyIf, hx]
      rw [hmap, hcons, hcons, ih]
    · obtain ⟨hold, hnew⟩ := hp x hx
      simpa [modifyIf, hx, hold, hnew] using ih

theorem State.queue_setQueue_same {s : State} {n : Nat} {q : Queue} {f : Queue → Queue} (hf : ∀ q : Queue, q.num = n → (f q).num = n)
    (h : s.queue n = some q) : (s.setQueue n f).queue n = some (f q) := by
  rw [State.queue_setQueue s hf, h]
  rfl

theorem State.queue_setQueue_ne {s : State} {n m : Nat} {f : Queue → Queue} (hf : ∀ q : Queue, q.num = n → (f q).num = n) (hm : m ≠ n) :
    (s.setQueue n f).queue m = s.queue m := by
  refine find?_modifyIf_other (fun q hq => ?_) s.q.queues
  have hnum : q.num = n := by simpa using hq
  simp [hnum, hf q hnum, hm.symm]

theorem State.task_setTask_ne {s : State} {r r' : TaskRef} {f : Task → Task} (hf : ∀ u, (f u).ref = u.ref) (hr : r' ≠ r) :
    (s.setTask r f).task r' = s.task r' := by
  refine find?_modifyIf_other (fun u hu => ?_) s.q.tasks
  have href : u.ref = r := by simpa using hu
  simp [href, hf u, hr.symm]

theorem State.fence_setFence_same {s : State} {n : Nat} {x : Fence} {f : Fence → Fence} (hf : ∀ x, (f x).num = x.num) (h : s.fence n = some x) :
    (s.setFence n f).fence n = some (f x) := by
  have hset := find?_modifyIf (p := fun x : Fence => x.num == n) (f := f) (by simp [hf]) s.q.fences
  exact hset.trans (by rw [show s.q.fences.find? (fun x => x.num == n) = some x from h]; rfl)

theorem State.fence_setFence_ne {s : State} {n m : Nat} {f : Fence → Fence} (hf : ∀ x, (f x).num = x.num) (hm : m ≠ n) :
    (s.setFence n f).fence m = s.fence m := by
  refine find?_modifyIf_other (fun x hx => ?_) s.q.fences
  have hnum : x.num = n := by simpa using hx
  simp [hnum, hf x, hm.symm]

theorem State.fence_num {s : State} {n : Nat} {x : Fence} (h : s.fence n = some x) : x.num = n := by
  simpa using List.find?_some h

/-! ### Views of the state after a command's wrapper -/

@[simp] theorem State.run_queue (s : State) (f : State → State) (n : Nat) : (s.run f).queue n = (f { s with ops := [] }).queue n := by
  simp [State.queue]

@[simp] theorem State.run_task (s : State) (f : State → State) (r : TaskRef) : (s.run f).task r = (f { s with ops := [] }).task r := by
  simp [State.task]

@[simp] theorem State.run_fence (s : State) (f : State → State) (n : Nat) : (s.run f).fence n = (f { s with ops := [] }).fence n := by
  simp [State.fence]

@[simp] theorem State.run_slot (s : State) (f : State → State) (i : Nat) : (s.run f).slot i = (f { s with ops := [] }).slot i := by
  simp [State.slot]

@[simp] theorem State.run_copyEngine (s : State) (f : State → State) (c : Nat) :
    (s.run f).copyEngine c = (f { s with ops := [] }).copyEngine c := by
  simp [State.copyEngine]

/-! ### The order in which queues wait -/

theorem State.noteWork_eq (s : State) (n : Nat) : ∃ waiting, s.noteWork n = { s with q := { s.q with waiting := waiting } } := by
  unfold State.noteWork
  split
  · split
    · exact ⟨_, rfl⟩
    · exact ⟨s.q.waiting, rfl⟩
  · exact ⟨s.q.waiting, rfl⟩

section
variable (s : State) (n : Nat)

@[simp] theorem State.noteWork_queue (m : Nat) : (s.noteWork n).queue m = s.queue m := by obtain ⟨_, h⟩ := s.noteWork_eq n; rw [h]; rfl
@[simp] theorem State.noteWork_queues : (s.noteWork n).q.queues = s.q.queues := by obtain ⟨_, h⟩ := s.noteWork_eq n; rw [h]
@[simp] theorem State.noteWork_tasks : (s.noteWork n).q.tasks = s.q.tasks := by obtain ⟨_, h⟩ := s.noteWork_eq n; rw [h]
@[simp] theorem State.noteWork_slots : (s.noteWork n).q.slots = s.q.slots := by obtain ⟨_, h⟩ := s.noteWork_eq n; rw [h]
@[simp] theorem State.noteWork_grid : (s.noteWork n).grid = s.grid := by obtain ⟨_, h⟩ := s.noteWork_eq n; rw [h]
@[simp] theorem State.noteWork_host : (s.noteWork n).host = s.host := by obtain ⟨_, h⟩ := s.noteWork_eq n; rw [h]
@[simp] theorem State.noteWork_ops : (s.noteWork n).ops = s.ops := by obtain ⟨_, h⟩ := s.noteWork_eq n; rw [h]
@[simp] theorem State.noteWork_out : (s.noteWork n).out = s.out := by obtain ⟨_, h⟩ := s.noteWork_eq n; rw [h]
@[simp] theorem State.noteWork_mem : (s.noteWork n).mem = s.mem := by obtain ⟨_, h⟩ := s.noteWork_eq n; rw [h]
end

/-! ### Doorbells -/

/-- One queue has changed, with what waits for a slot; no other work has moved. -/
def OneQueue (s t : State) (n : Nat) (q : Queue) : Prop :=
  t.queue n = some q ∧ (∀ m, m ≠ n → t.queue m = s.queue m) ∧ t.q.tasks = s.q.tasks ∧ t.q.slots = s.q.slots ∧ t.grid = s.grid
    ∧ t.mem = s.mem ∧ t.host = s.host ∧ t.out = s.out

section
variable {s : State} {n : Nat} {q : Queue} (hq : s.queue n = some q)
include hq

theorem oneQueue_setQueue {f : Queue → Queue} (hf : ∀ q : Queue, q.num = n → (f q).num = n) :
    OneQueue s (s.run fun _ => ({ s with ops := [] } : State).setQueue n f) n (f q) := by
  have hq' : ({ s with ops := [] } : State).queue n = some q := hq
  refine ⟨?_, fun m hm => ?_, by simp, by simp, by simp, State.run_mem_same s _ rfl, by simp, by simp⟩
  · rw [State.run_queue, State.queue_setQueue_same hf hq']
  · rw [State.run_queue, State.queue_setQueue_ne hf hm]
    rfl

theorem oneQueue_noteWork {f : Queue → Queue} (hf : ∀ q : Queue, q.num = n → (f q).num = n) :
    OneQueue s (s.run fun _ => (({ s with ops := [] } : State).setQueue n f).noteWork n) n (f q) := by
  have hq' : ({ s with ops := [] } : State).queue n = some q := hq
  refine ⟨?_, fun m hm => ?_, by simp, by simp, by simp, State.run_mem_same s _ (by simp), by simp, by simp⟩
  · rw [State.run_queue, State.noteWork_queue, State.queue_setQueue_same hf hq']
  · rw [State.run_queue, State.noteWork_queue, State.queue_setQueue_ne hf hm]
    rfl

/-- A doorbell write reaches its queue's page (R375). -/
theorem doorbell_reaches (hup : s.hostUp = true) (hready : s.boot.ready = true) (f : Queue → State → State) :
    ({ s with ops := [] } : State).doorbell n f = f q { s with ops := [] } := by
  have hq' : ({ s with ops := [] } : State).queue n = some q := hq
  have hup' : ({ s with ops := [] } : State).hostUp = true := hup
  simp only [State.doorbell, hup', hready, hq', Bool.and_self, if_true]
end

/-- A command whose work changes nothing leaves the state. -/
theorem exec_stands {c : Instr} {s : State} {f : State → State} (hexec : exec c s = .next (s.run f)) (ho : s.ops = [])
    (h : f { s with ops := [] } = { s with ops := [] }) : exec c s = .next s := by
  have hs : ({ s with ops := [] } : State) = s := by rw [← ho]
  rw [hexec, run_of_talks (by rw [h]; exact .refl _), h, hs]

/-- Settles O41: each doorbell changes one queue, and a swap named twice or not yet due changes nothing. -/
theorem doorbellsMoveOneQueue : Obligations.DoorbellsMoveOneQueue := by
  intro s n v q hup hready hq one
  have hreach := doorbell_reaches hq hup hready
  have hlive : s.live = true := by
    rw [State.hostUp, Bool.and_eq_true] at hup
    exact hup.1
  have hq' : ({ s with ops := [] } : State).queue n = some q := hq
  refine ⟨fun hfits => ?tail, fun hbad => ?bad, fun hnone => ?swap, fun hsome ho => ?again, fun p hp => ⟨fun hdue => ?due, fun hearly ho => ?early⟩,
    fun h hquiet => ?ack⟩
  case tail =>
    exact ⟨_, exec_lands rfl ((hreach _).trans (if_pos hfits)), oneQueue_noteWork (f := fun q => { q with tail := v }) hq fun _ h => h⟩
  case bad =>
    exact ⟨_, exec_lands rfl ((hreach _).trans (if_neg (Nat.not_le.mpr hbad))),
      oneQueue_setQueue (f := fun q => { q with badDoorbells := q.badDoorbells + 1 }) hq fun _ h => h⟩
  case swap =>
    exact ⟨_, exec_lands rfl ((hreach _).trans (if_neg (by simp [hnone]))),
      oneQueue_setQueue (f := fun q => { q with hswap := some v }) hq fun _ h => h⟩
  case again => exact exec_stands rfl ho ((hreach _).trans (if_pos (Option.isSome_iff_ne_none.mpr hsome)))
  case due =>
    refine ⟨_, exec_lands_live rfl hlive ?_, oneQueue_setQueue (f := fun q => { q with copy := 1 - q.copy, hswap := none }) hq fun _ h => h⟩
    simp only [hq', hp, hdue, if_true]
  case early =>
    refine exec_stands (exec_eq_run rfl hlive) ho ?_
    simp only [hq', hp, hearly, Bool.false_eq_true, if_false]
  case ack =>
    refine ⟨_, exec_lands rfl ((hreach _).trans ?_), oneQueue_setQueue (f := fun q => { q with sproutAck := v }) hq fun _ h => h⟩
    have hnone : s.grid.runs.filter (fun r => r.ref.queue == n && (s.engine r.lead).state == 4 && r.starved.contains 4
        && (s.hostOpen || r.blk.kind == 0 || decide (r.blk.input < hostWindow))) = [] := by
      refine List.filter_eq_nil_iff.mpr fun r hr => ?_
      by_cases hown : r.ref.queue = n
      · simp [hquiet r hr hown]
      · simp [hown]
    exact congrArg (List.foldl (fun s r => State.rowNine s h r.ref) _) hnone

end Sys2Proof.Machine
end

section
/-! SUPPORT. The queue and fence commands of the mailbox, and the close of a queue whose tasks wait. -/

namespace Sys2Proof.Machine

/-! ### Making and showing queues -/

section
variable {s : State} {n : Nat}

theorem queue_append_same {q : Queue} {u : State} (hnone : s.queue n = none) (hnum : q.num = n) (hu : u.q.queues = s.q.queues ++ [q]) :
    u.queue n = some q := by
  have hfree : s.q.queues.find? (fun q => q.num == n) = none := hnone
  rw [State.queue, hu, List.find?_append, hfree]
  simp [hnum]

theorem queue_append_ne {q : Queue} {u : State} {m : Nat} (hnum : q.num = n) (hu : u.q.queues = s.q.queues ++ [q]) (hm : m ≠ n) :
    u.queue m = s.queue m := by
  rw [State.queue, hu, List.find?_append]
  simp [hnum, hm.symm, State.queue]

/-- The queue that QUEUE_CREATE makes of the arguments (R408). -/
def State.argQueue (s : State) (n : Nat) : Queue :=
  { num := n, ringAddr := s.arg 1, complAddr := s.arg 2, doneAddr := s.arg 3, order := natBits (s.arg 0) 24 4,
    pasid := natBits (s.arg 4) 0 20, level := natBits (s.arg 0) 16 2, ordered := natBit (s.arg 0) 18, irq := natBit (s.arg 0) 19,
    quota := natBits (s.arg 4) 32 16, handleBase := s.arg 5, handles := s.arg 6, state := .active, cause := 0, tail := 0, head := 0,
    sproutAck := 0, doneSeq := 0, sproutDone := 0, badDoorbells := 0, fetchFaults := 0, copy := 0, hswap := none, fetched := [],
    lane := [], sprouts := 0, admitted := 0, admittedSprouts := 0, failed := [], retired := [], backoff := false, purgeTo := 0,
    retiredCount := 0, dropped := 0, purged := 0 }

theorem queueCreate_answers (hn : n < 1024) (hholds : holdsCommand s 0x0101) (harg : s.arg 0 % 2 ^ 16 = n) (h28 : s.arg 0 < 2 ^ 28)
    (hzero : natBits (s.arg 0) 20 4 = 0) (horder : natBits (s.arg 0) 24 4 ≤ 10) (hring : s.arg 1 % 4096 = 0) (hcompl : s.arg 2 % 4096 = 0)
    (hdone : s.arg 3 % 16 = 0) (hquota : 1 ≤ natBits (s.arg 4) 32 16) (hquota' : natBits (s.arg 4) 32 16 ≤ 16384)
    (hpad : natBits (s.arg 4) 20 12 = 0) (h48 : s.arg 4 < 2 ^ 48) (hbase : s.arg 5 % 64 = 0) (hhandles : 2 ≤ s.arg 6) (hhandles' : s.arg 6 ≤ 65536)
    (hnone : s.queue n = none) (hsoft : s.arg 5 + 32 * s.arg 6 ≤ s.mem.top - 2 ^ 31) :
    ∃ t q, exec .queueCreate s = .next t ∧ answered s t 0 ∧ outWord t 0 = n ∧ t.queue n = some q
      ∧ q.state = .active ∧ q.ringAddr = s.arg 1 ∧ q.complAddr = s.arg 2 ∧ q.doneAddr = s.arg 3
      ∧ q.size = 64 * 2 ^ natBits (s.arg 0) 24 4 ∧ q.quota = natBits (s.arg 4) 32 16 ∧ q.pasid = natBits (s.arg 4) 0 20
      ∧ q.tail = 0 ∧ q.head = 0 ∧ q.doneSeq = 0 ∧ (∀ m, m ≠ n → t.queue m = s.queue m) ∧ t.q.tasks = s.q.tasks ∧ t.mem = s.mem := by
  have hin : s.mem.inSoft (s.arg 5) (32 * s.arg 6) = true := decide_eq_true hsoft
  refine ⟨_, s.argQueue n, session_lands (result := 0) (outs := [(0, n)])
    (u := { s with ops := [], q := { s.q with queues := s.q.queues ++ [s.argQueue n] } }) rfl hholds ?_,
    answered_run rfl, ?_, ?_, rfl, rfl, rfl, rfl, rfl, rfl, rfl, rfl, rfl, rfl, fun m hm => ?_, by simp, State.run_mem_same s _ (by simp)⟩
  rotate_left
  · obtain ⟨-, -, hlen⟩ := hholds
    exact (outWord_lands (s := s) (u := { s with ops := [], q := { s.q with queues := s.q.queues ++ [s.argQueue n] } }) rfl hlen (by decide)
      List.mem_cons_self (by simp)).trans (Nat.mod_eq_of_lt (by omega))
  · exact queue_append_same hnone rfl (by simp)
  · exact queue_append_ne (q := s.argQueue n) rfl (by simp) hm
  dsimp only
  simp only [Clear.arg, Clear.queue, harg, hnone]
  rw [if_neg (by omega), if_neg (by omega)]
  simp only [Option.isNone_none, if_true, hin, Bool.not_true, Bool.false_eq_true, if_false]
  rfl

theorem queueCreate_refuses (hholds : holdsCommand s 0x0101) (hbad : 10 < natBits (s.arg 0) 24 4 ∨ s.arg 1 % 4096 ≠ 0 ∨ s.arg 6 < 2) :
    ∃ t, exec .queueCreate s = .next t ∧ answered s t 2 ∧ t.q = s.q := by
  refine ⟨_, session_lands (result := 2) (outs := []) (u := { s with ops := [] }) rfl hholds ?_, answered_run rfl, by simp⟩
  dsimp only
  exact if_pos (by simp only [Clear.arg]; omega)

theorem queueQuery_answers {q : Queue} (hn : n < 1024) (hholds : holdsCommand s 0x0103) (harg : s.arg 0 = n) (hq : s.queue n = some q) :
    ∃ t, exec .queueQuery s = .next t ∧ answered s t 0 ∧ outWord t 0 = doorbellState q % 2 ^ 64
      ∧ outWord t 1 = q.head % 2 ^ 64 ∧ outWord t 2 = q.doneSeq % 2 ^ 64 ∧ outWord t 5 = q.badDoorbells % 2 ^ 64
      ∧ outWord t 6 = q.fetchFaults % 2 ^ 64 ∧ t.q = s.q := by
  obtain ⟨-, -, hlen⟩ := id hholds
  refine ⟨_, session_lands (result := 0) (u := { s with ops := [] })
    (outs := [(0, doorbellState q), (1, q.head), (2, q.doneSeq), (3, q.sproutDone), (4, s.unretired q.num), (5, q.badDoorbells),
      (6, q.fetchFaults)]) rfl hholds ?_, answered_run rfl, ?_, ?_, ?_, ?_, ?_, by simp⟩
  rotate_left
  iterate 5 exact outWord_lands (s := s) (u := { s with ops := [] }) rfl hlen (by decide) (by simp) (by simp)
  simp only [Clear.arg, Clear.queue, harg, hq]
  rw [if_neg (Nat.not_le.mpr hn)]
  rfl

theorem queueRearm_answers {q : Queue} (hholds : holdsCommand s 0x0104) (harg : s.arg 0 = n) (hq : s.queue n = some q)
    (hguilty : q.state = .guilty) : ∃ t, exec .queueRearm s = .next t ∧ answered s t 0
      ∧ t.queue n = some { q with state := .active, cause := 0 } ∧ t.q.tasks = s.q.tasks := by
  have hnum := State.queue_num hq
  refine ⟨_, session_lands (result := 0) (outs := [])
    (u := (({ s with ops := [] } : State).setQueue n fun q => { q with state := .active, cause := 0 }).noteWork n) rfl hholds ?_,
    answered_run (by simp), ?_, by simp⟩
  · simp only [Clear.arg, Clear.queue, harg, hq, hguilty, if_true, hnum]
  · rw [State.run_queue, State.queue, State.finishMailbox_q, ← State.queue, State.noteWork_queue]
    exact State.queue_setQueue_same (s := { s with ops := [] }) (f := fun q => { q with state := .active, cause := 0 }) (fun _ h => h) hq
end

/-! ### Fences -/

section
variable {s : State}

/-- A row of an opcode that its arguments tell from the others. -/
theorem row_lands {c : Instr} {op result : Nat} {outs : List (Nat × Nat)} {u : State} {other : State → Prop} [DecidablePred other]
    {f : State → CmdWork} (hexec : exec c s = .next (s.run fun s => if other s then s else s.admin op f)) (hholds : holdsCommand s op)
    (hmine : ¬other { s with ops := [] }) (hf : f { s with ops := [] } = (result, outs, u)) :
    exec c s = .next (s.run fun _ => u.finishMailbox result outs) := by
  refine exec_lands hexec ?_
  have hholds' : holdsCommand { s with ops := [] } op := hholds
  rw [if_neg hmine, State.admin_of_holdsCommand hholds', hf]

variable (hholds : holdsCommand s 0x0108)
include hholds

theorem fenceAllocate_answers {n : Nat} (harg : s.arg 0 = 0) (hpasid : s.arg 2 < 2 ^ 20) (hn : n < 4096) (hfree : s.fence n = none)
    (hlower : ∀ m, m < n → s.fence m ≠ none) : ∃ t, exec .fenceAllocate s = .next t ∧ answered s t 0 ∧ outWord t 0 = n
      ∧ t.fence n = some { num := n, pasid := s.arg 2, value := 0, err := false } ∧ (∀ m, m ≠ n → t.fence m = s.fence m)
      ∧ t.q.tasks = s.q.tasks ∧ t.q.queues = s.q.queues := by
  obtain ⟨-, -, hlen⟩ := id hholds
  have hfind : (List.range 4096).find? (fun k => (s.fence k).isNone) = some n := by
    refine List.find?_range_eq_some.mpr ⟨by simp [hfree], List.mem_range.mpr hn, fun m hm => ?_⟩
    simpa [Option.isSome_iff_ne_none] using hlower m hm
  refine ⟨_, row_lands (result := 0) (outs := [(0, n), (1, 0)]) (u := { s with ops := [], q := { s.q with
      fences := s.q.fences ++ [{ num := n, pasid := s.arg 2, value := 0, err := false }] } }) (f := _) rfl hholds (by simp [fenceAction, harg]) ?_,
    answered_run rfl, ?_, ?_, fun m hm => ?_, by simp, by simp⟩
  · dsimp only
    simp only [Clear.arg, Clear.fence, harg, hfind]
    rw [if_neg (by omega)]
  · exact (outWord_lands (s := s) (u := { s with ops := [], q := { s.q with
      fences := s.q.fences ++ [{ num := n, pasid := s.arg 2, value := 0, err := false }] } }) rfl hlen (by decide) List.mem_cons_self
      (by simp)).trans (Nat.mod_eq_of_lt (by omega))
  · have hfree' : s.q.fences.find? (fun f => f.num == n) = none := hfree
    rw [State.run_fence]
    simp [State.fence, List.find?_append, hfree']
  · rw [State.run_fence]
    simp [State.fence, List.find?_append, hm.symm]

theorem fenceAllocate_refuses (harg : s.arg 0 = 0) (hpasid : s.arg 2 < 2 ^ 20) (hnone : ∀ m, m < 4096 → s.fence m ≠ none) :
    ∃ t, exec .fenceAllocate s = .next t ∧ answered s t 3 ∧ t.q = s.q := by
  have hfind : (List.range 4096).find? (fun k => (s.fence k).isNone) = none := by
    refine List.find?_eq_none.mpr fun m hm => ?_
    simpa using hnone m (List.mem_range.mp hm)
  refine ⟨_, row_lands (result := 3) (outs := []) (u := { s with ops := [] }) rfl hholds (by simp [fenceAction, harg]) ?_,
    answered_run rfl, by simp⟩
  dsimp only
  simp only [Clear.arg, Clear.fence, harg, hfind]
  rw [if_neg (by omega)]

theorem fenceFree_answers {f : Fence} (harg : s.arg 0 = 1) (hf : s.fence (s.arg 1) = some f) :
    ∃ t, exec .fenceFree s = .next t ∧ answered s t 0 ∧ outWord t 1 = f.value % 2 ^ 64
      ∧ t.fence (s.arg 1) = none ∧ (∀ m, m ≠ s.arg 1 → t.fence m = s.fence m) ∧ t.q.tasks = s.q.tasks := by
  obtain ⟨-, -, hlen⟩ := id hholds
  have hnum := State.fence_num hf
  refine ⟨_, row_lands (result := 0) (outs := [(0, f.num), (1, f.value)]) (u := { s with ops := [], q := { s.q with
      fences := s.q.fences.filter fun x => x.num != f.num } }) rfl hholds (by simp [fenceAction, harg]) ?_,
    answered_run rfl, ?_, ?_, fun m hm => ?_, by simp⟩
  · dsimp only
    simp only [Clear.arg, Clear.fence, hf]
    rw [if_neg (by omega)]
  · exact outWord_lands (s := s) (u := { s with ops := [], q := { s.q with fences := s.q.fences.filter fun x => x.num != f.num } })
      rfl hlen (by decide) (by simp) (by simp)
  · rw [State.run_fence]
    simp [State.fence, List.find?_filter, hnum]
  · rw [State.run_fence]
    simp only [State.fence, State.finishMailbox_q, List.find?_filter, hnum]
    refine congrArg (List.find? · s.q.fences) (funext fun x => ?_)
    by_cases hx : x.num = m <;> simp [hx, hm]

theorem fenceClearErr_answers {f : Fence} (harg : s.arg 0 = 2) (hf : s.fence (s.arg 1) = some f) :
    ∃ t, exec .fenceClearErr s = .next t ∧ answered s t 0 ∧ outWord t 1 = f.value % 2 ^ 64
      ∧ t.fence (s.arg 1) = some { f with err := false } ∧ (∀ m, m ≠ s.arg 1 → t.fence m = s.fence m) ∧ t.q.tasks = s.q.tasks := by
  obtain ⟨-, -, hlen⟩ := id hholds
  have hnum := State.fence_num hf
  have hview (m : Nat) : (s.run fun _ => State.finishMailbox (({ s with ops := [] } : State).setFence (s.arg 1) fun x => { x with err := false }) 0
      [(0, f.num), (1, f.value)]).fence m = (({ s with ops := [] } : State).setFence (s.arg 1) fun x => { x with err := false }).fence m := by
    rw [State.run_fence, State.fence, State.finishMailbox_q, ← State.fence]
  refine ⟨_, row_lands (result := 0) (outs := [(0, f.num), (1, f.value)])
    (u := ({ s with ops := [] } : State).setFence (s.arg 1) fun x => { x with err := false }) rfl hholds (by simp [fenceAction, harg]) ?_,
    answered_run rfl, ?_, ?_, fun m hm => ?_, by simp⟩
  · simp only [Clear.arg, Clear.fence, hf, hnum]
    rw [if_neg (by omega)]
  · exact outWord_lands (s := s) (u := ({ s with ops := [] } : State).setFence (s.arg 1) fun x => { x with err := false })
      rfl hlen (by decide) (by simp) (by simp)
  · exact (hview _).trans (State.fence_setFence_same (s := { s with ops := [] }) (f := fun x => { x with err := false }) (fun _ => rfl) hf)
  · exact (hview _).trans (State.fence_setFence_ne (s := { s with ops := [] }) (f := fun x => { x with err := false }) (fun _ => rfl) hm)
end

end Sys2Proof.Machine
end

section
/-! SUPPORT. What copy engines leave, and the close of a queue whose tasks wait. -/

namespace Sys2Proof.Machine

/-! ### Copy engines -/

/-- Only copy engines move. -/
def MovesCopy (s t : State) : Prop := ∃ engines, t = { s with q := { s.q with engines := engines } }

theorem MovesCopy.refl (s : State) : MovesCopy s s := ⟨_, rfl⟩

theorem MovesCopy.trans {s t u : State} (h : MovesCopy s t) (k : MovesCopy t u) : MovesCopy s u := by
  obtain ⟨_, rfl⟩ := h
  obtain ⟨_, rfl⟩ := k
  exact ⟨_, rfl⟩

theorem movesCopy_setCopyEngine (s : State) (c : Nat) (f : CopyEngine → CopyEngine) : MovesCopy s (s.setCopyEngine c f) := ⟨_, rfl⟩

theorem movesCopy_beginLink (s : State) (c a owner : Nat) : MovesCopy s (s.beginLink c a owner) := by
  unfold State.beginLink
  dsimp only
  split <;> exact movesCopy_setCopyEngine s c _

theorem movesCopy_takeTurn (s : State) (c : Nat) : MovesCopy s (s.takeTurn c) := by
  unfold State.takeTurn
  dsimp only
  split
  · split
    · exact movesCopy_beginLink s c _ _
    · exact .refl s
  · exact .refl s

theorem movesCopy_freeCopy (s : State) (c : Nat) : MovesCopy s (s.freeCopy c) :=
  (movesCopy_setCopyEngine s c _).trans (movesCopy_takeTurn _ c)

/-- What a queue's random draws leave when they are given up. -/
theorem dropDraws_eq (s : State) (n : Nat) :
    ∃ draws engines, s.dropDraws n = { s with rng := { s.rng with waiting := draws }, q := { s.q with engines := engines } } := by
  have hfold (cs : List Nat) (s : State) : MovesCopy s (cs.foldl (fun s c =>
      match (s.copyEngine c).task with
      | some t => if t.queue = n then s.freeCopy c else s
      | none => s) s) := by
    induction cs generalizing s with
    | nil => exact .refl s
    | cons c cs ih =>
      refine MovesCopy.trans ?_ (ih _)
      dsimp only
      split
      · split
        · exact movesCopy_freeCopy s c
        · exact .refl s
      · exact .refl s
  obtain ⟨engines, h⟩ := hfold (List.range 4) { s with rng := { s.rng with
    waiting := s.rng.waiting.filter fun w => match w with | .fill t => t.queue != n | _ => true } }
  exact ⟨_, engines, h⟩

/-! ### Stopping tasks that wait -/

/-- A task set to retire with a status, unless it already is. -/
def Task.stopped (status : Nat) (t : Task) : Task :=
  match t.phase with
  | .ending _ _ _ => t
  | _ => { t with phase := .ending status 0 false }

theorem Task.stopped_ref (status : Nat) (t : Task) : (t.stopped status).ref = t.ref := by
  unfold Task.stopped
  split <;> rfl

theorem Task.stopped_phase {status : Nat} {t : Task} (h : t.phase = .waiting ∨ t.phase = .ending status 0 false) :
    (t.stopped status).phase = .ending status 0 false := by
  unfold Task.stopped
  obtain h | h := h <;> simp [h]

theorem endTask_eq (s : State) (r : TaskRef) (status : Nat) : s.endTask r status 0 = s.setTask r (Task.stopped status) := rfl

theorem breakSignal_eq (s : State) (t : Task) : ∃ fences, s.breakSignal t = { s with q := { s.q with fences := fences } } := by
  unfold State.breakSignal
  split
  · split
    · split
      · exact ⟨_, rfl⟩
      · exact ⟨s.q.fences, rfl⟩
    · exact ⟨s.q.fences, rfl⟩
  · exact ⟨s.q.fences, rfl⟩

/-- The tasks of a list, each set to retire in turn. -/
def stopEach (status : Nat) (ts tasks : List Task) : List Task :=
  ts.foldl (fun tasks t => modifyIf (fun u => u.ref == t.ref) (Task.stopped status) tasks) tasks

theorem stopTasks_waiting (status : Nat) {ts : List Task} (hwait : ∀ t ∈ ts, t.phase = .waiting) (s : State) :
    ∃ fences, ts.foldl (fun s t => s.stopTask t status) s
      = { s with q := { s.q with fences := fences, tasks := stopEach status ts s.q.tasks } } := by
  induction ts generalizing s with
  | nil => exact ⟨_, rfl⟩
  | cons t ts ih =>
    obtain ⟨fences, hfences⟩ := breakSignal_eq s t
    have hstop : s.stopTask t status
        = { s with q := { s.q with fences := fences, tasks := modifyIf (fun u => u.ref == t.ref) (Task.stopped status) s.q.tasks } } := by
      rw [State.stopTask, hwait t List.mem_cons_self]
      simp only [hfences, endTask_eq]
      rfl
    obtain ⟨fences', h⟩ := ih (fun u hu => hwait u (List.mem_cons_of_mem _ hu)) (s.stopTask t status)
    refine ⟨fences', ?_⟩
    rw [List.foldl_cons, h, hstop]
    rfl

theorem stopEach_ends {status n : Nat} {ts tasks : List Task} (h : ∀ u ∈ tasks, u.ref.queue = n →
      u.phase = .ending status 0 false ∨ u.phase = .waiting ∧ ∃ t ∈ ts, t.ref = u.ref) :
    ∀ u ∈ stopEach status ts tasks, u.ref.queue = n → u.phase = .ending status 0 false := by
  induction ts generalizing tasks with
  | nil =>
    intro u hu hn
    obtain h | ⟨-, t, ht, -⟩ := h u hu hn
    · exact h
    · cases ht
  | cons t ts ih =>
    refine ih fun u' hu' hn => ?_
    obtain ⟨u, hu, rfl⟩ := List.mem_map.mp hu'
    by_cases href : u.ref = t.ref
    · simp only [href, beq_self_eq_true, if_true, Task.stopped_ref] at hn ⊢
      obtain hend | ⟨hwait, -⟩ := h u hu (href ▸ hn)
      · exact .inl (Task.stopped_phase (.inr hend))
      · exact .inl (Task.stopped_phase (.inl hwait))
    · simp only [beq_iff_eq, href, if_false] at hn ⊢
      obtain hend | ⟨hwait, x, hx, hxref⟩ := h u hu hn
      · exact .inl hend
      · rcases List.mem_cons.mp hx with rfl | hx
        · exact absurd hxref.symm href
        · exact .inr ⟨hwait, x, hx, hxref⟩

theorem stopEach_mem_queue {status n : Nat} {ts tasks : List Task} :
    (∃ u ∈ stopEach status ts tasks, u.ref.queue = n) ↔ ∃ u ∈ tasks, u.ref.queue = n := by
  induction ts generalizing tasks with
  | nil => rfl
  | cons t ts ih =>
    refine ih.trans ?_
    simp only [modifyIf, List.mem_map, exists_exists_and_eq_and]
    refine exists_congr fun u => and_congr_right fun _ => ?_
    by_cases href : u.ref = t.ref <;> simp [href, Task.stopped_ref]

/-! ### Closing a queue -/

/-- A queue as it closes, and with the chains counted that its close purged (R411). -/
def Queue.closing (dropped : Nat) (q : Queue) : Queue :=
  { q with state := .destroying, cause := 0, fetched := [], lane := [], hswap := none, retiredCount := 0, dropped := dropped, purged := 0 }

def Queue.purge (k : Nat) (q : Queue) : Queue := { q with purged := q.purged + k }

theorem stopAll_waiting {s : State} {n : Nat} (hwait : ∀ u ∈ s.q.tasks, u.ref.queue = n → u.phase = .waiting) (status : Nat) :
    ∃ fences draws engines k, s.stopAll n status = { s with
      rng := { s.rng with waiting := draws }
      q := { s.q with
        queues := modifyIf (fun q => q.num == n) (Queue.purge k) s.q.queues
        tasks := stopEach status (s.tasksOf n) s.q.tasks
        fences := fences
        engines := engines } } := by
  have hmine : ∀ u ∈ s.tasksOf n, u.phase = .waiting := fun u hu => by
    obtain ⟨hmem, hown⟩ := List.mem_filter.mp hu
    exact hwait u hmem (by simpa using hown)
  obtain ⟨fences, hstop⟩ := stopTasks_waiting status hmine s
  unfold State.stopAll
  rw [hstop]
  obtain ⟨draws, engines, hdraws⟩ := dropDraws_eq (((({ s with
    q := { s.q with fences := fences, tasks := stopEach status (s.tasksOf n) s.q.tasks } } : State).purgeChains n).1).setQueue n
      (Queue.purge (({ s with q := { s.q with fences := fences, tasks := stopEach status (s.tasksOf n) s.q.tasks } } : State).purgeChains n).2)) n
  exact ⟨_, draws, engines, _, hdraws⟩

/-- No slot serves a queue, and it waits for none. -/
def State.unserve (s : State) (n : Nat) : State :=
  { s with q := { s.q with
    slots := modifyIf (fun t => t.bound == some n) (fun t => { t with bound := none, burst := 0 }) s.q.slots
    waiting := s.q.waiting.filter (· != n) } }

/-- The queue is DESTROYING and its tasks are set to retire; nothing outside the queues' books moves (R411). -/
structure Closes (s t : State) (n status : Nat) : Prop where
  queue : ∃ q, t.queue n = some q ∧ q.num = n ∧ q.state = .destroying ∧ q.retiredCount = 0
  tasks : t.q.tasks = stopEach status (s.tasksOf n) s.q.tasks
  host : t.host = s.host
  grid : t.grid = s.grid
  ops : t.ops = s.ops

theorem closes_closeQueue {s : State} {n : Nat} {q : Queue} (hq : s.queue n = some q)
    (hwait : ∀ u ∈ s.q.tasks, u.ref.queue = n → u.phase = .waiting) (status : Nat) : Closes s (s.closeQueue n status) n status := by
  obtain ⟨dropped, hclose⟩ : ∃ dropped, s.closeQueue n status = ((s.setQueue n (Queue.closing dropped)).unserve n).stopAll n status := by
    refine ⟨(q.tail.toNat + 2 ^ 32 - q.head % 2 ^ 32) % 2 ^ 32 + q.fetched.length + q.lane.length, ?_⟩
    simp only [State.closeQueue, hq]
    rfl
  obtain ⟨fences, draws, engines, k, hstop⟩ := stopAll_waiting (s := (s.setQueue n (Queue.closing dropped)).unserve n) hwait status
  rw [hclose, hstop]
  refine ⟨⟨(q.closing dropped).purge k, ?_, show q.num = n from State.queue_num hq, rfl, rfl⟩, rfl, rfl, rfl, rfl⟩
  exact State.queue_setQueue_same (s := s.setQueue n (Queue.closing dropped)) (f := Queue.purge k) (fun _ h => h)
    (State.queue_setQueue_same (f := Queue.closing dropped) (fun _ h => h) hq)

/-! ### QUEUE_DESTROY -/

section
variable {s : State} {n : Nat} {q : Queue} (hholds : holdsCommand s 0x0102) (harg : s.arg 0 = n) (hq : s.queue n = some q)
  (hopen : q.state ≠ .destroying)
include hholds harg hq hopen

/-- A queue that is not yet DESTROYING is closed, and settled where no task of it is left. -/
theorem queueDestroy_lands :
    exec .queueDestroy s
      = .next (s.run fun _ => (State.closeQueue { s with ops := [], host := { s.host with wait := .destroy n } } n 0x0101).settleQueues) := by
  obtain ⟨hop, hsession, -⟩ := hholds
  have hop' : ({ s with ops := [] } : State).adminHolds 0x0102 = true := hop
  have hnum : q.num = n := State.queue_num hq
  refine exec_lands rfl ?_
  simp only [hop', hsession, Clear.arg, Clear.queue, harg, hq, hopen, hnum, Bool.not_true, Bool.false_eq_true, if_false]

theorem queueDestroy_frees (hidle : ∀ u ∈ s.q.tasks, u.ref.queue ≠ n) : ∃ t, exec .queueDestroy s = .next t ∧ answered s t 0
    ∧ t.queue n = none ∧ outWord t 0 = 0 ∧ t.q.tasks = s.q.tasks ∧ t.grid = s.grid ∧ t.mem = s.mem := by
  obtain ⟨-, -, hlen⟩ := id hholds
  obtain ⟨x, hx⟩ : ∃ x, x = State.closeQueue { s with ops := [], host := { s.host with wait := .destroy n } } n 0x0101 := ⟨_, rfl⟩
  have hcloses := closes_closeQueue (s := { s with ops := [], host := { s.host with wait := .destroy n } }) hq
    (fun u hu hn => absurd hn (hidle u hu)) 0x0101
  have hlands := queueDestroy_lands hholds harg hq hopen
  rw [← hx] at hcloses hlands
  obtain ⟨⟨q', hq', hnum, -, hcount⟩, htasks, hhost, hgrid, hops⟩ := hcloses
  have hnone : s.tasksOf n = [] := List.filter_eq_nil_iff.mpr fun u hu => by simpa using hidle u hu
  have hstand : x.q.tasks = s.q.tasks := htasks.trans (congrArg (stopEach 0x0101 · s.q.tasks) hnone)
  have hempty : x.tasksOf n = [] := (congrArg (List.filter fun u : Task => u.ref.queue == n) hstand).trans hnone
  obtain ⟨y, hy⟩ : ∃ y : State, y = { x with q := { x.q with queues := x.q.queues.filter fun z => z.num != n } } := ⟨_, rfl⟩
  have hsettle : x.settleQueues = y.finishMailbox 0 [(0, q'.retiredCount), (1, q'.dropped), (2, q'.purged)] := by
    have hfor : x.host.wait = .destroy n := by rw [hhost]
    simp only [State.settleQueues, hfor, hq', hempty, hy, List.isEmpty_nil, if_true]
  rw [hsettle] at hlands
  have hyhost : y.host = { s.host with wait := .destroy n } := by rw [hy]; exact hhost
  refine ⟨_, hlands, answered_run (by rw [hyhost]), ?_, ?_, by simp [hy, hstand], by simp [hy, hgrid], State.run_mem_same s _ (by simp [hy, hops])⟩
  · simp [State.queue, hy, List.find?_filter]
  · rw [outWord_lands (v := q'.retiredCount) (by rw [hyhost]) hlen (by decide) List.mem_cons_self (by simp), hcount, Nat.zero_mod]

theorem queueDestroy_closes (hbusy : ∃ u ∈ s.q.tasks, u.ref.queue = n) (hwait : ∀ u ∈ s.q.tasks, u.ref.queue = n → u.phase = .waiting) :
    ∃ t x, exec .queueDestroy s = .next t ∧ t.host.busy = true ∧ t.queue n = some x ∧ x.state = .destroying
      ∧ (∀ u ∈ t.q.tasks, u.ref.queue = n → u.phase = .ending 0x0101 0 false) ∧ t.mem = s.mem := by
  obtain ⟨x, hx⟩ : ∃ x, x = State.closeQueue { s with ops := [], host := { s.host with wait := .destroy n } } n 0x0101 := ⟨_, rfl⟩
  have hcloses := closes_closeQueue (s := { s with ops := [], host := { s.host with wait := .destroy n } }) hq hwait 0x0101
  have hlands := queueDestroy_lands hholds harg hq hopen
  rw [← hx] at hcloses hlands
  obtain ⟨⟨q', hq', hnum, hstate, -⟩, htasks, hhost, hgrid, hops⟩ := hcloses
  have hleft : ¬(x.tasksOf n).isEmpty = true := by
    obtain ⟨u, hu, hn⟩ := (stopEach_mem_queue (status := 0x0101) (ts := s.tasksOf n)).mpr hbusy
    have hmem : u ∈ x.tasksOf n := List.mem_filter.mpr ⟨htasks ▸ hu, by simpa using hn⟩
    simpa using List.ne_nil_of_mem hmem
  have hsettle : x.settleQueues = x := by
    have hfor : x.host.wait = .destroy n := by rw [hhost]
    simp only [State.settleQueues, hfor, hq', hleft, Bool.false_eq_true, if_false]
  rw [hsettle] at hlands
  have hbusy' : s.host.busy = true := by
    obtain ⟨hop, -, -⟩ := hholds
    simp only [State.adminHolds, Bool.and_eq_true] at hop
    exact hop.1.1.2
  refine ⟨_, q', hlands, by simp [hhost, hbusy'], by simp [hq'], hstate, fun u hu hn => ?_, State.run_mem_same s _ hops⟩
  rw [State.run_q, htasks] at hu
  refine stopEach_ends (fun u hu hn => .inr ⟨hwait u hu hn, u, List.mem_filter.mpr ⟨hu, by simpa using hn⟩, rfl⟩) u hu hn
end

/-- Settles O33: each command is carried out on the one queue or fence that its arguments name. -/
theorem queuesAndFencesAreMadeAndUnmade : Obligations.QueuesAndFencesAreMadeAndUnmade := by
  refine ⟨fun s n hn => ⟨queueCreate_answers hn, fun hholds _ hbad => queueCreate_refuses hholds hbad,
    fun q hholds harg hq _ => queueQuery_answers hn hholds harg hq, fun q hholds harg hq hguilty => queueRearm_answers hholds harg hq hguilty,
    fun q hholds harg hq hopen => ⟨queueDestroy_frees hholds harg hq hopen, queueDestroy_closes hholds harg hq hopen⟩⟩, fun s hholds =>
    ⟨fun n => fenceAllocate_answers hholds, fenceAllocate_refuses hholds, fun f => fenceFree_answers hholds, fun f => fenceClearErr_answers hholds⟩⟩

end Sys2Proof.Machine
end

section
/-! SUPPORT. What the retirement of a task moves, dispatch, and the tasks that retire at once. -/

namespace Sys2Proof.Machine

/-! ### What sending moves -/

/-- Only the host port and what the device has sent move; the mailbox waits as before. -/
def Sends (s t : State) : Prop := ∃ host out, t = { s with host := host, out := out } ∧ host.wait = s.host.wait

theorem Sends.refl (s : State) : Sends s s := ⟨_, _, rfl, rfl⟩

theorem Sends.trans {s t u : State} (h : Sends s t) (k : Sends t u) : Sends s u := by
  obtain ⟨_, _, rfl, hwait⟩ := h
  obtain ⟨_, _, rfl, hwait'⟩ := k
  exact ⟨_, _, rfl, hwait'.trans hwait⟩

theorem Sends.ite {c : Prop} [Decidable c] {s t u : State} (ht : Sends s t) (hu : Sends s u) : Sends s (if c then t else u) := by
  split
  · exact ht
  · exact hu

theorem sends_hostWrite (s : State) (pasid : Option Nat) (a : Nat) (bs : List Byte) (poison : Bool) :
    Sends s (s.hostWrite pasid a bs poison) := .ite ⟨_, _, rfl, rfl⟩ (.refl s)

theorem sends_signal (s : State) (v : Nat) : Sends s (s.signal v) := .ite ⟨_, _, rfl, rfl⟩ (.ite ⟨_, _, rfl, rfl⟩ (.refl s))

theorem sends_writeRecord (s : State) (h : HeldRecord) : Sends s (s.writeRecord h) := by
  unfold State.writeRecord
  have hsent : Sends s ((s.hostWrite (some h.pasid) (h.addr + 8) (h.bytes.drop 8)).hostWrite (some h.pasid) h.addr (h.bytes.take 8)) :=
    (sends_hostWrite s _ _ _ _).trans (sends_hostWrite _ _ _ _ _)
  exact .ite (hsent.trans (sends_signal _ _)) hsent

theorem sends_writeDone (s : State) (old new : Queue) : Sends s (s.writeDone old new) := by
  unfold State.writeDone
  dsimp only
  have hdone : Sends s (if new.doneSeq = old.doneSeq then s else s.hostWrite (some new.pasid) new.doneAddr (toBytesLE 8 new.doneSeq)) :=
    .ite (.refl s) (sends_hostWrite s _ _ _ _)
  exact .ite hdone (hdone.trans (sends_hostWrite _ _ _ _ _))

/-- Retirement moves the host port, what is sent, the queues' books and the scoreboard (R403-R406). -/
def Retires (s t : State) : Prop :=
  ∃ host out queues tasks, t = { s with host := host, out := out, q := { s.q with queues := queues, tasks := tasks } }
    ∧ host.wait = s.host.wait

theorem Retires.trans {s t u : State} (h : Retires s t) (k : Retires t u) : Retires s u := by
  obtain ⟨_, _, _, _, rfl, hwait⟩ := h
  obtain ⟨_, _, _, _, rfl, hwait'⟩ := k
  exact ⟨_, _, _, _, rfl, hwait'.trans hwait⟩

theorem Sends.retires {s t : State} (h : Sends s t) : Retires s t := by
  obtain ⟨host, out, rfl, hwait⟩ := h
  exact ⟨host, out, _, _, rfl, hwait⟩

theorem retires_retire (s : State) (u : Task) (status detail : Nat) (fenceErr writes : Bool) :
    Retires s (s.retire u status detail fenceErr writes) := by
  unfold State.retire
  split
  · exact ⟨_, _, _, _, rfl, rfl⟩
  next q hq =>
    have hbooks (new : Queue) : Retires s (s.setQueue q.num fun _ => new) := ⟨_, _, _, _, rfl, rfl⟩
    have hsends (x : State) (new : Queue) (h h' : HeldRecord) (v : Nat) (held : List HeldRecord) : Sends x
        (if !writes then { x with host := { x.host with unwritten := x.host.unwritten + 1 } }
          else if x.hostOpen then
            if h.signal then ((x.writeRecord h').writeDone q new).signal v else (x.writeRecord h').writeDone q new
          else { x with host := { x.host with heldRecords := held } }) := by
      have hdone := (sends_writeRecord x h').trans (sends_writeDone _ q new)
      exact .ite ⟨_, _, rfl, rfl⟩ (.ite (.ite (hdone.trans (sends_signal _ _)) hdone) ⟨_, _, rfl, rfl⟩)
    exact ((hbooks _).trans (hsends _ _ _ _ _ _).retires).trans ⟨_, _, _, _, rfl, rfl⟩

section
variable (s : State) (u : Task) (status detail : Nat) (fenceErr writes : Bool)

@[simp] theorem State.retire_fences : (s.retire u status detail fenceErr writes).q.fences = s.q.fences := by
  obtain ⟨_, _, _, _, h, -⟩ := retires_retire s u status detail fenceErr writes
  rw [h]

@[simp] theorem State.retire_slots : (s.retire u status detail fenceErr writes).q.slots = s.q.slots := by
  obtain ⟨_, _, _, _, h, -⟩ := retires_retire s u status detail fenceErr writes
  rw [h]

@[simp] theorem State.retire_grid : (s.retire u status detail fenceErr writes).grid = s.grid := by
  obtain ⟨_, _, _, _, h, -⟩ := retires_retire s u status detail fenceErr writes
  rw [h]

@[simp] theorem State.retire_ops : (s.retire u status detail fenceErr writes).ops = s.ops := by
  obtain ⟨_, _, _, _, h, -⟩ := retires_retire s u status detail fenceErr writes
  rw [h]

@[simp] theorem State.retire_mem : (s.retire u status detail fenceErr writes).mem = s.mem := by
  obtain ⟨_, _, _, _, h, -⟩ := retires_retire s u status detail fenceErr writes
  rw [h]

@[simp] theorem State.retire_wait : (s.retire u status detail fenceErr writes).host.wait = s.host.wait := by
  obtain ⟨_, _, _, _, h, hwait⟩ := retires_retire s u status detail fenceErr writes
  rw [h]
  exact hwait
end

/-! ### A command that retires a task -/

theorem retired_run {s u : State} {x : Task} {q : Queue} {status detail : Nat} {fenceErr : Bool}
    (h : retired { s with ops := [] } u x q status detail fenceErr) : retired s (s.run fun _ => u) x q status detail fenceErr := by
  obtain ⟨hgone, hbooks, hsent⟩ := h
  exact ⟨by simpa using hgone, by simpa using hbooks, by simpa using hsent⟩

/-- The state after a command that only retires task x. -/
theorem retires_lands {s u : State} {x : Task} {q : Queue} {status detail : Nat} {fenceErr : Bool} (hopen : s.hostOpen = true)
    (hq : s.queue x.ref.queue = some q) {fw : Fw} {fences : List Fence}
    (hu : u = State.retire { s with ops := [], fw := fw, q := { s.q with fences := fences } } x status detail fenceErr) :
    retired s (s.run fun _ => u) x q status detail fenceErr ∧ (s.run fun _ => u).q.fences = fences
      ∧ (s.run fun _ => u).grid = s.grid ∧ (s.run fun _ => u).mem = s.mem := by
  have hopen' : ({ s with ops := [], fw := fw, q := { s.q with fences := fences } } : State).hostOpen = true := hopen
  have hretired := retired_retire hopen' (u := x) (q := q) hq status detail fenceErr
  rw [← hu] at hretired
  refine ⟨retired_run hretired, by simp [hu], by simp [hu], State.run_mem_same s _ (by simp [hu])⟩

/-! ### Dispatch -/

theorem hostOpen_of_admitting {s : State} (h : s.admitting = true) : s.hostOpen = true := by
  rw [State.admitting, Bool.and_eq_true] at h
  exact h.2

theorem admitting_of_mayDispatch {s : State} {u : Task} (h : s.mayDispatch u = true) : s.admitting = true := by
  simp only [State.mayDispatch, Bool.and_eq_true] at h
  exact h.1.1

/-- The control core dispatches a task that is ready and first (R395). -/
theorem dispatch_due {s : State} {r : TaskRef} {u : Task} (hu : s.task r = some u) (hmay : s.mayDispatch u = true) (f : Task → State → State) :
    ({ s with ops := [] } : State).dispatch r u.opcode f = f u { s with ops := [] } := by
  have hu' : ({ s with ops := [] } : State).task r = some u := hu
  have hmay' : ({ s with ops := [] } : State).mayDispatch u = true := hmay
  simp only [State.dispatch, hu', hmay', beq_self_eq_true, Bool.and_self, if_true]

/-! ### TASK_RETIRE -/

section
variable {s : State} {ref : TaskRef} {u : Task} {q : Queue} {status detail : Nat} {fenceErr : Bool} (v : HostView) (hlive : s.live = true)
  (hcore : s.fw.noCore = false) (hwait : s.host.wait = .none) (hq : s.queue ref.queue = some q) (hu : s.task ref = some u)
  (hphase : u.phase = .ending status detail fenceErr) (hmay : s.mayRetire u = true)
include hlive hcore hwait hq hu hphase hmay

theorem taskRetire_lands : ∃ fw, exec (.taskRetire ref v) s
    = .next (s.run fun _ => State.retire { s with ops := [], fw := fw } u status detail fenceErr) := by
  obtain ⟨fw, hfw⟩ := State.reloadEngines_eq { s with ops := [] } (bitsOf 8 u.engines)
  refine ⟨fw, exec_lands_live rfl hlive ?_⟩
  have hidle : State.settleQueues (State.retire { s with ops := [], fw := fw } u status detail fenceErr)
      = State.retire { s with ops := [], fw := fw } u status detail fenceErr := State.settleQueues_of_idle (by rw [State.retire_wait, hwait])
  have hwrites : (MbxWait.none != .attachEnd) = true := rfl
  simp [hu, hq, hphase, hmay, hcore, hwait, hfw, hwrites, hidle]

/-- Out of the host's reach the record is held (R370). -/
theorem taskRetire_holds (hclosed : s.hostOpen = false) : ∃ t, exec (.taskRetire ref v) s = .next t
    ∧ (∀ x ∈ t.q.tasks, x.ref ≠ ref) ∧ t.queue ref.queue = some (q.retireSeq ref.seq status)
    ∧ (∃ h, t.host.heldRecords = s.host.heldRecords ++ [h] ∧ h.seq = ref.seq ∧ h.bytes = recordBytes u status detail fenceErr)
    ∧ t.out = s.out ∧ t.grid = s.grid ∧ t.mem = s.mem := by
  obtain ⟨fw, hlands⟩ := taskRetire_lands v hlive hcore hwait hq hu hphase hmay
  obtain rfl : u.ref = ref := State.task_ref hu
  have hnum : q.num = u.ref.queue := State.queue_num hq
  have hretire : State.retire { s with ops := [], fw := fw } u status detail fenceErr
      = { ({ s with ops := [], fw := fw } : State).setQueue q.num fun _ => q.retireSeq u.ref.seq status with
          host := { s.host with heldRecords := s.host.heldRecords ++ [q.record u status detail fenceErr] }
          q := { (({ s with ops := [], fw := fw } : State).setQueue q.num fun _ => q.retireSeq u.ref.seq status).q with
            tasks := (s.q.tasks.filter fun x => x.ref != u.ref).map fun x => x.resolve u.ref (decide (0x0100 ≤ status)) } } := by
    have hq' : ({ s with ops := [], fw := fw } : State).queue u.ref.queue = some q := hq
    have hclosed' : (({ s with ops := [], fw := fw } : State).setQueue q.num fun _ => q.retireSeq u.ref.seq status).hostOpen = false := hclosed
    simp only [State.retire, hq', hclosed', Bool.not_true, Bool.false_eq_true, if_false]
    rfl
  rw [hretire] at hlands
  refine ⟨_, hlands, fun x hx => ?_, ?_, ⟨q.record u status detail fenceErr, by simp, rfl, rfl⟩, by simp, by simp, State.run_mem_same s _ (by simp)⟩
  · rw [State.run_q] at hx
    obtain ⟨y, hy, rfl⟩ := List.mem_map.mp hx
    simpa using (List.mem_filter.mp hy).2
  · rw [State.run_queue, hnum]
    exact State.queue_setQueue_same (s := { s with ops := [], fw := fw }) (f := fun _ => q.retireSeq u.ref.seq status)
      (fun _ _ => by simp [hnum]) hq
end

/-- Settles O43: whatever task retires does so by `State.retire`, whose record is the first thing sent. -/
theorem tasksRetireWithTheirRecords : Obligations.TasksRetireWithTheirRecords := by
  intro s ref u q hu hq
  obtain rfl : u.ref = ref := State.task_ref hu
  have hopens (hmay : s.mayDispatch u = true) : s.hostOpen = true := hostOpen_of_admitting (admitting_of_mayDispatch hmay)
  refine ⟨fun hop hmay => ?nop, fun hop hmay => ?signal, fun f hop hmay hf => ⟨fun hcome => ?come, fun hwait => ?registers⟩,
    fun f hopen hop hsince hphase hf hcome => ?satisfied, fun v st de fe hlive hphase hmay hcore hwait => ⟨fun hopen => ?retires, ?held⟩⟩
  case nop =>
    exact ⟨_, exec_lands rfl (by rw [← hop]; exact dispatch_due hu hmay _), retires_lands (fw := s.fw) (fences := s.q.fences) (hopens hmay) hq rfl⟩
  case signal =>
    obtain ⟨hretired, hfences, hgrid, hmem⟩ := retires_lands (fw := s.fw) (x := u) (q := q) (status := 0) (detail := 0) (fenceErr := false)
      (fences := modifyIf (fun x => x.num == u.pattern) (fun f => { f with value := max f.value u.fenceValue }) s.q.fences) (hopens hmay) hq rfl
    refine ⟨_, exec_lands rfl (by rw [← hop]; exact dispatch_due hu hmay _), hretired, hgrid, hmem, fun f hf => ?_, fun m hm => ?_⟩
    · rw [State.fence, hfences]
      exact State.fence_setFence_same (f := fun f => { f with value := max f.value u.fenceValue }) (fun _ => rfl) hf
    · rw [State.fence, hfences]
      exact State.fence_setFence_ne (f := fun f => { f with value := max f.value u.fenceValue }) (fun _ => rfl) hm
  case come =>
    refine ⟨_, exec_lands rfl ?_, retires_lands (fw := s.fw) (fences := s.q.fences) (hopens hmay) hq rfl⟩
    rw [← hop, dispatch_due hu hmay]
    simp only [Clear.fence, hf, hcome, if_true]
  case registers =>
    refine ⟨_, exec_lands (u := ({ s with ops := [] } : State).setTask u.ref fun t => { t with waitSince := some s.cnt.stitch }) rfl ?_, ?_,
      by simp, by simp, by simp, by simp, State.run_mem_same s _ rfl⟩
    · rw [← hop, dispatch_due hu hmay]
      simp only [Clear.fence, hf, Nat.not_le.mpr hwait, if_false]
    · rw [State.run_task, State.task_setTask (f := fun t => { t with waitSince := some s.cnt.stitch }) _ _ fun _ => rfl,
        show ({ s with ops := [] } : State).task u.ref = some u from hu]
      rfl
  case satisfied =>
    obtain ⟨hlive, -, -⟩ := s.hostOpen_iff.mp hopen
    refine ⟨_, exec_lands_live rfl hlive ?_, retires_lands (fw := s.fw) (fences := s.q.fences) hopen hq rfl⟩
    simp only [Clear.task, Clear.fence, hu, hf, hop, hsince, hphase, hcome, and_self, if_true]
  case retires =>
    obtain ⟨fw, hlands⟩ := taskRetire_lands v hlive hcore hwait hq hu hphase hmay
    exact ⟨_, hlands, retires_lands (fw := fw) (fences := s.q.fences) hopen hq rfl⟩
  case held => exact taskRetire_holds v hlive hcore hwait hq hu hphase hmay

end Sys2Proof.Machine
end

section
/-! SUPPORT. The headgate: slots, fetching, admission and ageing. -/

namespace Sys2Proof.Machine

/-! ### Slots -/

theorem State.releaseSlot_eq (s : State) (slot : Nat) :
    ∃ slots waiting, s.releaseSlot slot = { s with q := { s.q with slots := slots, waiting := waiting } } := by
  unfold State.releaseSlot
  split
  · obtain ⟨waiting, h⟩ := State.noteWork_eq { s with
      q := { s.q with slots := modifyAt (fun t => { t with bound := none, burst := 0 }) slot s.q.slots } } ‹_›
    exact ⟨_, waiting, h⟩
  · exact ⟨_, _, rfl⟩

theorem State.slot_releaseSlot {s : State} {slot n : Nat} (hbound : (s.slot slot).bound = some n) (hlen : slot < s.q.slots.length) :
    ((s.releaseSlot slot).slot slot).bound = none ∧ ∀ j, j ≠ slot → (s.releaseSlot slot).slot j = s.slot j := by
  rw [State.releaseSlot, hbound]
  refine ⟨?_, fun j hj => ?_⟩
  · simp only [State.slot, State.noteWork_slots]
    rw [getD_modifyAt_same hlen]
  · simp only [State.slot, State.noteWork_slots]
    exact getD_modifyAt_ne hj _ _ _

section
variable (s : State) (slot : Nat)

@[simp] theorem State.releaseSlot_queues : (s.releaseSlot slot).q.queues = s.q.queues := by obtain ⟨_, _, h⟩ := s.releaseSlot_eq slot; rw [h]
@[simp] theorem State.releaseSlot_queue (n : Nat) : (s.releaseSlot slot).queue n = s.queue n := by
  obtain ⟨_, _, h⟩ := s.releaseSlot_eq slot; rw [h]; rfl
@[simp] theorem State.releaseSlot_tasks : (s.releaseSlot slot).q.tasks = s.q.tasks := by obtain ⟨_, _, h⟩ := s.releaseSlot_eq slot; rw [h]
@[simp] theorem State.releaseSlot_ops : (s.releaseSlot slot).ops = s.ops := by obtain ⟨_, _, h⟩ := s.releaseSlot_eq slot; rw [h]
end

/-- A queue without work, or that waits out a failed fetch, begins no wait for a slot (R374). -/
theorem State.noteWork_of_backoff {s : State} {n : Nat} {q : Queue} (hq : s.queue n = some q) (hback : q.backoff = true) : s.noteWork n = s := by
  simp [State.noteWork, hq, hback]

/-- A queue with work that no slot serves waits for one (R394). -/
theorem State.mem_waiting_noteWork {s : State} {n : Nat} {q : Queue} (hq : s.queue n = some q) (hwork : q.work = true)
    (hfree : s.boundTo n = false) (hback : q.backoff = false) : n ∈ (s.noteWork n).q.waiting := by
  by_cases hin : n ∈ s.q.waiting
  · simp [State.noteWork, hq, hin]
  · simp [State.noteWork, hq, hwork, hfree, hback, hin]

/-! ### Admission -/

/-- The slot goes on with its queue while there is work for it, or releases it (R394). -/
def State.keepSlot (s : State) (slot n : Nat) : State :=
  match s.queue n with
  | some q => if q.work && decide ((s.slot slot).burst < 64 ∨ !q.fetched.isEmpty) then s else s.releaseSlot slot
  | none => s

theorem State.keepSlot_eq (s : State) (slot n : Nat) :
    ∃ slots waiting, s.keepSlot slot n = { s with q := { s.q with slots := slots, waiting := waiting } } := by
  unfold State.keepSlot
  split
  · split
    · exact ⟨_, _, rfl⟩
    · exact s.releaseSlot_eq slot
  · exact ⟨_, _, rfl⟩

/-- A queue's next fetched descriptor is taken (R391). -/
def Queue.taken (p : Nat) (q : Queue) : Queue := { q with fetched := q.fetched.drop 1, admitted := p + 1 }

/-- The state in which a fetched descriptor is admitted: the channels are awake where its block is read, its place in order is
taken. -/
def State.taking (s : State) (wake : Bool) (n p : Nat) : State :=
  let s := (if wake then s.wakeChannels else s).setQueue n (Queue.taken p)
  { s with q := { s.q with nextOrder := s.q.nextOrder + 1 } }

section
variable (s : State) (wake : Bool) (n p : Nat)

@[simp] theorem State.taking_q : (s.taking wake n p).q
    = { s.q with queues := modifyIf (fun q => q.num == n) (Queue.taken p) s.q.queues, nextOrder := s.q.nextOrder + 1 } := by
  cases wake <;> simp [State.taking]

@[simp] theorem State.taking_grid : (s.taking wake n p).grid = s.grid := by cases wake <;> simp [State.taking]
@[simp] theorem State.taking_ops : (s.taking wake n p).ops = s.ops := by cases wake <;> simp [State.taking]
@[simp] theorem State.taking_out : (s.taking wake n p).out = s.out := by cases wake <;> simp [State.taking]
@[simp] theorem State.taking_host : (s.taking wake n p).host = s.host := by cases wake <;> simp [State.taking]
@[simp] theorem State.taking_boot : (s.taking wake n p).boot = s.boot := by cases wake <;> simp [State.taking]

@[simp] theorem State.taking_board : (s.taking wake n p).board = s.board := by
  obtain ⟨_, _, h⟩ := wakes_wakeChannels s
  cases wake
  · rfl
  · simp only [State.taking, if_true, h]
    rfl
end

section
variable {s : State} {slot n p from_ : Nat} {q : Queue} {d : List Byte} {rest : List (Nat × Nat × List Byte)}
  (hadmit : s.admitting = true) (hbound : (s.slot slot).bound = some n) (hq : s.queue n = some q) (hlane : q.lane = [])
  (hfetched : q.fetched = (p, from_, d) :: rest) (hswap : q.hswap = none) (hfits : p + 1 ≤ q.doneSeq + q.size)
  (hquota : s.unretired n < q.quota) (htasks : s.q.tasks.length < 262144)
include hadmit hbound hq hlane hfetched hswap hfits hquota htasks

/-- A descriptor for which there is room enters the scoreboard, or retires at once (R380, R391). -/
theorem taskAdmit_lands {x : Task} {r : Option (Nat × Nat)} (hadm : s.admission q d { queue := n, seq := p + 1 } from_ none = (x, r))
    (hedges : s.edgesUsed + x.edges.length ≤ 1048576) (hactive : r = none ∨ q.state = .active) :
    ∃ wake, exec (.taskAdmit slot) s = .next (s.run fun _ => (match r with
      | some (status, detail) => (State.taking { s with ops := [] } wake n p).retire x status detail false
      | none => { State.taking { s with ops := [] } wake n p with
          q := { (State.taking { s with ops := [] } wake n p).q with
            tasks := (State.taking { s with ops := [] } wake n p).q.tasks ++ [x] } }).keepSlot slot n) := by
  have hnum : q.num = n := State.queue_num hq
  have hnext : q.nextDescriptor = some (false, p, from_, d) := by rw [Queue.nextDescriptor, hlane, hfetched]
  refine ⟨decide ((blockSize x.opcode).getD 0 ≠ 0 ∨ 4 < fieldOf d 6 2), exec_lands rfl ?_⟩
  have hroom : (decide (s.unretired n < q.quota) && decide (s.q.tasks.length < 262144)
      && decide (s.edgesUsed + x.edges.length ≤ 1048576)) = true := by simp [hquota, htasks, hedges]
  have hfits' : decide (p + 1 ≤ q.doneSeq + q.size) = true := decide_eq_true hfits
  simp only [Clear.admitting, hadmit, Clear.slot, hbound, Option.bind_some, Clear.queue, hq, hnext, hswap, Bool.false_eq_true, if_false, Bool.not_true,
    Bool.not_false, Bool.and_false, hnum, Clear.admission, hadm, Clear.unretired, Clear.edgesUsed, hfits', Bool.false_or, hroom]
  have hwakes (x y : State) (b : Prop) [Decidable b] : (if b then x else y) = if decide b = true then x else y := by simp
  rw [hwakes]
  obtain rfl | hactive := hactive
  · rfl
  · cases r with
    | none => rfl
    | some r =>
      simp only [hactive, reduceCtorEq, if_false]
      rfl

theorem taskAdmit_enters {x : Task} (hadm : s.admission q d { queue := n, seq := p + 1 } from_ none = (x, none))
    (hedges : s.edgesUsed + x.edges.length ≤ 1048576) : ∃ t, exec (.taskAdmit slot) s = .next t ∧ t.q.tasks = s.q.tasks ++ [x]
      ∧ t.q.nextOrder = s.q.nextOrder + 1 ∧ t.queue n = some { q with fetched := rest, admitted := p + 1 }
      ∧ t.grid = s.grid ∧ t.mem = s.mem ∧ t.out = s.out := by
  obtain ⟨wake, hlands⟩ := taskAdmit_lands hadmit hbound hq hlane hfetched hswap hfits hquota htasks hadm hedges (.inl rfl)
  obtain ⟨y, hy⟩ : ∃ y, y = { State.taking { s with ops := [] } wake n p with
    q := { (State.taking { s with ops := [] } wake n p).q with tasks := (State.taking { s with ops := [] } wake n p).q.tasks ++ [x] } } := ⟨_, rfl⟩
  obtain ⟨slots, waiting, hkeep⟩ := y.keepSlot_eq slot n
  simp only [← hy, hkeep] at hlands
  have hqueue : y.queue n = some { q with fetched := rest, admitted := p + 1 } := by
    have hset := State.queue_setQueue_same (f := Queue.taken p) (fun _ h => h) hq
    rw [Queue.taken, hfetched] at hset
    rw [hy, State.queue]
    simp only [State.taking_q]
    exact hset
  exact ⟨_, hlands, by simp [hy], by simp [hy], by rw [State.run_queue]; exact hqueue, by simp [hy], State.run_mem_same s _ (by simp [hy]), by simp [hy]⟩

/-- A descriptor that fails a check retires at once with CONFIG_REFUSED (R380, R404). -/
theorem taskAdmit_refuses {off : Nat} (hactive : q.state = .active) (hrefused : descriptorRefusal q d = some off) (hedges : s.edgesUsed ≤ 1048576)
    (hseq : p < 2 ^ 63 - 1) : ∃ t x, exec (.taskAdmit slot) s = .next t ∧ x.ref = { queue := n, seq := p + 1 }
      ∧ retired s t x { q with fetched := rest, admitted := p + 1 } 0x0200 off false := by
  have hplain : isSprout (p + 1) = false := decide_eq_false (by omega)
  obtain ⟨x, hx, hxref, hxedges⟩ : ∃ x : Task, s.admission q d { queue := n, seq := p + 1 } from_ none = (x, some (0x0200, off))
      ∧ x.ref = { queue := n, seq := p + 1 } ∧ x.edges = [] := by
    simp only [State.admission, hactive, hplain, hrefused, reduceCtorEq, if_false, Bool.false_and, Bool.false_eq_true]
    exact ⟨_, rfl, rfl, rfl⟩
  obtain ⟨wake, hlands⟩ := taskAdmit_lands hadmit hbound hq hlane hfetched hswap hfits hquota htasks hx (by simp [hxedges, hedges]) (.inr hactive)
  obtain ⟨y, hy⟩ : ∃ y, y = State.taking { s with ops := [] } wake n p := ⟨_, rfl⟩
  obtain ⟨slots, waiting, hkeep⟩ := (y.retire x 0x0200 off false).keepSlot_eq slot n
  simp only [← hy, hkeep] at hlands
  have hqueue : y.queue x.ref.queue = some { q with fetched := rest, admitted := p + 1 } := by
    have hset := State.queue_setQueue_same (f := Queue.taken p) (fun _ h => h) hq
    rw [Queue.taken, hfetched] at hset
    rw [hy, State.queue, hxref]
    simp only [State.taking_q]
    exact hset
  have hopen : y.hostOpen = true := by
    have h := hostOpen_of_admitting hadmit
    simpa [hy, State.hostOpen, State.live] using h
  obtain ⟨hgone, hbooks, hsent⟩ := retired_retire hopen hqueue 0x0200 off false
  refine ⟨_, x, hlands, hxref, retired_run ⟨hgone, hbooks, ?_⟩⟩
  simpa [hy] using hsent
end

/-! ### Binding, fetching and ageing -/

section
variable {s : State} {slot n : Nat} {q : Queue} (hq : s.queue n = some q)
include hq

omit hq in
theorem slotBind_binds (hadmit : s.admitting = true) (hslot : slot < 32) (hlen : s.q.slots.length = 32) (hfree : (s.slot slot).bound = none)
    (hon : natBit (s.slot slot).cfg.force 2 = true)
    (hfirst : s.q.waiting.find? (fun m => (s.queue m).map (·.level) == some ((s.slot slot).cfg.force % 4)) = some n) :
    ∃ t, exec (.slotBind slot n) s = .next t ∧ (t.slot slot).bound = some n ∧ (t.slot slot).burst = 0 ∧ n ∉ t.q.waiting
      ∧ (∀ j, j ≠ slot → t.slot j = s.slot j) ∧ t.q.queues = s.q.queues ∧ t.q.tasks = s.q.tasks := by
  have hlt : slot < s.q.slots.length := hlen ▸ hslot
  refine ⟨_, exec_lands (u := { s with
      ops := []
      q := { s.q with
        slots := modifyAt (fun t => { t with bound := some n, burst := 0 }) slot s.q.slots
        waiting := s.q.waiting.filter (· != n) } }) rfl ?_, ?_, ?_, by simp, fun j hj => ?_, by simp, by simp⟩
  · simp only [Clear.admitting, Clear.slot, Clear.queue, hadmit, hslot, hfree, hon, hfirst]
    exact if_pos (by simp)
  · rw [State.run_slot, State.slot, getD_modifyAt_same hlt]
  · rw [State.run_slot, State.slot, getD_modifyAt_same hlt]
  · rw [State.run_slot, State.slot, getD_modifyAt_ne hj]
    rfl

section
variable (hadmit : s.admitting = true) (hlen : slot < s.q.slots.length) (hbound : (s.slot slot).bound = some n) (hfetch : s.fetchable q = true)
  (hburst : (s.slot slot).burst < 64)
include hadmit hlen hbound hfetch hburst

theorem descriptorFetch_fetches (d : List Byte) : ∃ t, exec (.descriptorFetch slot (some d)) s = .next t
    ∧ t.queue n = some { q with fetched := q.fetched ++ [(q.head, slot, d)], head := q.head + 1 }
    ∧ (t.slot slot).burst = (s.slot slot).burst + 1 ∧ (t.slot slot).fetched = ((s.slot slot).fetched + 1) % 2 ^ 64
    ∧ (∀ m, m ≠ n → t.queue m = s.queue m) ∧ t.q.tasks = s.q.tasks := by
  have hnum : q.num = n := State.queue_num hq
  have hmore : q.toFetch = true := by
    simp only [State.fetchable, Bool.and_eq_true] at hfetch
    exact hfetch.1.1
  obtain ⟨y, hy⟩ : ∃ y, y = ({ s with ops := [] } : State).setQueue n
    fun q' => { q' with fetched := q'.fetched ++ [(q'.head, slot, d)], head := q'.head + 1 } := ⟨_, rfl⟩
  refine ⟨_, exec_lands (u := { y with q := { y.q with
      slots := modifyAt (fun t => { t with burst := t.burst + 1, fetched := (t.fetched + 1) % 2 ^ 64 }) slot y.q.slots } }) rfl ?_,
    ?_, ?_, ?_, fun m hm => ?_, by simp [hy]⟩
  · simp only [Clear.admitting, Clear.slot, Clear.queue, Clear.fetchable, hadmit, hbound, Option.bind_some, hq, hmore, hfetch, hnum, hy]
    refine (if_neg fun h => ?_).trans (if_neg (by simp))
    simp only [Bool.not_true, Bool.false_or] at h
    exact absurd (of_decide_eq_true h) (Nat.not_le.mpr hburst)
  · rw [State.run_queue]
    exact hy ▸ State.queue_setQueue_same (s := { s with ops := [] })
      (f := fun q' => { q' with fetched := q'.fetched ++ [(q'.head, slot, d)], head := q'.head + 1 }) (fun _ h => h) hq
  · rw [State.run_slot, State.slot, getD_modifyAt_same (by simpa [hy] using hlen), hy]
    rfl
  · rw [State.run_slot, State.slot, getD_modifyAt_same (by simpa [hy] using hlen), hy]
    rfl
  · rw [State.run_queue]
    exact hy ▸ State.queue_setQueue_ne (s := { s with ops := [] })
      (f := fun q' => { q' with fetched := q'.fetched ++ [(q'.head, slot, d)], head := q'.head + 1 }) (fun _ h => h) hm

/-- A line that does not translate counts, and the queue waits for FETCH_RETRY (R374). -/
theorem descriptorFetch_fails : ∃ t, exec (.descriptorFetch slot none) s = .next t
    ∧ t.queue n = some { q with fetchFaults := q.fetchFaults + 1, backoff := true } ∧ (t.slot slot).bound = none
    ∧ t.q.waiting = s.q.waiting ∧ t.q.tasks = s.q.tasks := by
  have hnum : q.num = n := State.queue_num hq
  have hmore : q.toFetch = true := by
    simp only [State.fetchable, Bool.and_eq_true] at hfetch
    exact hfetch.1.1
  obtain ⟨y, hy⟩ : ∃ y, y = ({ s with ops := [] } : State).setQueue n
    fun q' => { q' with fetchFaults := q'.fetchFaults + 1, backoff := true } := ⟨_, rfl⟩
  have hqueue : y.queue n = some { q with fetchFaults := q.fetchFaults + 1, backoff := true } := hy ▸ State.queue_setQueue_same
    (s := { s with ops := [] }) (f := fun q' => { q' with fetchFaults := q'.fetchFaults + 1, backoff := true }) (fun _ h => h) hq
  have hybound : (y.slot slot).bound = some n := by rw [hy]; exact hbound
  have hrelease : y.releaseSlot slot = { y with q := { y.q with slots := modifyAt (fun t => { t with bound := none, burst := 0 }) slot y.q.slots } } := by
    rw [State.releaseSlot, hybound]
    exact State.noteWork_of_backoff hqueue rfl
  refine ⟨_, exec_lands (u := y.releaseSlot slot) rfl ?_, ?_, ?_, ?_, ?_⟩
  · simp only [Clear.admitting, Clear.slot, Clear.queue, Clear.fetchable, hadmit, hbound, Option.bind_some, hq, hmore, hfetch, hnum, hy]
    refine (if_neg fun h => ?_).trans (if_neg (by simp))
    simp only [Bool.not_true, Bool.false_or] at h
    exact absurd (of_decide_eq_true h) (Nat.not_le.mpr hburst)
  · rw [State.run_queue, State.releaseSlot_queue, hqueue]
  · rw [State.run_slot]
    exact (State.slot_releaseSlot hybound (by simpa [hy] using hlen)).1
  · rw [State.run_q, hrelease, hy]
    rfl
  · rw [State.run_q, hrelease, hy]
    rfl
end

theorem fetchRetry_waits (hlive : s.live = true) : ∃ t, exec (.fetchRetry n) s = .next t ∧ t.queue n = some { q with backoff := false }
    ∧ (q.work = true → s.boundTo n = false → n ∈ t.q.waiting) ∧ t.q.tasks = s.q.tasks ∧ t.q.slots = s.q.slots := by
  have hset : (({ s with ops := [] } : State).setQueue n fun q => { q with backoff := false }).queue n = some { q with backoff := false } :=
    State.queue_setQueue_same (s := { s with ops := [] }) (f := fun q => { q with backoff := false }) (fun _ h => h) hq
  refine ⟨_, exec_lands_live rfl hlive rfl, ?_, fun hwork hfree => ?_, by simp, by simp⟩
  · rw [State.run_queue, State.noteWork_queue, hset]
  · rw [State.run_q]
    exact State.mem_waiting_noteWork hset hwork hfree rfl
end

/-- Settles O42: each command of the headgate acts on its slot and the queue bound to it. -/
theorem headgateBindsFetchesAndAdmits : Obligations.HeadgateBindsFetchesAndAdmits := by
  intro s slot n q hadmit hslot hlen hq
  obtain ⟨hlive, -, -⟩ := s.hostOpen_iff.mp (hostOpen_of_admitting hadmit)
  have hlt : slot < s.q.slots.length := hlen ▸ hslot
  refine ⟨slotBind_binds hadmit hslot hlen, fun hbound hfetch hburst =>
    ⟨descriptorFetch_fetches hq hadmit hlt hbound hfetch hburst, descriptorFetch_fails hq hadmit hlt hbound hfetch hburst⟩,
    fetchRetry_waits hq hlive, fun hbound => ?timeout, fun p from_ d rest u hbound hlane hfetched hswap hfits hquota htasks =>
    ⟨taskAdmit_enters hadmit hbound hq hlane hfetched hswap hfits hquota htasks,
      fun off => taskAdmit_refuses hadmit hbound hq hlane hfetched hswap hfits hquota htasks⟩, fun ref u hu hready => ?ages⟩
  case timeout =>
    obtain ⟨hfree, hothers⟩ := State.slot_releaseSlot (s := { s with ops := [] }) hbound hlt
    exact ⟨_, exec_lands_live rfl hlive rfl, by rw [State.run_slot]; exact hfree, fun j hj => by rw [State.run_slot]; exact hothers j hj,
      by simp, by simp⟩
  case ages =>
    refine ⟨_, exec_lands_live (u := ({ s with ops := [] } : State).setTask ref fun t => { t with aged := true }) rfl hlive ?_, ?_, fun r hr => ?_,
      by simp, by simp, State.run_mem_same s _ rfl⟩
    · simp only [Clear.task, Clear.isReady, hu, hready, if_true]
    · rw [State.run_task, State.task_setTask (f := fun t => { t with aged := true }) _ _ fun _ => rfl, Clear.task, hu]
      rfl
    · rw [State.run_task]
      exact State.task_setTask_ne (s := { s with ops := [] }) (f := fun t => { t with aged := true }) (fun _ => rfl) hr

end Sys2Proof.Machine
end

section
/-! SUPPORT. Chains of copy engines. -/

namespace Sys2Proof.Machine

theorem State.copyEngine_setCopyEngine_same {s : State} {c : Nat} (hc : c < s.q.engines.length) (f : CopyEngine → CopyEngine) :
    (s.setCopyEngine c f).copyEngine c = f (s.copyEngine c) := getD_modifyAt_same hc f _

theorem State.copyEngine_setCopyEngine_ne {c d : Nat} (hd : d ≠ c) (s : State) (f : CopyEngine → CopyEngine) :
    (s.setCopyEngine c f).copyEngine d = s.copyEngine d := getD_modifyAt_ne hd f _ _

section
variable {s : State} {c a owner : Nat} (hc : c < s.q.engines.length)
include hc

theorem beginLink_bad (hbad : (readLink s.mem a).good = false) : (s.beginLink c a owner).copyEngine c
    = { s.copyEngine c with state := 4, owner := owner, link := a, chain := none } := by
  have hlink : s.beginLink c a owner = s.setCopyEngine c fun e => { e with state := 4, owner := owner, link := a, chain := none } := by
    simp [State.beginLink, hbad]
  rw [hlink, State.copyEngine_setCopyEngine_same hc]

theorem beginLink_good (hgood : (readLink s.mem a).good = true) : (s.beginLink c a owner).copyEngine c
    = { s.copyEngine c with
        state := if s.waitMet owner (readLink s.mem a) then 2 else 3, owner := owner, link := a, tag := (readLink s.mem a).tag
        chain := some (a, owner) } := by
  have hlink : s.beginLink c a owner = s.setCopyEngine c fun e =>
      { e with state := if s.waitMet owner (readLink s.mem a) then 2 else 3, owner := owner, link := a, tag := (readLink s.mem a).tag
               chain := some (a, owner) } := by
    simp [State.beginLink, hgood]
  rw [hlink, State.copyEngine_setCopyEngine_same hc]

/-- Either way the engine stands at the link, with the bytes it has moved. -/
theorem beginLink_link : ((s.beginLink c a owner).copyEngine c).link = a ∧ ((s.beginLink c a owner).copyEngine c).owner = owner
    ∧ ((s.beginLink c a owner).copyEngine c).bytes = (s.copyEngine c).bytes := by
  cases hgood : (readLink s.mem a).good
  · rw [beginLink_bad hc hgood]
    exact ⟨rfl, rfl, rfl⟩
  · rw [beginLink_good hc hgood]
    exact ⟨rfl, rfl, rfl⟩
end

section
variable (s : State) (c a owner : Nat)

@[simp] theorem State.beginLink_ops : (s.beginLink c a owner).ops = s.ops := by obtain ⟨_, h⟩ := movesCopy_beginLink s c a owner; rw [h]
@[simp] theorem State.beginLink_tasks : (s.beginLink c a owner).q.tasks = s.q.tasks := by
  obtain ⟨_, h⟩ := movesCopy_beginLink s c a owner; rw [h]
@[simp] theorem State.beginLink_grid : (s.beginLink c a owner).grid = s.grid := by obtain ⟨_, h⟩ := movesCopy_beginLink s c a owner; rw [h]
@[simp] theorem State.beginLink_host : (s.beginLink c a owner).host = s.host := by obtain ⟨_, h⟩ := movesCopy_beginLink s c a owner; rw [h]
end

theorem run_mem_of_no_ops {s u : State} (h : u.ops = []) : (s.run fun _ => u).mem = s.mem := State.run_mem_same s _ h

theorem copyEngine_finishMailbox (s u : State) (result : Nat) (outs : List (Nat × Nat)) (c : Nat) :
    (s.run fun _ => u.finishMailbox result outs).copyEngine c = u.copyEngine c := by
  rw [State.run_copyEngine, State.copyEngine, State.finishMailbox_q]
  rfl

/-! ### Starting and stopping a chain -/

section
variable {s : State} {c a owner : Nat} (hc : c < 4) (hlen : s.q.engines.length = 4)
include hc hlen

theorem ceChainStart_begins (howner : owner < 1024) (hholds : holdsCommand s 0x0109) (harg0 : s.arg 0 = c) (harg1 : s.arg 1 = a)
    (harg2 : s.arg 2 = owner) (hchains : natBit (s.copyEngine c).cfg.force 1 = true) (hnone : (s.copyEngine c).chain = none)
    (hidle : (s.copyEngine c).task = none) (hqueue : (s.queue owner).isSome = true) (hsoft : s.mem.inSoft a 64 = true) :
    ∃ t, exec .ceChainStart s = .next t ∧ answered s t 0 ∧ (t.copyEngine c).link = a ∧ (t.copyEngine c).owner = owner ∧ t.mem = s.mem
      ∧ ((readLink s.mem a).good = false → (t.copyEngine c).state = 4 ∧ (t.copyEngine c).chain = none)
      ∧ ((readLink s.mem a).good = true → (t.copyEngine c).chain = some (a, owner)
          ∧ (t.copyEngine c).state = if s.waitMet owner (readLink s.mem a) then 2 else 3) := by
  obtain ⟨w, hw⟩ : ∃ w : State, w = { s with ops := [] } := ⟨_, rfl⟩
  have hlt : c < w.q.engines.length := by simpa [hw, hlen] using hc
  have hmem : w.mem = s.mem := by rw [hw]
  have hmet : w.waitMet owner (readLink s.mem a) = s.waitMet owner (readLink s.mem a) := by rw [hw, Clear.waitMet]
  obtain ⟨hlink, hown, -⟩ := beginLink_link (a := a) (owner := owner) hlt
  have hlands : exec .ceChainStart s = .next (s.run fun _ => (w.beginLink c a owner).finishMailbox 0 []) := by
    refine session_lands rfl hholds ?_
    have hsome : (s.queue owner).isNone = false := by rw [← Option.not_isSome, hqueue]; rfl
    dsimp only
    simp only [Clear.arg, Clear.queue, Clear.copyEngine, harg0, harg1, harg2, hnone, hidle, hchains, hsome, hsoft, hw]
    rw [if_neg (by omega)]
    simp
  have hops : ((w.beginLink c a owner).finishMailbox 0 []).ops = [] := by rw [State.finishMailbox_ops, State.beginLink_ops, hw]
  refine ⟨_, hlands, answered_run (by simp [hw]), ?_, ?_, run_mem_of_no_ops hops, fun hbad => ?_, fun hgood => ?_⟩
  · rw [copyEngine_finishMailbox, hlink]
  · rw [copyEngine_finishMailbox, hown]
  · rw [copyEngine_finishMailbox, beginLink_bad hlt (by rw [hmem, hbad])]
    exact ⟨rfl, rfl⟩
  · rw [copyEngine_finishMailbox, beginLink_good hlt (by rw [hmem, hgood]), hmem, hmet]
    dsimp only
    exact ⟨rfl, rfl⟩

theorem ceChainStop_stops (hholds : holdsCommand s 0x010A) (harg : s.arg 0 = c) (hchain : (s.copyEngine c).chain = some (a, owner))
    (hidle : (s.copyEngine c).task = none) : ∃ t, exec .ceChainStop s = .next t ∧ answered s t 0 ∧ outWord t 0 = a % 2 ^ 64
      ∧ (t.copyEngine c).chain = none ∧ (t.copyEngine c).state = 0 ∧ t.mem = s.mem := by
  have hlt : c < ({ s with ops := [] } : State).q.engines.length := by simpa [hlen] using hc
  have hstop := State.copyEngine_setCopyEngine_same hlt fun e => { e with chain := none, state := if e.task.isSome then e.state else 0 }
  obtain ⟨-, -, hargs⟩ := id hholds
  obtain ⟨u, hu⟩ : ∃ u, u = ({ s with ops := [] } : State).setCopyEngine c fun e =>
    { e with chain := none, state := if e.task.isSome then e.state else 0 } := ⟨_, rfl⟩
  have hhost : u.host = s.host := by rw [hu]; simp [State.setCopyEngine]
  have hlands : exec .ceChainStop s = .next (s.run fun _ => u.finishMailbox 0 [(0, a)]) := by
    refine session_lands rfl hholds ?_
    simp only [Clear.arg, Clear.copyEngine, harg, hchain]
    rw [if_neg (by omega), hu]
  rw [← hu] at hstop
  refine ⟨_, hlands, answered_run (by rw [hhost]), outWord_lands (by rw [hhost]) hargs (by decide) List.mem_cons_self (by simp), ?_, ?_,
    State.run_mem_same s _ (by simp [hu, State.setCopyEngine])⟩
  · rw [copyEngine_finishMailbox, hstop]
  · rw [copyEngine_finishMailbox, hstop, Clear.copyEngine, hidle]
    rfl

end

/-! ### A link's end -/

/-- A line that moves within device DRAM (R400). -/
theorem moveLines_one {s : State} {c : Nat} (v : HostView) (pasid : Option Nat) {src dst : Nat} (hsrc : src < hostWindow) (hdst : dst < hostWindow)
    (hclean : s.mem.linePoisoned (src / 64) = false) : s.moveLines v pasid c 1 src dst
      = ((s.wakeChannels.wakeChannels.store (.write dst (s.mem.bytes src 64))).setCopyEngine c fun e => { e with bytes := e.bytes + 64 }, true) := by
  have hread : readAny s.mem v src 64 = s.mem.bytes src 64 := if_pos hsrc
  have hne : (s.mem.bytes src 64).isEmpty = false := by simp [Mem.bytes]
  simp only [State.moveLines, State.lineTranslates, hsrc, hdst, decide_true, Bool.true_or, Bool.not_true, Bool.or_self, Bool.false_eq_true, if_false,
    hclean, Bool.and_false, hread, if_true, State.keepTranslation, State.putLine, State.writeDram, hne, State.write]

/-- How a chain goes on after a link (R401). -/
def State.nextLink (s : State) (c : Nat) (l : ChainLink) (owner : Nat) : State :=
  let s := if l.irq then s.signal owner else s
  if l.next = 0 then s.setCopyEngine c fun e => { e with state := 0, chain := none }
  else if s.taskDue c then s.setCopyEngine c fun e => { e with state := 0, chain := some (l.next, owner) }
  else s.beginLink c l.next owner

@[simp] theorem State.signal_copyEngine (s : State) (v c : Nat) : (s.signal v).copyEngine c = s.copyEngine c := by
  simp [State.copyEngine]

theorem nextLink_copyEngine {s : State} {c : Nat} (hc : c < s.q.engines.length) (l : ChainLink) (owner : Nat) :
    ((s.nextLink c l owner).copyEngine c).bytes = (s.copyEngine c).bytes
      ∧ (l.next = 0 → ((s.nextLink c l owner).copyEngine c).chain = none ∧ ((s.nextLink c l owner).copyEngine c).state = 0)
      ∧ (l.next ≠ 0 → ((s.nextLink c l owner).copyEngine c).link = l.next
        ∨ ((s.nextLink c l owner).copyEngine c).state = 0 ∧ ((s.nextLink c l owner).copyEngine c).chain = some (l.next, owner)) := by
  unfold State.nextLink
  obtain ⟨x, hx⟩ : ∃ x, x = if l.irq then s.signal owner else s := ⟨_, rfl⟩
  have hstand : x.copyEngine c = s.copyEngine c := by
    rw [hx]
    split <;> simp
  have hcx : c < x.q.engines.length := by
    rw [hx]
    split <;> simpa using hc
  simp only [← hx]
  split
  next hlast =>
    rw [State.copyEngine_setCopyEngine_same hcx, hstand]
    exact ⟨rfl, fun _ => ⟨rfl, rfl⟩, fun hmore => absurd hlast hmore⟩
  next hmore =>
    split
    · rw [State.copyEngine_setCopyEngine_same hcx, hstand]
      exact ⟨rfl, fun hlast => absurd hlast hmore, fun _ => .inr ⟨rfl, rfl⟩⟩
    · obtain ⟨hlink, -, hbytes⟩ := beginLink_link (a := l.next) (owner := owner) hcx
      exact ⟨hbytes.trans (congrArg CopyEngine.bytes hstand), fun hlast => absurd hlast hmore, fun _ => .inl hlink⟩

theorem nextLink_leaves (s : State) (c : Nat) (l : ChainLink) (owner : Nat) :
    (s.nextLink c l owner).q.tasks = s.q.tasks ∧ (s.nextLink c l owner).grid = s.grid ∧ (s.nextLink c l owner).ops = s.ops := by
  unfold State.nextLink
  dsimp only
  split <;> split <;> simp [State.setCopyEngine] <;> split <;> simp

theorem chainLinkComplete_moves {s : State} {c a owner : Nat} (hc : c < 4) (hlen : s.q.engines.length = 4) (v : HostView)
    (hstate : (s.copyEngine c).state = 2) (hchain : (s.copyEngine c).chain = some (a, owner))
    (hopen : s.hostOpen = true) (hpower : s.copyPowered = true) (h64 : (readLink s.mem a).len = 64) (hsrc : (readLink s.mem a).src < hostWindow)
    (hdst : (readLink s.mem a).dst < hostWindow) (hclean : s.mem.linePoisoned ((readLink s.mem a).src / 64) = false) :
    ∃ t, exec (.chainLinkComplete c v) s = .next t
      ∧ t.mem = s.mem.write (readLink s.mem a).dst (s.mem.bytes (readLink s.mem a).src 64)
      ∧ (t.copyEngine c).bytes = (s.copyEngine c).bytes + 64
      ∧ ((readLink s.mem a).next = 0 → (t.copyEngine c).chain = none ∧ (t.copyEngine c).state = 0)
      ∧ ((readLink s.mem a).next ≠ 0 → (t.copyEngine c).link = (readLink s.mem a).next
          ∨ (t.copyEngine c).state = 0 ∧ (t.copyEngine c).chain = some ((readLink s.mem a).next, owner))
      ∧ t.q.tasks = s.q.tasks ∧ t.grid = s.grid := by
  obtain ⟨l, hl⟩ : ∃ l, l = readLink s.mem a := ⟨_, rfl⟩
  rw [← hl] at h64 hsrc hdst hclean ⊢
  obtain ⟨y, hy⟩ : ∃ y, y = ({ s with ops := [] } : State).wakeChannels.wakeChannels.store (.write l.dst (s.mem.bytes l.src 64)) := ⟨_, rfl⟩
  have hq : y.q = s.q := by simp [hy]
  have hygrid : y.grid = s.grid := by simp [hy]
  have hyops : y.ops = [.write l.dst (s.mem.bytes l.src 64)] := by simp [hy]
  obtain ⟨x, hx⟩ : ∃ x, x = y.setCopyEngine c fun e => { e with bytes := e.bytes + 64 } := ⟨_, rfl⟩
  have hmove := moveLines_one (s := { s with ops := [] }) (c := c) v ((s.queue owner).map (·.pasid)) hsrc hdst hclean
  rw [← hy, ← hx] at hmove
  have hcy : c < y.q.engines.length := by rw [hq, hlen]; exact hc
  have hbytes : (x.copyEngine c).bytes = (s.copyEngine c).bytes + 64 := by
    rw [hx, State.copyEngine_setCopyEngine_same hcy, State.copyEngine, hq]
    rfl
  have hcx : c < x.q.engines.length := by rw [hx, State.setCopyEngine, length_modifyAt]; exact hcy
  obtain ⟨htasks, hgrid, hops⟩ := nextLink_leaves x c l owner
  have hlands : exec (.chainLinkComplete c v) s = .next (s.run fun _ => x.nextLink c l owner) := by
    refine exec_lands rfl ?_
    simp only [Clear.copyEngine, hchain, Clear.hostOpen, Clear.copyPowered, hstate, hopen, hpower, ← hl, h64, Clear.queue]
    rw [if_neg (by decide), hmove]
    exact if_neg Bool.false_ne_true
  have hview : (s.run fun _ => x.nextLink c l owner).copyEngine c = (x.nextLink c l owner).copyEngine c := State.run_copyEngine s _ c
  obtain ⟨hmoved, hlast, hmore⟩ := nextLink_copyEngine hcx l owner
  refine ⟨_, hlands, ?_, ?_, ?_, ?_, ?_, ?_⟩
  · exact run_mem_one (hops.trans (by rw [hx]; exact hyops))
  · rw [hview, hmoved, hbytes]
  · rwa [hview]
  · rwa [hview]
  · rw [State.run_q, htasks, hx, ← hq]
    rfl
  · rw [State.run_grid, hgrid, hx, ← hygrid]
    rfl

/-- Settles O34: a link is `State.beginLink`, and `State.nextLink` goes on after it. -/
theorem chainsRunLinkByLink : Obligations.ChainsRunLinkByLink := by
  intro s c a owner hc howner hlen
  refine ⟨ceChainStart_begins hc hlen howner, ceChainStop_stops hc hlen, chainLinkComplete_moves hc hlen, fun hstate hchain hmet hlive => ?waited⟩
  case waited =>
    have hlt : c < ({ s with ops := [] } : State).q.engines.length := by simpa [hlen] using hc
    refine ⟨_, exec_lands_live (u := ({ s with ops := [] } : State).setCopyEngine c fun e => { e with state := 2 }) rfl hlive ?_,
      ?_, fun d hd => ?_, State.run_mem_same s _ rfl, by simp [State.setCopyEngine]⟩
    · have hmet' : ({ s with ops := [] } : State).waitMet owner (readLink s.mem a) = true := hmet
      simp only [Clear.copyEngine, hchain, hstate, hmet', and_self, if_true]
    · rw [State.run_copyEngine, State.copyEngine_setCopyEngine_same hlt]
    · rw [State.run_copyEngine, State.copyEngine_setCopyEngine_ne hd]
      rfl

end Sys2Proof.Machine
end

section
/-! SUPPORT. Register accesses: the register that an offset reaches, what a write there does, and what a read returns and clears. -/

namespace Sys2Proof.Machine

theorem regTarget_low (s : State) {off : Nat} (h : off < 0x8000) : regTarget s off = some (0, 0, off) := if_pos h

theorem regTarget_window {s : State} {cls i o : Nat} (hcls : s.host.wselClass = cls) (hi : s.host.wselIndex = i) (hvalid : wselValid cls i = true)
    (ho : o < 0x8000) : regTarget s (0x8000 + o) = some (cls, i, o) := by
  simp only [regTarget, shown, hcls, hi, hvalid, if_true, Option.map_some, Nat.add_sub_cancel_left]
  rw [if_neg (by omega), if_pos (by omega)]

@[simp] theorem State.run_port (s : State) (f : State → State) (p : Nat) : (s.run f).port p = (f { s with ops := [] }).port p := by
  simp [State.port]

/-! ### Writes -/

section
variable {s : State} {off cls i o : Nat} (v : DWord) (hup : s.hostUp = true) (hready : s.boot.ready = true) (hoff : off < 0x10000)
  (htarget : regTarget s off = some (cls, i, o))
include hup hready hoff htarget

theorem registerWrite_half (halign : off % 4 = 0) :
    exec (.registerWrite off 4 v) s = .next (s.run fun s => s.writeHalf cls i o (v.toNat % 2 ^ 32)) := by
  refine exec_lands rfl ?_
  simp only [Clear.hostUp, Clear.regTarget, hup, hready, htarget, halign, Bool.not_true, bne_self_eq_false, Bool.false_and, Bool.or_self,
    Bool.false_eq_true, if_false]
  rw [if_neg (by unfold doorbellBase; omega), if_neg (by unfold cfgSpaceBase; omega)]
  rfl

theorem registerWrite_whole (halign : off % 8 = 0) : exec (.registerWrite off 8 v) s
    = .next (s.run fun s => (s.writeHalf cls i o (v.toNat % 2 ^ 32)).writeHalf cls i (o + 4) (v.toNat / 2 ^ 32)) := by
  refine exec_lands rfl ?_
  simp only [Clear.hostUp, Clear.regTarget, hup, hready, htarget, halign, Bool.not_true, bne_self_eq_false, Bool.and_false, Bool.or_self,
    Bool.false_eq_true, if_false]
  rw [if_neg (by unfold doorbellBase; omega), if_neg (by unfold cfgSpaceBase; omega)]
  rfl
end

theorem setHalf_setHalf (a v : Nat) :
    setHalf (setHalf a 0 (v % 2 ^ 32) % 2 ^ 64) 1 (v / 2 ^ 32) = v := by
  have hlow : v % 2 ^ 32 < 2 ^ 32 := Nat.mod_lt _ (by decide)
  simp only [setHalf, Nat.zero_ne_one, if_false, if_true]
  omega

/-- An argument of a mailbox that is not busy. -/
theorem writeHalf_arg {s : State} {off k half v : Nat} (hbusy : s.host.busy = false) (hk : k < 8) (hhalf : half < 2)
    (hoff : off = 0x1008 + 8 * k + 4 * half) : s.writeHalf 0 0 off v = { s with host := { s.host with
      mbxArgs := modifyAt (fun a => BitVec.ofNat 64 (setHalf a.toNat half v)) k s.host.mbxArgs } } := by
  have hhi : off / 4 % 2 = half := by omega
  have hidx : (off - 0x1008) / 8 = k := by omega
  simp only [State.writeHalf]
  rw [if_neg (by omega), if_neg (by omega), if_neg (by omega), if_pos (by omega), hhi, hidx, hbusy]
  rfl

theorem writeHalf_arg_busy {s : State} {off k half v : Nat} (hbusy : s.host.busy = true) (hk : k < 8) (hhalf : half < 2)
    (hoff : off = 0x1008 + 8 * k + 4 * half) : s.writeHalf 0 0 off v = { s with host := { s.host with overrun := true } } := by
  simp only [State.writeHalf]
  rw [if_neg (by omega), if_neg (by omega), if_neg (by omega), if_pos (by omega), hbusy]
  rfl

section
variable {s : State} (v : DWord) (hup : s.hostUp = true) (hready : s.boot.ready = true)
include hup hready

theorem argWrite_takes {k : Nat} (hk : k < 8) (hlen : s.host.mbxArgs.length = 8) (hbusy : s.host.busy = false) :
    ∃ t, exec (.registerWrite (0x1008 + 8 * k) 8 v) s = .next t ∧ t.host.mbxArgs.getD k 0 = v
      ∧ ∀ j, j ≠ k → t.host.mbxArgs.getD j 0 = s.host.mbxArgs.getD j 0 := by
  have hlow := writeHalf_arg (s := { s with ops := [] }) (half := 0) (v := v.toNat % 2 ^ 32) hbusy hk (by decide) rfl
  refine ⟨_, registerWrite_whole v hup hready (by omega) (regTarget_low s (by omega)) (by omega), ?_, fun j hj => ?_⟩
  all_goals rw [State.run_host, show 0x1008 + 8 * k = 0x1008 + 8 * k + 4 * 0 from rfl, hlow,
    writeHalf_arg (half := 1) (by exact hbusy) hk (by decide) rfl]
  · rw [getD_modifyAt_same (by simpa [length_modifyAt, hlen] using hk), getD_modifyAt_same (by simpa [hlen] using hk), BitVec.toNat_ofNat,
      setHalf_setHalf, BitVec.ofNat_toNat, BitVec.setWidth_eq]
  · rw [getD_modifyAt_ne hj, getD_modifyAt_ne hj]

theorem argWrite_overruns {k : Nat} (hk : k < 8) (hbusy : s.host.busy = true) :
    ∃ t, exec (.registerWrite (0x1008 + 8 * k) 8 v) s = .next t ∧ t.host.mbxArgs = s.host.mbxArgs ∧ t.host.overrun = true := by
  have hlow := writeHalf_arg_busy (s := { s with ops := [] }) (half := 0) (v := v.toNat % 2 ^ 32) hbusy hk (by decide) rfl
  refine ⟨_, registerWrite_whole v hup hready (by omega) (regTarget_low s (by omega)) (by omega), ?_, ?_⟩
  all_goals rw [State.run_host, show 0x1008 + 8 * k = 0x1008 + 8 * k + 4 * 0 from rfl, hlow,
    writeHalf_arg_busy (half := 1) (by exact hbusy) hk (by decide) rfl]

theorem wselWrite_selects : ∃ t, exec (.registerWrite 0x0030 4 v) s = .next t ∧ t.host.wselClass = natBits (v.toNat % 2 ^ 32) 12 4
    ∧ t.host.wselIndex = v.toNat % 4096 := by
  refine ⟨_, registerWrite_half v hup hready (by decide) (regTarget_low s (by decide)) (by decide), ?_, ?_⟩ <;> rw [State.run_host]
  · rfl
  · exact (Nat.mod_mod_of_dvd _ (by decide) : v.toNat % 2 ^ 32 % 4096 = v.toNat % 4096)

theorem goWrite_begins (hbusy : s.host.busy = false) (hgo : v.getLsbD 0 = true) (hop : s.host.mbxCmd.toNat % 2 ^ 16 ∈ adminOpcodes) :
    ∃ t, exec (.registerWrite 0x1048 4 v) s = .next t ∧ t.host.busy = true ∧ t.host.mbxCmd = s.host.mbxCmd ∧ t.host.mbxArgs = s.host.mbxArgs := by
  have hbit : natBit (v.toNat % 2 ^ 32) 0 = true := by
    simpa [natBit, BitVec.getLsbD, Nat.testBit_zero] using hgo
  have hwrite : ({ s with ops := [] } : State).writeHalf 0 0 0x1048 (v.toNat % 2 ^ 32)
      = { s with ops := [], host := { s.host with busy := true } } := by
    have hgoes : ({ s with ops := [] } : State).writeHalf 0 0 0x1048 (v.toNat % 2 ^ 32) = ({ s with ops := [] } : State).mailboxGo := by
      obtain ⟨w, hw⟩ : ∃ w, w = v.toNat % 2 ^ 32 := ⟨_, rfl⟩
      rw [← hw] at hbit ⊢
      simp [State.writeHalf, hbusy, hbit]
    rw [hgoes]
    exact if_pos (List.contains_iff_mem.mpr hop)
  refine ⟨_, registerWrite_half v hup hready (by decide) (regTarget_low s (by decide)) (by decide), ?_⟩
  rw [State.run_host, hwrite]
  exact ⟨rfl, rfl, rfl⟩

theorem selWrite_stages {e : Nat} (he : e < 8) (hlen : s.grid.engines.length = 8) (hcls : s.host.wselClass = 1) (hi : s.host.wselIndex = e) :
    ∃ t, exec (.registerWrite 0x800C 4 v) s = .next t ∧ (t.engine e).sel.staged = v.toNat % 4 ∧ (t.engine e).sel.force = (s.engine e).sel.force
      ∧ (t.engine e).cur = (s.engine e).cur := by
  refine ⟨_, registerWrite_half v hup hready (by decide) (regTarget_window (o := 0x0C) hcls hi (decide_eq_true he) (by decide)) (by decide), ?_⟩
  have hsel : ({ s with ops := [] } : State).writeHalf 1 e 0x0C (v.toNat % 2 ^ 32)
      = ({ s with ops := [] } : State).setEngine e fun x => { x with sel := { x.sel with staged := v.toNat % 2 ^ 32 % 4 } } := rfl
  rw [State.run_engine, hsel, State.engine_setEngine_same (by simpa [hlen] using he)]
  exact ⟨Nat.mod_mod_of_dvd _ (by decide), rfl, rfl⟩

theorem scrubPeriodWrite_takes {c : Nat} (hc : c < 8) (hlen : s.dram.channels.length = 8) (hcls : s.host.wselClass = 2)
    (hi : s.host.wselIndex = c) : ∃ t, exec (.registerWrite 0x8008 4 v) s = .next t ∧ (t.channel c).period = min (v.toNat % 256) 168 := by
  refine ⟨_, registerWrite_half v hup hready (by decide) (regTarget_window (o := 0x08) hcls hi (decide_eq_true hc) (by decide)) (by decide), ?_⟩
  have hper : ({ s with ops := [] } : State).writeHalf 2 c 0x08 (v.toNat % 2 ^ 32)
      = ({ s with ops := [] } : State).setChannel c fun x => { x with period := min (v.toNat % 2 ^ 32 % 256) 168 } := rfl
  rw [State.run_channel, hper, State.channel_setChannel_same (by simpa [hlen] using hc), Nat.mod_mod_of_dvd _ (by decide)]

theorem slotWrite_stages {i : Nat} (hi32 : i < 32) (hlen : s.q.slots.length = 32) (hcls : s.host.wselClass = 4) (hi : s.host.wselIndex = i) :
    ∃ t, exec (.registerWrite 0x8004 4 v) s = .next t ∧ (t.slot i).cfg.staged = v.toNat % 8 ∧ (t.slot i).cfg.force = (s.slot i).cfg.force := by
  refine ⟨_, registerWrite_half v hup hready (by decide) (regTarget_window (o := 0x04) hcls hi (decide_eq_true hi32) (by decide)) (by decide), ?_⟩
  have hslot : (({ s with ops := [] } : State).writeHalf 4 i 0x04 (v.toNat % 2 ^ 32)).slot i
      = { s.slot i with cfg := { (s.slot i).cfg with staged := v.toNat % 2 ^ 32 % 8 } } :=
    getD_modifyAt_same (by rw [hlen]; exact hi32) _ _
  rw [State.run_slot, hslot]
  exact ⟨Nat.mod_mod_of_dvd _ (by decide), rfl⟩

theorem policyWrite_stages {d : Nat} (hd : d < 116) (hlen : s.pow.domains.length = 116) (hcls : s.host.wselClass = 5) (hi : s.host.wselIndex = d) :
    ∃ t, exec (.registerWrite 0x8004 4 v) s = .next t
      ∧ (t.domain d).cfg.staged = (if 98 ≤ d ∧ d ≤ 105 then v.toNat % 8 else v.toNat % 4) ∧ (t.domain d).cfg.force = (s.domain d).cfg.force := by
  refine ⟨_, registerWrite_half v hup hready (by decide) (regTarget_window (o := 0x04) hcls hi (decide_eq_true hd) (by decide)) (by decide), ?_⟩
  have hstage : ({ s with ops := [] } : State).writeHalf 5 d 0x04 (v.toNat % 2 ^ 32)
      = ({ s with ops := [] } : State).setDomain d (stagePd d (v.toNat % 2 ^ 32)) := rfl
  have h8 : v.toNat % 2 ^ 32 % 8 = v.toNat % 8 := Nat.mod_mod_of_dvd _ (by decide)
  have h4 : v.toNat % 2 ^ 32 % 4 = v.toNat % 4 := Nat.mod_mod_of_dvd _ (by decide)
  rw [State.run_domain, hstage, State.domain_setDomain_same (by simpa [hlen] using hd), stagePd, h8, h4]
  exact ⟨rfl, rfl⟩

end

/-! ### Reads -/

theorem State.answer_readData (s : State) (w v : Nat) : (s.answer w v).host.readData = toBytesLE w v := rfl

theorem hostRegRead_of_target {s : State} {off w cls i o : Nat} (hready : s.boot.ready = true) (hoff : off < 0x10000) (halign : off % w = 0)
    (hw : w = 4 ∨ w = 8) (htarget : regTarget s off = some (cls, i, o)) : hostRegRead s off w = regRead s cls i o w := by
  unfold hostRegRead
  rw [if_neg (by omega), if_neg (by unfold doorbellBase; omega), if_neg (by unfold cfgSpaceBase; omega), hready, htarget]
  rfl

section
variable {s : State} {off w cls i o : Nat} (hup : s.hostUp = true) (hready : s.boot.ready = true) (hoff : off < 0x10000)
  (htarget : regTarget s off = some (cls, i, o))
include hup hready hoff htarget

theorem registerRead_lands (halign : off % w = 0) (hw : w = 4 ∨ w = 8) : exec (.registerReadClear off w) s
    = .next (s.run fun s => (rcWithin cls o w).foldl (fun s r => s.readRc cls i o w r) (s.answer w (regRead s cls i o w))) := by
  have hread := hostRegRead_of_target (s := { s with ops := [] }) hready hoff halign hw htarget
  have hwide : (w == 4 || w == 8) = true := by rcases hw with rfl | rfl <;> rfl
  refine exec_lands rfl ?_
  simp only [Clear.hostUp, Clear.regTarget, hup, hready, htarget, halign, hread, hwide, if_true, beq_self_eq_true, Bool.and_self]

end

/-- A read over one whole RC register clears it. -/
theorem registerRead_clears {s u : State} {off w cls i o : Nat} {r : Nat × Nat × Nat} (hup : s.hostUp = true) (hready : s.boot.ready = true)
    (hoff : off < 0x10000) (htarget : regTarget s off = some (cls, i, o)) (halign : off % w = 0) (hw : w = 4 ∨ w = 8)
    (hrc : rcWithin cls o w = [r]) (hwhole : ¬ (r.2.2 = 8 ∧ w = 4))
    (hu : (({ s with ops := [] } : State).answer w (regRead { s with ops := [] } cls i o w)).setRc cls i r.2.1 0 = u) :
    exec (.registerReadClear off w) s = .next (s.run fun _ => u) := by
  refine exec_lands (registerRead_lands hup hready hoff htarget halign hw) ?_
  rw [hrc, List.foldl_cons, List.foldl_nil, State.readRc, if_neg hwhole, hu]

section
variable {s : State} (hup : s.hostUp = true) (hready : s.boot.ready = true)
include hup hready

theorem corrRead_clears {c : Nat} (hc : c < 8) (hlen : s.dram.channels.length = 8) (hcls : s.host.wselClass = 2) (hi : s.host.wselIndex = c) :
    ∃ t, exec (.registerReadClear 0x8020 8) s = .next t ∧ t.host.readData = toBytesLE 8 ((s.channel c).corr % 2 ^ 64)
      ∧ (t.channel c).corr = 0 ∧ (t.channel c).uncorr = (s.channel c).uncorr ∧ ∀ d, d ≠ c → t.channel d = s.channel d := by
  obtain ⟨y, hy⟩ : ∃ y, y = ({ s with ops := [] } : State).answer 8 (regRead { s with ops := [] } 2 c 0x20 8) := ⟨_, rfl⟩
  have hlands : exec (.registerReadClear 0x8020 8) s = .next (s.run fun _ => y.setChannel c fun x => { x with corr := 0 }) := by
    refine registerRead_clears (r := (2, 0x20, 8)) hup hready (by decide)
      (regTarget_window (o := 0x20) hcls hi (decide_eq_true hc) (by decide)) (by decide) (.inr rfl) (by decide) (by decide) ?_
    rw [← hy]
    rfl
  have hvalue : regRead { s with ops := [] } 2 c 0x20 8 = (s.channel c).corr % 2 ^ 64 := by
    have hlow : halfAt (targetRows { s with ops := [] } 2 c) 0x20 = natBits (s.channel c).corr (8 * 0) 32 := rfl
    have hhigh : halfAt (targetRows { s with ops := [] } 2 c) (0x20 + 4) = natBits (s.channel c).corr (8 * 4) 32 := rfl
    simp only [regRead, hlow, hhigh, natBits, if_true]
    omega
  have hcy : c < y.dram.channels.length := by rw [hy]; exact hlen ▸ hc
  refine ⟨_, hlands, ?_, ?_, ?_, fun d hd => ?_⟩
  · rw [State.run_host, ← hvalue, ← State.answer_readData, ← hy]
    rfl
  · rw [State.run_channel, State.channel_setChannel_same hcy]
  · rw [State.run_channel, State.channel_setChannel_same hcy, hy]
    rfl
  · rw [State.run_channel, State.channel_setChannel_ne hd, hy]
    rfl

theorem retriesRead_clears {p : Nat} (hp : p < 4) (hlen : s.nl.ports.length = 4) (hcls : s.host.wselClass = 3) (hi : s.host.wselIndex = p)
    (hnone : s.cnt.rcHi = []) : ∃ t, exec (.registerReadClear 0x8024 4) s = .next t
      ∧ t.host.readData = toBytesLE 4 ((s.port p).retries % 2 ^ 32) ∧ (t.port p).retries = 0 := by
  obtain ⟨y, hy⟩ : ∃ y, y = ({ s with ops := [] } : State).answer 4 (regRead { s with ops := [] } 3 p 0x24 4) := ⟨_, rfl⟩
  have hlands : exec (.registerReadClear 0x8024 4) s = .next (s.run fun _ => y.setPort p fun x => { x with retries := 0 }) := by
    refine registerRead_clears (r := (3, 0x24, 4)) hup hready (by decide)
      (regTarget_window (o := 0x24) hcls hi (decide_eq_true hp) (by decide)) (by decide) (.inl rfl) (by decide) (by decide) ?_
    rw [← hy]
    rfl
  have hlatch : latchedHigh { s with ops := [] } 3 p 0x24 = none := by simp [latchedHigh, hnone]
  have hvalue : regRead { s with ops := [] } 3 p 0x24 4 = (s.port p).retries % 2 ^ 32 := by
    have hrow : halfAt (targetRows { s with ops := [] } 3 p) 0x24 = natBits (s.port p).retries (8 * 0) 32 := rfl
    simp only [regRead, hlatch, hrow, natBits]
    rw [if_neg (by decide)]
    omega
  have hpy : p < y.nl.ports.length := by rw [hy]; exact hlen ▸ hp
  refine ⟨_, hlands, ?_, ?_⟩
  · rw [State.run_host, ← hvalue, ← State.answer_readData, ← hy]
    rfl
  · rw [State.run_port]
    exact congrArg Port.retries (getD_modifyAt_same hpy _ _)

theorem revisionRead_leaves (hnone : s.cnt.rcHi = []) : ∃ t, exec (.registerReadClear 0x0004 4) s = .next t
    ∧ t.host.readData = toBytesLE 4 (0x100 + if s.nv.fuses.gradeX then 2 ^ 16 else 0) ∧ t.cnt = s.cnt ∧ t.dram = s.dram ∧ t.nl = s.nl := by
  have hlatch : latchedHigh { s with ops := [] } 0 0 0x0004 = none := by simp [latchedHigh, hnone]
  have hvalue : regRead { s with ops := [] } 0 0 0x0004 4 = 0x100 + if s.nv.fuses.gradeX then 2 ^ 16 else 0 := by
    simp only [regRead, hlatch]
    have hrow : halfAt (targetRows { s with ops := [] } 0 0) 0x0004 = natBits (devRev s) (8 * 0) 32 := rfl
    rw [if_neg (by decide), hrow]
    simp only [natBits, devRev, bit]
    cases s.nv.fuses.gradeX <;> rfl
  refine ⟨_, registerRead_lands hup hready (by decide) (regTarget_low s (by decide)) (by decide) (.inl rfl), ?_, ?_, ?_, ?_⟩
  · rw [State.run_host, ← hvalue, ← State.answer_readData]
    rfl
  · rw [State.run_cnt]
    rfl
  · rw [State.run_dram]
    rfl
  · rw [State.run_nl]
    rfl

theorem stitchLowRead_latches (hnone : s.cnt.rcHi = []) : ∃ t, exec (.latchingLowRead 0x3000) s = .next t
    ∧ t.host.readData = toBytesLE 4 (s.cnt.stitch % 2 ^ 32) ∧ t.cnt.stitchHi = BitVec.ofNat 32 (s.cnt.stitch / 2 ^ 32)
    ∧ t.cnt.stitch = s.cnt.stitch := by
  obtain ⟨y, hy⟩ : ∃ y, y = ({ s with ops := [] } : State).answer 4 (regRead { s with ops := [] } 0 0 0x3000 4) := ⟨_, rfl⟩
  have hread := hostRegRead_of_target (s := { s with ops := [] }) (w := 4) hready (by decide) (by decide) (.inl rfl)
    (regTarget_low (off := 0x3000) _ (by decide))
  have hlands : exec (.latchingLowRead 0x3000) s
      = .next (s.run fun _ => { y with cnt := { y.cnt with stitchHi := BitVec.ofNat 32 (s.cnt.stitch / 2 ^ 32) } }) := by
    refine exec_lands rfl ?_
    simp only [Clear.hostUp, Clear.regTarget, hup, hready, hread, regTarget_low s (show 0x3000 < 0x8000 by decide), if_true, ← hy]
  have hlatch : latchedHigh { s with ops := [] } 0 0 0x3000 = none := by simp [latchedHigh, hnone]
  have hvalue : regRead { s with ops := [] } 0 0 0x3000 4 = s.cnt.stitch % 2 ^ 32 := by
    have hrow : halfAt (targetRows { s with ops := [] } 0 0) 0x3000 = natBits s.cnt.stitch (8 * 0) 32 := by
      simp [halfAt, targetRows, bar0Rows, List.range, List.range.loop]
    simp only [regRead, hlatch, hrow, natBits]
    rw [if_neg (by decide)]
    omega
  have hcnt : y.cnt.stitch = s.cnt.stitch := by rw [hy]; rfl
  refine ⟨_, hlands, ?_, ?_, ?_⟩
  · rw [State.run_host, ← hvalue, ← State.answer_readData, ← hy]
  · rw [State.run_cnt]
  · rw [State.run_cnt, hcnt]

theorem stitchHighRead_returns : ∃ t, exec (.registerReadClear 0x3004 4) s = .next t
    ∧ t.host.readData = toBytesLE 4 s.cnt.stitchHi.toNat ∧ t.cnt = s.cnt := by
  refine ⟨_, registerRead_lands hup hready (by decide) (regTarget_low s (by decide)) (by decide) (.inl rfl), ?_, ?_⟩
  · rw [State.run_host]
    rfl
  · rw [State.run_cnt]
    rfl

end

/-- Settles O35: a write is `State.writeHalf` of the register that the offset reaches, and a read clears the RC registers within it. -/
theorem registerAccessesStageClearAndLatch : Obligations.RegisterAccessesStageClearAndLatch := by
  refine ⟨fun s v hup hready => ⟨fun k hk hlen => ⟨argWrite_takes v hup hready hk hlen, argWrite_overruns v hup hready hk⟩,
    wselWrite_selects v hup hready, goWrite_begins v hup hready, fun e => selWrite_stages v hup hready,
    fun c => scrubPeriodWrite_takes v hup hready, fun i => slotWrite_stages v hup hready, fun d => policyWrite_stages v hup hready⟩,
    fun s hup hready => ⟨fun c => corrRead_clears hup hready, fun p => retriesRead_clears hup hready, revisionRead_leaves hup hready,
      stitchLowRead_latches hup hready, stitchHighRead_returns hup hready⟩⟩

end Sys2Proof.Machine
end

section
/-! SUPPORT. An accepted commit: what it puts in force (R354), and the profile that ends a change (R465). -/

namespace Sys2Proof.Machine

/-! ### The policies of the domains -/

/-- u is s but for policies in force; those of the domains in done are what was staged. -/
def TakesPolicies (s u : State) (done : Nat → Prop) : Prop :=
  ∃ ds : List Domain, u = { s with pow := { s.pow with domains := ds } } ∧ ds.length = s.pow.domains.length
    ∧ ∀ d, (ds.getD d (.reset d)).cfg.staged = (s.domain d).cfg.staged
        ∧ (done d → d < s.pow.domains.length → (ds.getD d (.reset d)).cfg.force = (s.domain d).cfg.staged)

theorem TakesPolicies.refl (s : State) : TakesPolicies s s fun _ => False := ⟨s.pow.domains, rfl, rfl, fun _ => ⟨rfl, False.elim⟩⟩

theorem TakesPolicies.weaken {s u : State} {done done' : Nat → Prop} (h : TakesPolicies s u done) (hle : ∀ d, done' d → done d) :
    TakesPolicies s u done' := by
  obtain ⟨ds, hu, hlen, hds⟩ := h
  exact ⟨ds, hu, hlen, fun d => ⟨(hds d).1, fun hd => (hds d).2 (hle d hd)⟩⟩

theorem TakesPolicies.setDomain {s u : State} {done : Nat → Prop} (h : TakesPolicies s u done) {d : Nat} {f : Domain → Domain}
    (hf : ∀ x : Domain, x.cfg.staged = (s.domain d).cfg.staged →
      (f x).cfg.staged = (s.domain d).cfg.staged ∧ (f x).cfg.force = (s.domain d).cfg.staged) :
    TakesPolicies s (u.setDomain d f) fun x => done x ∨ x = d := by
  obtain ⟨ds, rfl, hlen, hds⟩ := h
  refine ⟨modifyAt f d ds, rfl, (length_modifyAt f d ds).trans hlen, fun x => ?_⟩
  by_cases hx : x = d
  · subst hx
    by_cases hin : x < ds.length
    · rw [getD_modifyAt_same hin]
      obtain ⟨hstaged, hforce⟩ := hf _ (hds x).1
      exact ⟨hstaged, fun _ _ => hforce⟩
    · have hout : (modifyAt f x ds).getD x (.reset x) = ds.getD x (.reset x) := by
        rw [List.getD_eq_default _ _ (by rw [length_modifyAt]; omega), List.getD_eq_default _ _ (by omega)]
      rw [hout]
      exact ⟨(hds x).1, fun _ hlt => absurd (hlen ▸ hlt) hin⟩
  · rw [getD_modifyAt_ne hx]
    exact ⟨(hds x).1, fun hdone => (hds x).2 (hdone.resolve_right hx)⟩

/-- Steps that each put the policies of P x in force put all of them in force. -/
theorem TakesPolicies.foldl {α : Type} {s : State} {g : State → α → State} {P : α → Nat → Prop} (xs : List α)
    (hg : ∀ x ∈ xs, ∀ u done, TakesPolicies s u done → TakesPolicies s (g u x) fun d => done d ∨ P x d) {u : State} {done : Nat → Prop}
    (h : TakesPolicies s u done) : TakesPolicies s (xs.foldl g u) fun d => done d ∨ ∃ x ∈ xs, P x d := by
  induction xs generalizing u done with
  | nil => exact h.weaken fun d hd => hd.resolve_right (by simp)
  | cons x xs ih =>
    refine (ih (fun y hy => hg y (List.mem_cons_of_mem _ hy)) (hg x List.mem_cons_self u done h)).weaken fun d hd => ?_
    simp only [List.mem_cons, exists_eq_or_imp] at hd
    tauto

theorem mem_engineBanks {e d : Nat} : d ∈ engineBanks e ↔ ∃ k < 8, d = 12 * e + k := by
  simp [engineBanks, eq_comm]

/-- The policies of the banks as a commit finds them. -/
def State.bankSnapshot (s : State) : List (Nat × Nat) :=
  (List.range 8).flatMap fun e => (engineBanks e).map fun d => (d, (s.domain d).cfg.staged)

theorem find?_bankSnapshot (s : State) {e d : Nat} (he : e < 8) (hd : d ∈ engineBanks e) :
    s.bankSnapshot.find? (fun b => b.1 == d) = some (d, (s.domain d).cfg.staged) := by
  have hmem : (d, (s.domain d).cfg.staged) ∈ s.bankSnapshot :=
    List.mem_flatMap.mpr ⟨e, List.mem_range.mpr he, List.mem_map.mpr ⟨d, hd, rfl⟩⟩
  obtain ⟨b, hb⟩ := Option.isSome_iff_exists.mp ((List.find?_isSome (p := fun b => b.1 == d)).mpr ⟨_, hmem, beq_self_eq_true d⟩)
  obtain ⟨_, _, hmap⟩ := List.mem_flatMap.mp (List.mem_of_find?_eq_some hb)
  obtain ⟨d', -, rfl⟩ := List.mem_map.mp hmap
  have hd' : d' = d := by simpa using List.find?_some hb
  rw [hb, hd']

theorem takesPolicies_takeBanks {s u : State} {done : Nat → Prop} (h : TakesPolicies s u done) {e : Nat} (he : e < 8) :
    TakesPolicies s (u.takeBanks s.bankSnapshot e) fun d => done d ∨ d ∈ engineBanks e := by
  refine (TakesPolicies.foldl (P := fun x d => d = x) (engineBanks e) (fun d hd u done hu => ?_) h).weaken fun d hd => ?_
  · rw [find?_bankSnapshot s he hd]
    exact hu.setDomain fun x hx => ⟨hx, rfl⟩
  · simpa using hd

/-- Every domain is a hub's or die's own, or a bank of one engine. -/
theorem takesPolicies_all (s : State) : TakesPolicies s ((List.range 8).foldl (fun u e => u.takeBanks s.bankSnapshot e)
    (((List.range 116).filter fun d => domainKind d != 0).foldl (fun u d => u.setDomain d fun x => { x with cfg := x.cfg.take }) s))
    fun d => d < 116 := by
  have hhub := TakesPolicies.foldl (s := s) (g := fun u d => u.setDomain d fun x => { x with cfg := x.cfg.take }) (P := fun x d => d = x)
    ((List.range 116).filter fun d => domainKind d != 0) (fun d _ u done hu => hu.setDomain fun x hx => ⟨hx, hx⟩) (TakesPolicies.refl s)
  refine (TakesPolicies.foldl (g := fun u e => u.takeBanks s.bankSnapshot e) (P := fun e d => d ∈ engineBanks e) (List.range 8)
    (fun e he u done hu => takesPolicies_takeBanks hu (List.mem_range.mp he)) hhub).weaken fun d hd => ?_
  by_cases hkind : domainKind d = 0
  · refine .inr ⟨d / 12, ?_⟩
    have hbank : d < 96 ∧ d % 12 < 8 := by
      unfold domainKind at hkind
      split at hkind
      · split at hkind <;> omega
      · omega
    exact ⟨List.mem_range.mpr (by omega), mem_engineBanks.mpr ⟨d % 12, hbank.2, by omega⟩⟩
  · exact .inl (.inr ⟨d, by simp [hd, hkind], rfl⟩)

/-! ### GO where no engine is in a tick and no profile changes -/

/-- The configuration other than the policies, in force. -/
def State.takeConfig (s : State) : State :=
  { s with
    host := { s.host.takeRing with refused := false, fault := 0, faultClass := 0, faultIndex := 0 }
    grid := { s.grid with engines := s.grid.engines.map fun e => { e with sel := e.sel.take } }
    q :=
      { s.q with
        slots := s.q.slots.map fun t => { t with cfg := t.cfg.take }
        engines := s.q.engines.map fun c => { c with cfg := c.cfg.take } } }

theorem acceptCommit_eq {s : State} (hsel : ∀ e, e < 8 → stagedSel s e = (s.engine e).sel.force) : s.acceptCommit []
    = (List.range 8).foldl (fun u e => u.takeBanks s.takeConfig.bankSnapshot e)
      (((List.range 116).filter fun d => domainKind d != 0).foldl (fun u d => u.setDomain d fun x => { x with cfg := x.cfg.take })
        s.takeConfig) := by
  have hchanged : ((List.range 8).any fun e => stagedSel s e != (s.engine e).sel.force) = false := by
    simpa using hsel
  have hall : ((List.range 8).filter fun e => !([] : List Nat).contains e) = List.range 8 := by simp
  unfold State.acceptCommit
  simp only [hchanged, List.filter_nil, Bool.false_eq_true, if_false, List.isEmpty_nil, Option.isNone_none, Bool.and_self, if_true, hall]
  rfl

theorem takeRing_keeps (h : HostPort) : h.takeRing.commit = h.commit ∧ h.takeRing.evtBase = h.evtBase.take := by
  simp only [HostPort.takeRing]
  split <;> exact ⟨rfl, rfl⟩

theorem anyStaged_of_takesPolicies {s u : State} (h : TakesPolicies s.takeConfig u fun d => d < 116) (hlen : s.pow.domains.length = 116) :
    anyStaged u = false := by
  obtain ⟨ds, rfl, hds, hpol⟩ := h
  have hdomains : (ds.any fun d => d.cfg.staged != d.cfg.force) = false := by
    rw [List.any_eq_false]
    intro x hx
    obtain ⟨d, hd, rfl⟩ := List.getElem_of_mem hx
    have hd' : d < 116 := by rw [hds] at hd; exact hlen ▸ hd
    obtain ⟨hstaged, hforce⟩ := hpol d
    rw [List.getD_eq_getElem _ _ hd] at hstaged hforce
    rw [hstaged, hforce hd' (by exact hlen ▸ hd'), bne_self_eq_false]
    exact Bool.false_ne_true
  have hring : s.host.takeRing.evtBase.staged = s.host.takeRing.evtBase.force := by
    rw [(takeRing_keeps s.host).2]
    rfl
  simp [anyStaged, hdomains, hring, State.takeConfig, Staged.take]

theorem cfgCommitGo_accepts {s : State} (v : HostView) (hup : s.hostUp = true) (hready : s.boot.ready = true) (hcommit : s.host.commit = none)
    (hfaults : commitFaults s = []) (hruns : s.grid.runs = []) (hsel : ∀ e, e < 8 → stagedSel s e = (s.engine e).sel.force)
    (hlen : s.pow.domains.length = 116) :
    ∃ t, exec (.cfgCommitGo v) s = .next t ∧ t.host.refused = false ∧ t.host.commit = none
      ∧ anyStaged t = false ∧ (∀ i, i < 32 → (t.slot i).cfg.force = (s.slot i).cfg.staged)
      ∧ (∀ c, c < 4 → (t.copyEngine c).cfg.force = (s.copyEngine c).cfg.staged)
      ∧ (∀ d, d < 116 → (t.domain d).cfg.force = (s.domain d).cfg.staged)
      ∧ t.host.evtBase.force = s.host.evtBase.staged ∧ t.q.queues = s.q.queues ∧ t.mem = s.mem := by
  obtain ⟨w, hw⟩ : ∃ w : State, w = { s with ops := [] } := ⟨_, rfl⟩
  obtain ⟨u, hu⟩ : ∃ u, u = w.acceptCommit [] := ⟨_, rfl⟩
  have htakes : TakesPolicies w.takeConfig u fun d => d < 116 := by
    rw [hu, acceptCommit_eq (by rw [hw]; exact hsel)]
    exact takesPolicies_all _
  have hclean := anyStaged_of_takesPolicies htakes (by rw [hw]; exact hlen)
  obtain ⟨ds, hds, -, hpol⟩ := htakes
  obtain ⟨hkept, hbase⟩ := takeRing_keeps s.host
  have hwr : w.grid.runs = [] := by rw [hw]; exact hruns
  have hticking : w.tickingEngines = [] := by simp [State.tickingEngines, hwr]
  have hlands : exec (.cfgCommitGo v) s = .next (s.run fun _ => u) := by
    refine exec_lands rfl ?_
    rw [← hw]
    have hpass : commitRefusal w = none := by simp [commitRefusal, hw, hcommit, hfaults]
    have hstill : u.grid.runs = [] := by rw [hds]; exact hwr
    have hwup : w.hostUp = true := by rw [hw, Clear.hostUp, hup]
    have hwready : w.boot.ready = true := by rw [hw]; exact hready
    simp only [hwup, hwready, hpass, Bool.not_true, Bool.or_self, Bool.false_eq_true, if_false, hticking, ← hu, hstill,
      List.filter_nil, List.map_nil, List.foldl_nil]
  have hhost : u.host = w.takeConfig.host := by rw [hds]
  have hring : u.host.evtBase = s.host.evtBase.take := by rw [hhost, hw]; exact hbase
  refine ⟨_, hlands, ?_, ?_, ?_, fun i _ => ?_, fun c _ => ?_, fun d hd => ?_, ?_, ?_, run_mem_of_no_ops (by rw [hds, hw]; rfl)⟩
  · rw [State.run_host, hhost]
    rfl
  · rw [State.run_host, hhost, hw]
    exact hkept.trans hcommit
  · rw [anyStaged_run, hclean]
  · rw [State.run_slot, hds, hw]
    exact congrArg (fun t : Slot => t.cfg.force) (List.getD_map s.q.slots (Slot.reset i) fun t => { t with cfg := t.cfg.take })
  · rw [State.run_copyEngine, hds, hw]
    exact congrArg (fun t : CopyEngine => t.cfg.force) (List.getD_map s.q.engines CopyEngine.reset fun t => { t with cfg := t.cfg.take })
  · rw [State.run_domain]
    have hforce := (hpol d).2 hd (by rw [hw]; exact hlen ▸ hd)
    rw [hds]
    rw [hw] at hforce ⊢
    exact hforce
  · rw [State.run_host, hring]
    rfl
  · rw [State.run_q, hds, hw]
    rfl

/-! ### DISCARD and the end of a profile change -/

/-- What the banks of a new profile do not touch. -/
def KeepsProfile (p : Nat) (s t : State) : Prop :=
  (∀ e ∈ t.grid.engines, e.cur = p) ∧ t.q = s.q ∧ t.ops = s.ops ∧ t.host = s.host ∧ t.pow.vddMv = s.pow.vddMv

theorem KeepsProfile.setDomain {p : Nat} {s t : State} (h : KeepsProfile p s t) (d : Nat) (f : Domain → Domain) :
    KeepsProfile p s (t.setDomain d f) := h

theorem forall_mem_modifyAt {α : Type} {P : α → Prop} {f : α → α} {xs : List α} (h : ∀ x ∈ xs, P x) (hf : ∀ x, P x → P (f x)) (i : Nat) :
    ∀ x ∈ modifyAt f i xs, P x := by
  intro y hy
  rw [modifyAt_eq_modify] at hy
  obtain ⟨j, hj, rfl⟩ := List.getElem_of_mem hy
  rw [List.getElem_modify]
  split
  · exact hf _ (h _ (List.getElem_mem _))
  · exact h _ (List.getElem_mem _)

theorem KeepsProfile.clearBank {p : Nat} {s t : State} (h : KeepsProfile p s t) (d : Nat) : KeepsProfile p s (t.clearBank d) := by
  obtain ⟨hcur, hrest⟩ := h
  refine ⟨?_, hrest⟩
  unfold State.clearBank State.clearCores
  exact forall_mem_modifyAt (P := fun e : Engine => e.cur = p) hcur (fun e (he : e.cur = p) => by exact he) (d / 12)

@[simp] theorem State.foldl_send_avs (s : State) (vs : List Nat) :
    vs.foldl (fun s v => s.send (.avs v)) s = { s with out := s.out ++ vs.map .avs } := by
  induction vs generalizing s with
  | nil => simp
  | cons v vs ih =>
    rw [List.foldl_cons, ih]
    simp [State.send]

theorem keepsProfile_takeProfile (s : State) (p : Nat) : KeepsProfile p
    { s with pow := { s.pow with vddMv := setPoint s.nv.fuses s.pow.fastOk p } } (s.takeProfile p) := by
  refine List.foldlRecOn _ _ (motive := KeepsProfile p _) ?_ fun t ht d _ => ?_
  · simp only [State.moveVdd, State.foldl_send_avs]
    refine ⟨fun e he => ?_, rfl, rfl, rfl, rfl⟩
    obtain ⟨x, -, rfl⟩ := List.mem_map.mp he
    rfl
  · split
    · exact ht.setDomain d _
    · exact (ht.setDomain d _).clearBank d

theorem settleCommit_settles (s : State) : ∃ m, s.settleCommit = { s with host := { s.host with commit := m } }
    ∧ ∀ c : Commit, s.host.commit = some c → c.engines = [] → c.profile = none → m = none := by
  unfold State.settleCommit
  split
  next c hc =>
    split
    · exact ⟨none, rfl, fun _ _ _ _ => rfl⟩
    next hopen =>
      refine ⟨s.host.commit, rfl, fun c' hc' hnone hno => ?_⟩
      obtain rfl : c = c' := by simpa [hc] using hc'
      simp [hnone, hno] at hopen
  next hnone => exact ⟨s.host.commit, rfl, fun _ _ _ _ => by simpa using hnone⟩

theorem profileChangeComplete_ends {s : State} (hlive : s.live = true) {c : Commit} {p : Nat} (hcommit : s.host.commit = some c)
    (hprofile : c.profile = some p) : ∃ t, exec .profileChangeComplete s = .next t ∧ (∀ e ∈ t.grid.engines, e.cur = p)
      ∧ (c.engines = [] → t.host.commit = none) ∧ t.pow.vddMv = setPoint s.nv.fuses s.pow.fastOk p ∧ t.q = s.q ∧ t.mem = s.mem := by
  obtain ⟨hcur, hq, hops, -, hvdd⟩ := keepsProfile_takeProfile { s with ops := [] } p
  obtain ⟨u, hu⟩ : ∃ u, u = ({ s with ops := [] } : State).takeProfile p := ⟨_, rfl⟩
  rw [← hu] at hcur hq hops hvdd
  obtain ⟨m, hm, hsettled⟩ := settleCommit_settles { u with host := { u.host with commit := some { c with profile := none } } }
  refine ⟨_, exec_lands_live (u := { u with host := { u.host with commit := m } }) rfl hlive ?_, ?_, fun hnone => ?_, ?_, ?_,
    run_mem_of_no_ops hops⟩
  · simp only [hcommit, hprofile, ← hu]
    exact hm
  · simpa using hcur
  · simpa using hsettled _ rfl hnone rfl
  · simpa using hvdd
  · simpa using hq

theorem cfgCommitDiscard_reverts {s : State} (hup : s.hostUp = true) (hready : s.boot.ready = true) :
    ∃ t, exec .cfgCommitDiscard s = .next t ∧ anyStaged t = false ∧ t.host.refused = false
      ∧ (∀ i, (t.slot i).cfg.force = (s.slot i).cfg.force) ∧ t.host.evtBase.force = s.host.evtBase.force := by
  obtain ⟨u, hu⟩ : ∃ u, u = ({ s with ops := [] } : State).revertStaged := ⟨_, rfl⟩
  refine ⟨_, exec_lands (u := { u with host := { u.host with refused := false } }) rfl ?_, ?_, ?_, fun i => ?_, ?_⟩
  · simp only [Clear.hostUp, hup, hready, Bool.and_self, if_true, ← hu]
  · rw [anyStaged_run]
    have hclean := anyStaged_revertStaged { s with ops := [] }
    rw [← hu] at hclean
    exact hclean
  · rw [State.run_host]
  · rw [State.run_slot]
    have hslot := State.revertStaged_slot { s with ops := [] } i
    rw [← hu] at hslot
    exact (congrArg (fun t : Slot => t.cfg.force) hslot : (u.slot i).cfg.force = _)
  · rw [State.run_host, hu]
    rfl

/-- Settles O37: `State.takeConfig` and `takesPolicies_all` for GO, `State.revertStaged` for DISCARD, `State.takeProfile` for the change. -/
theorem commitsAndDiscardsActOnEveryStagedValue : Obligations.CommitsAndDiscardsActOnEveryStagedValue := by
  intro s v hup hready
  have hlive : s.live = true := by
    rw [State.hostUp, Bool.and_eq_true] at hup
    exact hup.1
  exact ⟨cfgCommitGo_accepts v hup hready, cfgCommitDiscard_reverts hup hready,
    fun c p hcommit hprofile => profileChangeComplete_ends hlive hcommit hprofile⟩

end Sys2Proof.Machine
end

section
/-! SUPPORT. The event ring, its held records and the interrupt vectors. -/

namespace Sys2Proof.Machine

theorem live_of_hostUp {s : State} (hup : s.hostUp = true) : s.live = true := by
  rw [State.hostUp, Bool.and_eq_true] at hup
  exact hup.1

/-! ### Held records -/

/-- The records that the ring holds. -/
def HostPort.ringUsed (h : HostPort) : Nat := (h.evtHead + 2 ^ 32 - h.evtTail) % 2 ^ 32

/-- A ring that takes records while it has room. -/
def HostPort.ringOpen (h : HostPort) : Prop := h.link = 2 ∧ natBit h.evtBase.force 4 = true ∧ h.evtOff = false

theorem ringReady_iff {h : HostPort} (hopen : h.ringOpen) : h.ringReady = true ↔ h.ringUsed < h.ringSize := by
  obtain ⟨hlink, hon, hoff⟩ := hopen
  simp only [HostPort.ringReady, HostPort.ringUsed, hlink, hon, hoff, beq_self_eq_true, Bool.not_false, Bool.and_self, Bool.true_and,
    decide_eq_true_eq]

theorem ringUsed_succ {head tail : Nat} (hhead : head < 2 ^ 32) (htail : tail < 2 ^ 32) (hroom : (head + 2 ^ 32 - tail) % 2 ^ 32 + 1 < 2 ^ 32) :
    ((head + 1) % 2 ^ 32 + 2 ^ 32 - tail) % 2 ^ 32 = (head + 2 ^ 32 - tail) % 2 ^ 32 + 1 := by
  omega

theorem min_succ_sub (k : Nat) {a b : Nat} (h : b < a) : min (k + 1) (a - b) = min k (a - (b + 1)) + 1 := by omega

theorem ringSize_lt (h : HostPort) : h.ringSize < 2 ^ 32 :=
  calc h.ringSize ≤ 64 * 2 ^ 15 := Nat.mul_le_mul_left 64 (Nat.pow_le_pow_right (by decide) (by omega))
    _ < 2 ^ 32 := by decide

theorem ringWrite_ring (s : State) (e : Event) : (s.ringWrite e).host.evtHead = (s.host.evtHead + 1) % 2 ^ 32
    ∧ (s.ringWrite e).host.evtTail = s.host.evtTail ∧ (s.ringWrite e).host.held = s.host.held ∧ (s.ringWrite e).host.link = s.host.link
    ∧ (s.ringWrite e).host.evtBase = s.host.evtBase ∧ (s.ringWrite e).host.evtOff = s.host.evtOff := by
  simp only [State.ringWrite]
  split
  · rw [State.signal_host]
    split <;> simp
  · simp

/-- Held records go into the ring, oldest first, as far as it has room (R366). -/
theorem deliverHeld_delivers {s : State} (k : Nat) (hk : s.host.held.length = k) (hopen : s.host.ringOpen) (hhead : s.host.evtHead < 2 ^ 32)
    (htail : s.host.evtTail < 2 ^ 32) (hroom : s.host.ringUsed ≤ s.host.ringSize) :
    (s.deliverHeld k).host.held = s.host.held.drop (min k (s.host.ringSize - s.host.ringUsed))
      ∧ (s.deliverHeld k).host.evtHead = (s.host.evtHead + min k (s.host.ringSize - s.host.ringUsed)) % 2 ^ 32
      ∧ (s.deliverHeld k).host.evtTail = s.host.evtTail := by
  induction k generalizing s with
  | zero => exact ⟨by rw [Nat.zero_min, List.drop_zero]; rfl, by rw [Nat.zero_min, Nat.add_zero, Nat.mod_eq_of_lt hhead]; rfl, rfl⟩
  | succ k ih =>
    obtain ⟨e, rest, hheld⟩ := List.exists_of_length_succ _ hk
    rw [State.deliverHeld, hheld]
    by_cases hfree : s.host.ringUsed < s.host.ringSize
    · obtain ⟨w, hw⟩ : ∃ w, w = ({ s with host := { s.host with held := rest } } : State).ringWrite e := ⟨_, rfl⟩
      obtain ⟨hwhead, hwtail, hwheld, hwlink, hwbase, hwoff⟩ := ringWrite_ring { s with host := { s.host with held := rest } } e
      rw [← hw] at hwhead hwtail hwheld hwlink hwbase hwoff
      have hsize : w.host.ringSize = s.host.ringSize := by rw [HostPort.ringSize, hwbase]; rfl
      have hlt := ringSize_lt s.host
      have hused : w.host.ringUsed = s.host.ringUsed + 1 := by
        have hroom' : s.host.ringUsed + 1 < 2 ^ 32 := by omega
        rw [HostPort.ringUsed, hwhead, hwtail]
        exact ringUsed_succ hhead htail hroom'
      have hlen : w.host.held.length = k := by rw [hwheld]; simpa [hheld] using hk
      obtain ⟨hheld', hhead', htail'⟩ := ih hlen (by rw [HostPort.ringOpen, hwlink, hwbase, hwoff]; exact hopen)
        (by rw [hwhead]; exact Nat.mod_lt _ (by decide)) (by rw [hwtail]; exact htail) (by omega)
      have hmin : min (k + 1) (s.host.ringSize - s.host.ringUsed) = min k (w.host.ringSize - w.host.ringUsed) + 1 := by
        rw [hsize, hused]
        exact min_succ_sub k hfree
      simp only [(ringReady_iff hopen).mpr hfree, if_true, ← hw, hheld', hhead', htail', hmin, hwheld, hwhead, hwtail, List.drop_succ_cons, true_and, and_true]
      rw [Nat.mod_add_mod, Nat.add_assoc, Nat.add_comm 1]
    · have hfull : s.host.ringSize - s.host.ringUsed = 0 := by omega
      simp only [mt (ringReady_iff hopen).mp hfree]
      rw [hfull, Nat.min_zero, Nat.add_zero, Nat.mod_eq_of_lt hhead]
      exact ⟨hheld, rfl, rfl⟩

theorem heldRecordDelivery_delivers {s : State} (hup : s.hostUp = true) (hon : natBit s.host.evtBase.force 4 = true)
    (hoff : s.host.evtOff = false) (htail : s.host.evtTail < 2 ^ 32) (hhead : s.host.evtHead < 2 ^ 32)
    (hroom : s.host.ringUsed ≤ s.host.ringSize) : ∃ t, exec .heldRecordDelivery s = .next t
      ∧ (t.host.held = s.host.held.drop (min s.host.held.length (s.host.ringSize - s.host.ringUsed))
        ∧ t.host.evtHead = (s.host.evtHead + min s.host.held.length (s.host.ringSize - s.host.ringUsed)) % 2 ^ 32)
      ∧ t.host.evtTail = s.host.evtTail := by
  have hlink : s.host.link = 2 := by
    rw [State.hostUp, Bool.and_eq_true, beq_iff_eq] at hup
    exact hup.2
  obtain ⟨hheld, hhead', htail'⟩ := deliverHeld_delivers (s := { s with ops := [] }) s.host.held.length rfl ⟨hlink, hon, hoff⟩ hhead htail hroom
  refine ⟨_, exec_lands_live rfl (live_of_hostUp hup) rfl, ?_⟩
  rw [State.run_host]
  exact ⟨⟨hheld, hhead'⟩, htail'⟩

/-! ### Vectors -/

theorem byte_mask_xor (b m : Byte) : (b &&& 0xFE ^^^ m) ^^^ m = b &&& 0xFE := by
  rw [BitVec.xor_assoc, BitVec.xor_self, BitVec.xor_zero]

/-- The cleared mask bit of a vector leaves only the function's mask (R365). -/
theorem masked_unmasked {h : HostPort} (hwf : cellsWf 0 h.msixTable = true) (n : Nat) :
    ({ h with msixTable := cellWrite 0 h.msixTable (16 * n + 12) (h.tableByte (16 * n + 12) &&& 0xFE ^^^ msixReset (16 * n + 12)) }
      : HostPort).masked n = natBit (cellRead 0 h.cfg (msixControl + 1)).toNat 6 := by
  have hbyte : natBit (h.tableByte (16 * n + 12) &&& 0xFE).toNat 0 = false := by
    rw [natBit_toNat, BitVec.getLsbD_and]
    simp
  obtain ⟨hsorted, -⟩ := (cellsWf_iff 0 h.msixTable).mp hwf
  rw [HostPort.masked, HostPort.tableByte, cellRead_cellWrite 0 _ _ _ _ hsorted, if_pos rfl, byte_mask_xor, hbyte, Bool.false_or]

theorem msixUnmask_sends {s : State} (hup : s.hostUp = true) {n : Nat} (hn : n < 1056) (hpending : n ∈ s.host.msixPending)
    (hfun : natBit (cellRead 0 s.host.cfg 0xB3).toNat 6 = false) (hwf : cellsWf 0 s.host.msixTable = true) :
    ∃ t, exec (.msixUnmask n) s = .next t ∧ t.out = s.out ++ [.msix n] ∧ n ∉ t.host.msixPending := by
  obtain ⟨h, hh⟩ : ∃ h : HostPort, h = { s.host with
    msixTable := cellWrite 0 s.host.msixTable (16 * n + 12) (s.host.tableByte (16 * n + 12) &&& 0xFE ^^^ msixReset (16 * n + 12)) } :=
    ⟨_, rfl⟩
  have hclear : h.masked n = false := by rw [hh, masked_unmasked hwf]; exact hfun
  have hpend : h.msixPending = s.host.msixPending := by rw [hh]
  refine ⟨_, exec_lands (u := ({ s with ops := [], host := { h with msixPending := h.msixPending.filter (· != n) } } : State).send (.msix n))
    rfl ?_, ?_, ?_⟩
  · simp only [Clear.hostUp, hup, hn, decide_true, Bool.and_self, if_true, ← hh, hclear, hpend, List.contains_iff_mem.mpr hpending,
      Bool.not_false]
    rw [hh]
  · rw [State.run_out]
    rfl
  · rw [State.run_host]
    simp

/-! ### The other commands -/

theorem writeEvtTail_tail (s : State) {v : Nat} (hv : v < 2 ^ 32) : (s.writeEvtTail v).host.evtTail
    = if (v + 2 ^ 32 - s.host.evtTail) % 2 ^ 32 ≤ (s.host.evtHead + 2 ^ 32 - s.host.evtTail) % 2 ^ 32 then v else s.host.evtHead := by
  simp only [State.writeEvtTail, Nat.mod_eq_of_lt hv, gt_iff_lt]
  by_cases hle : (v + 2 ^ 32 - s.host.evtTail) % 2 ^ 32 ≤ (s.host.evtHead + 2 ^ 32 - s.host.evtTail) % 2 ^ 32
  · rw [if_neg (Nat.not_lt.mpr hle), if_pos hle]
  · rw [if_pos (Nat.lt_of_not_le hle), if_neg hle]

theorem evtRingTailWrite_arms {s : State} (v : Word) (hup : s.hostUp = true) (hready : s.boot.ready = true) :
    ∃ t, exec (.evtRingTailWrite v) s = .next t ∧ t.host.evtArmed = true
      ∧ t.host.evtTail = (if (v.toNat + 2 ^ 32 - s.host.evtTail) % 2 ^ 32 ≤ (s.host.evtHead + 2 ^ 32 - s.host.evtTail) % 2 ^ 32
          then v.toNat else s.host.evtHead) ∧ t.host.evtHead = s.host.evtHead := by
  have htail := writeEvtTail_tail { s with ops := [] } v.isLt
  dsimp only at htail
  refine ⟨_, exec_lands (u := ({ s with ops := [] } : State).writeEvtTail v.toNat) rfl ?_, ?_, ?_, ?_⟩
  · simp only [Clear.hostUp, hup, hready, Bool.and_self, if_true]
  all_goals rw [State.run_host]
  · simp only [State.writeEvtTail]
  · exact htail
  · simp only [State.writeEvtTail]

theorem atsInvalidation_drops {s : State} (hup : s.hostUp = true) (ps : List Nat) : ∃ t, exec (.atsInvalidation ps) s = .next t
    ∧ (∀ p ∈ ps, p ∉ t.host.atsCache) ∧ ∀ p, p ∉ ps → (p ∈ t.host.atsCache ↔ p ∈ s.host.atsCache) := by
  refine ⟨_, exec_lands (u := { s with ops := [], host := { s.host with atsCache := s.host.atsCache.filter fun p => !ps.contains p } })
    rfl ?_, ?_⟩
  · simp only [Clear.hostUp, hup, if_true]
  · rw [State.run_host]
    simp +contextual

theorem doeDiscovery_lists {s : State} (hup : s.hostUp = true) (index : Nat) {w : DWord} (hw : BitVec.ofNat 64
    ((doeObjects.getD index (0xFFFF, 0)).1 + (doeObjects.getD index (0xFFFF, 0)).2 * 2 ^ 16
      + (if index + 1 < doeObjects.length then index + 1 else 0) * 2 ^ 24) = w) :
    ∃ t, exec (.doeDiscovery index) s = .next t ∧ t.sb.reply.map (·.words) = some [w] := by
  refine ⟨_, exec_lands (u := { s with ops := [], sb := { s.sb with reply := some { tag := 0, result := 0, words := [w], bytes := [] } } })
    rfl ?_, ?_⟩
  · simp only [Clear.hostUp, hup, if_true, hw]
  · rw [State.run_sb_reply]
    rfl

/-- Settles O38, a command at a time. -/
theorem eventRingAndInterrupts : Obligations.EventRingAndInterrupts := fun _ hup =>
  ⟨fun v => evtRingTailWrite_arms v hup, heldRecordDelivery_delivers hup, fun _ hn hpending hfun hwf => msixUnmask_sends hup hn hpending hfun hwf,
    atsInvalidation_drops hup, doeDiscovery_lists hup 0 rfl, doeDiscovery_lists hup 1 rfl⟩

end Sys2Proof.Machine
end

section
/-! SUPPORT. A read of no bytes through the aperture. -/

namespace Sys2Proof.Machine

/-- A read of no bytes returns none and no poison, whatever stands around its address. -/
theorem apertureRead_empty {s : State} {off : Nat} (hup : s.hostUp = true) (hready : s.boot.ready = true) (hoff : 0x10000 ≤ off) :
    exec (.apertureRead off 0) s
      = .next (s.run fun _ => { s with ops := [], host := { s.host with readData := zeroBytes 0, readPoison := false } }) := by
  refine exec_lands rfl ?_
  simp only [Clear.hostUp, hup, hready, Bool.not_true, Bool.false_eq_true, if_false, if_true, Nat.zero_min]
  exact if_neg (Nat.not_lt.mpr hoff)

/-- A device in service whose first line of DRAM is poisoned. -/
def State.firstLinePoisoned : State :=
  { State.reset with
    boot := { Boot.reset with released := true, ready := true }
    host := { HostPort.reset with link := 2 }
    mem := { Mem.reset with top := 2 ^ 38, valid := [0], poisoned := [0] } }

/-- Refutes O39: the line around an address within it counts as poisoned for a range of no bytes, yet a read of no bytes completes
without the poison bit. Here a read of no bytes at address 1, in line 0, which is poisoned. -/
theorem not_apertureReachesSoftwareDram : ¬ Obligations.ApertureReachesSoftwareDram := by
  intro h
  obtain ⟨-, hpoisoned, -⟩ := h State.firstLinePoisoned 0x10001 0 (by decide) (by decide) (by decide)
  obtain ⟨t, hexec, -, hpoison, -⟩ := hpoisoned (by decide) (by decide)
  rw [apertureRead_empty (by decide) (by decide) (by decide)] at hexec
  obtain rfl := Host.Outcome.next.inj hexec
  rw [State.run_host] at hpoison
  exact Bool.false_ne_true hpoison

end Sys2Proof.Machine
end

section
/-! SUPPORT. What DRAM reads as after a write and after a drain (R319, R323, R326). -/

namespace Sys2Proof.Machine

/-! ### Bytes of a merge entry -/

/-- Bytes by strictly ascending offset. -/
def AscendingBytes (bs : List (Nat × Byte)) : Prop := bs.Pairwise fun x y => x.1 < y.1

/-- One byte put among others by ascending offset. -/
def putByte (old : List (Nat × Byte)) (off : Nat) (b : Byte) : List (Nat × Byte) :=
  (old.takeWhile fun p => p.1 < off) ++ [(off, b)] ++ old.dropWhile fun p => p.1 ≤ off

theorem mergeBytes_cons (old : List (Nat × Byte)) (off : Nat) (b : Byte) (bs : List Byte) :
    mergeBytes old off (b :: bs) = mergeBytes (putByte old off b) (off + 1) bs := rfl

section
variable {x : Nat × Byte} {xs : List (Nat × Byte)} {off : Nat} (b : Byte)

theorem putByte_cons_of_lt (h : x.1 < off) : putByte (x :: xs) off b = x :: putByte xs off b := by
  have hle : x.1 ≤ off := h.le
  simp [putByte, h, hle]

theorem putByte_cons_of_gt (h : off < x.1) : putByte (x :: xs) off b = (off, b) :: x :: xs := by
  have hlt : ¬ x.1 < off := by omega
  have hle : ¬ x.1 ≤ off := by omega
  simp [putByte, hlt, hle]

theorem putByte_cons_of_eq (hasc : AscendingBytes (x :: xs)) (h : x.1 = off) : putByte (x :: xs) off b = (off, b) :: xs := by
  have hdrop : xs.dropWhile (fun p => p.1 ≤ off) = xs := by
    cases xs with
    | nil => rfl
    | cons y ys =>
      have hlt : x.1 < y.1 := (List.pairwise_cons.mp hasc).1 y List.mem_cons_self
      exact List.dropWhile_cons_of_neg (by simp; omega)
  simp [putByte, h, hdrop]

end

theorem find?_key_same (x : Nat × Byte) (xs : List (Nat × Byte)) : (x :: xs).find? (fun p => p.1 == x.1) = some x :=
  List.find?_cons_of_pos (beq_self_eq_true x.1)

theorem find?_key_other {x : Nat × Byte} {k : Nat} (h : x.1 ≠ k) (xs : List (Nat × Byte)) :
    (x :: xs).find? (fun p => p.1 == k) = xs.find? fun p => p.1 == k :=
  List.find?_cons_of_neg (by simpa using h)

theorem putByte_spec {old : List (Nat × Byte)} (hasc : AscendingBytes old) (off : Nat) (b : Byte) :
    AscendingBytes (putByte old off b) ∧ (∀ p ∈ putByte old off b, p.1 = off ∨ p ∈ old)
      ∧ ∀ k, (putByte old off b).find? (fun p => p.1 == k) = if k = off then some (off, b) else old.find? fun p => p.1 == k := by
  induction old with
  | nil =>
    refine ⟨List.pairwise_singleton _ _, fun p hp => .inl ?_, fun k => ?_⟩
    · rw [List.mem_singleton.mp hp]
    · by_cases hk : k = off
      · rw [hk, if_pos rfl]
        exact find?_key_same (off, b) []
      · rw [if_neg hk]
        exact find?_key_other (fun h => hk h.symm) []
  | cons x xs ih =>
    obtain ⟨hx, hxs⟩ := List.pairwise_cons.mp hasc
    rcases Nat.lt_trichotomy x.1 off with hlt | heq | hgt
    · obtain ⟨hput, hmem, hfind⟩ := ih hxs
      rw [putByte_cons_of_lt b hlt]
      refine ⟨List.pairwise_cons.mpr ⟨fun p hp => ?_, hput⟩, fun p hp => ?_, fun k => ?_⟩
      · rcases hmem p hp with h | h
        · omega
        · exact hx p h
      · rcases List.mem_cons.mp hp with rfl | h
        · exact .inr List.mem_cons_self
        · exact (hmem p h).imp_right (List.mem_cons_of_mem _)
      · by_cases hk : x.1 = k
        · subst hk
          rw [find?_key_same, find?_key_same, if_neg (by omega)]
        · rw [find?_key_other hk, find?_key_other hk, hfind]
    · rw [putByte_cons_of_eq b hasc heq]
      refine ⟨List.pairwise_cons.mpr ⟨fun p hp => heq ▸ hx p hp, hxs⟩, fun p hp => ?_, fun k => ?_⟩
      · rcases List.mem_cons.mp hp with rfl | h
        · exact .inl rfl
        · exact .inr (List.mem_cons_of_mem _ h)
      · by_cases hk : k = off
        · rw [hk, if_pos rfl]
          exact find?_key_same (off, b) xs
        · rw [if_neg hk, find?_key_other (fun h => hk h.symm), find?_key_other (fun h => hk (h.symm.trans heq))]
    · rw [putByte_cons_of_gt b hgt]
      refine ⟨List.pairwise_cons.mpr ⟨fun p hp => ?_, hasc⟩, fun p hp => ?_, fun k => ?_⟩
      · rcases List.mem_cons.mp hp with rfl | h
        · exact hgt
        · exact hgt.trans (hx p h)
      · exact (List.mem_cons.mp hp).imp_left fun h => by rw [h]
      · by_cases hk : k = off
        · rw [hk, if_pos rfl]
          exact find?_key_same (off, b) _
        · rw [if_neg hk, find?_key_other fun h => hk h.symm]

theorem mergeBytes_spec (bs : List Byte) {old : List (Nat × Byte)} (hasc : AscendingBytes old) (off : Nat) :
    AscendingBytes (mergeBytes old off bs) ∧ ∀ k, (mergeBytes old off bs).find? (fun p => p.1 == k)
      = if off ≤ k ∧ k < off + bs.length then some (k, bs.getD (k - off) 0) else old.find? fun p => p.1 == k := by
  induction bs generalizing old off with
  | nil =>
    refine ⟨hasc, fun k => ?_⟩
    rw [if_neg (by simp)]
    rfl
  | cons b bs ih =>
    obtain ⟨hput, -, hfind⟩ := putByte_spec hasc off b
    obtain ⟨hall, hrest⟩ := ih hput (off + 1)
    refine ⟨hall, fun k => ?_⟩
    rw [mergeBytes_cons, hrest, hfind, List.length_cons]
    rcases Nat.lt_trichotomy k off with hlt | rfl | hgt
    · rw [if_neg (by omega), if_neg (by omega), if_neg (by omega)]
    · rw [if_neg (by omega), if_pos rfl, if_pos (by omega), Nat.sub_self]
      rfl
    · obtain ⟨d, rfl⟩ : ∃ d, k = off + 1 + d := ⟨k - off - 1, by omega⟩
      by_cases hin : off + 1 + d < off + (bs.length + 1)
      · rw [if_pos (by omega), if_pos (by omega), show off + 1 + d - (off + 1) = d by omega, show off + 1 + d - off = d + 1 by omega]
        rfl
      · rw [if_neg (by omega), if_neg (by omega), if_neg (by omega)]

/-! ### Tidy DRAM -/

/-- The bytes that a line's merge entry holds. -/
def Mem.merged (m : Mem) (line : Nat) : List (Nat × Byte) := ((m.entry line).map (·.bytes)).getD []

theorem Mem.byte_eq (m : Mem) (a : Nat) :
    m.byte a = (((m.merged (a / 64)).find? fun p => p.1 == a % 64).map (·.2)).getD (cellRead 0 m.cells a) := by
  unfold Mem.byte Mem.merged
  cases m.entry (a / 64) with
  | none => rfl
  | some e =>
    simp only [Option.bind_some, Option.map_some, Option.getD_some]
    cases e.bytes.find? fun p => p.1 == a % 64 <;> rfl

theorem Mem.byte_of_merged {m m' : Mem} {a : Nat} (hmerged : m'.merged (a / 64) = m.merged (a / 64)) (hcells : cellRead 0 m'.cells a = cellRead 0 m.cells a) :
    m'.byte a = m.byte a := by
  rw [Mem.byte_eq, Mem.byte_eq, hmerged, hcells]

/-- DRAM as the device keeps it: in its canonical form, without poison or loss, one merge entry for a line, its bytes ascending. -/
structure Mem.Tidy (m : Mem) : Prop where
  wf : m.wf = true
  poisoned : m.poisoned = []
  lost : m.lost = []
  lines : (m.merge.map (·.line)).Nodup
  bytes : ∀ e ∈ m.merge, AscendingBytes e.bytes

theorem Mem.Tidy.merged {m : Mem} (h : m.Tidy) (line : Nat) : AscendingBytes (m.merged line) := by
  unfold Mem.merged
  cases he : m.entry line with
  | none => exact List.Pairwise.nil
  | some e => exact h.bytes e (List.mem_of_find?_eq_some he)

theorem Mem.Tidy.not_lost {m : Mem} (h : m.Tidy) (line : Nat) : m.lineLost line = false := by
  simp [Mem.lineLost, h.lost]

theorem Mem.Tidy.not_poisoned {m : Mem} (h : m.Tidy) (line : Nat) : m.linePoisoned line = false := by
  simp [Mem.linePoisoned, h.poisoned, h.not_lost]

theorem Mem.Tidy.entry {m : Mem} (h : m.Tidy) {e : MergeEntry} (he : e ∈ m.merge) : m.entry e.line = some e := by
  have hsome : (m.entry e.line).isSome := List.find?_isSome.mpr ⟨e, he, beq_self_eq_true _⟩
  obtain ⟨x, hx⟩ := Option.isSome_iff_exists.mp hsome
  have hline : x.line = e.line := by simpa using List.find?_some hx
  rw [hx, List.inj_on_of_nodup_map h.lines (List.mem_of_find?_eq_some hx) he hline]

/-! ### Draining an entry -/

theorem mem_merge_filter {m : Mem} {line : Nat} {e : MergeEntry} (h : e ∈ m.merge.filter fun x => x.line != line) : e ∈ m.merge :=
  (List.mem_filter.mp h).1

theorem entry_without (m : Mem) (line l : Nat) : (m.merge.filter fun x => x.line != line).find? (fun e => e.line == l)
    = if l = line then none else m.entry l := by
  rw [entry_filter m.merge (fun x => x != line) l]
  by_cases hl : l = line
  · simp [hl]
  · simp [hl, Mem.entry]

/-- Cells after the bytes of an entry have gone into them. -/
theorem cellRead_drained {bs : List (Nat × Byte)} (hasc : AscendingBytes bs) (line : Nat) {cells : List (Nat × Byte)}
    (hcells : cells.Pairwise fun x y => x.1 < y.1) (a : Nat) :
    cellRead 0 (bs.foldl (fun c b => cellWrite 0 c (64 * line + b.1) b.2) cells) a
      = ((bs.find? fun b => 64 * line + b.1 == a).map (·.2)).getD (cellRead 0 cells a) := by
  induction bs generalizing cells with
  | nil => rfl
  | cons b bs ih =>
    obtain ⟨hb, hbs⟩ := List.pairwise_cons.mp hasc
    rw [List.foldl_cons, ih hbs (cellWrite_pairwise 0 _ _ _ hcells), cellRead_cellWrite 0 _ _ _ _ hcells]
    by_cases ha : 64 * line + b.1 = a
    · have hnone : bs.find? (fun x => 64 * line + x.1 == a) = none := by
        rw [List.find?_eq_none]
        intro x hx
        have := hb x hx
        simp
        omega
      rw [hnone, List.find?_cons_of_pos (by simpa using ha), if_pos ha.symm]
      rfl
    · rw [List.find?_cons_of_neg (by simpa using ha), if_neg fun h => ha h.symm]

theorem Mem.drainEntry_tidy {m : Mem} (h : m.Tidy) {e : MergeEntry} (he : e ∈ m.merge) : (m.drainEntry e).Tidy
    ∧ (∀ l, (m.drainEntry e).entry l = if l = e.line then none else m.entry l) ∧ ∀ a, (m.drainEntry e).byte a = m.byte a := by
  obtain ⟨⟨hcells, -⟩, -, -, -, hfit⟩ := (Mem.wf_iff m).mp h.wf
  have hdrain : m.drainEntry e = { m with
      cells := e.bytes.foldl (fun c b => cellWrite 0 c (64 * e.line + b.1) b.2) m.cells
      valid := insertAsc e.line m.valid
      merge := m.merge.filter fun x => x.line != e.line } := by
    rw [Mem.drainEntry, h.not_poisoned]
    rfl
  have hentry : ∀ l, (m.drainEntry e).entry l = if l = e.line then none else m.entry l := by
    rw [hdrain]
    exact entry_without m e.line
  refine ⟨⟨Mem.drainEntry_wf m e (hfit e he) h.wf, ?_, ?_, ?_, ?_⟩, hentry, fun a => ?_⟩
  · rw [hdrain]
    exact h.poisoned
  · rw [hdrain]
    exact h.lost
  · rw [hdrain]
    exact h.lines.sublist (List.filter_sublist.map _)
  · exact fun x hx => h.bytes x (Mem.drainEntry_merge m e x hx)
  · have hcell := cellRead_drained (h.bytes e he) e.line hcells a
    rw [Mem.byte_eq, Mem.merged, hentry, hdrain, hcell, Mem.byte_eq m, Mem.merged]
    by_cases hline : a / 64 = e.line
    · have hkeys : (fun b : Nat × Byte => 64 * e.line + b.1 == a) = fun b => b.1 == a % 64 := by
        funext b
        rw [beq_eq_beq]
        omega
      rw [if_pos hline, hkeys, hline, h.entry he]
      rfl
    · have hnone : e.bytes.find? (fun b => 64 * e.line + b.1 == a) = none := by
        rw [List.find?_eq_none]
        intro b hb
        have := hfit e he b hb
        simp
        omega
      rw [if_neg hline, hnone]
      rfl

/-! ### Writing within a line -/

/-- Bytes put into a line, at an offset. -/
def Mem.putsBytes (m m' : Mem) (line off : Nat) (bs : List Byte) : Prop :=
  ∀ a, m'.byte a = if a / 64 = line ∧ off ≤ a % 64 ∧ a % 64 < off + bs.length then bs.getD (a % 64 - off) 0 else m.byte a

/-- An entry takes bytes. -/
theorem putsBytes_of_merged {m m' : Mem} (h : m.Tidy) {line off : Nat} {bs : List Byte} (hcells : m'.cells = m.cells)
    (hother : ∀ l, l ≠ line → m'.merged l = m.merged l) (hline : m'.merged line = mergeBytes (m.merged line) off bs) :
    m.putsBytes m' line off bs := by
  intro a
  by_cases hl : a / 64 = line
  · rw [Mem.byte_eq, hl, hline, (mergeBytes_spec bs (h.merged line) off).2, hcells, Mem.byte_eq m, hl]
    by_cases hin : off ≤ a % 64 ∧ a % 64 < off + bs.length
    · rw [if_pos hin, if_pos ⟨rfl, hin⟩]
      rfl
    · rw [if_neg hin, if_neg fun hc => hin hc.2]
  · rw [if_neg fun hc => hl hc.1]
    exact Mem.byte_of_merged (hother _ hl) (by rw [hcells])

/-- A full buffer of a unit drains its oldest entry. -/
def Mem.makeRoom (m : Mem) (unit : Nat) : Mem :=
  let mine := m.merge.filter fun e => e.unit == unit
  if mine.length ≥ 32 then (match mine with | e :: _ => m.drainEntry e | [] => m) else m

theorem Mem.makeRoom_tidy {m : Mem} (h : m.Tidy) (unit : Nat) {line : Nat} (hnone : m.entry line = none) :
    (m.makeRoom unit).Tidy ∧ (m.makeRoom unit).entry line = none ∧ ∀ a, (m.makeRoom unit).byte a = m.byte a := by
  unfold Mem.makeRoom
  dsimp only
  split
  · split
    next e rest hmine =>
      have he : e ∈ m.merge.filter fun e => e.unit == unit := hmine ▸ List.mem_cons_self
      obtain ⟨htidy, hent, hbyte⟩ := Mem.drainEntry_tidy h (List.mem_filter.mp he).1
      refine ⟨htidy, ?_, hbyte⟩
      rw [hent]
      split
      · rfl
      · exact hnone
    next => exact ⟨h, hnone, fun _ => rfl⟩
  · exact ⟨h, hnone, fun _ => rfl⟩

theorem Mem.writePart_puts {m : Mem} (h : m.Tidy) (line : Nat) {off : Nat} {bs : List Byte} (hfit : off + bs.length ≤ 64) :
    (m.writePart line off bs).Tidy ∧ m.putsBytes (m.writePart line off bs) line off bs := by
  have hwf := Mem.writePart_wf m line off bs hfit h.wf
  cases hentry : m.entry line with
  | some e =>
    have hwrite : m.writePart line off bs = { m with
        merge := m.merge.map fun e => if e.line = line then { e with bytes := mergeBytes e.bytes off bs } else e } := by
      rw [Mem.writePart, h.not_lost, hentry]
      rfl
    have hmodify : (m.writePart line off bs).merge
        = modifyIf (fun x => x.line == line) (fun e => { e with bytes := mergeBytes e.bytes off bs }) m.merge := by
      rw [hwrite]
      simp only [modifyIf, beq_iff_eq]
    have hfind : ∀ l, (m.writePart line off bs).entry l
        = if l = line then some { e with bytes := mergeBytes e.bytes off bs } else m.entry l := by
      intro l
      rw [Mem.entry, hmodify]
      by_cases hl : l = line
      · subst hl
        rw [if_pos rfl, find?_modifyIf (fun x hx => by simpa using hx)]
        exact congrArg (Option.map _) hentry
      · rw [if_neg hl]
        refine find?_modifyIf_other (fun x hx => ?_) _
        have hx' : x.line = line := by simpa using hx
        simpa [hx'] using fun h : line = l => hl h.symm
    have hmerged : m.merged line = e.bytes := by rw [Mem.merged, hentry]; rfl
    refine ⟨⟨hwf, by rw [hwrite]; exact h.poisoned, by rw [hwrite]; exact h.lost, ?_, ?_⟩, ?_⟩
    · have hlines : (m.writePart line off bs).merge.map (·.line) = m.merge.map (·.line) := by
        rw [hwrite, List.map_map]
        refine List.map_congr_left fun x _ => ?_
        simp only [Function.comp]
        split <;> rfl
      rw [hlines]
      exact h.lines
    · rw [hwrite]
      intro x hx
      obtain ⟨y, hy, rfl⟩ := List.mem_map.mp hx
      split
      · exact (mergeBytes_spec bs (h.bytes y hy) off).1
      · exact h.bytes y hy
    · refine putsBytes_of_merged h (by rw [hwrite]) (fun l hl => ?_) ?_
      · rw [Mem.merged, hfind, if_neg hl, Mem.merged]
      · rw [Mem.merged, hfind, if_pos rfl, hmerged]
        rfl
  | none =>
    obtain ⟨htidy, hstill, hsame⟩ := Mem.makeRoom_tidy h (unitOf m.units (64 * line)) hentry
    obtain ⟨m', hroom⟩ : ∃ m', m' = m.makeRoom (unitOf m.units (64 * line)) := ⟨_, rfl⟩
    have hm' : m.writePart line off bs
        = { m' with merge := m'.merge ++ [{ unit := unitOf m.units (64 * line), line := line, bytes := mergeBytes [] off bs }] } := by
      rw [Mem.writePart, h.not_lost, hentry, hroom]
      rfl
    rw [← hroom] at htidy hstill hsame
    have hnew : ∀ e ∈ m'.merge, ¬ e.line = line := by
      intro e he hline
      simpa [hline] using List.find?_eq_none.mp hstill e he
    have hfind : ∀ l, (m.writePart line off bs).merged l = if l = line then mergeBytes [] off bs else m'.merged l := by
      intro l
      rw [Mem.merged, Mem.entry, hm', List.find?_append]
      by_cases hl : l = line
      · rw [hl, if_pos rfl]
        have hnone : m'.merge.find? (fun e => e.line == line) = none := hstill
        simp [hnone]
      · have hne : ¬ line = l := fun hc => hl hc.symm
        simp [hl, hne, Mem.merged, Mem.entry]
    have hbefore : m'.merged line = [] := by rw [Mem.merged, hstill]; rfl
    refine ⟨⟨hwf, by rw [hm']; exact htidy.poisoned, by rw [hm']; exact htidy.lost, ?_, ?_⟩, fun a => ?_⟩
    · rw [hm', List.map_append, List.nodup_append]
      refine ⟨htidy.lines, by simp, fun l hl l' hl' => ?_⟩
      obtain ⟨e, he, rfl⟩ := List.mem_map.mp hl
      have : l' = line := by simpa using hl'
      exact this ▸ hnew e he
    · rw [hm']
      intro x hx
      rcases List.mem_append.mp hx with hx | hx
      · exact htidy.bytes x hx
      · rw [List.mem_singleton.mp hx]
        exact (mergeBytes_spec bs List.Pairwise.nil off).1
    · rw [← hsame a]
      refine putsBytes_of_merged htidy (by rw [hm']) (fun l hl => ?_) ?_ a
      · rw [hfind, if_neg hl]
      · rw [hfind, if_pos rfl, hbefore]

theorem Mem.writeLine_puts {m : Mem} (h : m.Tidy) (line : Nat) {bs : List Byte} (hlen : bs.length = 64) :
    (m.writeLine line bs).Tidy ∧ m.putsBytes (m.writeLine line bs) line 0 bs := by
  obtain ⟨⟨hcells, -⟩, -⟩ := (Mem.wf_iff m).mp h.wf
  have hwrite : m.writeLine line bs = { m with
      cells := cellWriteList 0 m.cells (64 * line) bs, valid := insertAsc line m.valid
      poisoned := m.poisoned.filter (· != line), merge := m.merge.filter fun e => e.line != line } := by
    rw [Mem.writeLine, h.not_lost]
    rfl
  have hentry : ∀ l, (m.writeLine line bs).entry l = if l = line then none else m.entry l := by
    rw [hwrite]
    exact entry_without m line
  refine ⟨⟨Mem.writeLine_wf m line bs hlen h.wf, ?_, ?_, ?_, ?_⟩, fun a => ?_⟩
  · rw [hwrite]
    simp [h.poisoned]
  · rw [hwrite]
    exact h.lost
  · rw [hwrite]
    exact h.lines.sublist (List.filter_sublist.map _)
  · rw [hwrite]
    exact fun x hx => h.bytes x (mem_merge_filter hx)
  · by_cases hl : a / 64 = line
    · have hin : a % 64 < bs.length := by omega
      rw [if_pos ⟨hl, Nat.zero_le _, by omega⟩, Mem.byte_of_no_entry (by rw [hentry, if_pos hl]), hwrite]
      have hread := cellRead_cellWriteList_inside 0 bs m.cells (64 * line) (a % 64) hcells hin
      rw [show 64 * line + a % 64 = a by omega] at hread
      rw [hread, Nat.sub_zero, List.getD_eq_getElem _ _ hin]
    · rw [if_neg fun hc => hl hc.1]
      refine Mem.byte_congr (by rw [hentry, if_neg hl]) ?_
      rw [hwrite]
      exact cellRead_cellWriteList_outside 0 bs m.cells (64 * line) a hcells (by omega)

/-! ### Writing any range -/

/-- A piece of a line goes through the merge buffer unless it is the whole line. -/
theorem Mem.writePiece_puts {m : Mem} (h : m.Tidy) (a : Nat) {bs : List Byte} (hfit : a % 64 + bs.length ≤ 64) :
    (if bs.length = 64 then m.writeLine (a / 64) bs else m.writePart (a / 64) (a % 64) bs).Tidy
      ∧ m.putsBytes (if bs.length = 64 then m.writeLine (a / 64) bs else m.writePart (a / 64) (a % 64) bs) (a / 64) (a % 64) bs := by
  split
  next hlen =>
    have hzero : a % 64 = 0 := by omega
    rw [hzero]
    exact Mem.writeLine_puts h _ hlen
  next => exact Mem.writePart_puts h _ hfit

/-- A write as its pieces, with fuel for them all. -/
theorem writePieces_put (k : Nat) {m : Mem} (h : m.Tidy) (a : Nat) {bs : List Byte} (hk : bs.length < k) :
    ((linePieces k a bs).foldl (fun m p => if p.2.2.length = 64 then m.writeLine p.1 p.2.2 else m.writePart p.1 p.2.1 p.2.2) m).Tidy
      ∧ ∀ x, ((linePieces k a bs).foldl (fun m p => if p.2.2.length = 64 then m.writeLine p.1 p.2.2 else m.writePart p.1 p.2.1 p.2.2) m).byte x
        = if a ≤ x ∧ x < a + bs.length then bs.getD (x - a) 0 else m.byte x := by
  induction k generalizing m a bs with
  | zero => omega
  | succ k ih =>
    cases bs with
    | nil =>
      refine ⟨h, fun x => ?_⟩
      rw [if_neg (by simp)]
      rfl
    | cons b bs =>
      obtain ⟨n, hn⟩ : ∃ n, n = 64 - a % 64 := ⟨_, rfl⟩
      have hpiece : ((b :: bs).take n).length = min n (b :: bs).length := List.length_take
      obtain ⟨m', hm'⟩ : ∃ m', m' = if ((b :: bs).take n).length = 64 then m.writeLine (a / 64) ((b :: bs).take n)
        else m.writePart (a / 64) (a % 64) ((b :: bs).take n) := ⟨_, rfl⟩
      obtain ⟨htidy, hput⟩ := Mem.writePiece_puts h a (bs := (b :: bs).take n) (by omega)
      rw [← hm'] at htidy hput
      have hdrop : ((b :: bs).drop n).length = (b :: bs).length - n := List.length_drop
      obtain ⟨hall, hbytes⟩ := ih htidy (a + n) (bs := (b :: bs).drop n) (by simp only [List.length_cons] at hk hdrop; omega)
      have hpieces : linePieces (k + 1) a (b :: bs)
          = (a / 64, a % 64, (b :: bs).take n) :: linePieces k (a + n) ((b :: bs).drop n) := by rw [hn]; rfl
      rw [hpieces, List.foldl_cons, ← hm']
      refine ⟨hall, fun x => ?_⟩
      rw [hbytes, hdrop, hput, hpiece]
      by_cases hin : a ≤ x ∧ x < a + (b :: bs).length
      · rw [if_pos hin]
        by_cases hfirst : x < a + n
        · rw [if_neg (by omega), if_pos (by omega), show x % 64 - a % 64 = x - a by omega, List.getD_eq_getElem?_getD,
            List.getD_eq_getElem?_getD, List.getElem?_take_of_lt (by omega)]
        · rw [if_pos (by omega), List.getD_eq_getElem?_getD, List.getD_eq_getElem?_getD, List.getElem?_drop]
          congr 2
          omega
      · rw [if_neg (by omega), if_neg (by omega), if_neg hin]

theorem Mem.write_puts {m : Mem} (h : m.Tidy) (a : Nat) (bs : List Byte) : (m.write a bs).Tidy
    ∧ ∀ x, (m.write a bs).byte x = if a ≤ x ∧ x < a + bs.length then bs.getD (x - a) 0 else m.byte x :=
  writePieces_put (bs.length + 1) h a (Nat.lt_succ_self _)

/-- What has been written reads back. -/
theorem Mem.bytes_write_same {m : Mem} (h : m.Tidy) (a : Nat) (bs : List Byte) : (m.write a bs).bytes a bs.length = bs := by
  refine List.ext_getElem (by simp [Mem.bytes]) fun i hi _ => ?_
  have hlt : i < bs.length := by simpa [Mem.bytes] using hi
  simp only [Mem.bytes, List.getElem_map, List.getElem_range, (Mem.write_puts h a bs).2]
  rw [if_pos (by omega), Nat.add_sub_cancel_left, List.getD_eq_getElem _ _ hlt]

/-! ### The commands -/

theorem dramWrite_lands {s : State} (hlive : s.live = true) {a : Nat} {data : List Byte} (hin : s.inDram a = true)
    (hend : a + data.length ≤ s.mem.top) (hne : data ≠ []) :
    exec (.dramWrite a data) s = .next (s.run fun _ => ({ s with ops := [] } : State).wakeChannels.store (.write a data)) := by
  refine exec_lands_live rfl hlive ?_
  simp only [Clear.inDram, hin, hend, decide_true, Bool.and_self, if_true]
  exact if_neg (by simpa using hne)

/-- Settles O55: `Mem.write_puts` for a write, `Mem.drainEntry_tidy` for a drain. -/
theorem dramReturnsWhatWasWritten : Obligations.DramReturnsWhatWasWritten := by
  intro s hlive hwf hpoisoned hlost hlines hbytes
  have htidy : s.mem.Tidy := ⟨hwf, hpoisoned, hlost, hlines, fun e he => List.pairwise_map.mp ((ascending_iff _).mp (hbytes e he))⟩
  refine ⟨fun a data hin hend hne => ?write, fun line m hentry => ?drain⟩
  case write =>
    obtain ⟨hkept, hput⟩ := Mem.write_puts htidy a data
    have hmem : (s.run fun _ => ({ s with ops := [] } : State).wakeChannels.store (.write a data)).mem = s.mem.write a data :=
      run_mem_one (op := .write a data) (by simp)
    refine ⟨_, dramWrite_lands hlive hin hend hne, ?_, fun x hx => ?_, ?_, ?_, by simp, by simp⟩ <;> rw [hmem]
    · exact Mem.bytes_write_same htidy a data
    · rw [hput, if_neg (by omega)]
    · exact hkept.poisoned
    · exact hkept.wf
  case drain =>
    have hm : m ∈ s.mem.merge := List.mem_of_find?_eq_some hentry
    have hline : m.line = line := by simpa using List.find?_some hentry
    obtain ⟨hkept, hent, hbyte⟩ := Mem.drainEntry_tidy htidy hm
    have hmem : (s.run fun _ => ({ s with ops := [] } : State).store (.drain line)).mem = s.mem.drainEntry m := by
      rw [run_mem_one (op := .drain line) (by simp)]
      simp only [Mem.apply, hentry]
    refine ⟨_, exec_lands_live (u := ({ s with ops := [] } : State).store (.drain line)) rfl hlive ?_, ?_, fun x => ?_, ?_, by simp, by simp⟩
    · simp only [hentry, true_or, if_true]
    · rw [hmem, hent, if_pos hline.symm]
    · rw [hmem, hbyte]
    · rw [hmem]
      exact hkept.wf

end Sys2Proof.Machine
end

section
/-! SUPPORT. In-service update, phase by phase (R487-R494). -/

namespace Sys2Proof.Machine

/-! ### What an update leaves of the work -/

/-- Engines and runs, DRAM, tasks and queues as they were. -/
def KeepsWork (s t : State) : Prop := t.grid = s.grid ∧ t.mem = s.mem ∧ t.q.tasks = s.q.tasks ∧ t.q.queues = s.q.queues

theorem keepsWork_run {s u : State} (hgrid : u.grid = s.grid) (hops : u.ops = []) (htasks : u.q.tasks = s.q.tasks)
    (hqueues : u.q.queues = s.q.queues) : KeepsWork s (s.run fun _ => u) :=
  ⟨by simpa using hgrid, run_mem_of_no_ops hops, by simpa using htasks, by simpa using hqueues⟩

theorem keepsWork_finishMailbox {s u : State} {result : Nat} {outs : List (Nat × Nat)} (hgrid : u.grid = s.grid) (hops : u.ops = [])
    (hq : u.q = s.q) : KeepsWork s (s.run fun _ => u.finishMailbox result outs) :=
  keepsWork_run (by simpa using hgrid) (by simpa using hops) (by simp [hq]) (by simp [hq])

/-- What an event moves of the host port: the ring, the held records, and pending vectors. -/
theorem event_host (s : State) (cls code source : Nat) (tick : Option Nat) (detail : List Byte) :
    ∃ pending head armed held seq lost, (s.event cls code source tick detail).host = { s.host with
      msixPending := pending, evtHead := head, evtArmed := armed, held := held, evtSeq := seq, evtLost := lost } := by
  simp only [State.event]
  split
  · simp only [State.ringWrite]
    split
    · rw [State.signal_host]
      simp only [State.hostWrite_host]
      exact ⟨_, _, _, _, _, _, rfl⟩
    · simp only [State.hostWrite_host]
      exact ⟨_, _, _, _, _, _, rfl⟩
  · simp only [State.holdEvent]
    split
    · exact ⟨_, _, _, _, _, _, rfl⟩
    · split
      · split <;> exact ⟨_, _, _, _, _, _, rfl⟩
      · exact ⟨_, _, _, _, _, _, rfl⟩

@[simp] theorem State.event_mbxCmd (s : State) (cls code source : Nat) (tick : Option Nat) (detail : List Byte) :
    (s.event cls code source tick detail).host.mbxCmd = s.host.mbxCmd := by
  obtain ⟨_, _, _, _, _, _, h⟩ := event_host s cls code source tick detail
  rw [h]

/-- What an IMAGE_FALLBACK changes: events, and the alert line with its bit 4. -/
theorem imageFallback_leaves (s : State) (slot cause reason : Nat) (digest : List Byte) :
    let t := s.imageFallback slot cause reason digest
    t.grid = s.grid ∧ t.q = s.q ∧ t.ops = s.ops ∧ t.fw = s.fw ∧ t.nv = s.nv ∧ t.host.mbxCmd = s.host.mbxCmd
      ∧ t.sb.alert = s.sb.alert ||| 0x10 := by
  simp [State.imageFallback]

/-- The state whose IMAGE_FALLBACK an update given up before the handover sends (R488). -/
theorem abandonUpdate_eq {s : State} {x : Update} (hx : s.fw.update = some x) (reason : Nat) :
    ∃ w : State, s.abandonUpdate reason = w.imageFallback x.slot 5 reason x.image.digest ∧ w.grid = s.grid ∧ w.q = s.q ∧ w.ops = s.ops
      ∧ w.host = s.host ∧ w.sb = s.sb ∧ w.fw.phase = 0 ∧ w.fw.update = none ∧ w.fw.reason = reason ∧ w.fw.running = s.fw.running := by
  simp only [State.abandonUpdate, State.setSlot, hx]
  exact ⟨_, rfl, rfl, rfl, rfl, rfl, rfl, rfl, rfl, rfl, rfl⟩

/-- An update given up before the handover (R488). -/
theorem abandonUpdate_leaves {s : State} {x : Update} (hx : s.fw.update = some x) (reason : Nat) :
    let t := s.abandonUpdate reason
    t.grid = s.grid ∧ t.q = s.q ∧ t.ops = s.ops ∧ t.host.mbxCmd = s.host.mbxCmd ∧ t.sb.alert = s.sb.alert ||| 0x10
      ∧ t.fw.phase = 0 ∧ t.fw.update = none ∧ t.fw.reason = reason ∧ t.fw.running = s.fw.running := by
  obtain ⟨w, habandon, hwgrid, hwq, hwops, hwhost, hwsb, hphase, hupdate, hreason, hrunning⟩ := abandonUpdate_eq hx reason
  obtain ⟨hgrid, hq, hops, hfw, -, hcmd, halert⟩ := imageFallback_leaves w x.slot 5 reason x.image.digest
  rw [habandon]
  rw [hwhost] at hcmd
  rw [hwsb] at halert
  exact ⟨hgrid.trans hwgrid, hq.trans hwq, hops.trans hwops, hcmd, halert, by rw [hfw, hphase], by rw [hfw, hupdate], by rw [hfw, hreason],
    by rw [hfw, hrunning]⟩

theorem setSlot_leaves (s : State) (slot v : Nat) : s.setSlot slot v = { s with nv := s.nv.writeBcb fun b => b.setState slot v } := rfl

theorem fuses_writeBcb (n : Nv) (f : Bcb → Bcb) : (n.writeBcb f).fuses = n.fuses := by
  unfold Nv.writeBcb
  cases n.bcb <;> rfl

/-! ### The commands of the mailbox -/

theorem natBit_one_of_lt {n : Nat} (h : n < 2) : natBit n 1 = false := by
  rw [natBit]
  simp
  omega

theorem natBit_zero_of_lt {n : Nat} (h : n < 2) : natBit n 0 = true ↔ n = 1 := by
  rw [natBit]
  simp
  omega

/-- The update that FW_UPDATE starts. -/
def startedUpdate (m : Mem) (run : Image) (addr len flags : Nat) : Update where
  addr := addr
  length := len
  hostConfirm := natBit flags 0
  nextBoot := natBit flags 1
  slot := 1 - run.slot % 2
  image := readImage (1 - run.slot % 2) fun a n => m.bytes (addr + a) n

/-- FW_UPDATE with arguments in range: the first check that fails, or the update (R488, R492). -/
theorem fwUpdate_eq {s : State} {run : Image} {addr len flags k : Nat} (hrun : s.fw.running = some run) (hphase : s.fw.phase = 0)
    (hwindow : s.fw.window = none) (halign : addr % 4096 = 0) (hsoft : s.mem.inSoft addr len = true) (hlong : 0x1000 ≤ len)
    (hfits : imgField (fun a n => s.mem.bytes (addr + a) n) 0x1C 4 ≤ len) (hflags : flags < 4)
    (hstandby : natBit flags 1 = true ∨ s.fw.standby.isSome = true)
    (hk : verifyImage s.nv.fuses (if natBit flags 1 then none else some run.major) (fun a n => s.mem.bytes (addr + a) n) = k) :
    s.fwUpdate addr len flags =
      if k ≠ 0 then (0x0400, [(1, k)], { s.wakeChannels with fw := { s.fw with reason := k } })
      else (0, [(0, 1 - run.slot % 2)],
        { s.wakeChannels with
          nv := s.nv.writeBcb fun b => b.setState (1 - run.slot % 2) 1
          fw := { s.fw with phase := 2, update := some (startedUpdate s.mem run addr len flags) } }) := by
  have hopen : (decide (s.fw.phase ≠ 0) || s.fw.window.isSome || (s.fw.standby.isNone && !natBit flags 1)) = false := by
    rcases hstandby with h | h
    · simp [hphase, hwindow, h]
    · simp [hphase, hwindow, Option.isSome_iff_ne_none.mp h]
  have hargs : ¬ (addr % 4096 ≠ 0 ∨ flags ≥ 4) := by omega
  have hfit : ¬ (imgField (fun a n => s.mem.bytes (addr + a) n) 0x1C 4 > len) := by omega
  simp only [State.fwUpdate, hrun, hopen, hargs, hsoft, State.wakeChannels_mem, State.wakeChannels_nv, State.wakeChannels_fw, hk, hfit, and_false,
    Nat.not_lt.mpr hlong, Bool.not_true, Bool.false_eq_true, if_false, setSlot_leaves]
  rfl

section
variable {s : State} {run : Image} (hholds : holdsCommand s 0x0401) (hrun : s.fw.running = some run) (hphase : s.fw.phase = 0)
  (hwindow : s.fw.window = none)
  (halign : s.arg 0 % 4096 = 0) (hsoft : s.mem.inSoft (s.arg 0) (s.arg 1) = true) (hlong : 0x1000 ≤ s.arg 1)
  (hfits : imgField (fun a n => s.mem.bytes (s.arg 0 + a) n) 0x1C 4 ≤ s.arg 1)
include hholds hrun hphase hwindow halign hsoft hlong hfits

theorem fwUpdate_starts (hflags : s.arg 2 < 2) (hstandby : s.fw.standby.isSome = true)
    (hgood : verifyImage s.nv.fuses (some run.major) (fun a n => s.mem.bytes (s.arg 0 + a) n) = 0) :
    ∃ t x, exec .fwUpdate s = .next t ∧ answered s t 0
      ∧ outWord t 0 = 1 - run.slot % 2 ∧ t.fw.phase = 2 ∧ t.fw.update = some x ∧ x.addr = s.arg 0 ∧ x.nextBoot = false
      ∧ (x.hostConfirm = true ↔ s.arg 2 = 1) ∧ x.slot = 1 - run.slot % 2 ∧ t.fw.running = s.fw.running ∧ KeepsWork s t := by
  have hone : natBit (s.arg 2) 1 = false := natBit_one_of_lt hflags
  have hzero : natBit (s.arg 2) 0 = true ↔ s.arg 2 = 1 := natBit_zero_of_lt hflags
  have hupdate := fwUpdate_eq (s := { s with ops := [] }) (flags := s.arg 2) (k := 0) hrun hphase hwindow halign hsoft hlong hfits (by omega)
    (.inr hstandby) (by rw [hone]; exact hgood)
  obtain ⟨u, hu⟩ : ∃ u, u = { ({ s with ops := [] } : State).wakeChannels with
    nv := s.nv.writeBcb fun b => b.setState (1 - run.slot % 2) 1
    fw := { s.fw with phase := 2, update := some (startedUpdate s.mem run (s.arg 0) (s.arg 1) (s.arg 2)) } } := ⟨_, rfl⟩
  rw [if_neg (by simp), ← hu] at hupdate
  obtain ⟨-, -, hargs⟩ := id hholds
  have hhost : u.host = s.host := by rw [hu]; simp
  have hlands : exec .fwUpdate s = .next (s.run fun _ => u.finishMailbox 0 [(0, 1 - run.slot % 2)]) := by
    refine exec_lands rfl ?_
    have hholds' : holdsCommand { s with ops := [] } 0x0401 := hholds
    simp only [Clear.arg, hone, Bool.false_eq_true, if_false, State.admin_of_holdsCommand hholds', hupdate]
  refine ⟨_, startedUpdate s.mem run (s.arg 0) (s.arg 1) (s.arg 2), hlands, answered_run (by rw [hhost]), ?_, ?_, ?_, rfl, hone, hzero, rfl, ?_,
    keepsWork_finishMailbox (by rw [hu]; simp) (by rw [hu]; simp) (by rw [hu]; simp)⟩
  · rw [outWord_lands (by rw [hhost]) hargs (by decide) List.mem_cons_self (by simp)]
    omega
  all_goals
    rw [State.run_fw, State.finishMailbox_fw, hu]

theorem fwUpdate_refuses {k : Nat} (hflags : s.arg 2 < 2) (hstandby : s.fw.standby.isSome = true)
    (hbad : verifyImage s.nv.fuses (some run.major) (fun a n => s.mem.bytes (s.arg 0 + a) n) = k) (hk : k ≠ 0) (hword : k < 2 ^ 64) :
    ∃ t, exec .fwUpdate s = .next t ∧ answered s t 0x0400 ∧ outWord t 1 = k ∧ t.fw = { s.fw with reason := k } ∧ t.nv = s.nv
      ∧ KeepsWork s t := by
  have hone : natBit (s.arg 2) 1 = false := natBit_one_of_lt hflags
  have hupdate := fwUpdate_eq (s := { s with ops := [] }) (flags := s.arg 2) (k := k) hrun hphase hwindow halign hsoft hlong hfits (by omega)
    (.inr hstandby) (by rw [hone]; exact hbad)
  obtain ⟨u, hu⟩ : ∃ u, u = { ({ s with ops := [] } : State).wakeChannels with fw := { s.fw with reason := k } } := ⟨_, rfl⟩
  rw [if_pos hk, ← hu] at hupdate
  obtain ⟨-, -, hargs⟩ := id hholds
  have hhost : u.host = s.host := by rw [hu]; simp
  have hlands : exec .fwUpdate s = .next (s.run fun _ => u.finishMailbox 0x0400 [(1, k)]) := by
    refine exec_lands rfl ?_
    have hholds' : holdsCommand { s with ops := [] } 0x0401 := hholds
    simp only [Clear.arg, hone, Bool.false_eq_true, if_false, State.admin_of_holdsCommand hholds', hupdate]
  refine ⟨_, hlands, answered_run (by rw [hhost]), ?_, ?_, State.run_nv_same s _ (by rw [State.finishMailbox_nv, hu]; simp),
    keepsWork_finishMailbox (by rw [hu]; simp) (by rw [hu]; simp) (by rw [hu]; simp)⟩
  · rw [outWord_lands (by rw [hhost]) hargs (by decide) List.mem_cons_self (by simp), Nat.mod_eq_of_lt hword]
  · rw [State.run_fw, State.finishMailbox_fw, hu]

theorem fwUpdateNextBoot_starts (hflags : s.arg 2 = 2 ∨ s.arg 2 = 3)
    (hgood : verifyImage s.nv.fuses none (fun a n => s.mem.bytes (s.arg 0 + a) n) = 0) :
    ∃ t x, exec .fwUpdateNextBoot s = .next t ∧ answered s t 0 ∧ t.fw.phase = 2 ∧ t.fw.update = some x ∧ x.nextBoot = true
      ∧ x.slot = 1 - run.slot % 2 ∧ KeepsWork s t := by
  have hone : natBit (s.arg 2) 1 = true := by rcases hflags with h | h <;> rw [h] <;> decide
  have hupdate := fwUpdate_eq (s := { s with ops := [] }) (flags := s.arg 2) (k := 0) hrun hphase hwindow halign hsoft hlong hfits (by omega)
    (.inl hone) (by rw [hone]; exact hgood)
  obtain ⟨u, hu⟩ : ∃ u, u = { ({ s with ops := [] } : State).wakeChannels with
    nv := s.nv.writeBcb fun b => b.setState (1 - run.slot % 2) 1
    fw := { s.fw with phase := 2, update := some (startedUpdate s.mem run (s.arg 0) (s.arg 1) (s.arg 2)) } } := ⟨_, rfl⟩
  rw [if_neg (by simp), ← hu] at hupdate
  have hlands : exec .fwUpdateNextBoot s = .next (s.run fun _ => u.finishMailbox 0 [(0, 1 - run.slot % 2)]) := by
    refine exec_lands rfl ?_
    have hholds' : holdsCommand { s with ops := [] } 0x0401 := hholds
    simp only [Clear.arg, hone, if_true, State.admin_of_holdsCommand hholds', hupdate]
  refine ⟨_, startedUpdate s.mem run (s.arg 0) (s.arg 1) (s.arg 2), hlands, answered_run (by rw [hu]; simp), ?_, ?_, hone, rfl,
    keepsWork_finishMailbox (by rw [hu]; simp) (by rw [hu]; simp) (by rw [hu]; simp)⟩
  all_goals rw [State.run_fw, State.finishMailbox_fw, hu]

end

section
variable {s : State}

theorem fwConfirm_confirms {w : Window} (hholds : holdsCommand s 0x0403) (hw : s.fw.window = some w) (hhost : w.hostConfirm = true) :
    ∃ t, exec .fwConfirm s = .next t ∧ answered s t 0 ∧ t.fw = { s.fw with window := some { w with confirmed := true } } ∧ KeepsWork s t := by
  refine ⟨_, session_lands (result := 0) (outs := [])
    (u := { s with ops := [], fw := { s.fw with window := some { w with confirmed := true } } }) rfl hholds ?_, answered_run rfl, ?_,
    keepsWork_finishMailbox rfl rfl rfl⟩
  · simp only [hw, hhost, if_true]
  · rw [State.run_fw, State.finishMailbox_fw]

theorem fwConfirm_refuses (hholds : holdsCommand s 0x0403) (hw : s.fw.window = none) :
    ∃ t, exec .fwConfirm s = .next t ∧ answered s t 3 ∧ t.fw = s.fw := by
  refine ⟨_, session_lands (result := 3) (outs := []) (u := { s with ops := [] }) rfl hholds ?_, answered_run rfl, ?_⟩
  · simp only [hw]
  · rw [State.run_fw, State.finishMailbox_fw]

theorem fwAbort_handsBack (hholds : holdsCommand s 0x0404) (hphase : s.fw.phase = 5) :
    ∃ t, exec .fwAbort s = .next t ∧ answered s t 0 ∧ t.fw = { s.fw with handBack := some 3 } ∧ KeepsWork s t := by
  refine ⟨_, session_lands (result := 0) (outs := []) (u := { s with ops := [], fw := { s.fw with handBack := some 3 } }) rfl hholds ?_,
    answered_run rfl, ?_, keepsWork_finishMailbox rfl rfl rfl⟩
  · rw [if_neg (by simp [hphase]), if_pos hphase]
  · rw [State.run_fw, State.finishMailbox_fw]

theorem fwAbort_abandons {x : Update} (hholds : holdsCommand s 0x0404) (hphase : s.fw.phase = 2 ∨ s.fw.phase = 3)
    (hx : s.fw.update = some x) : ∃ t, exec .fwAbort s = .next t ∧ answered s t 0 ∧ t.fw.phase = 0 ∧ t.fw.update = none
      ∧ t.fw.running = s.fw.running ∧ t.sb.alert = s.sb.alert ||| 0x10 ∧ KeepsWork s t := by
  obtain ⟨hgrid, hq, hops, hcmd, halert, hph, hup, -, hrun⟩ := abandonUpdate_leaves (s := { s with ops := [] }) hx 0
  obtain ⟨u, hu⟩ : ∃ u, u = ({ s with ops := [] } : State).abandonUpdate 0 := ⟨_, rfl⟩
  rw [← hu] at hgrid hq hops hcmd halert hph hup hrun
  refine ⟨_, session_lands (result := 0) (outs := []) (u := u) rfl hholds ?_, answered_run hcmd, ?_, ?_, ?_, ?_,
    keepsWork_finishMailbox hgrid hops hq⟩
  · rw [if_pos hphase, ← hu]
  · rw [State.run_fw, State.finishMailbox_fw, hph]
  · rw [State.run_fw, State.finishMailbox_fw, hup]
  · rw [State.run_fw, State.finishMailbox_fw, hrun]
  · rw [State.run_sb_alert, State.finishMailbox_sb, halert]

end

/-! ### Writing and loading -/

theorem Bcb.length_encode (b : Bcb) : b.encode.length = 128 := by
  simp only [Bcb.encode, List.length_append, length_toBytesLE, zeroBytes, List.length_replicate, List.length_take]
  omega

theorem Nv.bytes_write_below {n : Nv} (hwf : cellsWf 0xFF n.flash = true) {a x : Nat} {bs : List Byte} (hx : a + bs.length ≤ x) (len : Nat) :
    (n.write a bs).bytes x len = n.bytes x len := by
  refine List.map_congr_left fun i _ => ?_
  exact cellRead_cellWriteList_outside 0xFF bs _ a (x + i) ((cellsWf_iff _ _).mp hwf).1 (by omega)

/-- The boot control block lies below the slots. -/
theorem Nv.bytes_writeBcb {n : Nv} (hwf : cellsWf 0xFF n.flash = true) (f : Bcb → Bcb) {a : Nat} (ha : 0x2000 ≤ a) (len : Nat) :
    (n.writeBcb f).bytes a len = n.bytes a len := by
  have hfit (copy : Nat) (b : Bcb) (hcopy : copy ≤ 1) :
      (n.write (0x1000 * copy) (b.encode ++ List.replicate (0x1000 - 128) 0xFF)).bytes a len = n.bytes a len := by
    refine Nv.bytes_write_below hwf ?_ len
    rw [List.length_append, Bcb.length_encode, List.length_replicate]
    omega
  unfold Nv.writeBcb
  cases n.bcb with
  | none => exact hfit 0 _ (by decide)
  | some kb => exact hfit (1 - kb.1) _ (by omega)

theorem Wakes.refl (s : State) : Wakes s s := ⟨s.dram.channels, s.pow.domains, rfl⟩

section
variable {s : State} (hlive : s.live = true)
include hlive

theorem fwWriteComplete_writes {x : Update} (hx : s.fw.update = some x) (hphase : s.fw.phase = 2)
    (hdigest : headerDigest (fun a n => s.mem.bytes (x.addr + a) n) = x.image.digest)
    (hcomponents : componentsCheck (fun a n => s.mem.bytes (x.addr + a) n) = true) :
    ∃ t, exec (.fwWriteComplete true) s = .next t ∧ KeepsWork s t
      ∧ (cellsWf 0xFF s.nv.flash = true → t.nv.bytes (slotBase x.slot) (imgField (fun a n => s.mem.bytes (x.addr + a) n) 0x1C 4)
          = s.mem.bytes x.addr (imgField (fun a n => s.mem.bytes (x.addr + a) n) 0x1C 4))
      ∧ (x.nextBoot = false → t.fw = { s.fw with phase := 3, standby := none })
      ∧ (x.nextBoot = true → t.fw = { s.fw with phase := 0, update := none } ∧ t.nv.trialHostConfirm = x.hostConfirm) := by
  obtain ⟨len, hlen⟩ : ∃ len, len = imgField (fun a n => s.mem.bytes (x.addr + a) n) 0x1C 4 := ⟨_, rfl⟩
  obtain ⟨nv, hnv⟩ : ∃ nv, nv = (s.nv.write (slotBase x.slot) (s.mem.bytes x.addr len)).writeBcb fun b =>
    (b.setImage x.slot x.image).setState x.slot (if x.nextBoot then 3 else 2) := ⟨_, rfl⟩
  obtain ⟨u, hu⟩ : ∃ u, u = if x.nextBoot then { ({ s with ops := [] } : State).wakeChannels with
      nv := { nv with trialHostConfirm := x.hostConfirm }, fw := { s.fw with phase := 0, update := none } }
    else { ({ s with ops := [] } : State).wakeChannels with nv := nv, fw := { s.fw with phase := 3, standby := none } } := ⟨_, rfl⟩
  have hlands : exec (.fwWriteComplete true) s = .next (s.run fun _ => u) := by
    refine exec_lands_live rfl hlive ?_
    have hsame : (headerDigest (fun a n => s.mem.bytes (x.addr + a) n) == x.image.digest) = true := by rw [hdigest]; exact beq_self_eq_true _
    simp only [hx, hphase, State.wakeChannels_mem, State.wakeChannels_nv, State.wakeChannels_fw, hsame, hcomponents, Bool.and_self,
      if_true, ← hlen, ← hnv, ne_eq, not_true_eq_false, if_false, hu]
  have hfuses : nv.fuses = s.nv.fuses := by rw [hnv, fuses_writeBcb]; rfl
  have hview : u.grid = s.grid ∧ u.ops = [] ∧ u.q = s.q ∧ u.nv.flash = nv.flash ∧ u.nv.fuses = s.nv.fuses := by
    rw [hu]
    split <;> simp [hfuses]
  obtain ⟨hgrid, hops, hq, hflash, hfuses'⟩ := hview
  refine ⟨_, hlands, keepsWork_run hgrid hops (by rw [hq]) (by rw [hq]), fun hwf => ?_, fun hnext => ?_, fun hnext => ?_⟩
  · have hread : (s.run fun _ => u).nv.bytes (slotBase x.slot) len = nv.bytes (slotBase x.slot) len := by
      rw [Nv.bytes, State.run_nvFlash hfuses', hflash]
      rfl
    have hbase : 0x2000 ≤ slotBase x.slot := by
      unfold slotBase
      split <;> decide
    have hsize : (s.mem.bytes x.addr len).length = len := by simp [Mem.bytes]
    rw [← hlen, hread, hnv, Nv.bytes_writeBcb (cellWriteList_wf _ _ _ _ hwf) _ hbase]
    exact (congrArg (Nv.bytes _ _) hsize.symm).trans (Nv.bytes_write_same hwf)
  · rw [State.run_fw, hu, hnext]
    rfl
  · rw [State.run_fw, hu, hnext]
    exact ⟨rfl, by simp⟩

/-- An update that is given up leaves the work. -/
theorem abandons_lands {c : Instr} {f : State → State} {x : Update} {reason : Nat} (hexec : exec c s = .next (s.whenLive f))
    (hx : s.fw.update = some x) {w : State} (hw : Wakes { s with ops := [] } w) (hf : f { s with ops := [] } = w.abandonUpdate reason) :
    ∃ t, exec c s = .next t ∧ t.fw.phase = 0 ∧ t.fw.update = none ∧ t.fw.reason = reason ∧ t.fw.running = s.fw.running ∧ KeepsWork s t := by
  obtain ⟨channels, domains, hwake⟩ := hw
  have hup : w.fw.update = some x := by rw [hwake]; exact hx
  obtain ⟨hgrid, hq, hops, -, -, hph, hnone, hreason, hrun⟩ := abandonUpdate_leaves hup reason
  refine ⟨_, exec_lands_live hexec hlive hf, ?_, ?_, ?_, ?_, keepsWork_run (hgrid.trans (by rw [hwake])) (hops.trans (by rw [hwake]))
    (by rw [hq, hwake]) (by rw [hq, hwake])⟩
  · rw [State.run_fw, hph]
  · rw [State.run_fw, hnone]
  · rw [State.run_fw, hreason]
  · rw [State.run_fw, hrun, hwake]

theorem fwWriteComplete_abandons {x : Update} (hx : s.fw.update = some x) (hphase : s.fw.phase = 2) :
    ∃ t, exec (.fwWriteComplete false) s = .next t ∧ t.fw.phase = 0 ∧ t.fw.update = none ∧ t.fw.reason = 0x0A
      ∧ t.fw.running = s.fw.running ∧ KeepsWork s t :=
  abandons_lands hlive rfl hx (wakes_wakeChannels _) (by
    simp only [hx, hphase, Bool.false_and, Bool.false_eq_true, if_false, ne_eq, not_true_eq_false])

theorem fwLoadComplete_abandons {x : Update} (hx : s.fw.update = some x) (hphase : s.fw.phase = 3) :
    ∃ t, exec (.fwLoadComplete false) s = .next t ∧ t.fw.phase = 0 ∧ t.fw.update = none ∧ t.fw.running = s.fw.running ∧ KeepsWork s t := by
  obtain ⟨t, hexec, hph, hnone, -, hrest⟩ := abandons_lands hlive (c := .fwLoadComplete false) rfl hx (Wakes.refl _) (by
    simp only [hx, hphase, Bool.false_and, Bool.false_eq_true, if_false, ne_eq, not_true_eq_false]
    rfl)
  exact ⟨t, hexec, hph, hnone, hrest⟩

theorem fwLoadComplete_loads {x : Update} (hx : s.fw.update = some x) (hphase : s.fw.phase = 3)
    (hgood : verifyImage s.nv.fuses (s.fw.running.map (·.major)) (s.nv.slotReader x.slot) = 0) :
    ∃ t, exec (.fwLoadComplete true) s = .next t ∧ t.nv = s.nv ∧ KeepsWork s t
      ∧ t.fw = { s.fw with phase := 4, standby := some (readImage x.slot (s.nv.slotReader x.slot)) } := by
  refine ⟨_, exec_lands_live (u := { s with ops := [], fw := { s.fw with
    phase := 4, standby := some (readImage x.slot (s.nv.slotReader x.slot)) } }) rfl hlive ?_, State.run_nv_same s _ rfl,
    keepsWork_run rfl rfl rfl rfl, State.run_fw s _⟩
  simp only [hx, hphase, hgood, beq_self_eq_true, Bool.and_self, if_true, ne_eq, not_true_eq_false, if_false]

/-! ### Handover, confirmation and the window's end -/

theorem fwHandover_swaps {i : Image} {x : Update} (hquiet : s.handoverWaits = false) (hi : s.fw.standby = some i) (hback : s.fw.handBack = none)
    (hphase : s.fw.phase = 4) (hx : s.fw.update = some x) :
    ∃ t, exec .fwHandover s = .next t ∧ t.fw.running = some i ∧ t.fw.standby = s.fw.running
      ∧ t.fw.active = 1 - s.fw.active ∧ t.fw.phase = 5 ∧ t.q.hangReset = true ∧ KeepsWork s t
      ∧ t.fw.window = some { openedAt := s.cnt.stitch, hostConfirm := x.hostConfirm, confirmed := false, trial := false } := by
  obtain ⟨u, hu⟩ : ∃ u : State, u = { s with
    ops := [], q := { s.q with hangReset := true }
    fw := { s.fw.swap with
      phase := 5
      window := some { openedAt := s.cnt.stitch, hostConfirm := x.hostConfirm, confirmed := false, trial := false } } } := ⟨_, rfl⟩
  refine ⟨_, exec_lands_live (u := u) rfl hlive ?_, ?_⟩
  · simp only [Clear.handoverWaits, hquiet, hi, hback, hphase, hx, Option.isNone_some, Bool.or_self, Bool.false_eq_true, if_false, hu]
  · rw [State.run_fw, State.run_q, hu]
    exact ⟨hi, rfl, rfl, rfl, rfl, keepsWork_run rfl rfl rfl rfl, rfl⟩

theorem fwHandover_handsBack {i old : Image} {cause : Nat} (hquiet : s.handoverWaits = false) (hi : s.fw.standby = some i)
    (hback : s.fw.handBack = some cause) (hold : s.fw.running = some old) :
    ∃ t, exec .fwHandover s = .next t ∧ t.fw.running = some i ∧ t.fw.standby = none ∧ t.fw.reloading = some i
      ∧ t.fw.window = none ∧ t.fw.phase = 0 ∧ t.sb.alert = s.sb.alert ||| 0x10 ∧ KeepsWork s t := by
  obtain ⟨w, hw⟩ : ∃ w : State, w = ({ s with
    ops := [], q := { s.q with hangReset := true }
    fw := { s.fw.swap with phase := 0, window := none, handBack := none, update := none, standby := none, reloading := some i } }
      : State).setSlot old.slot 5 := ⟨_, rfl⟩
  obtain ⟨hgrid, hq, hops, hfw, -, -, halert⟩ := imageFallback_leaves w old.slot cause s.fw.reason old.digest
  refine ⟨_, exec_lands_live (u := w.imageFallback old.slot cause s.fw.reason old.digest) rfl hlive ?_, ?_⟩
  · simp only [Clear.handoverWaits, hquiet, hi, hback, Option.isNone_some, Bool.or_self, Bool.false_eq_true, if_false, State.handBack, hold, hw,
      Fw.swap]
  · rw [State.run_fw, State.run_sb_alert, hfw, halert, hw]
    refine ⟨hi, rfl, rfl, rfl, rfl, rfl, keepsWork_run ?_ ?_ ?_ ?_⟩
    · rw [← hw, hgrid, hw]; rfl
    · rw [← hw, hops, hw]; rfl
    · rw [← hw, hq, hw]; rfl
    · rw [← hw, hq, hw]; rfl

omit hlive in
theorem confirmImage_leaves (s : State) (i : Image) (count : Nat) : let t := s.confirmImage i count
    t.grid = s.grid ∧ t.q = s.q ∧ t.ops = s.ops ∧ t.fw.window = none ∧ t.fw.phase = 0 ∧ t.fw.running = s.fw.running := by
  simp [State.confirmImage]

omit hlive in
theorem enterReset_nv (s : State) : s.enterReset.nv = s.nv := rfl

section
variable {w : Window} {i : Image} (hw : s.fw.window = some w) (hi : s.fw.running = some i) (hback : s.fw.handBack = none)
  (hopen : w.trial = false ∨ s.boot.ready = true)
include hw hi hback hopen

omit hlive hw hi hback in
theorem windowOpen_of : s.windowOpen w = true := by
  rcases hopen with h | h <;> simp [State.windowOpen, h]

theorem imageConfirm_confirms (hscanned : s.fw.scanned = true) (hhost : w.hostConfirm = false ∨ w.confirmed = true) :
    ∃ t, exec .imageConfirm s = .next t ∧ t.fw.window = none ∧ t.fw.phase = 0 ∧ t.fw.running = some i ∧ KeepsWork s t
      ∧ t.nv.fuses.rollback = max s.nv.fuses.rollback (min i.svn 64)
      ∧ (t.nv.fuses.revoke0 = true ↔ s.nv.fuses.revoke0 = true ∨ i.revokePrev = true) := by
  have hgo : (s.live && s.windowOpen w && s.fw.scanned && (!w.hostConfirm || w.confirmed) && s.fw.handBack.isNone) = true := by
    have hconf : (!w.hostConfirm || w.confirmed) = true := by rcases hhost with h | h <;> simp [h]
    simp [hlive, windowOpen_of hopen, hscanned, hconf, hback]
  have hexec : exec .imageConfirm s = execImageConfirm s := rfl
  rw [hexec, execImageConfirm, hw, hi]
  simp only [hgo, if_true]
  obtain ⟨hgrid, hq, hops, hfw⟩ := confirmImage_leaves { s with ops := [] } i (blownRollback s.nv.fuses.rollback i.svn)
  obtain ⟨u, hu⟩ : ∃ u, u = ({ s with ops := [] } : State).confirmImage i (blownRollback s.nv.fuses.rollback i.svn) := ⟨_, rfl⟩
  rw [← hu] at hgrid hq hops hfw
  rw [State.run_congr s (f := fun x => x.confirmImage i (blownRollback s.nv.fuses.rollback i.svn)) (g := fun _ => u) hu.symm]
  obtain ⟨hkg, hkm, hkt, hkq⟩ : KeepsWork s (s.run fun _ => u) := keepsWork_run hgrid hops (by rw [hq]) (by rw [hq])
  obtain ⟨hwindow, hphase, hrunning⟩ := hfw
  refine ⟨_, rfl, ?_, ?_, ?_, ⟨hkg, hkm, hkt, hkq⟩, rfl, by simp⟩
  · exact (congrArg Fw.window (State.run_fw s fun _ => u)).trans hwindow
  · exact (congrArg Fw.phase (State.run_fw s fun _ => u)).trans hphase
  · exact (congrArg Fw.running (State.run_fw s fun _ => u)).trans (hrunning.trans hi)

theorem confirmWindowTimeout_handsBack (htrial : w.trial = false) : ∃ t, exec .confirmWindowTimeout s = .next t
    ∧ t.fw = { s.fw with handBack := some 1 } ∧ t.nv = s.nv ∧ KeepsWork s t := by
  have hgo : (!s.live || !s.windowOpen w || s.fw.handBack.isSome) = false := by
    simp [hlive, windowOpen_of hopen, hback]
  refine ⟨_, exec_lands (f := fun s => { s with fw := { s.fw with handBack := some 1 } }) ?_ rfl, ?_, State.run_nv_same s _ rfl,
    keepsWork_run rfl rfl rfl rfl⟩
  · have hexec : exec .confirmWindowTimeout s = execConfirmWindowTimeout s := rfl
    rw [hexec, execConfirmWindowTimeout, hw, hi]
    simp only [hgo, htrial, Bool.false_and, Bool.false_eq_true, if_false]
  · rw [State.run_fw]

theorem confirmWindowTimeout_resets (htrial : w.trial = true) (hmajor : s.fw.standby.map (·.major) ≠ some i.major) :
    ∃ t, exec .confirmWindowTimeout s = .next t ∧ t.boot.released = false ∧ t.grid.runs = [] ∧ t.q = .reset
      ∧ t.mem = .reset ∧ t.nv.fuses = s.nv.fuses := by
  have hgo : (!s.live || !s.windowOpen w || s.fw.handBack.isSome) = false := by
    simp [hlive, windowOpen_of hopen, hback]
  have hother : (w.trial && s.fw.standby.map (·.major) != some i.major) = true := by
    rw [htrial, bne_iff_ne.mpr hmajor]
    rfl
  refine ⟨({ s with nv := s.nv.writeBcb fun b => b.setState i.slot 5 } : State).enterReset, ?_, rfl, rfl, rfl, rfl, ?_⟩
  case refine_2 => rw [enterReset_nv, fuses_writeBcb]
  have hexec : exec .confirmWindowTimeout s = execConfirmWindowTimeout s := rfl
  rw [hexec, execConfirmWindowTimeout, hw, hi]
  simp only [hgo, hother, Bool.false_eq_true, if_false, if_true]

end
end

/-- Settles O57, phase by phase. -/
theorem updatesRunPhaseByPhase : Obligations.UpdatesRunPhaseByPhase := by
  intro s
  refine ⟨fun run hholds hrun hphase hwindow halign hsoft hlong hfits => ⟨fun hflags hstandby =>
      ⟨fwUpdate_starts hholds hrun hphase hwindow halign hsoft hlong hfits hflags hstandby,
        fun k => fwUpdate_refuses hholds hrun hphase hwindow halign hsoft hlong hfits hflags hstandby⟩,
      fwUpdateNextBoot_starts hholds hrun hphase hwindow halign hsoft hlong hfits⟩,
    fun w => fwConfirm_confirms, fwConfirm_refuses, fwAbort_handsBack, fun x => fwAbort_abandons,
    fun x hlive hx hphase => ⟨fwWriteComplete_writes hlive hx hphase, fwWriteComplete_abandons hlive hx hphase⟩,
    fun x hlive hx hphase => ⟨fwLoadComplete_loads hlive hx hphase, fwLoadComplete_abandons hlive hx hphase⟩,
    fun i hlive hquiet hi => ⟨fun x hback hphase => fwHandover_swaps hlive hquiet hi hback hphase,
      fun old cause => fwHandover_handsBack hlive hquiet hi⟩,
    fun w i hlive hw hi hback hopen => ⟨imageConfirm_confirms hlive hw hi hback hopen,
      confirmWindowTimeout_handsBack hlive hw hi hback hopen, confirmWindowTimeout_resets hlive hw hi hback hopen⟩⟩

end Sys2Proof.Machine
end

section
/-! SUPPORT. A read of random bytes that is the last generate call of a seeding. -/

namespace Sys2Proof.Machine

/-- The generate call that makes 2^20 reseeds its instance, and the reseeding is counted (R501). -/
theorem countCall_reseeds {s : State} {i : Nat} (hcalls : ((modifyAt (fun d => { d with calls := d.calls + 1 }) i s.rng.drbgs).getD i
    { up := false, calls := 0 }).calls = 2 ^ 20) : (s.countCall i).rng.reseeds = s.rng.reseeds + 1 := by
  rw [State.countCall, if_pos hcalls]
  rfl

/-- An RNG_READ without prediction resistance that finds the service READY. -/
theorem rngRead_lands {s : State} (hholds : s.adminHolds 0x0410 = true) (harg : s.arg 0 = 0) (hready : s.rng.state = 1) :
    exec .rngRead s = .next (s.run fun _ => (State.rngOutput { s with ops := [] } false).2.finishMailbox 0
      (State.rngOutput { s with ops := [] } false).1) := by
  refine exec_lands rfl ?_
  have hholds' : State.adminHolds { s with ops := [] } 0x0410 = true := hholds
  have harg' : State.arg { s with ops := [] } 0 = 0 := harg
  have hready' : ({ s with ops := [] } : State).rng.state = 1 := hready
  simp [hholds', harg', hready, natBit]

/-- A device in service that holds an RNG_READ, its instance I1 one generate call short of 2^20. -/
def State.lastCallOfSeeding : State :=
  { State.reset with
    boot := { Boot.reset with released := true, ready := true }
    host := { HostPort.reset with busy := true, mbxCmd := 0x0410 }
    rng := { Rng.reset with state := 1, drbgs := List.replicate 3 { up := true, calls := 2 ^ 20 - 1 } } }

/-- Refutes O58: an RNG_READ without prediction resistance adds one to the count of reseedings where its generate call is the last
of a seeding. Here instance I1 has made 2^20 - 1 calls, and the statement asks for the count as it was. -/
theorem not_entropyServiceStartsFailsAndRetests : ¬ Obligations.EntropyServiceStartsFailsAndRetests := by
  intro h
  obtain ⟨-, -, -, -, hread⟩ := h State.lastCallOfSeeding
  obtain ⟨hserved, -⟩ := hread (by decide) (by decide) (by decide)
  obtain ⟨t, hexec, -, -, -, -, hreseeds, -⟩ := hserved (by decide)
  rw [rngRead_lands (by decide) (by decide) (by decide)] at hexec
  obtain rfl := Host.Outcome.next.inj hexec
  rw [State.run_rng, State.finishMailbox_rng, show (State.rngOutput { State.lastCallOfSeeding with ops := [] } false).2.rng.reseeds = _ from
    countCall_reseeds (by decide)] at hreseeds
  exact absurd hreseeds (by decide)

end Sys2Proof.Machine
end

section
/-! SUPPORT. A record left over from an earlier tick, with no room for it in the output ring. -/

namespace Sys2Proof.Machine

/-- SEQ 1 of queue 0. -/
def loneRef : TaskRef := { queue := 0, seq := 1 }

/-- A RUN that has been dispatched to engine 0. -/
def Task.lone : Task :=
  { ref := loneRef, opcode := 1, irq := false, runOnFail := false, mask := 1, pattern := 0, patternLen := 0, program := 0,
    param := 0, fenceValue := 0, userTag := 0, copy := 0, slot := 0, order := 0, aged := false, edges := [], sprouter := none,
    phase := .running, progress := 0, engines := 1, still := 0, lastProgress := 0, wholeInterval := false, waitSince := none,
    block := [] }

/-- A patchwork pattern of one replica on engine 0, without a core. -/
def Pattern.coreless : Pattern :=
  { id := 0, hash := [], tickLen := 64, image := 0
    header := { readHeader (fun _ _ => 0) with tickLen := 64, mask := 1, shards := 1, kinds := 7, resident := 1, total := 1, rungs := 1 }
    engines := [0], places := [(0, 0)], e0 := 0, blocks := [], cores := [], temps := [], changes := []
    plan := readPlan (fun _ _ => 0) [], ditch := readDitch fun _ _ => 0, learn := readLearn (fun _ _ => 0) []
    joined := readJoined (fun _ _ => 0) (readHeader fun _ _ => 0) [], programs := [], routers := [], reads := [], ledger := []
    shadow := [], shadowed := true, left := [] }

/-- The work of a tick in which nothing moved. -/
def Work.idle : Work :=
  { replica := 0, slot := 0, tick := 0, noise := 0, sealed := false, basted := [], sewn := [], nulls := 0, extra := 0, escape := 0, dE := 0,
    remote := [], harvest := false, reload := none, score := none, cycles := 0 }

/-- An annealing run in its first tick that still holds a sample record, and has an output ring without lines. -/
def Run.holdsRecord : Run :=
  { newRun loneRef .coreless 1 0 (readRunBlock (zeroBytes 256)) with
    begun := true, ticking := true, resident := [0], work := [.idle]
    replicas := [{ spins := [], fields := [], products := [], v := 0, hash := 0 }]
    records := [{ replica := 0, rung := 0, ladder := 0, tick := 0, energy := 0, escape := 0, hash := 0, state := [] }] }

/-- The device with that run. -/
def State.recordWaits : State :=
  { State.reset with
    boot := { Boot.reset with released := true, ready := true }
    q := { State.reset.q with tasks := [.lone] }
    grid :=
      { State.reset.grid with
        engines := { Engine.reset with state := 3, pattern := some 0, task := some loneRef } :: List.replicate 7 .reset
        patterns := [.coreless], runs := [.holdsRecord] } }

/-- A boundary where nothing goes wrong. -/
def calmBoundary : BoundaryEnv := { faults := [], corrected := [], late := 0, host := noHost }

/-- The boundary leaves the run STARVED on its output ring. -/
theorem recordWaits_starves :
    (match exec (.tickBoundary 0 calmBoundary) .recordWaits with | .next t => (t.engine 0).state | _ => 0) = 4 := by decide +kernel

/-- The run meets every condition of a boundary that seals and goes on. -/
theorem recordWaits_goes : plain .recordWaits .holdsRecord .coreless ∧ State.recordWaits.task Run.holdsRecord.ref ≠ none
    ∧ Run.holdsRecord.tick + 1 < 2 ^ 48 ∧ (Run.holdsRecord.blk.limit = 0 ∨ Run.holdsRecord.tick + 1 < Run.holdsRecord.blk.limit) := by
  unfold plain unhindered
  decide +kernel

/-- Refutes O53: a run that still holds a sample record of an earlier tick writes it at the boundary, and where the output ring has no
room for it the run is STARVED, not RUNNING: the statement asks for no record that waits in the queue, but not for an empty list of
records. Here the run holds one record and its ring has no line. -/
theorem not_boundariesSealOrRefuse : ¬ Obligations.BoundariesSealOrRefuse := by
  intro h
  obtain ⟨hpatchwork, -⟩ := h .recordWaits .holdsRecord .coreless 0 calmBoundary (by unfold soleRun; decide +kernel) (by decide +kernel)
    (by decide) rfl rfl rfl rfl
  obtain ⟨hseals, -⟩ := hpatchwork recordWaits_goes (by decide +kernel) rfl
  obtain ⟨t, x, hexec, hsealed, -⟩ := hseals .idle rfl (by decide +kernel) rfl rfl rfl rfl (by decide)
  obtain ⟨-, -, -, -, -, -, -, hruns⟩ := hsealed
  have hstarved := recordWaits_starves
  rw [hexec] at hstarved
  exact absurd ((hruns 0 (by decide +kernel)).1.symm.trans hstarved) (by decide)

end Sys2Proof.Machine
end

section
/-! SUPPORT. A device with one run: its engines, its record, and how its ticks begin. -/

namespace Sys2Proof.Machine

/-! ### The engines of a run -/

theorem nodup_engines (r : Run) : r.engines.Nodup := List.nodup_range.filter _

theorem lt_of_mem_engines {r : Run} {e : Nat} (h : e ∈ r.engines) : e < 8 := List.mem_range.mp (List.mem_filter.mp h).1

theorem exists_bit_of_pos {m : Nat} (h : m % 256 ≠ 0) : ∃ k < 8, natBit m k = true := by
  by_contra hnone
  push Not at hnone
  simp only [natBit] at hnone
  have h0 := hnone 0 (by decide)
  have h1 := hnone 1 (by decide)
  have h2 := hnone 2 (by decide)
  have h3 := hnone 3 (by decide)
  have h4 := hnone 4 (by decide)
  have h5 := hnone 5 (by decide)
  have h6 := hnone 6 (by decide)
  have h7 := hnone 7 (by decide)
  norm_num at h0 h1 h2 h3 h4 h5 h6 h7
  omega

theorem lead_mem {r : Run} (h : r.mask % 256 ≠ 0) : r.lead ∈ r.engines := by
  obtain ⟨k, hk, hbit⟩ := exists_bit_of_pos h
  have hmem : k ∈ r.engines := List.mem_filter.mpr ⟨List.mem_range.mpr hk, hbit⟩
  unfold Run.lead
  cases hes : r.engines with
  | nil => simp [hes] at hmem
  | cons e es => simp

/-- An engine after a change of several, each named once. -/
theorem State.engine_setEngines {es : List Nat} (hes : es.Nodup) (f : Engine → Engine) (s : State) (k : Nat) :
    (s.setEngines es f).engine k = if k ∈ es ∧ k < s.grid.engines.length then f (s.engine k) else s.engine k := by
  induction es generalizing s with
  | nil => simp [State.setEngines]
  | cons e es ih =>
    obtain ⟨hnot, hes⟩ := List.nodup_cons.mp hes
    rw [State.setEngines, List.foldl_cons, ← State.setEngines, ih hes]
    have hlen : (s.setEngine e f).grid.engines.length = s.grid.engines.length := length_modifyAt f e _
    rw [hlen]
    by_cases hk : k = e
    · subst hk
      rw [if_neg (fun h => hnot h.1)]
      by_cases hlt : k < s.grid.engines.length
      · rw [State.engine_setEngine_same hlt, if_pos ⟨List.mem_cons_self, hlt⟩]
      · rw [if_neg (fun h => hlt h.2)]
        simp [State.engine, State.setEngine, modifyAt_eq_modify, List.getD_eq_getElem?_getD, List.getElem?_eq_none (Nat.not_lt.mp hlt)]
    · rw [State.engine_setEngine_ne hk]
      simp [hk]

theorem State.engine_setEngines_same {r : Run} {s : State} (hlen : s.grid.engines.length = 8) (f : Engine → Engine) {k : Nat}
    (hk : k ∈ r.engines) : (s.setEngines r.engines f).engine k = f (s.engine k) := by
  rw [State.engine_setEngines (nodup_engines r), if_pos ⟨hk, hlen ▸ lt_of_mem_engines hk⟩]

@[simp] theorem State.length_setEngines (s : State) (es : List Nat) (f : Engine → Engine) :
    (s.setEngines es f).grid.engines.length = s.grid.engines.length := by
  induction es generalizing s with
  | nil => rfl
  | cons e es ih => rw [State.setEngines, List.foldl_cons, ← State.setEngines, ih]; exact length_modifyAt f e _

/-! ### The record of the run -/

section
variable {s : State} {r : Run} {p : Pattern}

theorem run?_sole (h : s.grid.runs = [r]) : s.run? r.ref = some r := by simp [State.run?, h]

theorem runs_setRun_sole (h : s.grid.runs = [r]) (f : Run → Run) : (s.setRun r.ref f).grid.runs = [f r] := by
  simp [modifyIf, h]

theorem runOf_sole (h : soleRun s r p) {e : Nat} (he : e ∈ r.engines) : s.runOf e = some r := by
  obtain ⟨hruns, -, -, -, htask⟩ := h
  simp [State.runOf, htask e he, hruns]

theorem withRun_sole (h : soleRun s r p) {e : Nat} (he : e ∈ r.engines) (f : Run → Pattern → State) : s.withRun e f = f r p := by
  simp only [State.withRun, runOf_sole h he, h.2.1]

theorem onRun_sole (hruns : s.grid.runs = [r]) (hp : s.pattern r.pattern = some p) (f : Run → Pattern → State) :
    s.onRun r.ref f = f r p := by
  simp only [State.onRun, run?_sole hruns, hp]

/-- A command on the run of an engine. -/
theorem sole_lands {c : Instr} {e : Nat} {F : State → Run → Pattern → State} {u : State}
    (hexec : exec c s = .next (s.whenLive fun s => s.withRun e (F s))) (hlive : s.live = true) (h : soleRun s r p) (he : e ∈ r.engines)
    (hu : F { s with ops := [] } r p = u) : exec c s = .next (s.run fun _ => u) := by
  have h' : soleRun { s with ops := [] } r p := h
  exact exec_lands_live hexec hlive ((withRun_sole h' he _).trans hu)
end

/-! ### The spread -/

/-- What the spread of a tick may change: ledgers, frames that wait and the count of free values. -/
def Spreads (s t : State) : Prop :=
  ∃ gs ps n, t = { s with grid := { s.grid with engines := gs }, nl := { s.nl with ports := ps }, free := n }
    ∧ gs.length = s.grid.engines.length ∧ ∀ k, t.engine k = { s.engine k with ledger := (t.engine k).ledger }

theorem Spreads.refl (s : State) : Spreads s s := ⟨_, _, _, rfl, rfl, fun _ => rfl⟩

theorem Spreads.trans {s t u : State} (h : Spreads s t) (k : Spreads t u) : Spreads s u := by
  obtain ⟨gs, ps, n, rfl, hlen, hsame⟩ := h
  obtain ⟨gs', ps', n', rfl, hlen', hsame'⟩ := k
  refine ⟨gs', ps', n', rfl, hlen'.trans hlen, fun j => ?_⟩
  have hj := hsame j
  have hj' := hsame' j
  rw [hj] at hj'
  exact hj'

theorem Spreads.foldl {α : Type} {f : State → α → State} (h : ∀ s x, Spreads s (f s x)) (xs : List α) (s : State) :
    Spreads s (xs.foldl f s) := by
  induction xs generalizing s with
  | nil => exact .refl s
  | cons x xs ih => exact (h s x).trans (ih _)

theorem spreads_setLedger (s : State) (e : Nat) (f : List (List (Nat × Nat)) → List (List (Nat × Nat))) :
    Spreads s (s.setEngine e fun g => { g with ledger := f g.ledger }) := by
  refine ⟨_, _, _, rfl, length_modifyAt _ e _, fun k => ?_⟩
  have h := State.engine_setEngines (List.nodup_singleton e) (fun g => { g with ledger := f g.ledger }) s k
  rw [State.setEngines, List.foldl_cons, List.foldl_nil] at h
  rw [h]
  split <;> rfl

theorem spreads_setPort (s : State) (i : Nat) (f : Port → Port) : Spreads s (s.setPort i f) := ⟨_, _, _, rfl, rfl, fun _ => rfl⟩

theorem spreads_sendFlits (s : State) (r : Run) (p : Pattern) (moves : List (Nat × Updates)) : Spreads s (s.sendFlits r p moves) := by
  unfold State.sendFlits
  refine .foldl (fun s n => ?_) _ s
  split
  · exact .refl s
  · split
    · exact .refl s
    · exact .foldl (fun s f => spreads_setPort s _ _) _ s

theorem spreads_spread (s : State) (r : Run) (p : Pattern) (w : Work) : Spreads s (s.spread r p w) := by
  unfold State.spread
  have hclear : Spreads s (s.clearBanks r) := .foldl (fun s e => spreads_setLedger s e _) _ s
  have hwrite : Spreads (s.clearBanks r) ((s.clearBanks r).writeLedgers r p (p.ownMoves w.moves)) :=
    .foldl (fun s n => .foldl (fun s k => spreads_setLedger s _ fun l => writeSlots l _ _) _ s) _ _
  dsimp only
  split
  · exact (hclear.trans hwrite).trans (spreads_sendFlits _ r p _)
  · exact hclear.trans hwrite

theorem spreads_takeNoise (s : State) (r : Run) (slot n : Nat) : Spreads s (s.takeNoise r slot n).2 := by
  unfold State.takeNoise
  split
  · exact .refl s
  · split
    · exact ⟨_, _, _, rfl, rfl, fun _ => rfl⟩
    · exact .refl s

theorem takeNoise_none {s : State} {r : Run} {slot n : Nat} (hnoise : r.blk.noise = false) (hredo : r.redoOf slot = none) :
    (s.takeNoise r slot n).1 = 0 := by
  simp [State.takeNoise, hredo, hnoise]

theorem takeLoose_idle {s : State} {r : Run} {p : Pattern} (hruns : s.grid.runs = [r]) (hp : s.pattern r.pattern = some p)
    (h : r.blk.loose = false ∨ p.spansDevices = false) : s.takeLoose r.ref = s := by
  simp only [State.takeLoose, run?_sole hruns, hp]
  refine if_pos ?_
  obtain h | h := h <;> simp [h]

/-! ### Beginning a tick -/

section
variable {s : State} {r : Run} {p : Pattern} {e : Nat}

theorem live_of_mayTick (h : s.mayTick r = true) : s.live = true := by
  simp only [State.mayTick, Bool.and_eq_true] at h
  tauto

/-- A tick of the run has begun with a record: beyond it only ledgers, scrub pointers and frames that wait may differ. -/
def Begun (s t : State) (p : Pattern) (x : Run) : Prop :=
  t.grid.runs = [x] ∧ t.mem = s.mem ∧ t.q = s.q ∧ t.grid.patterns = s.grid.patterns ∧ (p.spansDevices = false → t.out = s.out)
    ∧ ∀ k, t.engine k = { s.engine k with ledger := (t.engine k).ledger, scrub := (t.engine k).scrub }

/-- Every core of the run's engines has scrubbed a word (R438). -/
def Scrubbed (s t : State) (r : Run) : Prop := ∀ k ∈ r.engines, (t.engine k).scrub = (s.engine k).scrub + 1

theorem Spreads.keeps {w : State} (hw : Spreads { s with ops := [] } w) : w.grid.runs = s.grid.runs ∧ w.grid.patterns = s.grid.patterns
    ∧ w.ops = [] ∧ w.q = s.q ∧ w.out = s.out ∧ w.grid.engines.length = s.grid.engines.length
    ∧ ∀ k, w.engine k = { s.engine k with ledger := (w.engine k).ledger } := by
  obtain ⟨gs, ps, n, rfl, hlen, hsame⟩ := hw
  exact ⟨rfl, rfl, rfl, rfl, rfl, hlen, hsame⟩

theorem begun_of_spreads {w : State} (hw : Spreads { s with ops := [] } w) (hruns : s.grid.runs = [r]) (f : Run → Run) :
    Begun s (s.run fun _ => w.setRun r.ref f) p (f r) := by
  obtain ⟨hwruns, hpatterns, hops, hq, hout, -, hsame⟩ := hw.keeps
  refine ⟨?_, run_mem_of_no_ops hops, (State.run_q s _).trans hq, ?_, fun _ => (State.run_out s _).trans hout, fun k => ?_⟩
  · rw [State.run_grid]
    exact runs_setRun_sole (hwruns.trans hruns) f
  · rw [State.run_grid]
    exact hpatterns
  · have hset : (w.setRun r.ref f).engine k = w.engine k := rfl
    rw [State.run_engine, hset, hsame k]

theorem begun_of_scrubs {w : State} (hw : Spreads { s with ops := [] } w) (hruns : s.grid.runs = [r]) (hlen : s.grid.engines.length = 8)
    (f : Run → Run) : Begun s (s.run fun _ => (w.scrubArrays r).setRun r.ref f) p (f r)
      ∧ Scrubbed s (s.run fun _ => (w.scrubArrays r).setRun r.ref f) r := by
  obtain ⟨hwruns, hpatterns, hops, hq, hout, hwlen, hsame⟩ := hw.keeps
  have heng : ∀ k, (s.run fun _ => (w.scrubArrays r).setRun r.ref f).engine k
      = if k ∈ r.engines ∧ k < w.grid.engines.length then { w.engine k with scrub := (w.engine k).scrub + 1 } else w.engine k := fun k =>
    (State.run_engine s _ k).trans (State.engine_setEngines (nodup_engines r) _ w k)
  have hrest : ∃ gs, w.scrubArrays r = { w with grid := { w.grid with engines := gs } } := ⟨_, State.setEngines_eq w _ _⟩
  obtain ⟨gs, hgs⟩ := hrest
  refine ⟨⟨?_, run_mem_of_no_ops ?_, ?_, ?_, fun _ => ?_, fun k => ?_⟩, fun k hk => ?_⟩
  · rw [State.run_grid, hgs]
    exact runs_setRun_sole (hwruns.trans hruns) f
  · rw [hgs]
    exact hops
  · rw [State.run_q, hgs]
    exact hq
  · rw [State.run_grid, hgs]
    exact hpatterns
  · rw [State.run_out, hgs]
    exact hout
  · rw [heng]
    split <;> rw [hsame k]
  · have hlt : k < w.grid.engines.length := (hwlen.trans hlen).symm ▸ lt_of_mem_engines hk
    rw [heng, if_pos ⟨hk, hlt⟩, hsame k]

/-! ### The commands -/

variable (hsole : soleRun s r p) (he : e ∈ r.engines) (hmay : s.mayTick r = true)
include hsole he hmay

theorem tickStart_begins {late : Nat} (hmode : p.header.mode = 0) (hticking : r.ticking = false)
    (hkind : r.blk.kind = 0 ∨ (r.blk.kind = 2 ∧ p.harvestAt r.tick = false)) (hloose : r.blk.loose = false ∨ p.spansDevices = false)
    (hresident : r.resident.contains (r.tick % max 1 p.header.total) = true)
    (hweir : r.weirReady (r.rungAt p (r.tick % max 1 p.header.total) r.tick).1 r.tick = true) :
    ∃ n t, exec (.tickStart e late) s = .next t
      ∧ Begun s t p { r with ticking := true, late := late, work := [r.raceWork p (r.tick % max 1 p.header.total) r.tick n] }
      ∧ Scrubbed s t r ∧ (r.blk.noise = false → r.redo = [] → n = 0) := by
  obtain ⟨hruns, hp, hlen, -, -⟩ := id hsole
  obtain ⟨w, hw⟩ : ∃ w, w = ({ s with ops := [] } : State) := ⟨_, rfl⟩
  have hwruns : w.grid.runs = [r] := by rw [hw]; exact hruns
  have hwp : w.pattern r.pattern = some p := by rw [hw]; exact hp
  have hwmay : w.mayTick r = true := by rw [hw]; exact hmay
  obtain ⟨k, hk⟩ : ∃ k, k = r.tick % max 1 p.header.total := ⟨_, rfl⟩
  obtain ⟨x, hx⟩ : ∃ x, x = w.takeNoise r 0 (noiseSpan p) := ⟨_, rfl⟩
  obtain ⟨u, hu⟩ : ∃ u, u = x.2.spread r p (r.raceWork p k r.tick x.1) := ⟨_, rfl⟩
  have hspreads : Spreads { s with ops := [] } u := by
    rw [hu, hx, ← hw]
    exact (spreads_takeNoise w r 0 _).trans (spreads_spread _ r p _)
  have hexec : exec (.tickStart e late) s = .next (s.run fun _ => (u.scrubArrays r).setRun r.ref fun y =>
      { y with ticking := true, late := late, work := [r.raceWork p k r.tick x.1] }) := by
    refine sole_lands rfl (live_of_mayTick hmay) hsole he ?_
    rw [← hw]
    dsimp only
    rw [← hk] at hresident hweir ⊢
    rw [if_neg (by
      obtain hkind | ⟨hkind, hharvest⟩ := hkind
      · simp [hwmay, hticking, hmode, hkind, List.contains_iff_mem.mp hresident, hweir]
      · simp [hwmay, hticking, hmode, hkind, hharvest, List.contains_iff_mem.mp hresident, hweir]),
      takeLoose_idle hwruns hwp hloose, onRun_sole hwruns hwp, takeLoose_idle hwruns hwp hloose, hu, hx]
  obtain ⟨hbegun, hscrubbed⟩ := begun_of_scrubs (p := p) hspreads hruns hlen fun y =>
    { y with ticking := true, late := late, work := [r.raceWork p k r.tick x.1] }
  rw [hk] at hexec hbegun hscrubbed
  exact ⟨x.1, _, hexec, hbegun, hscrubbed, fun hnoise hredo => hx ▸ takeNoise_none hnoise (by simp [Run.redoOf, hredo])⟩

theorem harvestTick_begins {late : Nat} {v : HostView} (hkind : r.blk.kind = 2) (hticking : r.ticking = false)
    (hharvest : p.harvestAt r.tick = true) :
    ∃ t, exec (.harvestTick e late v) s = .next t
      ∧ Begun s t p { r with
          ticking := true, late := late
          work := [r.harvestWork p r.tick (if p.reloads r.tick then some (s.inputVector v r p 0) else none)] }
      ∧ Scrubbed s t r := by
  obtain ⟨hruns, hp, hlen, -, -⟩ := id hsole
  obtain ⟨hbegun, hscrubbed⟩ := begun_of_scrubs (p := p) (.refl { s with ops := [] }) hruns hlen fun y =>
    { y with ticking := true, late := late
             work := [y.harvestWork p r.tick (if p.reloads r.tick then some (s.inputVector v r p 0) else none)] }
  refine ⟨_, sole_lands rfl (live_of_mayTick hmay) hsole he ?_, hbegun, hscrubbed⟩
  have hmay' : ({ s with ops := [] } : State).mayTick r = true := hmay
  dsimp only
  rw [if_neg (by simp [hmay', hticking, hkind, hharvest])]
  rfl

theorem scoringTick_begins {late : Nat} {v : HostView} (hkind : r.blk.kind = 1) (hticking : r.ticking = false) :
    ∃ t, exec (.scoringTick e late v) s = .next t
      ∧ Begun s t p { r with
          ticking := true, late := late
          work := r.scoreWork p r.tick ((List.range (r.vectorsOf p r.tick)).map fun i => s.inputVector v r p i) }
      ∧ Scrubbed s t r := by
  obtain ⟨hruns, hp, hlen, -, -⟩ := id hsole
  obtain ⟨hbegun, hscrubbed⟩ := begun_of_scrubs (p := p) (.refl { s with ops := [] }) hruns hlen fun y =>
    { y with ticking := true, late := late
             work := y.scoreWork p y.tick ((List.range (r.vectorsOf p r.tick)).map fun i => s.inputVector v r p i) }
  refine ⟨_, sole_lands rfl (live_of_mayTick hmay) hsole he ?_, hbegun, hscrubbed⟩
  have hmay' : ({ s with ops := [] } : State).mayTick r = true := hmay
  dsimp only
  rw [if_neg (by simp [hmay', hticking, hkind])]
  rfl

/-- The tick that a slot begins next. -/
def Run.slotTick (r : Run) (slot : Nat) : Nat := if r.done.contains slot then r.tick + 1 else r.tick

theorem slotIssue_begins {slot late : Nat} (hmode : p.header.mode = 1) (hkind : r.blk.kind = 0) (hslot : slot < p.slots)
    (hfree : ∀ w ∈ r.work, w.slot ≠ slot) (hturn : s.slotTurn r p slot (r.slotTick slot) = true)
    (hweir : ∀ l ∈ p.slotLanes slot, r.weirReady (r.rungAt p l (r.slotTick slot)).1 (r.slotTick slot) = true) :
    ∃ n t, exec (.slotIssue e slot late) s = .next t
      ∧ Begun s t p { r with
          ticking := true
          clock := r.clock.issue slot (r.clock.due slot (r.slotTick slot) (r.redoOf slot).isSome + late) (r.redoOf slot).isSome
          work := r.work ++ (p.slotLanes slot).map fun l => r.laneWork p l (r.slotTick slot) (n + l % 3 * noiseSpan p) }
      ∧ (slot = 0 → Scrubbed s t r) := by
  obtain ⟨hruns, hp, hlen, -, -⟩ := id hsole
  obtain ⟨w, hw⟩ : ∃ w, w = ({ s with ops := [] } : State) := ⟨_, rfl⟩
  obtain ⟨x, hx⟩ : ∃ x, x = w.takeNoise r slot (3 * noiseSpan p) := ⟨_, rfl⟩
  have hspreads : Spreads { s with ops := [] } x.2 := hx ▸ hw ▸ spreads_takeNoise _ r slot _
  have hexec : exec (.slotIssue e slot late) s = .next (s.run fun _ =>
      (if slot = 0 then x.2.scrubArrays r else x.2).setRun r.ref fun y => { y with
        ticking := true
        clock := y.clock.issue slot (y.clock.due slot (r.slotTick slot) (r.redoOf slot).isSome + late) (r.redoOf slot).isSome
        work := y.work ++ (p.slotLanes slot).map fun l => y.laneWork p l (r.slotTick slot) (x.1 + l % 3 * noiseSpan p) }) := by
    refine sole_lands rfl (live_of_mayTick hmay) hsole he ?_
    have hmay' : w.mayTick r = true := hw ▸ hmay
    have hturn' : w.slotTurn r p slot (r.slotTick slot) = true := hw ▸ hturn
    rw [← hw, hx]
    exact if_neg (by simpa [hmay', hmode, hkind, hslot, Run.slotTick] using ⟨⟨hfree, by simpa [Run.slotTick] using hturn'⟩, by simpa [Run.slotTick] using hweir⟩)
  by_cases h0 : slot = 0
  · rw [if_pos h0] at hexec
    obtain ⟨hbegun, hscrubbed⟩ := begun_of_scrubs (p := p) hspreads hruns hlen fun y => { y with
      ticking := true
      clock := y.clock.issue slot (y.clock.due slot (r.slotTick slot) (r.redoOf slot).isSome + late) (r.redoOf slot).isSome
      work := y.work ++ (p.slotLanes slot).map fun l => y.laneWork p l (r.slotTick slot) (x.1 + l % 3 * noiseSpan p) }
    exact ⟨x.1, _, hexec, hbegun, fun _ => hscrubbed⟩
  · rw [if_neg h0] at hexec
    exact ⟨x.1, _, hexec, begun_of_spreads hspreads hruns _, fun h => absurd h h0⟩

theorem tickStart_waits {late : Nat}
    (h : r.resident.contains (r.tick % max 1 p.header.total) = false
      ∨ r.weirReady (r.rungAt p (r.tick % max 1 p.header.total) r.tick).1 r.tick = false) :
    exec (.tickStart e late) s = .next (s.run fun _ => { s with ops := [] }) := by
  refine sole_lands rfl (live_of_mayTick hmay) hsole he (if_pos ?_)
  obtain h | h := h
  · simp only [h, Bool.not_false, Bool.or_true, Bool.true_or]
  · simp only [h, Bool.not_false, Bool.or_true]

theorem slotIssue_waits {slot late : Nat}
    (h : ∃ l ∈ p.slotLanes slot, r.weirReady (r.rungAt p l (r.slotTick slot)).1 (r.slotTick slot) = false) :
    exec (.slotIssue e slot late) s = .next (s.run fun _ => { s with ops := [] }) := by
  obtain ⟨l, hl, hweir⟩ := h
  have hany : ((p.slotLanes slot).any fun k => !r.weirReady (r.rungAt p k (r.slotTick slot)).1 (r.slotTick slot)) = true :=
    List.any_eq_true.mpr ⟨l, hl, by rw [hweir]; rfl⟩
  refine sole_lands rfl (live_of_mayTick hmay) hsole he (if_pos ?_)
  rw [Run.slotTick] at hany
  simp only [hany, Bool.or_true]
end

/-- A slot's turn comes with a replay, after the slot before it, or when slot 0 may begin a tick. -/
theorem slotTurn_of_order {s : State} {r : Run} {p : Pattern} {slot : Nat}
    (h : (r.redoOf slot).isSome = true ∨ if slot ≠ 0 then r.issued (slot - 1) (r.slotTick slot) = true
      else if r.done.contains 0 then (∀ j, j < p.slots → r.issued j r.tick = true) ∧ s.boundaryDue r p = false
      else s.handoverDue = false) : s.slotTurn r p slot (r.slotTick slot) = true := by
  unfold State.slotTurn
  by_cases hredo : (r.redoOf slot).isSome = true
  · rw [if_pos hredo]
  · rw [if_neg hredo]
    replace h := h.resolve_left hredo
    split at h
    case isTrue hslot => rwa [if_pos hslot]
    case isFalse hslot =>
      rw [if_neg hslot]
      split at h
      case isTrue hdone =>
        obtain ⟨hissued, hdue⟩ := h
        rw [if_pos hdone, hdue]
        simpa [List.all_eq_true] using hissued
      case isFalse hdone =>
        rw [if_neg hdone, h]
        rfl

theorem Begun.begins {s t : State} {p : Pattern} {x : Run} (h : Begun s t p x) :
    t.grid.runs = [x] ∧ t.mem = s.mem ∧ t.q = s.q ∧ t.grid.patterns = s.grid.patterns ∧ (p.spansDevices = false → t.out = s.out)
      ∧ ∀ k, t.engine k = { s.engine k with ledger := (t.engine k).ledger, scrub := (t.engine k).scrub } := h

/-- A command that leaves everything leaves the grid, DRAM and what has been sent. -/
theorem waits_of_stands {s : State} {c : Instr} (h : exec c s = .next (s.run fun _ => { s with ops := [] })) :
    ∃ t, exec c s = .next t ∧ t.grid = s.grid ∧ t.mem = s.mem ∧ t.out = s.out :=
  ⟨_, h, State.run_grid s _, run_mem_of_no_ops rfl, State.run_out s _⟩

/-- Settles O51: what a ready run's command begins is its record with the tick's work, and the spread changes only ledgers. -/
theorem ticksBeginOnReadyEngines : Obligations.TicksBeginOnReadyEngines := by
  intro s r p e late hsole he hmay
  dsimp only
  refine ⟨fun hmode hticking hkind hloose => ⟨fun hres hweir => ?_, fun h => ?_⟩, fun v hkind hticking hharvest => ?_,
    fun v hkind hticking => ?_, fun slot hmode hkind hslot hfree hturn => ⟨fun hweir => ?_, fun hweir => ?_⟩⟩
  · obtain ⟨n, t, hexec, hbegun, hscrubbed, hn⟩ := tickStart_begins (late := late) hsole he hmay hmode hticking hkind hloose hres hweir
    exact ⟨n, ⟨t, hexec, hbegun.begins⟩, hn, t, hexec, hscrubbed⟩
  · exact waits_of_stands (tickStart_waits hsole he hmay h)
  · obtain ⟨t, hexec, hbegun, hscrubbed⟩ := harvestTick_begins (late := late) (v := v) hsole he hmay hkind hticking hharvest
    exact ⟨⟨t, hexec, hbegun.begins⟩, t, hexec, hscrubbed⟩
  · obtain ⟨t, hexec, hbegun, hscrubbed⟩ := scoringTick_begins (late := late) (v := v) hsole he hmay hkind hticking
    exact ⟨⟨t, hexec, hbegun.begins⟩, t, hexec, hscrubbed⟩
  · obtain ⟨n, t, hexec, hbegun, hscrubbed⟩ := slotIssue_begins (late := late) hsole he hmay hmode hkind hslot hfree
      (slotTurn_of_order hturn) hweir
    exact ⟨⟨n, t, hexec, hbegun.begins⟩, fun h0 => ⟨t, hexec, hscrubbed h0⟩⟩
  · exact waits_of_stands (slotIssue_waits hsole he hmay hweir)

end Sys2Proof.Machine
end

section
/-! SUPPORT. The ports of Nuthes Link: what a message that is sent leaves of a port, what the levels of ports follow, and how a port
detaches and trains while no run is on the device. -/

namespace Sys2Proof.Machine

/-! ### Ports -/

theorem State.port_setPort_same {s : State} {i : Nat} (h : i < s.nl.ports.length) (f : Port → Port) : (s.setPort i f).port i = f (s.port i) :=
  getD_modifyAt_same h f _

theorem State.port_setPort_ne {s : State} {i k : Nat} (h : k ≠ i) (f : Port → Port) : (s.setPort i f).port k = s.port k :=
  getD_modifyAt_ne h f _ _

@[simp] theorem State.length_ports_setPort (s : State) (i : Nat) (f : Port → Port) : (s.setPort i f).nl.ports.length = s.nl.ports.length :=
  length_modifyAt f i _

/-- A port after frames have joined those that wait: none joins where no lane is up. -/
def Port.Queues (p q : Port) : Prop := ∃ fs, q = { p with txq := p.txq ++ fs } ∧ (p.state < 2 ∨ 4 < p.state → fs = [])

theorem Port.Queues.refl (p : Port) : p.Queues p := ⟨[], by simp, fun _ => rfl⟩

theorem Port.Queues.trans {p q r : Port} (h : p.Queues q) (k : q.Queues r) : p.Queues r := by
  obtain ⟨fs, rfl, hfs⟩ := h
  obtain ⟨gs, rfl, hgs⟩ := k
  exact ⟨fs ++ gs, by simp, fun hstate => by rw [hfs hstate, hgs hstate, List.nil_append]⟩

theorem Port.Queues.eq_of_down {p q : Port} (h : p.Queues q) (hdown : p.state < 2 ∨ 4 < p.state) : q = p := by
  obtain ⟨fs, rfl, hfs⟩ := h
  rw [hfs hdown, List.append_nil]

theorem Port.Queues.mem {p q : Port} (h : p.Queues q) {f : LinkFrame} (hf : f ∈ p.txq) : f ∈ q.txq := by
  obtain ⟨fs, rfl, -⟩ := h
  exact List.mem_append_left _ hf

/-! ### Sending CONTROL messages -/

/-- CONTROL messages have been sent: frames wait at ports, and the books of what has been flooded and announced move. -/
def Tells (s t : State) : Prop :=
  ∃ ports flooded sequence, t = { s with nl := { s.nl with ports := ports, flooded := flooded, sequence := sequence } }
    ∧ ports.length = s.nl.ports.length ∧ ∀ k, (s.port k).Queues (t.port k)

theorem Tells.refl (s : State) : Tells s s := ⟨_, _, _, rfl, rfl, fun _ => .refl _⟩

theorem Tells.trans {s t u : State} (h : Tells s t) (k : Tells t u) : Tells s u := by
  obtain ⟨_, _, _, rfl, hlen, hport⟩ := h
  obtain ⟨_, _, _, rfl, hlen', hport'⟩ := k
  exact ⟨_, _, _, rfl, hlen'.trans hlen, fun j => (hport j).trans (hport' j)⟩

theorem Tells.foldl {α : Type} {f : State → α → State} (h : ∀ s x, Tells s (f s x)) (xs : List α) (s : State) : Tells s (xs.foldl f s) := by
  induction xs generalizing s with
  | nil => exact .refl s
  | cons x xs ih => exact (h s x).trans (ih _)

theorem Tells.port {s t : State} (h : Tells s t) (k : Nat) : (s.port k).Queues (t.port k) := by
  obtain ⟨_, _, _, rfl, -, hport⟩ := h
  exact hport k

theorem Tells.length {s t : State} (h : Tells s t) : t.nl.ports.length = s.nl.ports.length := by
  obtain ⟨_, _, _, rfl, hlen, -⟩ := h
  exact hlen

theorem queues_queueFrame (s : State) (i k : Nat) (f : LinkFrame) : (s.port k).Queues ((s.queueFrame i f).port k) := by
  rw [State.queueFrame]
  by_cases hk : k = i
  · subst hk
    by_cases hlt : k < s.nl.ports.length
    · rw [State.port_setPort_same hlt]
      split
      · exact ⟨[f], rfl, fun h => absurd h (by omega)⟩
      · exact .refl _
    · have hlt' : ¬ k < (s.queueFrame k f).nl.ports.length := by rwa [State.queueFrame, State.length_ports_setPort]
      have hnone : (s.queueFrame k f).port k = s.port k := by
        simp only [State.port, List.getD_eq_getElem?_getD, List.getElem?_eq_none (Nat.not_lt.mp hlt),
          List.getElem?_eq_none (Nat.not_lt.mp hlt')]
      rw [State.queueFrame] at hnone
      rw [hnone]
      exact .refl _
  · rw [State.port_setPort_ne hk]
    exact .refl _

theorem tells_queueFrame (s : State) (i : Nat) (f : LinkFrame) : Tells s (s.queueFrame i f) :=
  ⟨_, _, _, rfl, State.length_ports_setPort s i _, fun k => queues_queueFrame s i k f⟩

theorem tells_sendControl (s : State) (i : Nat) (m : PeerMsg) : Tells s (s.sendControl i m) := tells_queueFrame s i _

theorem tells_sendLink (s : State) (i : Nat) : Tells s (s.sendLink i) := tells_sendControl s i _

theorem tells_flood (s : State) (except : Option Nat) (m : PeerMsg) : Tells s (s.flood except m) := by
  unfold State.flood
  split
  · exact Tells.trans ⟨_, _, _, rfl, rfl, fun _ => .refl _⟩ (.foldl (fun s i => tells_sendControl s i m) _ _)
  · exact .foldl (fun s i => tells_sendControl s i m) _ _

theorem tells_forward (s : State) (port : Nat) (m : PeerMsg) : Tells s (s.forward port m) := by
  unfold State.forward
  split
  · split
    · exact .refl s
    · exact tells_flood s _ m
  · exact .refl s

theorem tells_announce (s : State) : Tells s s.announce := by
  have hcount : Tells s { s with nl := { s.nl with sequence := (s.nl.sequence + 1) % 256 } } := ⟨_, _, _, rfl, rfl, fun _ => .refl _⟩
  unfold State.announce
  dsimp only
  split
  · exact hcount.trans (tells_flood _ _ _)
  · exact hcount

/-! ### The levels of ports -/

/-- What a port shows of its peer. -/
def Port.peer (p : Port) : Option Nat × DWord := (p.peerNode, p.peerUnit)

/-- The same devices are seen: the peers, the messages that count, and the own number. -/
def SeesSame (s t : State) : Prop :=
  t.nl.ports.map Port.peer = s.nl.ports.map Port.peer ∧ t.nl.heard = s.nl.heard ∧ t.nl.node = s.nl.node ∧ t.nv = s.nv ∧ t.cnt = s.cnt

theorem SeesSame.refl (s : State) : SeesSame s s := ⟨rfl, rfl, rfl, rfl, rfl⟩

theorem SeesSame.trans {s t u : State} (h : SeesSame s t) (k : SeesSame t u) : SeesSame s u := by
  obtain ⟨h1, h2, h3, h4, h5⟩ := h
  obtain ⟨k1, k2, k3, k4, k5⟩ := k
  exact ⟨k1.trans h1, k2.trans h2, k3.trans h3, k4.trans h4, k5.trans h5⟩

theorem SeesSame.clashes {s t : State} (h : SeesSame s t) : t.clashes = s.clashes := by
  obtain ⟨hports, hheard, hnode, hnv, hcnt⟩ := h
  have hclaim : ∀ u : State, (u.nl.ports.filterMap fun p => p.peerNode.map fun n => (n, p.peerUnit))
      = (u.nl.ports.map Port.peer).filterMap fun x => x.1.map fun n => (n, x.2) := fun u => by
    rw [List.filterMap_map]
    rfl
  have hclaims : t.claims = s.claims := by
    rw [State.claims, State.claims, hclaim t, hclaim s, hports, hnode, hnv]
    simp only [State.fresh, hheard, hcnt, hnv]
  rw [State.clashes, State.clashes, hclaims]

theorem SeesSame.selfClash {s t : State} (h : SeesSame s t) : t.selfClash = s.selfClash := by
  rw [State.selfClash, State.selfClash, h.clashes, h.2.2.1]

theorem SeesSame.portLevel {s t : State} (h : SeesSame s t) {p q : Port} (hpeer : q.peerNode = p.peerNode) : t.portLevel q = s.portLevel p := by
  rw [State.portLevel, State.portLevel, h.selfClash, hpeer, h.2.2.1]

theorem map_peer_eq {ps qs : List Port} (hlen : qs.length = ps.length)
    (h : ∀ k, (qs.getD k .reset).peer = (ps.getD k .reset).peer) : qs.map Port.peer = ps.map Port.peer := by
  refine List.ext_getElem (by simpa using hlen) fun k hq hp => ?_
  have hk := h k
  rw [List.length_map] at hp hq
  simpa [List.getD_eq_getElem?_getD, hp, hq] using hk

theorem Tells.seesSame {s t : State} (h : Tells s t) : SeesSame s t := by
  obtain ⟨ps, fl, n, rfl, hlen, hport⟩ := h
  refine ⟨map_peer_eq hlen fun k => ?_, rfl, rfl, rfl, rfl⟩
  obtain ⟨fs, heq, -⟩ := hport k
  have hk : ps.getD k .reset = _ := heq
  rw [hk]
  rfl

theorem portLevel_up (s : State) (p : Port) : s.portLevel p = 3 ∨ s.portLevel p = 4 := by
  unfold State.portLevel
  split
  · split
    · exact .inr rfl
    · exact .inl rfl
  · exact .inr rfl

/-- A port as node numbers and clashes level it (R282, R283). -/
def State.levelled (s : State) (p : Port) : Port :=
  if p.state = 3 ∨ p.state = 4 then
    if (s.nl.clashed && !s.selfClash) && p.state == 4 && s.portLevel p == 3 then p.retrain else { p with state := s.portLevel p }
  else p

theorem levelled_down {s : State} {p : Port} (h : p.state ≠ 3 ∧ p.state ≠ 4) : s.levelled p = p := if_neg (by tauto)

theorem levelled_same {s : State} {p : Port} (h : p.state = s.portLevel p) : s.levelled p = p := by
  unfold State.levelled
  split
  · split
    case isTrue hback =>
      simp only [Bool.and_eq_true, beq_iff_eq] at hback
      omega
    case isFalse => rw [← h]
  · rfl

theorem peer_levelled (s : State) (p : Port) : (s.levelled p).peer = p.peer := by
  unfold State.levelled
  split
  · split <;> rfl
  · rfl

/-- The ports as they are levelled, before a change is announced. -/
def State.level (s : State) : State := { s with nl := { s.nl with ports := s.nl.ports.map s.levelled, clashed := s.selfClash } }

theorem levelPorts_eq (s : State) : s.levelPorts = if s.nl.ports.map s.levelled != s.nl.ports then s.level.announce else s.level := rfl

theorem port_level {s : State} {k : Nat} (h : k < s.nl.ports.length) : s.level.port k = s.levelled (s.port k) := by
  simp [State.port, State.level, List.getD_eq_getElem?_getD, h]

theorem seesSame_level (s : State) : SeesSame s s.level := by
  refine ⟨?_, rfl, rfl, rfl, rfl⟩
  rw [State.level, List.map_map]
  exact List.map_congr_left fun p _ => peer_levelled s p

theorem tells_levelPorts (s : State) : Tells s.level s.levelPorts := by
  rw [levelPorts_eq]
  split
  · exact tells_announce _
  · exact .refl _

theorem queues_levelPorts {s : State} {k : Nat} (h : k < s.nl.ports.length) : (s.levelled (s.port k)).Queues (s.levelPorts.port k) :=
  port_level h ▸ (tells_levelPorts s).port k

theorem length_ports_levelPorts (s : State) : s.levelPorts.nl.ports.length = s.nl.ports.length :=
  (tells_levelPorts s).length.trans (List.length_map _)

theorem seesSame_levelPorts (s : State) : SeesSame s s.levelPorts := (seesSame_level s).trans (tells_levelPorts s).seesSame

/-! ### The link alone -/

/-- Only the link has changed. -/
def Links (s t : State) : Prop := ∃ nl, t = { s with nl := nl }

theorem Links.refl (s : State) : Links s s := ⟨_, rfl⟩

theorem Links.trans {s t u : State} (h : Links s t) (k : Links t u) : Links s u := by
  obtain ⟨_, rfl⟩ := h
  obtain ⟨_, rfl⟩ := k
  exact ⟨_, rfl⟩

theorem Tells.links {s t : State} (h : Tells s t) : Links s t := by
  obtain ⟨_, _, _, rfl, -⟩ := h
  exact ⟨_, rfl⟩

theorem Relinks.links {s t : State} (h : Relinks s t) : Links s t := by
  obtain ⟨_, _, _, _, _, rfl⟩ := h
  exact ⟨_, rfl⟩

theorem links_setPort (s : State) (i : Nat) (f : Port → Port) : Links s (s.setPort i f) := ⟨_, rfl⟩

/-- What stands where only the link has changed. -/
theorem Links.stands {s u : State} (h : Links { s with ops := [] } u) :
    (s.run fun _ => u).q = s.q ∧ (s.run fun _ => u).grid = s.grid ∧ (s.run fun _ => u).mem = s.mem ∧ (s.run fun _ => u).host = s.host := by
  obtain ⟨nl, rfl⟩ := h
  exact ⟨State.run_q s _, State.run_grid s _, run_mem_of_no_ops rfl, State.run_host s _⟩

theorem keepRoot_root (s : State) : ∃ r, s.keepRoot = { s with nl := { s.nl with root := r } } := by
  unfold State.keepRoot
  dsimp only
  split
  · exact ⟨_, rfl⟩
  · split
    · exact ⟨_, rfl⟩
    · exact ⟨_, rfl⟩
  · split
    · exact ⟨_, rfl⟩
    · exact ⟨_, rfl⟩

theorem port_keepRoot (s : State) (k : Nat) : s.keepRoot.port k = s.port k := by
  obtain ⟨r, hr⟩ := keepRoot_root s
  rw [hr]
  rfl

theorem links_keepRoot (s : State) : Links s s.keepRoot := (relinks_keepRoot s).links

theorem runPeers_idle {s : State} (h : s.grid.runs = []) : s.runPeers = [] := by
  unfold State.runPeers
  rw [h]
  rfl

theorem graphChanged_idle {s : State} (h : s.grid.runs = []) (i : Nat) : s.graphChanged i = s.keepRoot := by
  unfold State.graphChanged
  dsimp only
  rw [runPeers_idle h, List.filter_nil, List.foldl_nil, h, List.foldl_nil]

theorem Links.runs {s t : State} (h : Links s t) : t.grid.runs = s.grid.runs := by
  obtain ⟨_, rfl⟩ := h
  rfl

/-! ### Detachment -/

/-- A port that has just been left by its peer. -/
def Port.alone (p : Port) (up : Bool) : Port :=
  { p with state := if p.enable then 1 else 0, lanes := 0, slow := false, peerNode := none, peerPort := 0, peerUnit := 0, latency := 0,
           downs := if up then p.downs + 1 else p.downs, sendSeq := 0, txq := [], replay := [], owes := false, recvSeq := 0, dropping := false, failures := 0,
           resends := 0, retraining := false }

theorem alone_down (p : Port) (up : Bool) : (p.alone up).state ≤ 1 := by
  unfold Port.alone
  dsimp only
  split <;> omega

theorem detachPort_leaves {s : State} {i : Nat} (hi : i < s.nl.ports.length) (hruns : s.grid.runs = []) :
    Links s (s.detachPort i) ∧ (∃ up, (s.detachPort i).port i = (s.port i).alone up) ∧ (∀ x ∈ (s.detachPort i).nl.streams, x.port ≠ i)
      ∧ (s.detachPort i).nl.ports.length = s.nl.ports.length := by
  obtain ⟨n, hn⟩ : ∃ n, n = (decide (2 ≤ (s.port i).state) && decide ((s.port i).state ≤ 4)) := ⟨_, rfl⟩
  obtain ⟨w, hw⟩ : ∃ w : State, w = { s.setPort i (·.alone n) with
    nl := { (s.setPort i (·.alone n)).nl with streams := s.nl.streams.filter fun x => x.port != i } } := ⟨_, rfl⟩
  have hwlinks : Links s w := ⟨_, hw⟩
  have hwport : w.port i = (s.port i).alone n := by
    rw [hw]
    exact State.port_setPort_same hi _
  have hwlen : w.nl.ports.length = s.nl.ports.length := by
    rw [hw]
    exact State.length_ports_setPort s i _
  have hwstreams : ∀ x ∈ w.nl.streams, x.port ≠ i := by
    rw [hw]
    intro x hx
    simpa using (List.mem_filter.mp hx).2
  obtain ⟨y, hy, htells⟩ : ∃ y, (s.detachPort i) = y.levelPorts.graphChanged i ∧ Tells w y := by
    refine ⟨if (s.port i).state = (w.port i).state then w else w.announce, ?_, ?_⟩
    · rw [hw, hn]
      rfl
    · split
      · exact .refl w
      · exact tells_announce w
  have hdown : (w.port i).state ≤ 1 := hwport ▸ alone_down _ n
  have hyport : y.port i = (s.port i).alone n := ((htells.port i).eq_of_down (.inl (by omega))).trans hwport
  have hylen : i < y.nl.ports.length := by rwa [htells.length, hwlen]
  have hyruns : y.levelPorts.grid.runs = [] := ((relinks_levelPorts y).links.runs.trans (htells.links.trans (.refl _)).runs).trans
    (hwlinks.runs.trans hruns)
  have hlevelport : y.levelPorts.port i = (s.port i).alone n := by
    have hq := queues_levelPorts hylen
    have hlow := alone_down (s.port i) n
    rw [levelled_down (by rw [hyport]; omega), hyport] at hq
    exact hq.eq_of_down (.inl (by omega))
  have hstreams : y.levelPorts.nl.streams = w.nl.streams := by
    obtain ⟨_, _, _, _, _, h1⟩ := relinks_levelPorts y
    obtain ⟨_, _, _, h2, -⟩ := htells
    rw [h1, h2]
  obtain ⟨r, hr⟩ := keepRoot_root y.levelPorts
  rw [hy, graphChanged_idle hyruns]
  refine ⟨((hwlinks.trans htells.links).trans (relinks_levelPorts y).links).trans (links_keepRoot _), ⟨n, ?_⟩, ?_, ?_⟩
  · rw [port_keepRoot, hlevelport]
  · rw [hr]
    exact hstreams ▸ hwstreams
  · rw [hr]
    exact (length_ports_levelPorts y).trans (htells.length.trans hwlen)

end Sys2Proof.Machine
end

section
/-! SUPPORT. How the ports of Nuthes Link train and detach while no run is on the device. -/

namespace Sys2Proof.Machine

/-- A port that its peer has left, on a device whose work stands. -/
def Detached (s t : State) (i : Nat) : Prop :=
  ((t.port i).state = (if (t.port i).enable then 1 else 0) ∧ (t.port i).lanes = 0
      ∧ (t.port i).peerNode = none ∧ (t.port i).replay = [] ∧ (t.port i).txq = [] ∧ (t.port i).sendSeq = 0 ∧ (t.port i).recvSeq = 0
      ∧ (∀ x ∈ t.nl.streams, x.port ≠ i) ∧ t.q = s.q ∧ t.grid = s.grid ∧ t.mem = s.mem ∧ t.host = s.host)

section
variable {s : State} {i : Nat}

/-- The device that a port's peer left, as a command leaves it. -/
theorem detached_run {w : State} (hw : Links { s with ops := [] } w) (hi : i < w.nl.ports.length) (hruns : s.grid.runs = []) :
    Detached s (s.run fun _ => w.detachPort i) i
      ∧ (∃ up, (s.run fun _ => w.detachPort i).port i = (w.port i).alone up) := by
  obtain ⟨hlinks, ⟨up, hport⟩, hstreams, -⟩ := detachPort_leaves hi (hw.runs.trans hruns)
  have hrun : (s.run fun _ => w.detachPort i).port i = (w.port i).alone up := (State.run_port s _ i).trans hport
  obtain ⟨hq, hgrid, hmem, hhost⟩ := (hw.trans hlinks).stands
  have hrunStreams : ∀ x ∈ (s.run fun _ => w.detachPort i).nl.streams, x.port ≠ i := by
    rw [State.run_nl]
    exact hstreams
  refine ⟨?_, up, hrun⟩
  unfold Detached
  rw [hrun]
  exact ⟨rfl, rfl, rfl, rfl, rfl, rfl, rfl, hrunStreams, hq, hgrid, hmem, hhost⟩

/-! ### Training begins -/

/-- A port as its training begins. -/
def Port.training (p : Port) : Port := { p with state := 2, width4 := p.lanes4 }

theorem trainPort_trains (hi : i < s.nl.ports.length) :
    (∃ nl pow, s.trainPort i = { s with nl := nl, pow := pow }) ∧ (s.port i).training.Queues ((s.trainPort i).port i) := by
  obtain ⟨w, hw⟩ : ∃ w, w = s.setPort i Port.training := ⟨_, rfl⟩
  have htells := tells_announce w
  have htrain : s.trainPort i = w.announce.wakeDomain (107 + i) := hw ▸ rfl
  have hport : w.port i = (s.port i).training := hw ▸ State.port_setPort_same hi _
  refine ⟨?_, ?_⟩
  · obtain ⟨nl, hnl⟩ := htells.links
    rw [htrain, hnl, hw]
    exact ⟨_, _, rfl⟩
  · have hq := htells.port i
    rw [hport] at hq
    rw [htrain]
    exact hq

/-- What stands where only the link and the power domains have changed. -/
theorem stands_of_connects {u : State} (h : ∃ nl pow, u = { s with ops := [], nl := nl, pow := pow }) :
    (s.run fun _ => u).q = s.q ∧ (s.run fun _ => u).grid = s.grid ∧ (s.run fun _ => u).mem = s.mem ∧ (s.run fun _ => u).host = s.host := by
  obtain ⟨nl, pow, rfl⟩ := h
  exact ⟨State.run_q s _, State.run_grid s _, run_mem_of_no_ops rfl, State.run_host s _⟩

theorem nlPresentDebounced_trains (hlive : s.live = true) (hi4 : i < 4) (hi : i < s.nl.ports.length) :
    ∃ t, exec (.nlPresentDebounced i) s = .next t ∧ (t.port i).prsnt = true
      ∧ (t.port i).state = (if (s.port i).enable = true ∧ (s.port i).state ≤ 1 ∧ s.boot.fwVerified = true ∧ s.board.pcieRef = true then 2
          else (s.port i).state)
      ∧ t.q = s.q ∧ t.grid = s.grid ∧ t.mem = s.mem ∧ t.host = s.host := by
  obtain ⟨w, hw⟩ : ∃ w, w = State.setPort { s with ops := [] } i fun p => { p with prsnt := true } := ⟨_, rfl⟩
  have hwport : w.port i = { s.port i with prsnt := true } := by
    rw [hw]
    exact State.port_setPort_same hi _
  have hwlen : i < w.nl.ports.length := by
    rw [hw, State.length_ports_setPort]
    exact hi
  have hexec : exec (.nlPresentDebounced i) s = .next (s.run fun _ => if w.mayTrain (w.port i) then w.trainPort i else w) := by
    refine exec_lands_live rfl hlive ?_
    rw [if_neg (by omega), hw]
  have hmay : w.mayTrain (w.port i) = true ↔ (s.port i).enable = true ∧ (s.port i).state ≤ 1 ∧ s.boot.fwVerified = true
      ∧ s.board.pcieRef = true := by
    rw [hwport, hw]
    simp [State.mayTrain, and_assoc]
  refine ⟨_, hexec, ?_⟩
  by_cases htrain : w.mayTrain (w.port i) = true
  · obtain ⟨⟨nl, pow, hrest⟩, fs, hport, -⟩ := trainPort_trains hwlen
    rw [if_pos (hmay.mp htrain)]
    simp only [if_pos htrain]
    refine ⟨?_, ?_, stands_of_connects ⟨nl, pow, ?_⟩⟩
    · rw [State.run_port, hport, hwport]
      rfl
    · rw [State.run_port, hport]
      rfl
    · rw [hrest, hw]
      rfl
  · rw [if_neg (fun h => htrain (hmay.mpr h))]
    simp only [if_neg htrain]
    refine ⟨?_, ?_, stands_of_connects ⟨w.nl, w.pow, ?_⟩⟩
    · rw [State.run_port, hwport]
    · rw [State.run_port, hwport]
    · rw [hw]
      rfl

/-! ### Training ends -/

/-- A port as its training ends at some lanes, before its STATE is known. -/
def Port.trained (p : Port) (lanes : Nat) (f : PortTraining) (kept : Bool) : Port :=
  { p with state := 4, lanes := lanes, latency := f.latency, slow := decide (96 < f.latency),
           peerNode := if f.peer.node < 16 then some f.peer.node else none,
           peerPort := f.peer.port, peerUnit := f.peer.unit, retraining := false, failures := 0, resends := 0, dropping := false,
           sendSeq := if kept then p.sendSeq else 0, recvSeq := if kept then p.recvSeq else 0,
           txq := if kept then p.txq else [], replay := if kept then p.replay else [], owes := kept }

/-- A port comes up: STATE is 3 or 4 and the rest is as trained. -/
theorem levelPorts_keeps_trained {w : State} (hi : i < w.nl.ports.length) {n : Nat} :
    ((w.setPort i fun p => { p with state := w.portLevel p }).port i).Queues
      (((((w.setPort i fun p => { p with state := w.portLevel p }).announce).sendLink n).levelPorts).port i) := by
  obtain ⟨y, hy⟩ : ∃ y, y = w.setPort i fun p => { p with state := w.portLevel p } := ⟨_, rfl⟩
  obtain ⟨z, hz⟩ : ∃ z, z = y.announce.sendLink n := ⟨_, rfl⟩
  have hyport : y.port i = { w.port i with state := w.portLevel (w.port i) } := hy ▸ State.port_setPort_same hi _
  have hsees : SeesSame w y := by
    refine ⟨map_peer_eq (hy ▸ State.length_ports_setPort w i _) fun k => ?_, hy ▸ rfl, hy ▸ rfl, hy ▸ rfl, hy ▸ rfl⟩
    by_cases hk : k = i
    · have hp : y.nl.ports.getD k .reset = _ := hk ▸ hyport
      rw [hp, hk]
      rfl
    · have hp : y.nl.ports.getD k .reset = _ := hy ▸ State.port_setPort_ne hk _
      rw [hp]
      rfl
  have htells : Tells y z := hz ▸ (tells_announce y).trans (tells_sendLink _ n)
  have hzport := htells.port i
  obtain ⟨fs, heq, -⟩ := id hzport
  have hzlen : i < z.nl.ports.length := by
    rw [htells.length, hy, State.length_ports_setPort]
    exact hi
  have hlevel : z.levelled (z.port i) = z.port i := by
    refine levelled_same ?_
    have hsame : z.portLevel (z.port i) = w.portLevel (w.port i) := (hsees.trans htells.seesSame).portLevel (by rw [heq, hyport])
    rw [hsame, heq, hyport]
  have hlast := queues_levelPorts hzlen
  rw [hlevel] at hlast
  rw [← hy, ← hz]
  exact hzport.trans hlast

theorem port_resend (s : State) (j k : Nat) : (s.resend j).port k = s.port k := by
  have h : ∀ (fs : List LinkFrame) (s : State), (fs.foldl (fun s f => s.send (.frame j f)) s).nl = s.nl := by
    intro fs
    induction fs with
    | nil => exact fun _ => rfl
    | cons f fs ih => exact fun s => ih _
  rw [State.port, State.resend, h]
  rfl

theorem runs_resend (s : State) (j : Nat) : (s.resend j).grid.runs = s.grid.runs := by
  have h : ∀ (fs : List LinkFrame) (s : State), (fs.foldl (fun s f => s.send (.frame j f)) s).grid = s.grid := by
    intro fs
    induction fs with
    | nil => exact fun _ => rfl
    | cons f fs ih => exact fun s => ih _
  rw [State.resend, h]

/-- A port whose lanes come up shows what was found of its peer. -/
theorem nlPortTrained_trains {f : PortTraining} (hlive : s.live = true) (hi4 : i < 4) (hi : i < s.nl.ports.length) (hruns : s.grid.runs = [])
    (hstate : (s.port i).state = 2) (hdomain : (s.domain (107 + i)).state = 2) (hlanes : trainedLanes (s.port i).width4 f.lanesGood ≠ 0) :
    ∃ t l kept, exec (.nlPortTrained i f) s = .next t ∧ (l = 3 ∨ l = 4)
      ∧ Port.Queues { (s.port i).trained (trainedLanes (s.port i).width4 f.lanesGood) f kept with state := l } (t.port i) := by
  obtain ⟨kept, hkept⟩ : ∃ kept, kept = ((s.port i).retraining && !f.newSession) := ⟨_, rfl⟩
  obtain ⟨lanes, hlanesEq⟩ : ∃ lanes, lanes = trainedLanes (s.port i).width4 f.lanesGood := ⟨_, rfl⟩
  obtain ⟨w, hw⟩ : ∃ w, w = (if f.newSession then
      (State.setPort { s with ops := [] } i (·.trained lanes f kept)).forgetUnit f.peer.unit
    else State.setPort { s with ops := [] } i (·.trained lanes f kept)) := ⟨_, rfl⟩
  have hwlinks : Links { s with ops := [] } w := by
    rw [hw]
    split <;> exact ⟨_, rfl⟩
  have hwports : w.nl.ports = (State.setPort s i (·.trained lanes f kept)).nl.ports := by
    rw [hw]
    split <;> rfl
  have hwlen : i < w.nl.ports.length := by
    rw [hwports, State.length_ports_setPort]
    exact hi
  have hwport : w.port i = (s.port i).trained lanes f kept := by
    rw [State.port, hwports]
    exact State.port_setPort_same hi _
  obtain ⟨y, hy⟩ : ∃ y, y = (((w.setPort i fun p => { p with state := w.portLevel p }).announce).sendLink i).levelPorts := ⟨_, rfl⟩
  have hyruns : y.grid.runs = [] := by
    rw [hy]
    exact (relinks_levelPorts _).links.runs.trans (((tells_announce _).trans (tells_sendLink _ i)).links.runs.trans (hwlinks.runs.trans hruns))
  obtain ⟨z, hz⟩ : ∃ z, z = if kept then y.resend i else y := ⟨_, rfl⟩
  have hzport : z.port i = y.port i := by
    rw [hz]
    split
    · exact port_resend y i i
    · rfl
  have hzruns : z.grid.runs = [] := by
    rw [hz]
    split
    · exact (runs_resend y i).trans hyruns
    · exact hyruns
  have hexec : exec (.nlPortTrained i f) s = .next (s.run fun _ => z.keepRoot) := by
    have hnew : (match if f.peer.node < 16 then some f.peer.node else none with
        | some n => if f.newSession && z.runPeers.contains n then z.detectLoss i n else z
        | none => z) = z := by
      rw [runPeers_idle hzruns]
      split
      · rw [List.contains_nil, Bool.and_false]
        rfl
      · rfl
    refine exec_lands_live rfl hlive (Eq.trans ?_ (graphChanged_idle hzruns i))
    refine Eq.trans ?_ (congrArg (State.graphChanged · i) hnew)
    subst hz hy hw hlanesEq hkept
    exact (if_neg (by
      rintro (h | h | h)
      · omega
      · exact h hstate
      · exact h hdomain)).trans (if_neg hlanes)
  refine ⟨_, w.portLevel (w.port i), kept, hexec, portLevel_up _ _, ?_⟩
  rw [State.run_port, port_keepRoot, hzport, hy, ← hlanesEq, ← hwport]
  have hset : (w.setPort i fun p => { p with state := w.portLevel p }).port i = { w.port i with state := w.portLevel (w.port i) } :=
    State.port_setPort_same hwlen _
  exact hset ▸ levelPorts_keeps_trained hwlen


theorem nlPortTrained_fails {f : PortTraining} (hlive : s.live = true) (hi4 : i < 4) (hi : i < s.nl.ports.length) (hruns : s.grid.runs = [])
    (hstate : (s.port i).state = 2) (hdomain : (s.domain (107 + i)).state = 2) (hlanes : trainedLanes (s.port i).width4 f.lanesGood = 0) :
    ∃ t, exec (.nlPortTrained i f) s = .next t ∧ (t.port i).state = 5 ∧ (t.port i).lanes = 0 := by
  obtain ⟨w, hw⟩ : ∃ w, w = State.detachPort { s with ops := [] } i := ⟨_, rfl⟩
  obtain ⟨y, hy⟩ : ∃ y, y = w.setPort i fun p => { p with state := 5 } := ⟨_, rfl⟩
  obtain ⟨-, ⟨up, hport⟩, -, hlen⟩ := detachPort_leaves (s := { s with ops := [] }) hi hruns
  rw [← hw] at hport hlen
  have hyport : y.port i = { w.port i with state := 5 } := hy ▸ State.port_setPort_same (by rw [hlen]; exact hi) _
  have hexec : exec (.nlPortTrained i f) s = .next (s.run fun _ => y.announce) := by
    refine exec_lands_live rfl hlive ?_
    subst hy hw
    exact (if_neg (by
      rintro (h | h | h)
      · omega
      · exact h hstate
      · exact h hdomain)).trans (if_pos hlanes)
  have hlast : (s.run fun _ => y.announce).port i = y.port i :=
    (State.run_port s _ i).trans (((tells_announce y).port i).eq_of_down (.inr (by rw [hyport]; exact Nat.lt_succ_self 4)))
  refine ⟨_, hexec, ?_, ?_⟩
  · rw [hlast, hyport]
  · rw [hlast, hyport, hport]
    rfl

theorem trainedLanes_all {lanes4 : Bool} {good : List Nat} (h : ∀ k, k < 8 → k ∈ good) : trainedLanes lanes4 good = if lanes4 then 4 else 8 := by
  have h8 : (List.range 8).all good.contains = true := by simpa [List.all_eq_true] using h
  have h4 : (List.range 4).all good.contains = true := by
    rw [List.all_eq_true]
    exact fun k hk => by simpa using h k (by have := List.mem_range.mp hk; omega)
  rw [trainedLanes, h8, h4]
  cases lanes4 <;> rfl

theorem trainedLanes_four {lanes4 : Bool} {good : List Nat} (h : ∀ k, k < 4 → k ∈ good) (hbad : ∃ k, k < 8 ∧ k ∉ good) :
    trainedLanes lanes4 good = 4 := by
  have h8 : (List.range 8).all good.contains = false := by
    rw [List.all_eq_false]
    obtain ⟨k, hk, hnot⟩ := hbad
    exact ⟨k, List.mem_range.mpr hk, by simpa using hnot⟩
  have h4 : (List.range 4).all good.contains = true := by simpa [List.all_eq_true] using h
  rw [trainedLanes, h8, h4]
  simp

theorem trainedLanes_none {lanes4 : Bool} {good : List Nat} (hbad : ∃ k, k < 4 ∧ k ∉ good) : trainedLanes lanes4 good = 0 := by
  obtain ⟨k, hk, hnot⟩ := hbad
  have h8 : (List.range 8).all good.contains = false := by
    rw [List.all_eq_false]
    exact ⟨k, List.mem_range.mpr (by omega), by simpa using hnot⟩
  have h4 : (List.range 4).all good.contains = false := by
    rw [List.all_eq_false]
    exact ⟨k, List.mem_range.mpr hk, by simpa using hnot⟩
  rw [trainedLanes, h8, h4]
  simp

/-! ### Detachment and NL_CTRL -/

theorem nlPortDetach_detaches (hlive : s.live = true) (hi4 : i < 4) (hi : i < s.nl.ports.length) (hruns : s.grid.runs = []) (high : Bool) :
    ∃ t, exec (.nlPortDetach i high) s = .next t ∧ (t.port i).prsnt = ((s.port i).prsnt && !high) ∧ Detached s t i := by
  obtain ⟨w, hw⟩ : ∃ w, w = State.setPort { s with ops := [] } i fun p =>
    { p with prsnt := p.prsnt && !high, goneAt := if high then s.cnt.stitch else p.goneAt } := ⟨_, rfl⟩
  have hwport : (w.port i).prsnt = ((s.port i).prsnt && !high) := by
    rw [hw, State.port_setPort_same (by exact hi)]
    rfl
  have hwlen : i < w.nl.ports.length := by
    rw [hw, State.length_ports_setPort]
    exact hi
  obtain ⟨hdetached, up, hport⟩ := detached_run (s := s) (hw ▸ links_setPort _ i _) hwlen hruns
  refine ⟨_, exec_lands_live rfl hlive (u := w.detachPort i) ?_, ?_, hdetached⟩
  · subst hw
    exact if_neg (by omega)
  · rw [hport]
    exact hwport

theorem retrainTimeout_detaches (hlive : s.live = true) (hi4 : i < 4) (hi : i < s.nl.ports.length) (hruns : s.grid.runs = [])
    (hstate : (s.port i).state = 2) (hretrain : (s.port i).retraining = true) :
    ∃ t, exec (.retrainTimeout i) s = .next t ∧ Detached s t i := by
  obtain ⟨hdetached, -⟩ := detached_run (s := s) (w := { s with ops := [] }) (.refl _) hi hruns
  exact ⟨_, exec_lands_live rfl hlive (if_pos ⟨hi4, hstate, hretrain⟩), hdetached⟩

theorem nlCtrlWrite_turns (hlive : s.live = true) (hlink : s.host.link = 2) (hready : s.boot.ready = true) (hi4 : i < 4)
    (hi : i < s.nl.ports.length) (hruns : s.grid.runs = []) (v : Word) :
    ∃ t, exec (.nlCtrlWrite i v) s = .next t ∧ (t.port i).enable = v.getLsbD 0 ∧ (t.port i).lanes4 = v.getLsbD 1
      ∧ (v.getLsbD 0 = false → Detached s t i)
      ∧ (v.getLsbD 0 = true → (s.port i).state ≤ 1 → (s.port i).prsnt = true → s.board.pcieRef = true → (t.port i).state = 2)
      ∧ (v.getLsbD 0 = true → (s.port i).state ≤ 1 → (s.port i).prsnt = false → (t.port i).state = 1) := by
  obtain ⟨w, hw⟩ : ∃ w, w = State.setPort { s with ops := [] } i fun p =>
    { p with lanes4 := natBit v.toNat 1, enable := natBit v.toNat 0 } := ⟨_, rfl⟩
  have hwport : w.port i = { s.port i with lanes4 := v.getLsbD 1, enable := v.getLsbD 0 } := by
    rw [hw, State.port_setPort_same (by exact hi), natBit_toNat, natBit_toNat]
    rfl
  have hwlen : i < w.nl.ports.length := by
    rw [hw, State.length_ports_setPort]
    exact hi
  have hwref : w.board.pcieRef = s.board.pcieRef := hw ▸ rfl
  have hup : ({ s with ops := [] } : State).hostUp = true := by simp [State.hostUp, Clear.live, hlive, hlink]
  have hexec : exec (.nlCtrlWrite i v) s = .next (s.run fun _ =>
      if (!v.getLsbD 0) = true then w.detachPort i
      else if (w.port i).state = 2 ∨ (w.port i).state = 3 ∨ (w.port i).state = 4 then w
      else if ((w.port i).prsnt && w.board.pcieRef) = true then w.trainPort i
      else if (w.port i).state = 1 then w
      else (w.setPort i fun p => { p with state := 1 }).announce) := by
    refine exec_lands rfl ?_
    rw [if_neg (by simp [hup, hready, hi4]), hw, ← natBit_toNat]
  refine ⟨_, hexec, ?_⟩
  cases hon : v.getLsbD 0 with
  | false =>
    obtain ⟨hdetached, up, hport⟩ := detached_run (s := s) (hw ▸ links_setPort _ i _) hwlen hruns
    simp only [Bool.not_false, if_true]
    refine ⟨?_, ?_, fun _ => hdetached, fun h => absurd h Bool.false_ne_true, fun h => absurd h Bool.false_ne_true⟩
    · rw [hport, hwport]
      exact hon
    · rw [hport, hwport]
      rfl
  | true =>
    rw [hon] at hwport
    simp only [Bool.not_true, Bool.false_eq_true, if_false, State.run_port, hwref]
    by_cases hused : (w.port i).state = 2 ∨ (w.port i).state = 3 ∨ (w.port i).state = 4
    · simp only [if_pos hused]
      rw [hwport] at hused ⊢
      replace hused : (s.port i).state = 2 ∨ (s.port i).state = 3 ∨ (s.port i).state = 4 := hused
      exact ⟨rfl, rfl, fun h => absurd h.symm Bool.false_ne_true, fun _ h => absurd h (by omega), fun _ h => absurd h (by omega)⟩
    · simp only [if_neg hused]
      by_cases htrain : ((w.port i).prsnt && s.board.pcieRef) = true
      · obtain ⟨-, fs, hport, -⟩ := trainPort_trains hwlen
        simp only [if_pos htrain]
        rw [hport]
        rw [hwport] at htrain ⊢
        refine ⟨rfl, rfl, fun h => absurd h.symm Bool.false_ne_true, fun _ _ _ _ => rfl, fun _ _ h => ?_⟩
        simp [h] at htrain
      · simp only [if_neg htrain]
        by_cases hone : (w.port i).state = 1
        · simp only [if_pos hone]
          rw [hwport] at htrain hone ⊢
          exact ⟨rfl, rfl, fun h => absurd h.symm Bool.false_ne_true, fun _ _ h h' => absurd (by simp [h, h']) htrain, fun _ _ _ => hone⟩
        · simp only [if_neg hone]
          have hset : (w.setPort i fun p => { p with state := 1 }).port i = { w.port i with state := 1 } := State.port_setPort_same hwlen _
          have hlast := ((tells_announce (w.setPort i fun p => { p with state := 1 })).port i).eq_of_down (.inl (by rw [hset]; exact Nat.lt_succ_self 1))
          rw [hlast, hset]
          rw [hwport] at htrain ⊢
          exact ⟨rfl, rfl, fun h => absurd h.symm Bool.false_ne_true, fun _ _ h h' => absurd (by simp [h, h']) htrain, fun _ _ _ => rfl⟩

end

/-- Settles O25: with no run on the device a change of a port is announced and levels the ports, and neither moves the port it is about. -/
theorem portsTrainAndDetach : Obligations.PortsTrainAndDetach := by
  intro s i hlive hi4 hlen hruns
  have hi : i < s.nl.ports.length := hlen.symm ▸ hi4
  dsimp only
  refine ⟨nlPresentDebounced_trains hlive hi4 hi, fun f hstate hdomain => ⟨fun hgood => ?_, fun hgood hbad => ?_, fun hbad => ?_⟩,
    nlPortDetach_detaches hlive hi4 hi hruns, retrainTimeout_detaches hlive hi4 hi hruns,
    fun v hlink hready => nlCtrlWrite_turns hlive hlink hready hi4 hi hruns v⟩
  · have hlanes := trainedLanes_all (lanes4 := (s.port i).width4) hgood
    obtain ⟨t, l, kept, hexec, hl, fs, hport, -⟩ := nlPortTrained_trains hlive hi4 hi hruns hstate hdomain
      (by rw [hlanes]; split <;> decide)
    refine ⟨t, hexec, ?_⟩
    rw [hport]
    exact ⟨hlanes, hl, rfl, by simp [Port.trained], rfl, rfl⟩
  · have hlanes := trainedLanes_four (lanes4 := (s.port i).width4) hgood hbad
    obtain ⟨t, l, kept, hexec, hl, fs, hport, -⟩ := nlPortTrained_trains hlive hi4 hi hruns hstate hdomain (by rw [hlanes]; decide)
    refine ⟨t, hexec, ?_⟩
    rw [hport]
    exact ⟨hlanes, hl⟩
  · exact nlPortTrained_fails hlive hi4 hi hruns hstate hdomain (trainedLanes_none hbad)

end Sys2Proof.Machine
end

section
/-! SUPPORT. Frames that arrive in order, and what the messages of CONTROL frames do while no run is on the device. -/

namespace Sys2Proof.Machine

/-! ### A frame in its order -/

/-- A port after a frame in its order. -/
def Port.accept (p : Port) (a : Arrival) : Port :=
  { (p.countFec a).release a.frame with
    recvSeq := (((p.countFec a).release a.frame).recvSeq + 1) % 4096, dropping := false, failures := 0, owes := true }

/-- The state after a frame in its order, before what the frame does. -/
def State.accept (s : State) (i : Nat) (a : Arrival) : State :=
  ((s.setPort i fun p => p.countFec a).setPort i fun p => p.release a.frame).setPort i fun p =>
    { p with recvSeq := (p.recvSeq + 1) % 4096, dropping := false, failures := 0, owes := true }

theorem release_rest (p : Port) (f : LinkFrame) : ∃ fs n, p.release f = { p with replay := fs, resends := n } := by
  unfold Port.release
  split
  · exact ⟨_, _, rfl⟩
  · exact ⟨_, _, rfl⟩

section
variable {s : State} {i : Nat} {a : Arrival}

theorem recvSeq_release (p : Port) (f : LinkFrame) : (p.release f).recvSeq = p.recvSeq := by
  obtain ⟨fs, n, h⟩ := release_rest p f
  rw [h]

/-- What accepting a frame leaves of a port. -/
theorem accept_rest (p : Port) (a : Arrival) : ∃ fs n x y, p.accept a =
    { p with replay := fs, resends := n, fecCorr := x, fecUncorr := y, recvSeq := (p.recvSeq + 1) % 4096, dropping := false, failures := 0,
             owes := true } := by
  obtain ⟨fs, n, h⟩ := release_rest (p.countFec a) a.frame
  unfold Port.accept
  rw [h]
  exact ⟨_, _, _, _, rfl⟩

theorem port_accept_same (hi : i < s.nl.ports.length) : (s.accept i a).port i = (s.port i).accept a := by
  unfold State.accept Port.accept
  rw [State.port_setPort_same (by simpa using hi), State.port_setPort_same (by simpa using hi), State.port_setPort_same hi]

theorem port_accept_ne {k : Nat} (hk : k ≠ i) : (s.accept i a).port k = s.port k := by
  unfold State.accept
  rw [State.port_setPort_ne hk, State.port_setPort_ne hk, State.port_setPort_ne hk]

@[simp] theorem length_ports_accept : (s.accept i a).nl.ports.length = s.nl.ports.length := by simp [State.accept]

theorem links_accept : Links s (s.accept i a) := ⟨_, rfl⟩

/-- Every port keeps its level and what it knows of its peer. -/
theorem port_accept_peer (hi : i < s.nl.ports.length) (k : Nat) : ((s.accept i a).port k).state = (s.port k).state
    ∧ ((s.accept i a).port k).peer = (s.port k).peer ∧ ((s.accept i a).port k).peerPort = (s.port k).peerPort
    ∧ ((s.accept i a).port k).latency = (s.port k).latency := by
  by_cases hk : k = i
  · obtain ⟨fs, n, x, y, h⟩ := accept_rest (s.port i) a
    rw [hk, port_accept_same hi, h]
    exact ⟨rfl, rfl, rfl, rfl⟩
  · rw [port_accept_ne hk]
    exact ⟨rfl, rfl, rfl, rfl⟩

theorem seesSame_accept (hi : i < s.nl.ports.length) : SeesSame s (s.accept i a) :=
  ⟨map_peer_eq length_ports_accept fun k => (port_accept_peer hi k).2.1, rfl, rfl, rfl, rfl⟩

theorem openPorts_accept (hi : i < s.nl.ports.length) : (s.accept i a).openPorts = s.openPorts := by
  unfold State.openPorts
  exact List.filter_congr fun k _ => by rw [(port_accept_peer hi k).1]

theorem ownTopology_accept (hi : i < s.nl.ports.length) : (s.accept i a).ownTopology = s.ownTopology := by
  have hports : ∀ k, ((s.accept i a).nl.ports.getD k .reset).peerNode = (s.nl.ports.getD k .reset).peerNode
      ∧ ((s.accept i a).nl.ports.getD k .reset).peerPort = (s.nl.ports.getD k .reset).peerPort
      ∧ ((s.accept i a).nl.ports.getD k .reset).state = (s.nl.ports.getD k .reset).state := fun k => by
    obtain ⟨hstate, hpeer, hpeerPort, -⟩ := port_accept_peer (a := a) hi k
    exact ⟨(Prod.mk.injEq _ _ _ _ ▸ hpeer).1, hpeerPort, hstate⟩
  unfold State.ownTopology
  have hmap : ((s.accept i a).nl.ports.map fun p => (p.peerNode.getD 255, p.peerPort, p.state))
      = s.nl.ports.map fun p => (p.peerNode.getD 255, p.peerPort, p.state) := by
    refine List.ext_getElem (by simp) fun k hq hp => ?_
    have hk := hports k
    rw [List.length_map] at hp hq
    simp only [List.getD_eq_getElem?_getD, List.getElem?_eq_getElem hp, List.getElem?_eq_getElem hq, Option.getD_some] at hk
    obtain ⟨h1, h2, h3⟩ := hk
    rw [List.getElem_map, List.getElem_map, h1, h2, h3]
  rw [hmap]
  rfl

theorem routePort_accept (hi : i < s.nl.ports.length) (n : Nat) : (s.accept i a).routePort n = s.routePort n := by
  have hclashes : (s.accept i a).clashes = s.clashes := (seesSame_accept hi).clashes
  unfold State.routePort State.portOver State.edges State.linksWhere
  rw [hclashes, ownTopology_accept hi]
  rfl

/-- A frame that arrives in its order is acted on. -/
theorem receive_in_order (hhears : s.hears i = true) (hi : i < s.nl.ports.length) (hgood : LinkFrame.good a.frame = true)
    (hseq : a.frame.seq = (s.port i).recvSeq) {mine : LinkFrame → Bool} (hmine : mine a.frame = true) (f : State → State) :
    s.receive i a mine f = f (s.accept i a) := by
  unfold State.receive
  dsimp only
  rw [if_neg (by simp [hhears, hmine]), if_neg (by simp [hgood])]
  refine if_neg fun h => h ?_
  rw [State.port_setPort_same (by simpa using hi), State.port_setPort_same hi, recvSeq_release]
  exact hseq

end

/-! ### CONTROL messages -/

theorem code_of_decode {b : List Byte} {m : PeerMsg} (h : PeerMsg.decode b = some m) : fieldOf b 0 1 = m.code := by
  unfold PeerMsg.decode at h
  dsimp only at h
  split at h
  case h_4 hcode =>
    split at h
    · rw [hcode, ← Option.some.inj h]
      rfl
    · exact absurd h (by simp)
  case h_9 => exact absurd h (by simp)
  all_goals
    rename_i hcode
    rw [hcode, ← Option.some.inj h]
    rfl

theorem receiveMsg_in_order {s : State} {i code : Nat} {a : Arrival} {m : PeerMsg} (hhears : s.hears i = true) (hi : i < s.nl.ports.length)
    (hgood : LinkFrame.good a.frame = true) (htype : a.frame.type = 4) (hseq : a.frame.seq = (s.port i).recvSeq)
    (hm : PeerMsg.decode a.frame.payload = some m) (hcode : m.code = code) (act : PeerMsg → State → State) :
    s.receiveMsg i code a act = act m ((s.accept i a).forward i m) := by
  unfold State.receiveMsg
  rw [receive_in_order hhears hi hgood hseq (by simp [htype, code_of_decode hm, hcode]), hm]

theorem length_encode (m : PeerMsg) : m.encode.length = 240 := by
  have hzero : (zeroBytes 240).length = 240 := List.length_replicate ..
  rw [PeerMsg.encode, List.length_take, List.length_append, hzero]
  exact Nat.min_eq_left (Nat.le_add_left 240 _)

theorem payload_newFrame (type dest src stream count first : Nat) (m : PeerMsg) :
    (newFrame type dest src stream count first m.encode).payload = m.encode := by
  have h := length_encode m
  rw [newFrame]
  simp [h]

/-- A CONTROL frame with a message waits at a port. -/
def Waits (p : Port) (m : PeerMsg) : Prop := ∃ f ∈ p.txq, f.type = 4 ∧ f.payload = m.encode

theorem Waits.of_queues {p q : Port} {m : PeerMsg} (h : Waits p m) (k : p.Queues q) : Waits q m := by
  obtain ⟨f, hf, hfm⟩ := h
  exact ⟨f, k.mem hf, hfm⟩

theorem lt_of_open {s : State} {j : Nat} (h : j ∈ s.openPorts) : j < s.nl.ports.length := by
  by_contra hnot
  have hstate := (List.mem_filter.mp h).2
  have hreset : s.port j = Port.reset := by simp [State.port, List.getD_eq_getElem?_getD, List.getElem?_eq_none (Nat.not_lt.mp hnot)]
  rw [hreset] at hstate
  simp [Port.reset] at hstate

theorem waits_sendControl {s : State} {j : Nat} (h : j ∈ s.openPorts) (m : PeerMsg) : Waits ((s.sendControl j m).port j) m := by
  have hstate := (List.mem_filter.mp h).2
  simp only [Bool.or_eq_true, beq_iff_eq] at hstate
  rw [State.sendControl, State.queueFrame, State.port_setPort_same (lt_of_open h), if_pos (by omega)]
  exact ⟨_, List.mem_append_right _ (List.mem_singleton_self _), rfl, payload_newFrame ..⟩

theorem Tells.openPorts {s t : State} (h : Tells s t) : t.openPorts = s.openPorts := by
  refine List.filter_congr fun k _ => ?_
  obtain ⟨fs, heq, -⟩ := h.port k
  rw [heq]

/-- A flooded message waits at every open port but the one it came by (R278). -/
theorem waits_flood {s : State} {j : Nat} (h : j ∈ s.openPorts) {except : Option Nat} (hj : some j ≠ except) (m : PeerMsg) :
    Waits ((s.flood except m).port j) m := by
  have hsend : ∀ (js : List Nat) (w : State), j ∈ w.openPorts → j ∈ js →
      Waits ((js.foldl (fun s i => s.sendControl i m) w).port j) m := by
    intro js
    induction js with
    | nil => exact fun _ _ h => absurd h List.not_mem_nil
    | cons k ks ih =>
      intro w hw hmem
      rw [List.foldl_cons]
      by_cases hk : k = j
      · subst hk
        exact (waits_sendControl hw m).of_queues ((Tells.foldl (fun s i => tells_sendControl s i m) ks _).port k)
      · refine ih _ ((tells_sendControl w k m).openPorts ▸ hw) ?_
        exact (List.mem_cons.mp hmem).resolve_left fun h => hk h.symm
  unfold State.flood
  split
  · exact hsend _ _ h (List.mem_filter.mpr ⟨h, by simpa using hj⟩)
  · exact hsend _ _ h (List.mem_filter.mpr ⟨h, by simpa using hj⟩)

theorem mem_flooded_flood {s : State} {except : Option Nat} {m : PeerMsg} {k : FloodKey} (hk : m.key = some k) :
    k ∈ (s.flood except m).nl.flooded := by
  have hkeeps : ∀ (js : List Nat) (w : State), (js.foldl (fun s i => s.sendControl i m) w).nl.flooded = w.nl.flooded := by
    intro js
    induction js with
    | nil => exact fun _ => rfl
    | cons j js ih => exact fun w => ih _
  unfold State.flood
  rw [hk]
  dsimp only
  rw [hkeeps]
  show k ∈ addNew k s.nl.flooded
  unfold addNew
  split
  case isTrue h => exact List.contains_iff_mem.mp h
  case isFalse => exact List.mem_append_right _ (List.mem_singleton_self k)

theorem forward_new {s : State} {i : Nat} {m : PeerMsg} {k : FloodKey} (hk : m.key = some k) (hnew : k ∉ s.nl.flooded) :
    s.forward i m = s.flood (some i) m := by
  unfold State.forward
  rw [hk]
  exact if_neg fun h => hnew (List.contains_iff_mem.mp h)

end Sys2Proof.Machine
end

section
/-! SUPPORT. What CONTROL messages do while no run is on the device, and how the stitch domain counts. -/

namespace Sys2Proof.Machine

/-- A message that came on a port has gone on, and the device's work stands. -/
def Passed (s t : State) (i : Nat) (m : PeerMsg) : Prop := t.q = s.q ∧ t.mem = s.mem ∧ t.out = s.out
  ∧ ∀ k, m.key = some k → k ∉ s.nl.flooded → k ∈ t.nl.flooded ∧ ∀ j ∈ s.openPorts, j ≠ i → Waits (t.port j) m

/-- The state in which a message that came in its order is acted on. -/
def State.heard (s : State) (i : Nat) (a : Arrival) (m : PeerMsg) : State := (State.accept { s with ops := [] } i a).forward i m

section
variable {s : State} {i : Nat} {a : Arrival} {m : PeerMsg}

theorem tells_heard : Tells (State.accept { s with ops := [] } i a) (s.heard i a m) := tells_forward _ i m

theorem links_heard : Links { s with ops := [] } (s.heard i a m) := links_accept.trans tells_heard.links

theorem heard_nl : ∃ ps fl, (s.heard i a m).nl = { s.nl with ports := ps, flooded := fl, sequence := (s.heard i a m).nl.sequence } := by
  obtain ⟨ps, fl, n, h, -⟩ := tells_heard (s := s) (i := i) (a := a) (m := m)
  rw [h]
  exact ⟨ps, fl, rfl⟩

theorem seesSame_heard (hi : i < s.nl.ports.length) : SeesSame s (s.heard i a m) :=
  SeesSame.trans (t := State.accept { s with ops := [] } i a) (seesSame_accept (s := { s with ops := [] }) hi) tells_heard.seesSame

/-- What is acted on once a message has been forwarded leaves it forwarded. -/
theorem passed_of_acts (hi : i < s.nl.ports.length) {u : State} (hu : Links (s.heard i a m) u) (hports : u.nl.ports = (s.heard i a m).nl.ports)
    (hflooded : u.nl.flooded = (s.heard i a m).nl.flooded) : Passed s (s.run fun _ => u) i m := by
  have hlinks := links_heard.trans hu
  obtain ⟨hq, -, hmem, -⟩ := hlinks.stands
  obtain ⟨nl, hnl⟩ := hlinks
  have hout : (s.run fun _ => u).out = s.out := by
    rw [State.run_out, hnl]
  refine ⟨hq, hmem, hout, fun k hk hnew => ?_⟩
  have hforward : s.heard i a m = (State.accept { s with ops := [] } i a).flood (some i) m := forward_new hk hnew
  refine ⟨?_, fun j hj hji => ?_⟩
  · rw [State.run_nl, hflooded, hforward]
    exact mem_flooded_flood hk
  · have hport : (s.run fun _ => u).port j = (s.heard i a m).port j := by
      rw [State.run_port, State.port, hports]
      rfl
    rw [hport, hforward]
    refine waits_flood ?_ (fun h => hji (Option.some.inj h)) m
    rw [openPorts_accept (s := { s with ops := [] }) hi]
    exact hj
end

/-! ### Messages -/

section
variable {s : State} {i : Nat} {a : Arrival} (hhears : s.hears i = true) (hi : i < s.nl.ports.length)
  (hgood : LinkFrame.good a.frame = true) (htype : a.frame.type = 4) (hseq : a.frame.seq = (s.port i).recvSeq)
include hhears hi hgood htype hseq

/-- A command for a CONTROL frame in its order. -/
theorem message_lands {c : Instr} {code : Nat} {m : PeerMsg} {act : PeerMsg → State → State} {u : State}
    (hexec : exec c s = .next (s.whenLive fun s => s.receiveMsg i code a act)) (hm : PeerMsg.decode a.frame.payload = some m)
    (hcode : m.code = code) (hu : act m (s.heard i a m) = u) : exec c s = .next (s.run fun _ => u) := by
  have hlive : s.live = true := by
    simp only [State.hears, Bool.and_eq_true] at hhears
    exact hhears.1.1
  exact exec_lands_live hexec hlive ((receiveMsg_in_order (s := { s with ops := [] }) hhears hi hgood htype hseq hm hcode act).trans hu)

variable (hruns : s.grid.runs = [])
include hruns

/-- A message that only adds to what the link keeps. -/
theorem message_kept {c : Instr} {code : Nat} {m : PeerMsg} {act : PeerMsg → State → State} (g : NuthesLink → NuthesLink)
    (hexec : exec c s = .next (s.whenLive fun s => s.receiveMsg i code a act)) (hm : PeerMsg.decode a.frame.payload = some m)
    (hcode : m.code = code) (hg : ∀ l, (g l).ports = l.ports ∧ (g l).flooded = l.flooded)
    (hact : ∀ (w : State) ps fl n, w.grid.runs = [] → w.nl = { s.nl with ports := ps, flooded := fl, sequence := n } →
      act m w = { w with nl := g w.nl }) :
    ∃ t, exec c s = .next t ∧ (∃ ps fl n, t.nl = g { s.nl with ports := ps, flooded := fl, sequence := n }) ∧ Passed s t i m := by
  obtain ⟨w, hw⟩ : ∃ w, w = s.heard i a m := ⟨_, rfl⟩
  obtain ⟨ps, fl, hnl⟩ := heard_nl (s := s) (i := i) (a := a) (m := m)
  rw [← hw] at hnl
  have hwruns : w.grid.runs = [] := hw ▸ links_heard.runs.trans hruns
  have hdone := hact w ps fl w.nl.sequence hwruns hnl
  refine ⟨_, message_lands hhears hi hgood htype hseq hexec hm hcode (u := { w with nl := g w.nl }) (by rw [← hw]; exact hdone), ?_, ?_⟩
  · exact ⟨ps, fl, w.nl.sequence, (State.run_nl s _).trans (congrArg g hnl)⟩
  · refine passed_of_acts hi ⟨g w.nl, by rw [hw]⟩ ?_ ?_
    · rw [← hw]
      exact (hg w.nl).1
    · rw [← hw]
      exact (hg w.nl).2

theorem vote_kept {v : HostView} {m : VoteMsg} (hm : PeerMsg.decode a.frame.payload = some (.vote m)) (hnew : m ∉ s.nl.votes)
    (horigin : m.origin ≠ s.nodeCode) :
    ∃ t, exec (.vote i a v) s = .next t ∧ t.nl.votes = s.nl.votes ++ [m] ∧ Passed s t i (.vote m) := by
  obtain ⟨t, hexec, ⟨ps, fl, n, hnl⟩, hpassed⟩ := message_kept hhears hi hgood htype hseq hruns (fun l => { l with votes := l.votes ++ [m] })
    (c := .vote i a v) rfl hm rfl (fun l => ⟨rfl, rfl⟩) fun w ps fl n hwruns hnl => by
      dsimp only [State.takeVote]
      rw [if_neg (by simpa [State.nodeCode, hnl] using ⟨hnew, horigin⟩)]
      simp only [State.runsTagged, hwruns, List.filter_nil]
      split <;> rfl
  exact ⟨t, hexec, by rw [hnl], hpassed⟩

theorem sum_kept {m : SumMsg} (hm : PeerMsg.decode a.frame.payload = some (.sum m)) (hnew : m ∉ s.nl.sums)
    (horigin : m.origin ≠ s.nodeCode) :
    ∃ t, exec (.sum i a) s = .next t ∧ t.nl.sums = s.nl.sums ++ [m] ∧ Passed s t i (.sum m) := by
  obtain ⟨t, hexec, ⟨ps, fl, n, hnl⟩, hpassed⟩ := message_kept hhears hi hgood htype hseq hruns (fun l => { l with sums := l.sums ++ [m] })
    (c := .sum i a) rfl hm rfl (fun l => ⟨rfl, rfl⟩) fun w ps fl n _ hnl => by
      dsimp only [State.takeSum]
      rw [if_neg (by simpa [State.nodeCode, hnl] using ⟨hnew, horigin⟩)]
  exact ⟨t, hexec, by rw [hnl], hpassed⟩

theorem arm_kept {m : ArmMsg} (hm : PeerMsg.decode a.frame.payload = some (.arm m)) (hnew : m ∉ s.nl.arms)
    (horigin : m.origin ≠ s.nodeCode) :
    ∃ t, exec (.arm i a) s = .next t ∧ m ∈ t.nl.arms
      ∧ (∀ x ∈ t.nl.arms, x ≠ m → x ∈ s.nl.arms ∧ ¬ (x.tag = m.tag ∧ x.origin = m.origin)) ∧ Passed s t i (.arm m) := by
  obtain ⟨t, hexec, ⟨ps, fl, n, hnl⟩, hpassed⟩ := message_kept hhears hi hgood htype hseq hruns
    (fun l => { l with arms := (l.arms.filter fun (x : ArmMsg) => !(x.tag == m.tag && x.origin == m.origin)) ++ [m] })
    (c := .arm i a) rfl hm rfl (fun l => ⟨rfl, rfl⟩) fun w ps fl n hwruns hnl => by
      dsimp only [State.takeArm]
      rw [if_neg (by simpa [State.nodeCode, hnl] using ⟨hnew, horigin⟩)]
      simp only [State.runsTagged, hwruns, List.filter_nil, List.find?_nil]
  refine ⟨t, hexec, ?_, fun x hx hne => ?_, hpassed⟩
  · rw [hnl]
    exact List.mem_append_right _ (List.mem_singleton_self m)
  · rw [hnl] at hx
    obtain hx | hx := List.mem_append.mp hx
    · obtain ⟨hmem, hother⟩ := List.mem_filter.mp hx
      exact ⟨hmem, fun h => by simp [h.1, h.2] at hother⟩
    · exact absurd (List.mem_singleton.mp hx) hne

theorem hemAck_kept {m : HemAckMsg} (hm : PeerMsg.decode a.frame.payload = some (.hemAck m))
    (hnew : ∀ x ∈ s.nl.acks, ¬ (x.tag = m.tag ∧ x.tick = m.tick ∧ x.shard = m.shard)) :
    ∃ t, exec (.hemAck i a) s = .next t ∧ t.nl.acks = s.nl.acks ++ [m] ∧ Passed s t i (.hemAck m) := by
  obtain ⟨t, hexec, ⟨ps, fl, n, hnl⟩, hpassed⟩ := message_kept hhears hi hgood htype hseq hruns (fun l => { l with acks := l.acks ++ [m] })
    (c := .hemAck i a) rfl hm rfl (fun l => ⟨rfl, rfl⟩) fun w ps fl n hwruns hnl => by
      have hno : (w.nl.acks.any fun x => x.tag == m.tag && x.tick == m.tick && x.shard == m.shard) = false := by
        rw [List.any_eq_false, hnl]
        exact fun x hx => by simpa [and_assoc] using hnew x hx
      dsimp only [State.takeHemAck]
      rw [hno]
      simp only [State.noteAck, State.runsTagged, hwruns, List.filter_nil, List.foldl_nil, Bool.false_eq_true, if_false]
  exact ⟨t, hexec, by rw [hnl], hpassed⟩

theorem peerLost_kept {m : LostMsg} (hm : PeerMsg.decode a.frame.payload = some (.peerLost m)) (hnew : m ∉ s.nl.lost)
    (hdetector : m.detector ≠ s.nodeCode) :
    ∃ t, exec (.peerLost i a) s = .next t ∧ m ∈ t.nl.lost ∧ (∀ x ∈ t.nl.arms, x.origin ≠ m.lost) ∧ Passed s t i (.peerLost m) := by
  obtain ⟨t, hexec, ⟨ps, fl, n, hnl⟩, hpassed⟩ := message_kept hhears hi hgood htype hseq hruns
    (fun l => { l with lost := l.lost ++ [m], arms := l.arms.filter fun x => x.origin != m.lost || false })
    (c := .peerLost i a) rfl hm rfl (fun l => ⟨rfl, rfl⟩) fun w ps fl n hwruns hnl => by
      dsimp only [State.takeLost]
      rw [if_neg (by simpa [State.nodeCode, hnl] using ⟨hnew, hdetector⟩)]
      simp only [State.loseNode, hwruns, List.any_nil, List.foldl_nil]
  refine ⟨t, hexec, ?_, fun x hx => ?_, hpassed⟩
  · rw [hnl]
    exact List.mem_append_right _ (List.mem_singleton_self m)
  · rw [hnl] at hx
    simpa using (List.mem_filter.mp hx).2

theorem link_kept {m : LinkMsg} (hm : PeerMsg.decode a.frame.payload = some (.link m)) :
    ∃ t, exec (.link i a) s = .next t
      ∧ (t.port i).peerNode = (if m.node < 16 then some m.node else none) ∧ (t.port i).peerPort = m.port
      ∧ (t.port i).peerUnit = m.unit ∧ (t.port i).latency = m.latency ∧ ((t.port i).slow = true ↔ 96 < m.latency)
      ∧ (s.nl.clashed = false → (t.port i).state = 3 ∨ (t.port i).state = 4) := by
  obtain ⟨w, hw⟩ : ∃ w, w = s.heard i a (.link m) := ⟨_, rfl⟩
  obtain ⟨ps, fl, hnl⟩ := heard_nl (s := s) (i := i) (a := a) (m := .link m)
  rw [← hw] at hnl
  obtain ⟨y, hy⟩ : ∃ y, y = w.setPort i fun p => { p with
    peerNode := if m.node < 16 then some m.node else none, peerPort := m.port, peerUnit := m.unit, latency := m.latency,
    slow := decide (96 < m.latency) } := ⟨_, rfl⟩
  have hwlen : i < w.nl.ports.length := by
    rw [hw, tells_heard.length, length_ports_accept]
    exact hi
  have hylen : i < y.nl.ports.length := by
    rw [hy, State.length_ports_setPort]
    exact hwlen
  have hwstate : (w.port i).state = (s.port i).state := by
    obtain ⟨fs, heq, -⟩ := tells_heard.port (s := State.accept { s with ops := [] } i a) (t := s.heard i a (.link m)) i
    rw [hw, heq]
    exact (port_accept_peer (s := { s with ops := [] }) hi i).1
  have hyport := hy ▸ State.port_setPort_same hwlen fun p : Port => { p with
    peerNode := if m.node < 16 then some m.node else none, peerPort := m.port, peerUnit := m.unit, latency := m.latency,
    slow := decide (96 < m.latency) }
  have hyruns : y.levelPorts.grid.runs = [] := (relinks_levelPorts y).links.runs.trans (by
    rw [hy]
    exact hw ▸ links_heard.runs.trans hruns)
  have hexec : exec (.link i a) s = .next (s.run fun _ => y.levelPorts.keepRoot) :=
    message_lands hhears hi hgood htype hseq rfl hm rfl (by
      rw [← hw, hy, ← graphChanged_idle (hy ▸ hyruns) i]
      rfl)
  obtain ⟨fs, hport, -⟩ := queues_levelPorts hylen
  have hfinal : (s.run fun _ => y.levelPorts.keepRoot).port i = { y.levelled (y.port i) with txq := (y.levelled (y.port i)).txq ++ fs } := by
    rw [State.run_port, port_keepRoot, hport]
  have hlevelled : ∃ st dn fl' rs rt wd, y.levelled (y.port i) = { y.port i with
      state := st, downs := dn, failures := fl', resends := rs, retraining := rt, width4 := wd } := by
    unfold State.levelled
    split
    · split
      · exact ⟨_, _, _, _, _, _, rfl⟩
      · exact ⟨_, _, _, _, _, _, rfl⟩
    · exact ⟨_, _, _, _, _, _, rfl⟩
  refine ⟨_, hexec, ?_⟩
  rw [hfinal]
  obtain ⟨st, dn, fl', rs, rt, wd, hlev⟩ := hlevelled
  refine ⟨?_, ?_, ?_, ?_, ?_, fun hclashed => ?_⟩
  · rw [hlev, hyport]
  · rw [hlev, hyport]
  · rw [hlev, hyport]
  · rw [hlev, hyport]
  · rw [hlev, hyport]
    exact decide_eq_true_iff
  · have hup : (s.port i).state = 3 ∨ (s.port i).state = 4 := by
      simp only [State.hears, Bool.and_eq_true, Bool.or_eq_true, beq_iff_eq] at hhears
      exact hhears.2
    have hyup : (y.port i).state = 3 ∨ (y.port i).state = 4 := by
      rw [hyport]
      exact hwstate.symm ▸ hup
    have hyclashed : y.nl.clashed = false := by
      rw [hy]
      have h : w.nl.clashed = false := by rw [hnl]; exact hclashed
      exact h
    unfold State.levelled
    rw [if_pos hyup, if_neg (by simp [hyclashed])]
    exact portLevel_up y _

theorem topology_kept {m : TopoMsg} {k : FloodKey} (hm : PeerMsg.decode a.frame.payload = some (.topology m))
    (hunit : m.unit ≠ s.nv.fuses.unitId) (hk : (PeerMsg.topology m).key = some k) (hnew : k ∉ s.nl.flooded) :
    ∃ t, exec (.topology i a) s = .next t
      ∧ (∃ h ∈ t.nl.heard, h.msg = m ∧ h.at_ = s.cnt.stitch) ∧ ∀ h ∈ t.nl.heard, h.msg.unit = m.unit → h.msg = m := by
  obtain ⟨w, hw⟩ : ∃ w, w = s.heard i a (.topology m) := ⟨_, rfl⟩
  obtain ⟨nl, hwlinks⟩ := links_heard (s := s) (i := i) (a := a) (m := .topology m)
  rw [← hw] at hwlinks
  obtain ⟨y, hy⟩ : ∃ y : State, y = { w with nl := { w.nl.ageTopology m with
    heard := (w.nl.heard.filter fun h => h.msg.unit != m.unit) ++ [{ msg := m, at_ := w.cnt.stitch }] } } := ⟨_, rfl⟩
  have hyruns : y.levelPorts.grid.runs = [] := (relinks_levelPorts y).links.runs.trans (by
    rw [hy]
    exact hw ▸ links_heard.runs.trans hruns)
  have hunseen : ∀ s : State, ((match (PeerMsg.topology m).key with | some k => s.nl.flooded.contains k | none => false)
      && !(w.nl.heard.any fun h => h.msg.unit == m.unit && h.msg.sequence == m.sequence)) = true → s.nl.flooded.contains k = true := by
    intro s hs
    rw [hk] at hs
    simp only [Bool.and_eq_true] at hs
    exact hs.1
  have hexec : exec (.topology i a) s = .next (s.run fun _ => y.levelPorts.keepRoot) :=
    message_lands hhears hi hgood htype hseq rfl hm rfl (by
      rw [← hw, hy, ← graphChanged_idle (hy ▸ hyruns) i]
      refine if_neg fun h => ?_
      obtain h | h := Bool.or_eq_true_iff.mp h
      · rw [hwlinks] at h
        exact hunit (beq_iff_eq.mp h)
      · exact hnew (List.contains_iff_mem.mp (hunseen s h)))
  have hheard : (s.run fun _ => y.levelPorts.keepRoot).nl.heard
      = (w.nl.heard.filter fun h => h.msg.unit != m.unit) ++ [{ msg := m, at_ := s.cnt.stitch }] := by
    obtain ⟨r, hr⟩ := keepRoot_root y.levelPorts
    have hcnt : w.cnt = s.cnt := by rw [hwlinks]
    rw [State.run_nl, hr]
    refine (seesSame_levelPorts y).2.1.trans ?_
    rw [hy, ← hcnt]
  refine ⟨_, hexec, ?_, fun h hh hsame => ?_⟩
  · rw [hheard]
    exact ⟨_, List.mem_append_right _ (List.mem_singleton_self _), rfl, rfl⟩
  · rw [hheard] at hh
    obtain hh | hh := List.mem_append.mp hh
    · have := (List.mem_filter.mp hh).2
      simp [hsame] at this
    · rw [List.mem_singleton.mp hh]

end

/-! ### The stitch domain -/

theorem tells_sendStitch (s : State) (except : Option Nat) (root hops : Nat) : Tells s (s.sendStitch except root hops) := tells_flood s except _

section
variable {s : State} {n m : Nat} (hnode : s.nl.node = some n) (hroot : s.nl.root = some m)
include hnode hroot

section
variable {i r h : Nat} {a : Arrival} {c : DWord} (hhears : s.hears i = true) (hi : i < s.nl.ports.length)
  (hgood : LinkFrame.good a.frame = true) (htype : a.frame.type = 4) (hseq : a.frame.seq = (s.port i).recvSeq)
  (hm : PeerMsg.decode a.frame.payload = some (.stitch c r h)) (hr : r < 16) (hclash : r ∉ s.clashes)
include hhears hi hgood htype hseq hm hr hclash

omit hnode hroot hr hclash in
/-- What a STITCH message of its domain's root, or of another domain, does. -/
theorem stitch_lands : exec (.stitch i a) s = .next (s.run fun _ => State.takeStitch (State.accept { s with ops := [] } i a) i c r h) :=
  message_lands hhears hi hgood htype hseq rfl hm rfl rfl

theorem stitch_slews (hrm : r = m) (hnm : n ≠ m) (hroute : s.routePort r = some i) :
    ∃ t, exec (.stitch i a) s = .next t
      ∧ t.nl.slew = (c.toNat + (s.port i).latency / 10 : Nat) - (s.cnt.stitch : Int) ∧ t.nl.root = some m ∧ t.cnt = s.cnt
      ∧ t.grid = s.grid ∧ t.q = s.q ∧ t.mem = s.mem := by
  obtain ⟨w, hw⟩ : ∃ w, w = State.accept { s with ops := [] } i a := ⟨_, rfl⟩
  have hwlinks : Links { s with ops := [] } w := hw ▸ links_accept
  have hwclash : w.clashes = s.clashes := by
    rw [hw]
    exact (seesSame_accept (s := { s with ops := [] }) hi).clashes
  have hwroute : w.routePort r = some i := by
    rw [hw, routePort_accept (s := { s with ops := [] }) hi]
    exact hroute
  have hwnode : w.nl.node = some n := by rw [hw]; exact hnode
  have hwroot : w.nl.root = some m := by rw [hw]; exact hroot
  have hwlat : (w.port i).latency = (s.port i).latency := by
    rw [hw]
    exact (port_accept_peer (s := { s with ops := [] }) hi i).2.2.2
  have hwcnt : w.cnt = s.cnt := by rw [hw]; rfl
  obtain ⟨y, hy⟩ : ∃ y : State, y = { w with nl := { w.nl with slew := ((c.toNat + (s.port i).latency / 10 : Nat) : Int) - s.cnt.stitch } } :=
    ⟨_, rfl⟩
  have hact : w.takeStitch i c r h = y.sendStitch (some i) r (h + 1) := by
    unfold State.takeStitch
    rw [hy, hwnode, hwroot, hwclash, hwlat, hwroute, hwcnt]
    dsimp only
    rw [if_neg (by simp [hclash, hr]), if_pos hrm, if_neg (by simp [hnm])]
  have htells := tells_sendStitch y (some i) r (h + 1)
  have hlinks : Links { s with ops := [] } (y.sendStitch (some i) r (h + 1)) := (hwlinks.trans ⟨_, hy⟩).trans htells.links
  have hlands := stitch_lands hhears hi hgood htype hseq hm
  rw [← hw, hact] at hlands
  obtain ⟨hq, hgrid, hmem, -⟩ := hlinks.stands
  obtain ⟨_, _, _, hlast, -⟩ := htells
  refine ⟨_, hlands, ?_, ?_, ?_, hgrid, hq, hmem⟩
  · rw [State.run_nl, hlast, hy]
  · rw [State.run_nl, hlast, hy]
    exact hwroot
  · rw [State.run_cnt, hlast, hy]
    exact hwcnt

theorem stitch_steps (hrm : r ≠ m) :
    ∃ t, exec (.stitch i a) s = .next t
      ∧ t.cnt.stitch = max s.cnt.stitch (c.toNat + (s.port i).latency / 10) % 2 ^ 64 ∧ t.nl.root = some (min r m)
      ∧ t.grid = s.grid ∧ t.q = s.q ∧ t.mem = s.mem := by
  obtain ⟨w, hw⟩ : ∃ w, w = State.accept { s with ops := [] } i a := ⟨_, rfl⟩
  have hwclash : w.clashes = s.clashes := by
    rw [hw]
    exact (seesSame_accept (s := { s with ops := [] }) hi).clashes
  have hwnode : w.nl.node = some n := by rw [hw]; exact hnode
  have hwroot : w.nl.root = some m := by rw [hw]; exact hroot
  have hwlat : (w.port i).latency = (s.port i).latency := by
    rw [hw]
    exact (port_accept_peer (s := { s with ops := [] }) hi i).2.2.2
  have hwcnt : w.cnt = s.cnt := by rw [hw]; rfl
  obtain ⟨k, hk⟩ : ∃ k, k = max s.cnt.stitch (c.toNat + (s.port i).latency / 10) % 2 ^ 64 := ⟨_, rfl⟩
  obtain ⟨y, hy⟩ : ∃ y : State, y = { w with
    cnt := { w.cnt with stitch := k }, nl := { w.nl with root := some (min r m), slew := 0, slewIn := 0 } } := ⟨_, rfl⟩
  have hact : w.takeStitch i c r h = y.sendStitch (if r < m then some i else none) (min r m) (h + 1) := by
    unfold State.takeStitch
    rw [hwnode, hwroot, hwclash, hwlat, hy, hk, ← hwcnt]
    dsimp only
    rw [if_neg (by simp [hclash, hr]), if_neg hrm]
  obtain ⟨ps, fl, sq, hlast, -⟩ := tells_sendStitch y (if r < m then some i else none) (min r m) (h + 1)
  have hlands := stitch_lands hhears hi hgood htype hseq hm
  rw [← hw, hact, hlast] at hlands
  have hops : y.ops = [] := by
    rw [hy, hw]
    rfl
  refine ⟨_, hlands, ?_, ?_, ?_, ?_, ?_⟩
  · rw [State.run_cnt, hy, hk]
  · rw [State.run_nl, hy]
  · rw [State.run_grid, hy, hw]
    rfl
  · rw [State.run_q, hy, hw]
    rfl
  · exact run_mem_of_no_ops hops
end

omit hroot in
theorem topologyPeriodic_tells (hlive : s.live = true) :
    ∃ t, exec .topologyPeriodic s = .next t ∧ (∀ j ∈ s.openPorts, Waits (t.port j) (.topology s.ownTopology))
      ∧ t.nl.heard = s.nl.heard ∧ t.cnt = s.cnt ∧ t.grid = s.grid ∧ t.mem = s.mem := by
  obtain ⟨w, hw⟩ : ∃ w, w = State.flood { s with ops := [] } none (.topology s.ownTopology) := ⟨_, rfl⟩
  obtain ⟨y, hy⟩ : ∃ y, y = if w.nl.root = some n then w.sendStitch none n 0 else w := ⟨_, rfl⟩
  have hwtells : Tells { s with ops := [] } w := hw ▸ tells_flood _ none _
  have hytells : Tells w y := by
    rw [hy]
    split
    · exact tells_sendStitch w none n 0
    · exact .refl w
  have hexec : exec .topologyPeriodic s = .next (s.run fun _ => y) := by
    refine exec_lands_live rfl hlive ?_
    dsimp only
    rw [hnode, hy, hw]
    rfl
  obtain ⟨_, _, _, hall, -⟩ := hwtells.trans hytells
  refine ⟨_, hexec, fun j hj => ?_, ?_, ?_, ?_, ?_⟩
  · rw [State.run_port]
    refine Waits.of_queues ?_ (hytells.port j)
    rw [hw]
    exact waits_flood (s := { s with ops := [] }) hj (Option.some_ne_none j) _
  · rw [State.run_nl, hall]
  · rw [State.run_cnt, hall]
  · rw [State.run_grid, hall]
  · exact run_mem_of_no_ops (by rw [hall])

omit hnode hroot in
theorem topologyExpiry_levels (hlive : s.live = true) (hruns : s.grid.runs = []) {u : DWord} {x : Heard} (hx : x ∈ s.nl.heard)
    (hunit : x.msg.unit = u) (hold : x.at_ + 30000000 < s.cnt.stitch) :
    ∃ t, exec (.topologyExpiry u) s = .next t
      ∧ (∀ j, j < s.nl.ports.length → (t.port j).state = 3 ∨ (t.port j).state = 4 → (t.port j).state = t.portLevel (t.port j))
      ∧ t.nl.heard = s.nl.heard ∧ t.grid = s.grid ∧ t.mem = s.mem := by
  obtain ⟨w, hw⟩ : ∃ w, w = ({ s with ops := [] } : State) := ⟨_, rfl⟩
  have hwruns : w.levelPorts.grid.runs = [] := (relinks_levelPorts w).links.runs.trans (by rw [hw]; exact hruns)
  have hexec : exec (.topologyExpiry u) s = .next (s.run fun _ => w.levelPorts.keepRoot) := by
    refine exec_lands_live rfl hlive ?_
    rw [← hw, ← graphChanged_idle hwruns 0]
    refine if_pos (List.any_eq_true.mpr ⟨x, by rw [hw]; exact hx, ?_⟩)
    rw [hw]
    simpa [hunit] using hold
  obtain ⟨r, hr⟩ := keepRoot_root w.levelPorts
  have hsees : SeesSame w (s.run fun _ => w.levelPorts.keepRoot) := by
    obtain ⟨h1, h2, h3, h4, h5⟩ := seesSame_levelPorts w
    have hnv : (s.run fun _ => w.levelPorts.keepRoot).nv = w.nv := by
      rw [hw]
      refine State.run_nv_same s _ ?_
      rw [← hw, hr, h4, hw]
    refine ⟨?_, ?_, ?_, hnv, ?_⟩
    · rw [State.run_nl, hr]
      exact h1
    · rw [State.run_nl, hr]
      exact h2
    · rw [State.run_nl, hr]
      exact h3
    · rw [State.run_cnt, hr]
      exact h5
  obtain ⟨-, hgrid, hmem, -⟩ := Links.stands (s := s) (u := w.levelPorts.keepRoot)
    (hw ▸ ((relinks_levelPorts w).trans (relinks_keepRoot _)).links)
  refine ⟨_, hexec, fun j hj hup => ?_, hsees.2.1.trans (by rw [hw]), hgrid, hmem⟩
  have hport : (s.run fun _ => w.levelPorts.keepRoot).port j = w.levelPorts.port j := by rw [State.run_port, port_keepRoot]
  obtain ⟨fs, hq, -⟩ := queues_levelPorts (s := w) (k := j) (by rw [hw]; exact hj)
  rw [hport, hq] at hup ⊢
  have hlevel : w.portLevel (w.port j) = (s.run fun _ => w.levelPorts.keepRoot).portLevel
      { w.levelled (w.port j) with txq := (w.levelled (w.port j)).txq ++ fs } :=
    (hsees.portLevel ((Prod.mk.injEq _ _ _ _ ▸ peer_levelled w (w.port j)).1)).symm
  rw [← hlevel]
  revert hup
  unfold State.levelled
  split
  · split
    · intro hup
      exact absurd hup (by simp [Port.retrain])
    · exact fun _ => rfl
  case isFalse hdown => exact fun hup => absurd hup hdown

end

/-- Settles O27: with no run on the device a message changes what the link keeps, and goes on by `waits_flood`. -/
theorem controlMessagesAndTheStitchDomain : Obligations.ControlMessagesAndTheStitchDomain := by
  refine ⟨fun s i a hhears hlen hruns hgood htype hseq => ?_, fun s n m hlive hlen hnode hroot => ⟨fun i a c r h hhears hgood htype hseq hm
    hr hclash => ?_, topologyPeriodic_tells hnode hlive, fun u x hruns hx hunit hold => ?_⟩⟩
  · have hi : i < s.nl.ports.length := by
      simp only [State.hears, Bool.and_eq_true, decide_eq_true_eq] at hhears
      exact hlen ▸ hhears.1.2
    exact ⟨fun m v hm hnew horigin => vote_kept hhears hi hgood htype hseq hruns hm hnew horigin,
      fun m hm hnew horigin => sum_kept hhears hi hgood htype hseq hruns hm hnew horigin,
      fun m hm hnew horigin => arm_kept hhears hi hgood htype hseq hruns hm hnew horigin,
      fun m hm hnew => hemAck_kept hhears hi hgood htype hseq hruns hm hnew,
      fun m hm hnew hdetector => peerLost_kept hhears hi hgood htype hseq hruns hm hnew hdetector,
      fun m hm => link_kept hhears hi hgood htype hseq hruns hm,
      fun m k hm hunit hk hnew => topology_kept hhears hi hgood htype hseq hruns hm hunit hk hnew⟩
  · have hi : i < s.nl.ports.length := by
      simp only [State.hears, Bool.and_eq_true, decide_eq_true_eq] at hhears
      exact hlen ▸ hhears.1.2
    exact ⟨fun hrm hnm hroute => stitch_slews hnode hroot hhears hi hgood htype hseq hm hr hclash hrm hnm hroute,
      fun hrm => stitch_steps hnode hroot hhears hi hgood htype hseq hm hr hclash hrm⟩
  · obtain ⟨t, hexec, hlevels, hrest⟩ := topologyExpiry_levels hlive hruns hx hunit hold
    exact ⟨t, hexec, fun j hj => hlevels j (hlen ▸ hj), hrest⟩

end Sys2Proof.Machine
end

section
/-! SUPPORT. Frames that carry data: what a frame does in its order, out of it, and with a CRC that fails, and which frame a port sends
next. -/

namespace Sys2Proof.Machine

/-! ### A frame in its order, out of it, and one that fails -/

/-- A port after a frame of another sequence number than the one expected. -/
def State.outOfOrder (s : State) (i : Nat) (a : Arrival) : State :=
  ((s.setPort i fun p => p.countFec a).setPort i fun p => p.release a.frame).setPort i fun p => { p with owes := true }

/-- A port after a frame whose CRC fails. -/
def State.failed (s : State) (i : Nat) (a : Arrival) : State :=
  (s.setPort i fun p => p.countFec a).setPort i fun p => { p with dropping := true, failures := p.failures + 1, owes := true }

/-- What stands where a frame touches the link alone. -/
theorem same_of_links {s u : State} (h : Links { s with ops := [] } u) : (s.run fun _ => u).mem = s.mem ∧ (s.run fun _ => u).q = s.q
    ∧ (s.run fun _ => u).grid = s.grid ∧ (s.run fun _ => u).out = s.out := by
  obtain ⟨hq, hgrid, hmem, -⟩ := h.stands
  obtain ⟨nl, rfl⟩ := h
  exact ⟨hmem, hq, hgrid, State.run_out s _⟩

section
variable {s : State} {i : Nat} {a : Arrival}

theorem port_outOfOrder (hi : i < s.nl.ports.length) :
    (s.outOfOrder i a).port i = { ((s.port i).countFec a).release a.frame with owes := true } := by
  rw [State.outOfOrder, State.port_setPort_same (by simpa using hi), State.port_setPort_same (by simpa using hi), State.port_setPort_same hi]

theorem port_failed (hi : i < s.nl.ports.length) : (s.failed i a).port i =
    { (s.port i).countFec a with dropping := true, failures := (s.port i).failures + 1, owes := true } := by
  rw [State.failed, State.port_setPort_same (by simpa using hi), State.port_setPort_same hi]
  rfl

theorem links_outOfOrder : Links s (s.outOfOrder i a) := ⟨_, rfl⟩

theorem links_failed : Links s (s.failed i a) := ⟨_, rfl⟩

theorem hears_of_up (hlive : s.live = true) (hi : i < 4) (hstate : (s.port i).state = 3) : s.hears i = true := by
  simp [State.hears, hlive, hi, hstate]

theorem receive_out_of_order (hhears : s.hears i = true) (hi : i < s.nl.ports.length) (hgood : LinkFrame.good a.frame = true)
    (hseq : a.frame.seq ≠ (s.port i).recvSeq) {mine : LinkFrame → Bool} (hmine : mine a.frame = true) (f : State → State) :
    s.receive i a mine f = s.outOfOrder i a := by
  unfold State.receive
  dsimp only
  rw [if_neg (by simp [hhears, hmine]), if_neg (by simp [hgood])]
  refine if_pos ?_
  rw [State.port_setPort_same (by simpa using hi), State.port_setPort_same hi, recvSeq_release]
  exact hseq

theorem failFrame_drops {w : State} (hi : i < w.nl.ports.length) (hfew : (w.port i).failures < 7) :
    w.failFrame i = w.setPort i fun p => { p with dropping := true, failures := p.failures + 1, owes := true } := by
  unfold State.failFrame
  refine if_neg ?_
  rw [State.port_setPort_same hi]
  exact Nat.not_le.mpr (Nat.succ_lt_succ hfew)

/-- A frame whose CRC fails starts dropping, whatever kind it is of (R280). -/
theorem receive_fails (hhears : s.hears i = true) (hi : i < s.nl.ports.length) (hbad : LinkFrame.good a.frame = false)
    (hfew : (s.port i).failures < 7) (mine : LinkFrame → Bool) (f : State → State) : s.receive i a mine f = s.failed i a := by
  unfold State.receive
  dsimp only
  rw [if_neg (by simp [hhears, hbad]), if_pos (by simp [hbad])]
  refine failFrame_drops (by simpa using hi) ?_
  rw [State.port_setPort_same hi]
  exact hfew

theorem receiveData_fails {type : Nat} {here : State → State} (hhears : s.hears i = true) (hi : i < s.nl.ports.length)
    (hbad : LinkFrame.good a.frame = false) (hfew : (s.port i).failures < 7) : s.receiveData i type a here = s.failed i a := by
  unfold State.receiveData
  exact receive_fails hhears hi hbad hfew _ _

/-- A frame that carries data, in its order, at its destination. -/
theorem receiveData_here {type : Nat} (hhears : s.hears i = true) (hi : i < s.nl.ports.length) (hgood : LinkFrame.good a.frame = true)
    (hstate : (s.port i).state = 3) (htype : a.frame.type = type) (hnode : s.nl.node = some a.frame.dest)
    (hseq : a.frame.seq = (s.port i).recvSeq) (here : State → State) : s.receiveData i type a here = here (s.accept i a) := by
  unfold State.receiveData
  dsimp only
  rw [receive_in_order hhears hi hgood hseq (by simp [htype, hstate])]
  exact if_pos hnode.symm

theorem receiveData_out_of_order {type : Nat} (hhears : s.hears i = true) (hi : i < s.nl.ports.length)
    (hgood : LinkFrame.good a.frame = true) (hstate : (s.port i).state = 3) (htype : a.frame.type = type)
    (hseq : a.frame.seq ≠ (s.port i).recvSeq) (here : State → State) : s.receiveData i type a here = s.outOfOrder i a := by
  unfold State.receiveData
  exact receive_out_of_order hhears hi hgood hseq (by simp [htype, hstate]) _

theorem recvSeq_accept (hi : i < s.nl.ports.length) : ((s.accept i a).port i).recvSeq = ((s.port i).recvSeq + 1) % 4096
    ∧ ((s.accept i a).port i).owes = true := by
  obtain ⟨fs, n, x, y, h⟩ := accept_rest (s.port i) a
  rw [port_accept_same hi, h]
  exact ⟨rfl, rfl⟩

theorem takeLoose_calm {w : State} (h : ∀ r ∈ w.grid.runs, r.blk.loose = false) (ref : TaskRef) : w.takeLoose ref = w := by
  unfold State.takeLoose
  split
  · rfl
  · rename_i r hr
    have hmem : r ∈ w.grid.runs := List.mem_of_find?_eq_some hr
    split
    · rfl
    · exact if_pos (by simp [h r hmem])

theorem foldl_takeLoose_calm {w : State} (h : ∀ r ∈ w.grid.runs, r.blk.loose = false) (rs : List Run) :
    rs.foldl (fun s r => s.takeLoose r.ref) w = w := by
  induction rs with
  | nil => rfl
  | cons r rs ih => rw [List.foldl_cons, takeLoose_calm h, ih]

end

/-- A stream after the bytes of a BULK frame (R277). -/
def State.endBulk (s : State) (x : OpenStream) (rest : List OpenStream) (bs : List Byte) : State :=
  if x.length ≤ x.got + bs.length then
    let s := { s with nl := { s.nl with streams := rest } }
    match x.kind with
    | 0 => s.takeHemStream (x.bytes ++ bs)
    | 2 => s.takeGather (x.bytes ++ bs)
    | _ => s
  else
    let y := { x with got := x.got + bs.length, bytes := if x.kind = 1 then [] else x.bytes ++ bs }
    { s with nl := { s.nl with streams := rest ++ [y] } }

theorem endBulk_image {z : State} {x : OpenStream} (hkind : x.kind = 1) (rest : List OpenStream) (bs : List Byte) :
    ∃ ss, z.endBulk x rest bs = { z with nl := { z.nl with streams := ss } } ∧ (x.length ≤ x.got + bs.length → ss = rest) := by
  unfold State.endBulk
  split
  · rw [hkind]
    exact ⟨rest, rfl, fun _ => rfl⟩
  case isFalse h => exact ⟨_, rfl, fun h' => absurd h' h⟩

theorem endBulk_goes_on {z : State} {x : OpenStream} (hkind : x.kind ≠ 1) (rest : List OpenStream) {bs : List Byte}
    (h : x.got + bs.length < x.length) : z.endBulk x rest bs =
      { z with nl := { z.nl with streams := rest ++ [{ x with got := x.got + bs.length, bytes := x.bytes ++ bs }] } } := by
  unfold State.endBulk
  rw [if_neg (Nat.not_le.mpr h), if_neg hkind]

/-! ### The commands -/

section
variable {s : State} {i : Nat} {a : Arrival} (hlive : s.live = true) (hi4 : i < 4) (hi : i < s.nl.ports.length)
  (hstate : (s.port i).state = 3)
include hlive hi4 hi hstate

/-- A list up to and with the first element of a kind, dropped. -/
theorem idleFrame_releases {x y : List LinkFrame} {g : LinkFrame} (htype : a.frame.type = 0) (hgood : LinkFrame.good a.frame = true)
    (hack : a.frame.ackValid = true) (hreplay : (s.port i).replay = x ++ g :: y) (hg : g.seq = a.frame.ack)
    (hx : ∀ h ∈ x, h.seq ≠ a.frame.ack) :
    ∃ t, exec (.idleFrame i a) s = .next t ∧ (t.port i).replay = y ∧ (t.port i).recvSeq = (s.port i).recvSeq
      ∧ (t.port i).fecCorr = ((s.port i).fecCorr + a.corrected) % 2 ^ 64
      ∧ (t.port i).fecUncorr = ((s.port i).fecUncorr + a.uncorrectable) % 2 ^ 32
      ∧ t.mem = s.mem ∧ t.q = s.q ∧ t.grid = s.grid ∧ t.out = s.out := by
  obtain ⟨w, hw⟩ : ∃ w, w = (State.setPort { s with ops := [] } i fun p => p.countFec a).setPort i fun p => p.release a.frame := ⟨_, rfl⟩
  have hexec : exec (.idleFrame i a) s = .next (s.run fun _ => w) := by
    refine exec_lands_live rfl hlive ?_
    have hhears : State.hears { s with ops := [] } i = true := hears_of_up hlive hi4 hstate
    dsimp only
    rw [if_neg (by simp [hhears, htype]), if_pos hgood, hw]
  have hdrop : (((s.port i).replay.dropWhile fun x => x.seq != a.frame.ack).drop 1) = y := by
    rw [hreplay, List.dropWhile_append_of_pos (fun h hh => by simpa using hx h hh), List.dropWhile_cons_of_neg (by simp [hg])]
    rfl
  have hany : ((s.port i).replay.any fun x => x.seq == a.frame.ack) = true := by
    rw [List.any_eq_true, hreplay]
    exact ⟨g, List.mem_append_right _ List.mem_cons_self, by simp [hg]⟩
  have hport : w.port i = { (s.port i).countFec a with replay := y, resends := 0 } := by
    have hrel : ((s.port i).countFec a).release a.frame = { (s.port i).countFec a with replay := y, resends := 0 } := by
      unfold Port.release
      rw [if_pos (by rw [hack]; exact hany)]
      exact congrArg (fun fs => { (s.port i).countFec a with replay := fs, resends := 0 }) hdrop
    rw [hw, State.port_setPort_same (by simpa using hi), State.port_setPort_same (by exact hi)]
    exact hrel
  refine ⟨_, hexec, ?_, ?_, ?_, ?_, same_of_links ⟨_, hw⟩⟩ <;> rw [State.run_port, hport] <;> rfl

section
variable (hgood : LinkFrame.good a.frame = true) (hnode : s.nl.node = some a.frame.dest) (hseq : a.frame.seq = (s.port i).recvSeq)
include hgood hnode hseq

/-- A command for a frame that carries data, in its order and at its destination. -/
theorem data_lands {c : Instr} {type : Nat} {here : State → State} {w u : State}
    (hexec : exec c s = .next (s.run fun s => s.receiveData i type a here)) (htype : a.frame.type = type)
    (hw : w = State.accept { s with ops := [] } i a) (hu : here w = u) : exec c s = .next (s.run fun _ => u) :=
  exec_lands hexec ((receiveData_here (s := { s with ops := [] }) (hears_of_up hlive hi4 hstate) hi hgood hstate htype hnode hseq here).trans
    (hw ▸ hu))

omit hlive hi4 hstate hgood hnode hseq in
/-- The port after a frame in its order that touched only other parts of the link. -/
theorem port_after {w u : State} (hw : w = State.accept { s with ops := [] } i a) (hports : u.nl.ports = w.nl.ports) :
    ((s.run fun _ => u).port i).recvSeq = ((s.port i).recvSeq + 1) % 4096 ∧ ((s.run fun _ => u).port i).owes = true := by
  have hport : (s.run fun _ => u).port i = w.port i := by
    rw [State.run_port, State.port, hports]
    rfl
  rw [hport, hw]
  exact recvSeq_accept (s := { s with ops := [] }) hi

theorem flit_taken (htype : a.frame.type = 1) (hloose : ∀ r ∈ s.grid.runs, r.blk.loose = false) :
    ∃ t, exec (.flit i a) s = .next t
      ∧ t.nl.sluice = s.nl.sluice ++ (List.range (min 7 a.frame.count)).map (fun k =>
          { port := i, index := a.frame.first + k, bytes := (a.frame.payload.drop (34 * k)).take 34 })
      ∧ (t.port i).recvSeq = ((s.port i).recvSeq + 1) % 4096 ∧ (t.port i).owes = true
      ∧ t.mem = s.mem ∧ t.q = s.q ∧ t.grid = s.grid ∧ t.out = s.out := by
  obtain ⟨w, hw⟩ : ∃ w, w = State.accept { s with ops := [] } i a := ⟨_, rfl⟩
  obtain ⟨y, hy⟩ : ∃ y : State, y = { w with nl := { w.nl with
    sluice := w.nl.sluice ++ (List.range (min 7 a.frame.count)).map fun k =>
      ({ port := i, index := a.frame.first + k, bytes := (a.frame.payload.drop (34 * k)).take 34 } : SluiceFlit) } } := ⟨_, rfl⟩
  have hwlinks : Links { s with ops := [] } w := hw ▸ links_accept
  have hlinks : Links { s with ops := [] } y := hwlinks.trans ⟨_, hy⟩
  have hexec : exec (.flit i a) s = .next (s.run fun _ => y) := by
    refine data_lands hlive hi4 hi hstate hgood hnode hseq (c := .flit i a) rfl htype hw ?_
    have hcalm := foldl_takeLoose_calm (w := y) (hlinks.runs ▸ hloose) y.grid.runs
    rw [hy] at hcalm ⊢
    exact hcalm
  obtain ⟨hrecv, howes⟩ := port_after (u := y) hi hw (by rw [hy])
  refine ⟨_, hexec, ?_, hrecv, howes, same_of_links hlinks⟩
  rw [State.run_nl, hy, hw]
  rfl

theorem openStream_opens (htype : a.frame.type = 3) :
    ∃ t, exec (.openStream i a) s = .next t
      ∧ (∃ x ∈ t.nl.streams, x.port = i ∧ x.src = a.frame.src ∧ x.stream = a.frame.stream ∧ x.dest = fieldOf a.frame.payload 0 8
          ∧ x.length = fieldOf a.frame.payload 8 8 ∧ x.kind = fieldOf a.frame.payload 0x10 1 ∧ x.got = 0)
      ∧ (t.port i).recvSeq = ((s.port i).recvSeq + 1) % 4096 ∧ t.mem = s.mem ∧ t.q = s.q ∧ t.grid = s.grid ∧ t.out = s.out := by
  obtain ⟨w, hw⟩ : ∃ w, w = State.accept { s with ops := [] } i a := ⟨_, rfl⟩
  obtain ⟨x, hx⟩ : ∃ x : OpenStream, x =
      { port := i, src := a.frame.src, stream := a.frame.stream, dest := fieldOf a.frame.payload 0 8,
        length := fieldOf a.frame.payload 8 8, kind := fieldOf a.frame.payload 0x10 1, got := 0, bytes := [] } := ⟨_, rfl⟩
  obtain ⟨y, hy⟩ : ∃ y : State, y = { w with nl := { w.nl with
    streams := (w.nl.streams.filter fun y => !y.takes i a.frame.src a.frame.stream) ++ [x] } } := ⟨_, rfl⟩
  have hwlinks : Links { s with ops := [] } w := hw ▸ links_accept
  have hexec : exec (.openStream i a) s = .next (s.run fun _ => y) :=
    data_lands hlive hi4 hi hstate hgood hnode hseq (c := .openStream i a) rfl htype hw (by rw [hy, hx])
  refine ⟨_, hexec, ?_, (port_after hi hw (by rw [hy])).1, same_of_links (hwlinks.trans ⟨_, hy⟩)⟩
  rw [State.run_nl, hy]
  exact ⟨x, List.mem_append_right _ (List.mem_singleton_self _), by rw [hx], by rw [hx], by rw [hx], by rw [hx], by rw [hx], by rw [hx],
    by rw [hx]⟩

section
variable (htype : a.frame.type = 2) {x : OpenStream}
  (hx : s.nl.streams.find? (fun y => y.takes i a.frame.src a.frame.stream) = some x)
include htype hx

/-- A BULK frame of an open stream: what it carries is stored, or not, and then the stream goes on or ends. -/
theorem bulk_lands {w z : State} (hw : w = State.accept { s with ops := [] } i a)
    (hz : (if x.kind = 1 ∧ w.inDram (x.dest + x.length) = true then
        w.writeDram (x.dest + x.got) (a.frame.payload.take (min 240 (x.length - x.got)))
      else w) = z) :
    exec (.bulk i a) s = .next (s.run fun _ => z.endBulk x (w.nl.streams.filter fun y => !y.takes i a.frame.src a.frame.stream)
      (a.frame.payload.take (min 240 (x.length - x.got)))) := by
  refine data_lands hlive hi4 hi hstate hgood hnode hseq (c := .bulk i a) rfl htype hw ?_
  have hfind : w.nl.streams.find? (fun y => y.takes i a.frame.src a.frame.stream) = some x := by
    rw [hw]
    exact hx
  subst hz
  dsimp only
  rw [hfind]
  rfl

theorem bulk_stores (hkind : x.kind = 1) (hdram : s.inDram (x.dest + x.length) = true)
    (hpart : a.frame.payload.take (min 240 (x.length - x.got)) ≠ []) :
    ∃ t, exec (.bulk i a) s = .next t ∧ t.mem = s.mem.write (x.dest + x.got) (a.frame.payload.take (min 240 (x.length - x.got)))
      ∧ (x.length ≤ x.got + (a.frame.payload.take (min 240 (x.length - x.got))).length →
        ∀ y ∈ t.nl.streams, y.takes i a.frame.src a.frame.stream = false)
      ∧ (t.port i).recvSeq = ((s.port i).recvSeq + 1) % 4096 ∧ t.q = s.q ∧ t.grid = s.grid := by
  obtain ⟨part, hp⟩ : ∃ part, part = a.frame.payload.take (min 240 (x.length - x.got)) := ⟨_, rfl⟩
  obtain ⟨w, hw⟩ : ∃ w, w = State.accept { s with ops := [] } i a := ⟨_, rfl⟩
  obtain ⟨z, hz⟩ : ∃ z, z = w.wakeChannels.store (.write (x.dest + x.got) part) := ⟨_, rfl⟩
  have hwrite : w.writeDram (x.dest + x.got) part = z := by
    have hne : part.isEmpty = false := by
      rw [hp]
      simpa using hpart
    rw [State.writeDram, hne, if_neg Bool.false_ne_true, State.write, hne, if_neg Bool.false_ne_true, hz]
  have hznl : z.nl = w.nl := by
    rw [hz, State.store_nl, State.wakeChannels_nl]
  have hin : w.inDram (x.dest + x.length) = true := by
    rw [hw]
    exact hdram
  have hexec := bulk_lands hlive hi4 hi hstate hgood hnode hseq htype hx hw ((if_pos ⟨hkind, hin⟩).trans (hp ▸ hwrite))
  obtain ⟨ss, hend, hss⟩ := endBulk_image (z := z) hkind (w.nl.streams.filter fun y => !y.takes i a.frame.src a.frame.stream) part
  rw [← hp, hend] at hexec
  have hops : z.ops = [.write (x.dest + x.got) part] := by
    rw [hz, hw]
    simp [State.store, State.accept]
  have hstands : z.q = s.q ∧ z.grid = s.grid := by
    obtain ⟨nl, hnl⟩ : Links { s with ops := [] } w := hw ▸ links_accept
    rw [hz, State.store_q, State.store_grid, State.wakeChannels_q, State.wakeChannels_grid, hnl]
    exact ⟨rfl, rfl⟩
  rw [← hp]
  refine ⟨_, hexec, run_mem_one (op := .write (x.dest + x.got) part) hops, fun hwhole y hy => ?_, (port_after hi hw ?_).1, ?_, ?_⟩
  · rw [State.run_nl] at hy
    replace hy : y ∈ ss := hy
    rw [hss hwhole] at hy
    simpa using (List.mem_filter.mp hy).2
  · rw [hznl]
  · exact (State.run_q s _).trans hstands.1
  · exact (State.run_grid s _).trans hstands.2

theorem bulk_gathers (hkind : x.kind ≠ 1) (hpart : x.got + (a.frame.payload.take (min 240 (x.length - x.got))).length < x.length) :
    ∃ t, exec (.bulk i a) s = .next t
      ∧ { x with got := x.got + (a.frame.payload.take (min 240 (x.length - x.got))).length,
                 bytes := x.bytes ++ a.frame.payload.take (min 240 (x.length - x.got)) } ∈ t.nl.streams
      ∧ (t.port i).recvSeq = ((s.port i).recvSeq + 1) % 4096 ∧ t.mem = s.mem ∧ t.q = s.q ∧ t.grid = s.grid ∧ t.out = s.out := by
  obtain ⟨part, hp⟩ : ∃ part, part = a.frame.payload.take (min 240 (x.length - x.got)) := ⟨_, rfl⟩
  obtain ⟨w, hw⟩ : ∃ w, w = State.accept { s with ops := [] } i a := ⟨_, rfl⟩
  obtain ⟨y, hy⟩ : ∃ y : State, y = { w with nl := { w.nl with
    streams := (w.nl.streams.filter fun y => !y.takes i a.frame.src a.frame.stream)
      ++ [{ x with got := x.got + part.length, bytes := x.bytes ++ part }] } } := ⟨_, rfl⟩
  rw [← hp] at hpart ⊢
  have hwlinks : Links { s with ops := [] } w := hw ▸ links_accept
  have hexec : exec (.bulk i a) s = .next (s.run fun _ => y) := by
    have hlands := bulk_lands hlive hi4 hi hstate hgood hnode hseq htype hx hw (z := w) (if_neg fun h => hkind h.1)
    rwa [← hp, endBulk_goes_on hkind _ hpart, ← hy] at hlands
  refine ⟨_, hexec, ?_, (port_after hi hw (by rw [hy])).1, same_of_links (hwlinks.trans ⟨_, hy⟩)⟩
  rw [State.run_nl, hy]
  exact List.mem_append_right _ (List.mem_singleton_self _)
end
end

theorem data_out_of_order {c : Instr} (hgood : LinkFrame.good a.frame = true) (hseq : a.frame.seq ≠ (s.port i).recvSeq)
    (hc : (c = .flit i a ∧ a.frame.type = 1) ∨ (c = .bulk i a ∧ a.frame.type = 2) ∨ (c = .openStream i a ∧ a.frame.type = 3)) :
    ∃ t, exec c s = .next t ∧ (t.port i).recvSeq = (s.port i).recvSeq ∧ t.nl.sluice = s.nl.sluice
      ∧ t.nl.streams = s.nl.streams ∧ t.mem = s.mem ∧ t.q = s.q ∧ t.grid = s.grid ∧ t.out = s.out := by
  have hdata : ∃ type here, exec c s = .next (s.run fun s => s.receiveData i type a here) ∧ a.frame.type = type := by
    obtain ⟨rfl, htype⟩ | ⟨rfl, htype⟩ | ⟨rfl, htype⟩ := hc
    · exact ⟨1, _, rfl, htype⟩
    · exact ⟨2, _, rfl, htype⟩
    · exact ⟨3, _, rfl, htype⟩
  obtain ⟨type, here, hexec, htype⟩ := hdata
  obtain ⟨w, hw⟩ : ∃ w, w = State.outOfOrder { s with ops := [] } i a := ⟨_, rfl⟩
  have hwlinks : Links { s with ops := [] } w := hw ▸ links_outOfOrder
  have hlands : exec c s = .next (s.run fun _ => w) := by
    rw [hw]
    exact exec_lands hexec (receiveData_out_of_order (s := { s with ops := [] }) (hears_of_up hlive hi4 hstate) hi hgood hstate htype hseq _)
  have hport := port_outOfOrder (s := { s with ops := [] }) (a := a) hi
  refine ⟨_, hlands, ?_, ?_, ?_, same_of_links hwlinks⟩
  · rw [State.run_port, hw, hport]
    exact recvSeq_release _ _
  · rw [State.run_nl, hw]
    rfl
  · rw [State.run_nl, hw]
    rfl

omit hlive hi4 hstate in
/-- What a frame whose CRC fails leaves. -/
theorem fails_of_lands {c : Instr} (hlands : exec c s = .next (s.run fun _ => State.failed { s with ops := [] } i a)) :
    ∃ t, exec c s = .next t ∧ (t.port i).dropping = true ∧ (t.port i).failures = (s.port i).failures + 1
      ∧ (t.port i).recvSeq = (s.port i).recvSeq ∧ t.nl.sluice = s.nl.sluice ∧ t.nl.streams = s.nl.streams
      ∧ t.nl.votes = s.nl.votes ∧ t.nl.arms = s.nl.arms ∧ t.mem = s.mem ∧ t.q = s.q ∧ t.grid = s.grid ∧ t.out = s.out := by
  obtain ⟨w, hw⟩ : ∃ w, w = State.failed { s with ops := [] } i a := ⟨_, rfl⟩
  have hwlinks : Links { s with ops := [] } w := hw ▸ links_failed
  have hport : (s.run fun _ => w).port i = { (s.port i).countFec a with dropping := true, failures := (s.port i).failures + 1, owes := true } := by
    rw [State.run_port, hw, port_failed (by exact hi)]
    rfl
  obtain ⟨ps, hnl⟩ : ∃ ps, (s.run fun _ => w).nl = { s.nl with ports := ps } := by
    rw [State.run_nl, hw]
    exact ⟨_, rfl⟩
  rw [← hw] at hlands
  refine ⟨_, hlands, ?_, ?_, ?_, ?_, ?_, ?_, ?_, same_of_links hwlinks⟩
  · rw [hport]
  · rw [hport]
  · rw [hport]
    rfl
  · rw [hnl]
  · rw [hnl]
  · rw [hnl]
  · rw [hnl]

theorem control_fails {c : Instr} {code : Nat} {act : PeerMsg → State → State}
    (hexec : exec c s = .next (s.whenLive fun s => s.receiveMsg i code a act)) (hbad : LinkFrame.good a.frame = false)
    (hfew : (s.port i).failures < 7) : exec c s = .next (s.run fun _ => State.failed { s with ops := [] } i a) :=
  exec_lands_live hexec hlive (receive_fails (s := { s with ops := [] }) (hears_of_up hlive hi4 hstate) hi hbad hfew _ _)

theorem data_fails {c : Instr} {type : Nat} {here : State → State}
    (hexec : exec c s = .next (s.run fun s => s.receiveData i type a here)) (hbad : LinkFrame.good a.frame = false)
    (hfew : (s.port i).failures < 7) : exec c s = .next (s.run fun _ => State.failed { s with ops := [] } i a) :=
  exec_lands hexec (receiveData_fails (s := { s with ops := [] }) (hears_of_up hlive hi4 hstate) hi hbad hfew)

theorem idleFrame_fails (hbad : LinkFrame.good a.frame = false) (hfew : (s.port i).failures < 7) :
    exec (.idleFrame i a) s = .next (s.run fun _ => State.failed { s with ops := [] } i a) := by
  refine exec_lands_live rfl hlive ?_
  have hhears : State.hears { s with ops := [] } i = true := hears_of_up hlive hi4 hstate
  dsimp only
  rw [if_neg (by simp [hhears, hbad]), if_neg (by simp [hbad])]
  refine failFrame_drops (by simpa using hi) ?_
  rw [State.port_setPort_same (by exact hi)]
  exact hfew

/-- A frame whose CRC fails is dropped, whatever command brings it. -/
theorem frame_fails {c : Instr} (v : HostView) (hbad : LinkFrame.good a.frame = false) (hfew : (s.port i).failures < 7)
    (hc : c ∈ [.idleFrame i a, .flit i a, .bulk i a, .openStream i a, .stitch i a, .arm i a, .vote i a v, .sum i a, .hemAck i a,
      .peerLost i a, .link i a, .topology i a]) : exec c s = .next (s.run fun _ => State.failed { s with ops := [] } i a) := by
  simp only [List.mem_cons, List.not_mem_nil, or_false] at hc
  obtain rfl | rfl | rfl | rfl | rfl | rfl | rfl | rfl | rfl | rfl | rfl | rfl := hc
  · exact idleFrame_fails hlive hi4 hi hstate hbad hfew
  · exact data_fails hlive hi4 hi hstate rfl hbad hfew
  · exact data_fails hlive hi4 hi hstate rfl hbad hfew
  · exact data_fails hlive hi4 hi hstate rfl hbad hfew
  · exact control_fails hlive hi4 hi hstate rfl hbad hfew
  · exact control_fails hlive hi4 hi hstate rfl hbad hfew
  · exact control_fails hlive hi4 hi hstate rfl hbad hfew
  · exact control_fails hlive hi4 hi hstate rfl hbad hfew
  · exact control_fails hlive hi4 hi hstate rfl hbad hfew
  · exact control_fails hlive hi4 hi hstate rfl hbad hfew
  · exact control_fails hlive hi4 hi hstate rfl hbad hfew
  · exact exec_lands_live rfl hlive (receive_fails (s := { s with ops := [] }) (hears_of_up hlive hi4 hstate) hi hbad hfew _ _)

/-! ### The acknowledgement time-out -/

omit hlive hi4 hi hstate in
theorem resend_sends (s : State) (j : Nat) : s.resend j = { s with out := s.out ++ (s.port j).replay.map (Out.frame j ·) } := by
  have h : ∀ (fs : List LinkFrame) (s : State), fs.foldl (fun s f => s.send (.frame j f)) s = { s with out := s.out ++ fs.map (Out.frame j ·) } := by
    intro fs
    induction fs with
    | nil => exact fun s => by simp
    | cons f fs ih =>
      intro s
      rw [List.foldl_cons, ih]
      simp [State.send]
  exact h _ s

theorem frameAckTimeout_resends (hreplay : (s.port i).replay ≠ []) (hfew : (s.port i).resends < 7) :
    ∃ t, exec (.frameAckTimeout i) s = .next t ∧ (t.port i).retries = (s.port i).retries + 1
      ∧ (t.port i).resends = (s.port i).resends + 1 ∧ (t.port i).replay = (s.port i).replay
      ∧ t.out = s.out ++ (s.port i).replay.map (Out.frame i ·) ∧ t.mem = s.mem ∧ t.q = s.q ∧ t.grid = s.grid := by
  obtain ⟨w, hw⟩ : ∃ w, w = State.setPort { s with ops := [] } i fun p => { p with retries := p.retries + 1, resends := p.resends + 1 } :=
    ⟨_, rfl⟩
  have hwport : w.port i = { s.port i with retries := (s.port i).retries + 1, resends := (s.port i).resends + 1 } := by
    rw [hw]
    exact State.port_setPort_same (by exact hi) _
  obtain ⟨y, hy⟩ : ∃ y : State, y = { w with out := w.out ++ (s.port i).replay.map (Out.frame i ·) } := ⟨_, rfl⟩
  have hresend : w.resend i = y := by rw [resend_sends, hwport, hy]
  have hyport : y.port i = w.port i := by
    rw [hy]
    rfl
  have hexec : exec (.frameAckTimeout i) s = .next (s.run fun _ => y) := by
    refine exec_lands_live rfl hlive ?_
    have hhears : State.hears { s with ops := [] } i = true := hears_of_up hlive hi4 hstate
    have hne : (State.port { s with ops := [] } i).replay.isEmpty = false := by simpa using hreplay
    dsimp only
    rw [if_neg (by rw [hhears, hne]; exact Bool.false_ne_true), ← hw, hresend]
    refine if_neg ?_
    rw [hyport, hwport]
    exact Nat.not_le.mpr (Nat.succ_lt_succ hfew)
  have hport := (State.run_port s (fun _ => y) i).trans (hyport.trans hwport)
  have hstands : y.q = s.q ∧ y.grid = s.grid ∧ y.ops = [] ∧ y.out = s.out ++ (s.port i).replay.map (Out.frame i ·) := by
    rw [hy, hw]
    exact ⟨rfl, rfl, rfl, rfl⟩
  obtain ⟨hq, hgrid, hops, hout⟩ := hstands
  refine ⟨_, hexec, ?_, ?_, ?_, (State.run_out s _).trans hout, run_mem_of_no_ops hops, (State.run_q s _).trans hq,
    (State.run_grid s _).trans hgrid⟩
  · rw [hport]
  · rw [hport]
  · rw [hport]

end

/-! ### The frame that a port sends next -/

theorem takeFirst_some {α : Type} {q : α → Bool} {xs : List α} {x : α} {rest : List α} (h : takeFirst q xs = some (x, rest)) :
    x ∈ xs ∧ rest.length + 1 = xs.length ∧ q x = true := by
  induction xs generalizing rest with
  | nil => simp [takeFirst] at h
  | cons y ys ih =>
    unfold takeFirst at h
    split at h
    case isTrue hq =>
      obtain ⟨rfl, rfl⟩ := Prod.mk.injEq _ _ _ _ ▸ Option.some.inj h
      exact ⟨List.mem_cons_self, rfl, hq⟩
    case isFalse =>
      obtain ⟨⟨z, zs⟩, hz, heq⟩ := Option.map_eq_some_iff.mp h
      obtain ⟨rfl, rfl⟩ := Prod.mk.injEq _ _ _ _ ▸ heq
      obtain ⟨hmem, hlen, hq⟩ := ih hz
      exact ⟨List.mem_cons_of_mem y hmem, by simpa using hlen, hq⟩

theorem takeFirst_none {α : Type} {q : α → Bool} {xs : List α} (h : takeFirst q xs = none) : ∀ x ∈ xs, q x = false := by
  induction xs with
  | nil => exact fun _ hx => absurd hx List.not_mem_nil
  | cons y ys ih =>
    unfold takeFirst at h
    split at h
    case isTrue => exact absurd h (by simp)
    case isFalse hq =>
      intro x hx
      obtain rfl | hx := List.mem_cons.mp hx
      · simpa using hq
      · exact ih (Option.map_eq_none_iff.mp h) x hx

theorem typeRank_control {t : Nat} : typeRank t = 0 ↔ t = 4 := by
  unfold typeRank
  split
  · simp [*]
  · split <;> simp [*]

theorem typeRank_flit {t : Nat} : typeRank t = 1 ↔ t = 1 := by
  unfold typeRank
  split
  · simp [*]
  · split <;> simp [*]

/-- CONTROL before FLIT before streams, and CONTROL alone in STATE 4 (R279, R281). -/
theorem pick_in_rank {p : Port} {f : LinkFrame} {rest : List LinkFrame} (h : p.pick = some (f, rest)) :
    f ∈ p.txq ∧ rest.length + 1 = p.txq.length ∧ (p.state = 4 → f.type = 4)
      ∧ ((∃ g ∈ p.txq, g.type = 4) → f.type = 4) ∧ (f.type ≠ 4 → (∃ g ∈ p.txq, g.type = 1) → f.type = 1) := by
  have hcontrol : takeFirst (fun (g : LinkFrame) => typeRank g.type == 0) p.txq = some (f, rest) → f.type = 4 := fun h =>
    typeRank_control.mp (beq_iff_eq.mp (takeFirst_some h).2.2)
  unfold Port.pick at h
  dsimp only at h
  split at h
  case isTrue hfour =>
    obtain ⟨hmem, hlen, -⟩ := takeFirst_some h
    exact ⟨hmem, hlen, fun _ => hcontrol h, fun _ => hcontrol h, fun hne => absurd (hcontrol h) hne⟩
  case isFalse hfour =>
    split at h
    case h_1 x h0 =>
      rw [h] at h0
      obtain ⟨hmem, hlen, -⟩ := takeFirst_some h0
      exact ⟨hmem, hlen, fun _ => hcontrol h0, fun _ => hcontrol h0, fun hne => absurd (hcontrol h0) hne⟩
    case h_2 h0 =>
      have hnone : ¬ ∃ g ∈ p.txq, g.type = 4 := by
        rintro ⟨g, hg, htype⟩
        have hrank := takeFirst_none h0 g hg
        rw [typeRank_control.mpr htype] at hrank
        exact absurd hrank (by decide)
      split at h
      case h_1 x h1 =>
        rw [h] at h1
        obtain ⟨hmem, hlen, hrank⟩ := takeFirst_some h1
        have hflit : f.type = 1 := typeRank_flit.mp (beq_iff_eq.mp hrank)
        exact ⟨hmem, hlen, fun h4 => absurd h4 hfour, fun hany => absurd hany hnone, fun _ _ => hflit⟩
      case h_2 h1 =>
        obtain ⟨hmem, hlen, -⟩ := takeFirst_some h
        refine ⟨hmem, hlen, fun h4 => absurd h4 hfour, fun hany => absurd hany hnone, fun _ ⟨g, hg, htype⟩ => ?_⟩
        have hrank := takeFirst_none h1 g hg
        rw [typeRank_flit.mpr htype] at hrank
        exact absurd hrank (by decide)

/-- Settles O26: a frame in its order is accepted and acted on, and one that fails or comes out of order changes its port alone. -/
theorem framesAreTakenInSequence : Obligations.FramesAreTakenInSequence := by
  refine ⟨fun s i a hlive hi4 hlen hstate => ?_, fun p f rest h => pick_in_rank h⟩
  have hi : i < s.nl.ports.length := hlen.symm ▸ hi4
  exact ⟨fun x y g htype hgood hack hreplay hg hx => idleFrame_releases hlive hi4 hi hstate htype hgood hack hreplay hg hx,
    fun hgood hnode hseq => ⟨flit_taken hlive hi4 hi hstate hgood hnode hseq, openStream_opens hlive hi4 hi hstate hgood hnode hseq,
      fun htype x hx => ⟨bulk_stores hlive hi4 hi hstate hgood hnode hseq htype hx, bulk_gathers hlive hi4 hi hstate hgood hnode hseq htype hx⟩⟩,
    fun c hgood hseq hc => data_out_of_order hlive hi4 hi hstate hgood hseq hc,
    fun c v hbad hfew hc => fails_of_lands hi (frame_fails hlive hi4 hi hstate v hbad hfew hc),
    frameAckTimeout_resends hlive hi4 hi hstate⟩

end Sys2Proof.Machine
end

section
/-! SUPPORT. What the commands about power domains, joined devices and registers may change at all. -/

namespace Sys2Proof.Machine

/-! ### Power domains -/

/-- Only one domain and the words of engines move. -/
def PowersOne (d : Nat) (s t : State) : Prop :=
  ∃ domains grid, t = { s with pow := { s.pow with domains := domains }, grid := grid } ∧ grid.runs = s.grid.runs
    ∧ grid.patterns = s.grid.patterns ∧ ∀ e, e ≠ d → t.domain e = s.domain e

theorem powersOne_setDomain (s : State) (d : Nat) (f : Domain → Domain) : PowersOne d s (s.setDomain d f) :=
  ⟨_, _, rfl, rfl, rfl, fun _ he => State.domain_setDomain_ne he s f⟩

theorem PowersOne.refl (d : Nat) (s : State) : PowersOne d s s := ⟨_, _, rfl, rfl, rfl, fun _ _ => rfl⟩

theorem PowersOne.trans {d : Nat} {s t u : State} (h : PowersOne d s t) (k : PowersOne d t u) : PowersOne d s u := by
  obtain ⟨_, _, rfl, h1, h2, h3⟩ := h
  obtain ⟨_, _, rfl, k1, k2, k3⟩ := k
  exact ⟨_, _, rfl, k1.trans h1, k2.trans h2, fun e he => (k3 e he).trans (h3 e he)⟩

theorem powersOne_clearBank (d : Nat) (s : State) (b : Nat) : PowersOne d s (s.clearBank b) := ⟨_, _, rfl, rfl, rfl, fun _ _ => rfl⟩

theorem powersOne_setEngines (d : Nat) (s : State) (gs : List Engine) : PowersOne d s { s with grid := { s.grid with engines := gs } } :=
  ⟨_, _, rfl, rfl, rfl, fun _ _ => rfl⟩

theorem PowersOne.ite {d : Nat} {c : Prop} [Decidable c] {s t u : State} (ht : PowersOne d s t) (hu : PowersOne d s u) :
    PowersOne d s (if c then t else u) := by
  split
  · exact ht
  · exact hu

theorem powersOne_wakeDomain (s : State) (d : Nat) : PowersOne d s (s.wakeDomain d) := powersOne_setDomain s d _

/-- A command about one domain. -/
theorem domain_moves {s t : State} {d : Nat} {c : Instr} (hc : c = .domainIdle d ∨ c = .domainWake d ∨ c = .domainWakeComplete d)
    (hexec : exec c s = .next t) : ∃ u, t = s.run (fun _ => u) ∧ PowersOne d { s with ops := [] } u := by
  obtain rfl | rfl | rfl := hc
  · refine ⟨_, (Host.Outcome.next.inj hexec).symm, .ite (.ite ?_ (.refl d _)) (.refl d _)⟩
    refine .ite (.trans (.ite (.trans (powersOne_setDomain _ d _) (powersOne_clearBank d _ d)) (powersOne_setDomain _ d _))
      (powersOne_setEngines d _ _)) ?_
    exact .ite (.trans (powersOne_setDomain _ d _) (powersOne_clearBank d _ d)) (powersOne_setDomain _ d _)
  · exact ⟨_, (Host.Outcome.next.inj hexec).symm, .ite (.ite (.refl d _) (powersOne_wakeDomain _ d)) (.refl d _)⟩
  · refine ⟨_, (Host.Outcome.next.inj hexec).symm, .ite (.ite ?_ (.refl d _)) (.refl d _)⟩
    exact .ite (.trans (powersOne_setDomain _ d _) (powersOne_setEngines d _ _)) (powersOne_setDomain _ d _)

/-! ### Joined devices -/

/-- Only the link, what has been sent, power and the counters move. -/
def Connects (s t : State) : Prop := ∃ nl out pow cnt, t = { s with nl := nl, out := out, pow := pow, cnt := cnt }

theorem Connects.refl (s : State) : Connects s s := ⟨_, _, _, _, rfl⟩

theorem Connects.trans {s t u : State} (h : Connects s t) (k : Connects t u) : Connects s u := by
  obtain ⟨_, _, _, _, rfl⟩ := h
  obtain ⟨_, _, _, _, rfl⟩ := k
  exact ⟨_, _, _, _, rfl⟩

theorem Connects.ite {c : Prop} [Decidable c] {s t u : State} (ht : Connects s t) (hu : Connects s u) : Connects s (if c then t else u) := by
  split
  · exact ht
  · exact hu

theorem Links.connects {s t : State} (h : Links s t) : Connects s t := by
  obtain ⟨_, rfl⟩ := h
  exact ⟨_, _, _, _, rfl⟩

theorem Connects.runs {s t : State} (h : Connects s t) : t.grid.runs = s.grid.runs := by
  obtain ⟨_, _, _, _, rfl⟩ := h
  rfl

theorem connects_setPort (s : State) (i : Nat) (f : Port → Port) : Connects s (s.setPort i f) := ⟨_, _, _, _, rfl⟩

theorem connects_trainPort (s : State) (i : Nat) : Connects s (s.trainPort i) :=
  ((connects_setPort s i _).trans (tells_announce _).links.connects).trans ⟨_, _, _, _, rfl⟩

theorem connects_resend (s : State) (i : Nat) : Connects s (s.resend i) := ⟨_, _, _, _, resend_sends s i⟩

theorem runsTagged_idle {s : State} (h : s.grid.runs = []) (tag : DWord) : s.runsTagged tag = [] := by
  rw [State.runsTagged, h, List.filter_nil]

/-- A change that only connects while no run is on the device. -/
def IdleConnects (f : State → State) : Prop := ∀ s, s.grid.runs = [] → Connects s (f s)

section
variable {s : State} (hruns : s.grid.runs = [])
include hruns

theorem connects_graphChanged (i : Nat) : Connects s (s.graphChanged i) := graphChanged_idle hruns i ▸ (links_keepRoot s).connects

theorem connects_levelPorts_graphChanged (i : Nat) : Connects s (s.levelPorts.graphChanged i) :=
  (relinks_levelPorts s).links.connects.trans (connects_graphChanged ((relinks_levelPorts s).links.runs.trans hruns) i)

theorem connects_retrain (i : Nat) : Connects s (s.retrain i) := by
  obtain ⟨w, hw⟩ : ∃ w, w = s.setPort i Port.retrain := ⟨_, rfl⟩
  have hlinks : Links s w.announce := Links.trans ⟨_, hw⟩ (tells_announce w).links
  have hretrain : s.retrain i = w.announce.graphChanged i := by
    rw [hw]
    rfl
  rw [hretrain]
  exact hlinks.connects.trans (connects_graphChanged (hlinks.runs.trans hruns) i)

theorem connects_failFrame (i : Nat) : Connects s (s.failFrame i) :=
  .ite ((connects_setPort s i _).trans (connects_retrain (s := s.setPort i _) hruns i)) (connects_setPort s i _)

theorem connects_detachPort (i : Nat) : Connects s (s.detachPort i) := by
  obtain ⟨w, hw⟩ : ∃ w, w = s.setPort i (·.alone (decide (2 ≤ (s.port i).state) && decide ((s.port i).state ≤ 4))) := ⟨_, rfl⟩
  obtain ⟨y, hy⟩ : ∃ y : State, y = { w with nl := { w.nl with streams := w.nl.streams.filter fun x => x.port != i } } := ⟨_, rfl⟩
  obtain ⟨z, hz⟩ : ∃ z, z = if (s.port i).state = (y.port i).state then y else y.announce := ⟨_, rfl⟩
  have hylinks : Links s y := (hw ▸ links_setPort s i _ : Links s w).trans ⟨_, hy⟩
  have hzlinks : Links s z := by
    rw [hz]
    split
    · exact hylinks
    · exact hylinks.trans (tells_announce y).links
  have hdetach : s.detachPort i = z.levelPorts.graphChanged i := by
    rw [hz, hy, hw]
    rfl
  rw [hdetach]
  exact hzlinks.connects.trans (connects_levelPorts_graphChanged (hzlinks.runs.trans hruns) i)

theorem connects_receive {f : State → State} (i : Nat) (a : Arrival) (mine : LinkFrame → Bool) (hf : IdleConnects f) :
    Connects s (s.receive i a mine f) := by
  unfold State.receive
  refine .ite (.refl s) (.ite ?_ (.ite ?_ ?_))
  · exact (connects_setPort s i _).trans (connects_failFrame (s := s.setPort i _) hruns i)
  · exact ((connects_setPort s i _).trans (connects_setPort _ i _)).trans (connects_setPort _ i _)
  · exact (((connects_setPort s i _).trans (connects_setPort _ i _)).trans (connects_setPort _ i _)).trans (hf _ hruns)

theorem connects_receiveMsg {act : PeerMsg → State → State} (i code : Nat) (a : Arrival) (hact : ∀ m, IdleConnects (act m)) :
    Connects s (s.receiveMsg i code a act) := by
  refine connects_receive hruns i a _ fun w hw => ?_
  split
  · exact (tells_forward w i _).links.connects.trans (hact _ _ ((tells_forward w i _).links.runs.trans hw))
  · exact .refl w

theorem connects_receiveData {here : State → State} (i type : Nat) (a : Arrival) (hhere : IdleConnects here) :
    Connects s (s.receiveData i type a here) := by
  unfold State.receiveData
  refine connects_receive hruns i a _ fun w hw => ?_
  split
  · exact hhere w hw
  · split
    · exact (tells_queueFrame w _ _).links.connects
    · exact .refl w

theorem connects_takeVote (v : HostView) (m : VoteMsg) : Connects s (s.takeVote v m) := by
  obtain ⟨w, hw⟩ : ∃ w : State, w = { s with nl := { s.nl with votes := s.nl.votes ++ [m] } } := ⟨_, rfl⟩
  have hwlinks : Links s w := ⟨_, hw⟩
  have hnone := runsTagged_idle (hwlinks.runs.trans hruns) m.tag
  unfold State.takeVote
  refine .ite (.refl s) (.ite ?_ ?_)
  · dsimp only
    rw [← hw, hnone]
    exact hwlinks.connects
  · dsimp only
    rw [← hw, hnone]
    exact hwlinks.connects

theorem connects_takeArm (m : ArmMsg) : Connects s (s.takeArm m) := by
  unfold State.takeArm
  refine .ite (.refl s) ?_
  simp only [State.runsTagged, hruns, List.filter_nil, List.find?_nil]
  exact ⟨_, _, _, _, rfl⟩

theorem connects_takeHemAck (m : HemAckMsg) : Connects s (s.takeHemAck m) := by
  unfold State.takeHemAck
  refine .ite (.refl s) ?_
  simp only [State.noteAck, State.runsTagged, hruns, List.filter_nil, List.foldl_nil]
  exact ⟨_, _, _, _, rfl⟩

theorem connects_takeLost (m : LostMsg) : Connects s (s.takeLost m) := by
  unfold State.takeLost
  refine .ite (.refl s) ?_
  simp only [State.loseNode, hruns, List.foldl_nil]
  exact ⟨_, _, _, _, rfl⟩

theorem connects_takeLink (i : Nat) (m : LinkMsg) : Connects s (s.takeLink i m) :=
  (connects_setPort s i _).trans (connects_levelPorts_graphChanged (s := s.setPort i _) hruns i)

theorem connects_takeTopology (i : Nat) (seen : Bool) (m : TopoMsg) : Connects s (s.takeTopology i seen m) := by
  unfold State.takeTopology
  refine .ite (.refl s) ?_
  obtain ⟨w, hw⟩ : ∃ w : State, w = { s with nl := { s.nl.ageTopology m with
    heard := (s.nl.heard.filter fun h => h.msg.unit != m.unit) ++ [{ msg := m, at_ := s.cnt.stitch }] } } := ⟨_, rfl⟩
  have hlinks : Links s w := ⟨_, hw⟩
  dsimp only
  rw [← hw]
  exact hlinks.connects.trans (connects_levelPorts_graphChanged (hlinks.runs.trans hruns) i)

omit hruns in
theorem connects_sendStitch (except : Option Nat) (root hops : Nat) : Connects s (s.sendStitch except root hops) :=
  (tells_sendStitch s except root hops).links.connects

omit hruns in
theorem connects_takeStitch (i : Nat) (count : DWord) (root hops : Nat) : Connects s (s.takeStitch i count root hops) := by
  unfold State.takeStitch
  split
  · refine .ite (.refl s) (.ite (.ite (.refl s) ?_) ?_)
    · exact .trans ⟨_, _, _, _, rfl⟩ (connects_sendStitch _ _ _)
    · exact .trans ⟨_, _, _, _, rfl⟩ (connects_sendStitch _ _ _)
  · exact .refl s

/-- A peer that announces a new session is lost to no run where none is here. -/
theorem forgotten_idle (c : Bool) (i : Nat) (node : Option Nat) :
    (match node with | some n => if c && s.runPeers.contains n then s.detectLoss i n else s | none => s) = s := by
  rw [runPeers_idle hruns]
  split
  · rw [List.contains_nil, Bool.and_false]
    rfl
  · rfl

theorem connects_nlPortTrained (i : Nat) (f : PortTraining) (lanes : Nat) (kept : Bool) {w x y z : State}
    (hw : w = s.setPort i (·.trained lanes f kept)) (hx : x = if f.newSession then w.forgetUnit f.peer.unit else w)
    (hy : y = (((x.setPort i fun p => { p with state := x.portLevel p }).announce).sendLink i).levelPorts)
    (hz : z = if kept then y.resend i else y) :
    Connects s ((match if f.peer.node < 16 then some f.peer.node else none with
      | some n => if f.newSession && z.runPeers.contains n then z.detectLoss i n else z
      | none => z).graphChanged i) := by
  have hxlinks : Links s x := by
    rw [hx, hw]
    split
    · exact ⟨_, rfl⟩
    · exact ⟨_, rfl⟩
  obtain ⟨v, hv⟩ : ∃ v, v = x.setPort i fun p => { p with state := x.portLevel p } := ⟨_, rfl⟩
  have hylinks : Links s y := by
    rw [hy, ← hv]
    exact ((hxlinks.trans ⟨_, hv⟩).trans (tells_announce v).links).trans ((tells_sendLink _ i).links.trans (relinks_levelPorts _).links)
  have hzlinks : Connects s z := by
    rw [hz]
    split
    · exact hylinks.connects.trans (connects_resend y i)
    · exact hylinks.connects
  rw [forgotten_idle (hzlinks.runs.trans hruns)]
  exact hzlinks.trans (connects_graphChanged (hzlinks.runs.trans hruns) i)
end

/-- A command of the clocked device does what it does out of reset. -/
theorem connects_whenLive {s t : State} {c : Instr} {f : State → State} (hruns : s.grid.runs = [])
    (hexec : exec c s = .next (s.whenLive f)) (hf : IdleConnects f) (ht : exec c s = .next t) :
    ∃ u, t = s.run (fun _ => u) ∧ Connects { s with ops := [] } u :=
  ⟨_, (Host.Outcome.next.inj (hexec.symm.trans ht)).symm, .ite (hf { s with ops := [] } hruns) (.refl _)⟩

theorem connects_run {s t : State} {c : Instr} {f : State → State} (hruns : s.grid.runs = [])
    (hexec : exec c s = .next (s.run f)) (hf : IdleConnects f) (ht : exec c s = .next t) :
    ∃ u, t = s.run (fun _ => u) ∧ Connects { s with ops := [] } u :=
  ⟨_, (Host.Outcome.next.inj (hexec.symm.trans ht)).symm, hf { s with ops := [] } hruns⟩

/-- A run that connects leaves the rest of the state. -/
theorem stands_of_connects_run {s u : State} (h : Connects { s with ops := [] } u) :
    let t := s.run fun _ => u
    t.q = s.q ∧ t.grid = s.grid ∧ t.mem = s.mem ∧ t.dram = s.dram ∧ t.host = s.host ∧ sameControl s t ∧ t.log = s.log
      ∧ t.rng = s.rng ∧ t.dbg = s.dbg ∧ t.sb = s.sb := by
  obtain ⟨nl, out, pow, cnt, rfl⟩ := h
  have hsb : (s.run fun _ => { s with ops := [], nl := nl, out := out, pow := pow, cnt := cnt }).sb = s.sb := by
    have hquiet := stateOccasions_self s { s with ops := [], nl := nl, out := out, pow := pow, cnt := cnt } rfl rfl rfl rfl
    simp only [State.run, hquiet, State.occasions]
    cases s with
    | mk board nv boot fw rng dbg sb => cases sb; dsimp only; split <;> simp
  have hdbg : (s.run fun _ => { s with ops := [], nl := nl, out := out, pow := pow, cnt := cnt }).dbg = s.dbg := by
    simp only [State.run, State.occasions_dbg]
  exact ⟨State.run_q s _, State.run_grid s _, run_mem_of_no_ops rfl, State.run_dram s _, State.run_host s _,
    ⟨State.run_board s _, State.run_nv_same s _ rfl, State.run_boot s _, State.run_fw s _⟩, State.run_log s _, State.run_rng s _, hdbg, hsb⟩

section
variable {s : State} (hruns : s.grid.runs = [])
include hruns

omit hruns in
theorem connects_nlPresentDebounced (i : Nat) : Connects s (
    if 4 ≤ i then s
    else
      let s := s.setPort i fun p => { p with prsnt := true }
      if s.mayTrain (s.port i) then s.trainPort i else s) :=
  .ite (.refl s) (.ite ((connects_setPort s i _).trans (connects_trainPort _ i)) (connects_setPort s i _))

theorem connects_trained (i : Nat) (found : PortTraining) : Connects s (
    let p := s.port i
    if 4 ≤ i ∨ p.state ≠ 2 ∨ (s.domain (107 + i)).state ≠ 2 then s
    else
      let lanes := trainedLanes p.width4 found.lanesGood
      if lanes = 0 then ((s.detachPort i).setPort i fun p => { p with state := 5 }).announce
      else
        let node := if found.peer.node < 16 then some found.peer.node else none
        let kept := p.retraining && !found.newSession
        let s := s.setPort i fun p =>
          { p with state := 4, lanes := lanes, latency := found.latency, slow := decide (96 < found.latency), peerNode := node,
                   peerPort := found.peer.port, peerUnit := found.peer.unit, retraining := false, failures := 0, resends := 0, dropping := false,
                   sendSeq := if kept then p.sendSeq else 0, recvSeq := if kept then p.recvSeq else 0,
                   txq := if kept then p.txq else [], replay := if kept then p.replay else [], owes := kept }
        let s := if found.newSession then s.forgetUnit found.peer.unit else s
        let s := (s.setPort i fun p => { p with state := s.portLevel p }).announce
        let s := (s.sendLink i).levelPorts
        let s := if kept then s.resend i else s
        let s := match node with
          | some n => if found.newSession && s.runPeers.contains n then s.detectLoss i n else s
          | none => s
        s.graphChanged i) := by
  refine .ite (.refl s) (.ite ?_ ?_)
  · exact ((connects_detachPort hruns i).trans (connects_setPort _ i _)).trans (tells_announce _).links.connects
  · exact connects_nlPortTrained hruns i found (trainedLanes (s.port i).width4 found.lanesGood)
      ((s.port i).retraining && !found.newSession) rfl rfl rfl rfl

theorem connects_nlPortDetach (i : Nat) (high : Bool) : Connects s (
    if 4 ≤ i then s
    else (s.setPort i fun p => { p with prsnt := p.prsnt && !high, goneAt := if high then s.cnt.stitch else p.goneAt }).detachPort i) := by
  obtain ⟨w, hw⟩ : ∃ w, w = s.setPort i fun p => { p with prsnt := p.prsnt && !high, goneAt := if high then s.cnt.stitch else p.goneAt } :=
    ⟨_, rfl⟩
  have hlinks : Links s w := ⟨_, hw⟩
  rw [← hw]
  exact .ite (.refl s) (hlinks.connects.trans (connects_detachPort (hlinks.runs.trans hruns) i))

theorem connects_frameAckTimeout (i : Nat) : Connects s (
    if !s.hears i || (s.port i).replay.isEmpty then s
    else
      let s := (s.setPort i fun p => { p with retries := p.retries + 1, resends := p.resends + 1 }).resend i
      if 8 ≤ (s.port i).resends then s.retrain i else s) := by
  have hsends : Connects s ((s.setPort i fun p => { p with retries := p.retries + 1, resends := p.resends + 1 }).resend i) :=
    (connects_setPort s i _).trans (connects_resend _ i)
  exact .ite (.refl s) (.ite (hsends.trans (connects_retrain (hsends.runs.trans hruns) i)) hsends)

theorem connects_idleFrame (i : Nat) (a : Arrival) : Connects s (
    let good := LinkFrame.good a.frame
    if !s.hears i || (good && a.frame.type != 0) then s
    else
      let s := s.setPort i fun p => p.countFec a
      if good then s.setPort i fun p => p.release a.frame else s.failFrame i) :=
  .ite (.refl s) (.ite ((connects_setPort s i _).trans (connects_setPort _ i _))
    ((connects_setPort s i _).trans (connects_failFrame (s := s.setPort i _) hruns i)))

theorem connects_flit (i : Nat) (a : Arrival) : Connects s (s.receiveData i 1 a fun s =>
    let f := a.frame
    let flits := (List.range (min 7 f.count)).map fun k =>
      ({ port := i, index := f.first + k, bytes := (f.payload.drop (34 * k)).take 34 } : SluiceFlit)
    let s := { s with nl := { s.nl with sluice := s.nl.sluice ++ flits } }
    s.grid.runs.foldl (fun s r => s.takeLoose r.ref) s) := by
  refine connects_receiveData hruns i 1 a fun w hw => ?_
  simp only [hw, List.foldl_nil]
  exact ⟨_, _, _, _, rfl⟩

theorem connects_openStream (i : Nat) (a : Arrival) : Connects s (s.receiveData i 3 a fun s =>
    let f := a.frame
    let x : OpenStream :=
      { port := i, src := f.src, stream := f.stream, dest := fieldOf f.payload 0 8,
        length := fieldOf f.payload 8 8, kind := fieldOf f.payload 0x10 1, got := 0, bytes := [] }
    let rest := s.nl.streams.filter fun y => !y.takes i f.src f.stream
    { s with nl := { s.nl with streams := rest ++ [x] } }) :=
  connects_receiveData hruns i 3 a fun _ _ => ⟨_, _, _, _, rfl⟩

omit hruns in
theorem connects_topologyPeriodic : Connects s (
    match s.nl.node with
    | none => s
    | some n =>
      let s := s.flood none (.topology s.ownTopology)
      if s.nl.root = some n then s.sendStitch none n 0 else s) := by
  have hflood : Connects s (s.flood none (.topology s.ownTopology)) := (tells_flood s none _).links.connects
  split
  · exact .refl s
  · exact .ite (hflood.trans (connects_sendStitch none _ 0)) hflood
end

/-- A command about joined devices on an idle device (R278-R283). -/
theorem joined_connects {c : Instr} {s t : State} (hruns : s.grid.runs = [])
    (hc : match c with
      | .nlPresentDebounced _ | .nlPortTrained _ _ | .nlPortDetach _ _ | .retrainTimeout _ | .frameAckTimeout _ | .idleFrame _ _
      | .flit _ _ | .openStream _ _ | .stitch _ _ | .arm _ _ | .vote _ _ _ | .sum _ _ | .hemAck _ _ | .peerLost _ _ | .link _ _
      | .topology _ _ | .topologyPeriodic | .topologyExpiry _ | .launchAttempt _ _ | .rehost _ => True
      | _ => False) (ht : exec c s = .next t) : ∃ u, t = s.run (fun _ => u) ∧ Connects { s with ops := [] } u := by
  split at hc
  · exact connects_whenLive hruns rfl (fun w hw => connects_nlPresentDebounced _) ht
  · exact connects_whenLive hruns rfl (fun w hw => connects_trained hw _ _) ht
  · exact connects_whenLive hruns rfl (fun w hw => connects_nlPortDetach hw _ _) ht
  · exact connects_whenLive hruns rfl (fun w hw => .ite (connects_detachPort hw _) (.refl _)) ht
  · exact connects_whenLive hruns rfl (fun w hw => connects_frameAckTimeout hw _) ht
  · exact connects_whenLive hruns rfl (fun w hw => connects_idleFrame hw _ _) ht
  · exact connects_run hruns rfl (fun w hw => connects_flit hw _ _) ht
  · exact connects_run hruns rfl (fun w hw => connects_openStream hw _ _) ht
  · refine connects_whenLive hruns rfl (fun w hw => connects_receiveMsg hw _ _ _ fun m w hw => ?_) ht
    split
    · exact connects_takeStitch _ _ _ _
    · exact .refl w
  · refine connects_whenLive hruns rfl (fun w hw => connects_receiveMsg hw _ _ _ fun m w hw => ?_) ht
    split
    · exact connects_takeArm hw _
    · exact .refl w
  · refine connects_whenLive hruns rfl (fun w hw => connects_receiveMsg hw _ _ _ fun m w hw => ?_) ht
    split
    · exact connects_takeVote hw _ _
    · exact .refl w
  · refine connects_whenLive hruns rfl (fun w hw => connects_receiveMsg hw _ _ _ fun m w hw => ?_) ht
    split
    · exact .ite (.refl w) ⟨_, _, _, _, rfl⟩
    · exact .refl w
  · refine connects_whenLive hruns rfl (fun w hw => connects_receiveMsg hw _ _ _ fun m w hw => ?_) ht
    split
    · exact connects_takeHemAck hw _
    · exact .refl w
  · refine connects_whenLive hruns rfl (fun w hw => connects_receiveMsg hw _ _ _ fun m w hw => ?_) ht
    split
    · exact connects_takeLost hw _
    · exact .refl w
  · refine connects_whenLive hruns rfl (fun w hw => connects_receiveMsg hw _ _ _ fun m w hw => ?_) ht
    split
    · exact connects_takeLink hw _ _
    · exact .refl w
  · refine connects_whenLive hruns rfl (fun w hw => connects_receiveMsg hw _ _ _ fun m w hw => ?_) ht
    split
    · exact connects_takeTopology hw _ _ _
    · exact .refl w
  · exact connects_whenLive hruns rfl (fun w _ => connects_topologyPeriodic) ht
  · exact connects_whenLive hruns rfl (fun w hw => .ite (connects_levelPorts_graphChanged hw 0) (.refl _)) ht
  · refine connects_whenLive hruns rfl (fun w hw => ?_) ht
    rw [runsTagged_idle hw]
    exact .refl _
  · refine connects_whenLive hruns rfl (fun w hw => ?_) ht
    rw [runsTagged_idle hw]
    exact .refl _
  · exact hc.elim

/-! ### Registers -/

/-- Only the host port, the channels, power, the counters, what has been sent, the sideband's reply, and the registers of slots, copy
engines, engines and ports move. -/
def Registers (s t : State) : Prop :=
  ∃ host dram pow cnt out sb slots copies gs ports, t = { s with
    host := host, dram := dram, pow := pow, cnt := cnt, out := out, sb := sb, q := { s.q with slots := slots, engines := copies },
    grid := { s.grid with engines := gs }, nl := { s.nl with ports := ports } }

theorem Registers.refl (s : State) : Registers s s := ⟨_, _, _, _, _, _, _, _, _, _, rfl⟩

theorem Registers.trans {s t u : State} (h : Registers s t) (k : Registers t u) : Registers s u := by
  obtain ⟨_, _, _, _, _, _, _, _, _, _, rfl⟩ := h
  obtain ⟨_, _, _, _, _, _, _, _, _, _, rfl⟩ := k
  exact ⟨_, _, _, _, _, _, _, _, _, _, rfl⟩

theorem Registers.ite {c : Prop} [Decidable c] {s t u : State} (ht : Registers s t) (hu : Registers s u) :
    Registers s (if c then t else u) := by
  split
  · exact ht
  · exact hu

theorem Registers.foldl {α : Type} {f : State → α → State} (h : ∀ s x, Registers s (f s x)) (xs : List α) (s : State) :
    Registers s (xs.foldl f s) := by
  induction xs generalizing s with
  | nil => exact .refl s
  | cons x xs ih => exact (h s x).trans (ih _)

theorem registers_host (s : State) (h : HostPort) : Registers s { s with host := h } := ⟨_, _, _, _, _, _, _, _, _, _, rfl⟩

theorem registers_cnt (s : State) (c : Counters) : Registers s { s with cnt := c } := ⟨_, _, _, _, _, _, _, _, _, _, rfl⟩

theorem registers_sb (s : State) (b : Sb) : Registers s { s with sb := b } := ⟨_, _, _, _, _, _, _, _, _, _, rfl⟩

theorem registers_send (s : State) (x : Out) : Registers s (s.send x) := ⟨_, _, _, _, _, _, _, _, _, _, rfl⟩

theorem registers_setChannel (s : State) (c : Nat) (f : Channel → Channel) : Registers s (s.setChannel c f) :=
  ⟨_, _, _, _, _, _, _, _, _, _, rfl⟩

theorem registers_setDomain (s : State) (d : Nat) (f : Domain → Domain) : Registers s (s.setDomain d f) :=
  ⟨_, _, _, _, _, _, _, _, _, _, rfl⟩

theorem registers_hostWrite (s : State) (pasid : Option Nat) (a : Nat) (bs : List Byte) : Registers s (s.hostWrite pasid a bs) :=
  .ite (registers_send s _) (.refl s)

theorem registers_signal (s : State) (v : Nat) : Registers s (s.signal v) :=
  .ite (registers_host s _) (.ite (registers_send s _) (.refl s))

theorem registers_finishMailbox (s : State) (result : Nat) (outs : List (Nat × Nat)) : Registers s (s.finishMailbox result outs) :=
  .ite (registers_host s _) ((registers_host s _).trans (registers_signal _ 1025))

theorem registers_mailboxGo (s : State) : Registers s s.mailboxGo :=
  .ite (registers_host s _) ((registers_host s _).trans (registers_finishMailbox _ 1 []))

theorem registers_writeHalf (s : State) (cls i off v : Nat) : Registers s (s.writeHalf cls i off v) := by
  unfold State.writeHalf
  split
  · refine .ite (registers_host s _) (.ite (.ite (registers_host s _) (registers_host s _)) (.ite (.ite (registers_host s _) (.refl s)) ?_))
    refine .ite (.ite (registers_host s _) (registers_host s _)) (.ite ?_ (.ite (registers_host s _) ?_))
    · exact .ite (registers_host s _) (.ite (registers_mailboxGo s) (.refl s))
    · exact .ite (registers_host s _) (.ite (registers_host s _) (.refl s))
  · exact .ite ⟨_, _, _, _, _, _, _, _, _, _, rfl⟩ (.refl s)
  · exact .ite (registers_setChannel s i _) (.refl s)
  · exact .ite ⟨_, _, _, _, _, _, _, _, _, _, rfl⟩ (.refl s)
  · exact .ite (registers_setDomain s i _) (.refl s)
  · exact .ite ⟨_, _, _, _, _, _, _, _, _, _, rfl⟩ (.refl s)
  · exact .refl s

theorem registers_setRc (s : State) (cls i off v : Nat) : Registers s (s.setRc cls i off v) := by
  unfold State.setRc
  split
  · exact registers_setChannel s i _
  · exact registers_setChannel s i _
  · exact registers_setChannel s i _
  · exact ⟨_, _, _, _, _, _, _, _, _, _, rfl⟩
  · exact ⟨_, _, _, _, _, _, _, _, _, _, rfl⟩
  · exact ⟨_, _, _, _, _, _, _, _, _, _, rfl⟩
  · exact ⟨_, _, _, _, _, _, _, _, _, _, rfl⟩
  · exact ⟨_, _, _, _, _, _, _, _, _, _, rfl⟩
  · exact registers_setDomain s i _
  · exact ⟨_, _, _, _, _, _, _, _, _, _, rfl⟩
  · exact .refl s

theorem registers_readRc (s : State) (cls i o w : Nat) (r : Nat × Nat × Nat) : Registers s (s.readRc cls i o w r) :=
  .ite (.ite ((registers_cnt s _).trans (registers_setRc _ cls i _ 0)) (.ite (registers_cnt s _) (registers_setRc s cls i _ _)))
    (registers_setRc s cls i _ 0)

theorem registers_ringWrite (s : State) (e : Event) : Registers s (s.ringWrite e) := by
  have hhead : Registers s { s.hostWrite none (s.host.evtBase.force / 4096 * 4096 + 64 * (s.host.evtHead % s.host.ringSize)) e.encode with
      host := { (s.hostWrite none (s.host.evtBase.force / 4096 * 4096 + 64 * (s.host.evtHead % s.host.ringSize)) e.encode).host with
        evtHead := (s.host.evtHead + 1) % 2 ^ 32 } } :=
    (registers_hostWrite s _ _ _).trans (registers_host _ _)
  exact .ite (hhead.trans ((registers_host _ _).trans (registers_signal _ _))) hhead

theorem registers_deliverHeld (k : Nat) (s : State) : Registers s (State.deliverHeld k s) := by
  induction k generalizing s with
  | zero => exact .refl s
  | succ k ih =>
    unfold State.deliverHeld
    split
    · exact .ite (((registers_host s _).trans (registers_ringWrite _ _)).trans (ih _)) (.refl s)
    · exact .refl s

theorem registers_wakeChannels (s : State) : Registers s s.wakeChannels := by
  obtain ⟨_, _, h⟩ := wakes_wakeChannels s
  exact ⟨_, _, _, _, _, _, _, _, _, _, h⟩

theorem registers_revertStaged (s : State) : Registers s s.revertStaged := ⟨_, _, _, _, _, _, _, _, _, _, rfl⟩

theorem registers_run {s t : State} {c : Instr} {f : State → State} (hexec : exec c s = .next (s.run f)) (hf : ∀ w, Registers w (f w))
    (ht : exec c s = .next t) : ∃ u, t = s.run (fun _ => u) ∧ Registers { s with ops := [] } u :=
  ⟨_, (Host.Outcome.next.inj (hexec.symm.trans ht)).symm, hf _⟩

section
variable {s t : State}

theorem registerWrite_moves {offset width : Nat} {value : DWord} (ht : exec (.registerWrite offset width value) s = .next t) :
    ∃ u, t = s.run (fun _ => u) ∧ Registers { s with ops := [] } u := by
  refine registers_run rfl (fun w => .ite (.refl w) (.ite (.refl w) (.ite (registers_host w _) (.ite (.refl w) ?_)))) ht
  split
  · exact .ite ((registers_writeHalf w _ _ _ _).trans (registers_writeHalf _ _ _ _ _)) (registers_writeHalf w _ _ _ _)
  · exact .refl w

theorem registerReadClear_moves {offset width : Nat} (ht : exec (.registerReadClear offset width) s = .next t) :
    ∃ u, t = s.run (fun _ => u) ∧ Registers { s with ops := [] } u := by
  refine registers_run rfl (fun w => .ite ?_ (.refl w)) ht
  dsimp only
  split
  · exact (registers_host w _).trans (.foldl (fun s r => registers_readRc s _ _ _ _ r) _ _)
  · exact registers_host w _

theorem latchingLowRead_moves {offset : Nat} (ht : exec (.latchingLowRead offset) s = .next t) :
    ∃ u, t = s.run (fun _ => u) ∧ Registers { s with ops := [] } u := by
  refine registers_run rfl (fun w => .ite ?_ (.refl w)) ht
  dsimp only
  split
  · exact (registers_host w _).trans (registers_cnt _ _)
  · exact (registers_host w _).trans (registers_cnt _ _)
  · exact (registers_host w _).trans (registers_cnt _ _)
  · exact (registers_host w _).trans (registers_cnt _ _)
  · exact (registers_host w _).trans (registers_cnt _ _)
  · exact registers_host w _

theorem msixUnmask_moves {vector : Nat} (ht : exec (.msixUnmask vector) s = .next t) :
    ∃ u, t = s.run (fun _ => u) ∧ Registers { s with ops := [] } u :=
  registers_run rfl (fun w => .ite (.ite (((registers_host w _).trans (registers_host _ _)).trans (registers_send _ _))
    (registers_host w _)) (.refl w)) ht

theorem evtRingTailWrite_moves {v : Word} (ht : exec (.evtRingTailWrite v) s = .next t) :
    ∃ u, t = s.run (fun _ => u) ∧ Registers { s with ops := [] } u :=
  registers_run rfl (fun w => .ite (registers_host w _) (.refl w)) ht

theorem atsInvalidation_moves {pages : List Nat} (ht : exec (.atsInvalidation pages) s = .next t) :
    ∃ u, t = s.run (fun _ => u) ∧ Registers { s with ops := [] } u :=
  registers_run rfl (fun w => .ite (registers_host w _) (.refl w)) ht

theorem doeDiscovery_moves {index : Nat} (ht : exec (.doeDiscovery index) s = .next t) :
    ∃ u, t = s.run (fun _ => u) ∧ Registers { s with ops := [] } u :=
  registers_run rfl (fun w => .ite (registers_sb w _) (.refl w)) ht

theorem heldRecordDelivery_moves (ht : exec .heldRecordDelivery s = .next t) :
    ∃ u, t = s.run (fun _ => u) ∧ Registers { s with ops := [] } u :=
  registers_run rfl (fun w => .ite (registers_deliverHeld _ w) (.refl w)) ht

theorem cfgCommitDiscard_moves (ht : exec .cfgCommitDiscard s = .next t) :
    ∃ u, t = s.run (fun _ => u) ∧ Registers { s with ops := [] } u :=
  registers_run rfl (fun w => .ite ((registers_revertStaged w).trans (registers_host _ _)) (.refl w)) ht

theorem apertureRead_moves {offset length : Nat} (ht : exec (.apertureRead offset length) s = .next t) :
    ∃ u, t = s.run (fun _ => u) ∧ Registers { s with ops := [] } u := by
  refine registers_run rfl (fun w => .ite (.ite (registers_host w _) (.ite (registers_host w _) (.ite (registers_host w _) (.ite ?_ ?_))))
    (.refl w)) ht
  · exact (registers_host w _).trans (registers_wakeChannels _)
  · exact (registers_host w _).trans (registers_wakeChannels _)
end

/-- A register or event command (R345-R366). -/
theorem register_moves {c : Instr} {s t : State}
    (hc : match c with
      | .registerWrite _ _ _ | .registerReadClear _ _ | .latchingLowRead _ | .evtRingTailWrite _ | .msixUnmask _ | .atsInvalidation _
      | .doeDiscovery _ | .heldRecordDelivery | .cfgCommitDiscard | .apertureRead _ _ => True
      | _ => False) (ht : exec c s = .next t) : ∃ u, t = s.run (fun _ => u) ∧ Registers { s with ops := [] } u := by
  cases c with
  | registerWrite _ _ _ => exact registerWrite_moves ht
  | registerReadClear _ _ => exact registerReadClear_moves ht
  | latchingLowRead _ => exact latchingLowRead_moves ht
  | evtRingTailWrite _ => exact evtRingTailWrite_moves ht
  | msixUnmask _ => exact msixUnmask_moves ht
  | atsInvalidation _ => exact atsInvalidation_moves ht
  | doeDiscovery _ => exact doeDiscovery_moves ht
  | heldRecordDelivery => exact heldRecordDelivery_moves ht
  | cfgCommitDiscard => exact cfgCommitDiscard_moves ht
  | apertureRead _ _ => exact apertureRead_moves ht
  | _ => exact False.elim hc

/-- Settles O40: the commands of each kind are compositions of changes to the parts that their relation names. -/
theorem registerDomainAndLinkCommandsTouchNoWork : Obligations.RegisterDomainAndLinkCommandsTouchNoWork := by
  refine ⟨fun s t d c hc _ ht => ?_, fun c s t hruns _ hc ht => ?_, fun c s t _ hc ht => ?_⟩
  · obtain ⟨u, rfl, domains, grid, hu, hruns, hpatterns, hothers⟩ := domain_moves hc ht
    have hothers' : ∀ e, e ≠ d → (s.run fun _ => u).domain e = s.domain e := fun e he => (State.run_domain s _ e).trans (hothers e he)
    refine ⟨hothers', ?_⟩
    clear hothers hothers' hc ht
    subst hu
    exact ⟨by rw [State.run_pow], by rw [State.run_pow], State.run_q s _, (congrArg Grid.runs (State.run_grid s _)).trans hruns,
      (congrArg Grid.patterns (State.run_grid s _)).trans hpatterns, State.run_nl s _, run_mem_of_no_ops rfl, State.run_dram s _,
      State.run_host s _, ⟨State.run_board s _, State.run_nv_same s _ rfl, State.run_boot s _, State.run_fw s _⟩, State.run_log s _,
      State.run_cnt s _, State.run_rng s _, State.run_out s _⟩
  · obtain ⟨u, rfl, hu⟩ := joined_connects hruns hc ht
    exact stands_of_connects_run hu
  · obtain ⟨u, rfl, host, dram, pow, cnt, out, sb, slots, copies, gs, ports, rfl⟩ := register_moves hc ht
    have hdbg : ∀ w : State, w.dbg = s.dbg → (s.run fun _ => w).dbg = s.dbg := fun w hw => by
      simp only [State.run, State.occasions_dbg, hw]
    exact ⟨by rw [State.run_q], by rw [State.run_q], by rw [State.run_q], by rw [State.run_grid], by rw [State.run_grid],
      run_mem_of_no_ops rfl, State.run_nv_same s _ rfl, State.run_log s _, State.run_rng s _, State.run_fw s _, State.run_boot s _,
      State.run_board s _, hdbg _ rfl, by rw [State.run_nl], by rw [State.run_nl], by rw [State.run_nl]⟩

end Sys2Proof.Machine
end

section
/-! SUPPORT. What a report, a change of a run's engines and a hold leave of the device. -/

namespace Sys2Proof.Machine

/-! ### Reports -/

/-- Only what the device tells moves: the host port, what has been sent, the fault log with its flash copy, the sideband and the
counters. -/
def Reports (s t : State) : Prop :=
  ∃ host out log nv sb cnt, t = { s with host := host, out := out, log := log, nv := nv, sb := sb, cnt := cnt }

theorem Reports.refl (s : State) : Reports s s := ⟨_, _, _, _, _, _, rfl⟩

theorem Reports.trans {s t u : State} (h : Reports s t) (k : Reports t u) : Reports s u := by
  obtain ⟨_, _, _, _, _, _, rfl⟩ := h
  obtain ⟨_, _, _, _, _, _, rfl⟩ := k
  exact ⟨_, _, _, _, _, _, rfl⟩

theorem Reports.ite {c : Prop} [Decidable c] {s t u : State} (ht : Reports s t) (hu : Reports s u) : Reports s (if c then t else u) := by
  split
  · exact ht
  · exact hu

theorem Reports.foldl {α : Type} {f : State → α → State} (h : ∀ s x, Reports s (f s x)) (xs : List α) (s : State) :
    Reports s (xs.foldl f s) := by
  induction xs generalizing s with
  | nil => exact .refl s
  | cons x xs ih => exact (h s x).trans (ih _)

theorem Reports.grid {s t : State} (h : Reports s t) : t.grid = s.grid := by
  obtain ⟨_, _, _, _, _, _, rfl⟩ := h
  rfl

theorem Reports.q {s t : State} (h : Reports s t) : t.q = s.q := by
  obtain ⟨_, _, _, _, _, _, rfl⟩ := h
  rfl

theorem Reports.nl {s t : State} (h : Reports s t) : t.nl = s.nl := by
  obtain ⟨_, _, _, _, _, _, rfl⟩ := h
  rfl

theorem Reports.mem {s t : State} (h : Reports s t) : t.mem = s.mem := by
  obtain ⟨_, _, _, _, _, _, rfl⟩ := h
  rfl

theorem Reports.ops {s t : State} (h : Reports s t) : t.ops = s.ops := by
  obtain ⟨_, _, _, _, _, _, rfl⟩ := h
  rfl

theorem Reports.engine {s t : State} (h : Reports s t) (k : Nat) : t.engine k = s.engine k := by
  rw [State.engine, h.grid]
  rfl

theorem reports_host (s : State) (h : HostPort) : Reports s { s with host := h } := ⟨_, _, _, _, _, _, rfl⟩

theorem reports_send (s : State) (x : Out) : Reports s (s.send x) := ⟨_, _, _, _, _, _, rfl⟩

theorem reports_hostWrite (s : State) (pasid : Option Nat) (a : Nat) (bs : List Byte) : Reports s (s.hostWrite pasid a bs) :=
  .ite (reports_send s _) (.refl s)

theorem reports_signal (s : State) (v : Nat) : Reports s (s.signal v) :=
  .ite (reports_host s _) (.ite (reports_send s _) (.refl s))

theorem reports_ringWrite (s : State) (e : Event) : Reports s (s.ringWrite e) := by
  obtain ⟨w, hw⟩ : ∃ w, w = s.hostWrite none (s.host.evtBase.force / 4096 * 4096 + 64 * (s.host.evtHead % s.host.ringSize)) e.encode := ⟨_, rfl⟩
  have hhead : Reports s { w with host := { w.host with evtHead := (s.host.evtHead + 1) % 2 ^ 32 } } :=
    (hw ▸ reports_hostWrite s _ _ _ : Reports s w).trans (reports_host w _)
  unfold State.ringWrite
  dsimp only
  rw [← hw]
  exact .ite (hhead.trans ((reports_host _ _).trans (reports_signal _ _))) hhead

theorem reports_holdEvent (s : State) (e : Event) : Reports s (s.holdEvent e) := by
  unfold State.holdEvent
  refine .ite (reports_host s _) ?_
  dsimp only
  split
  · split
    · exact reports_host s _
    · exact reports_host s _
  · exact reports_host s _

theorem reports_event (s : State) (cls code source : Nat) (tick : Option Nat) (detail : List Byte) :
    Reports s (s.event cls code source tick detail) := by
  unfold State.event
  exact .ite (((reports_host s _).trans (reports_ringWrite _ _)).trans (reports_host _ _)) ((reports_host s _).trans (reports_holdEvent _ _))

theorem reports_logFault (s : State) (kind source : Nat) (queue : Option Nat) (place : Nat) : Reports s (s.logFault kind source queue place) := by
  have halert (s : State) (b : Byte) : Reports s (s.alert b) := .ite ⟨_, _, _, _, _, _, rfl⟩ (.trans ⟨_, _, _, _, _, _, rfl⟩ (reports_send _ _))
  have hoccasions (s : State) (es : List PlatformEvent) : Reports s (s.occasions es) := by
    unfold State.occasions
    split
    · exact .refl s
    · exact ⟨_, _, _, _, _, _, rfl⟩
  unfold State.logFault
  exact .ite (.trans ⟨_, _, _, _, _, _, rfl⟩ ((halert _ 1).trans (hoccasions _ _))) ⟨_, _, _, _, _, _, rfl⟩

/-! ### The engines of a run take a state -/

section
variable (s : State) (r : Run) (st cause detail kind : Nat)

/-- Only engines, the record of runs and tasks move. -/
theorem setRunState_moves : ∃ gs rs ts, s.setRunState r st cause detail kind =
    { s with grid := { s.grid with engines := gs, runs := rs }, q := { s.q with tasks := ts } } := by
  obtain ⟨w, hw⟩ : ∃ w, w = s.setEngines r.engines fun e => { e with state := st, cause := cause, detail := detail, pauseKind := kind } := ⟨_, rfl⟩
  obtain ⟨gs, hgs⟩ : ∃ gs, w = { s with grid := { s.grid with engines := gs } } := ⟨_, hw.trans (State.setEngines_eq ..)⟩
  unfold State.setRunState
  dsimp only
  rw [← hw, hgs]
  split
  · exact ⟨_, _, _, rfl⟩
  · exact ⟨_, _, _, rfl⟩

variable {s r}

theorem engine_setRunState (k : Nat) : (s.setRunState r st cause detail kind).engine k
    = if k ∈ r.engines ∧ k < s.grid.engines.length then { s.engine k with state := st, cause := cause, detail := detail, pauseKind := kind }
      else s.engine k := by
  have h := State.engine_setEngines (nodup_engines r) (fun e : Engine => { e with state := st, cause := cause, detail := detail, pauseKind := kind }) s k
  rw [← h]
  unfold State.setRunState
  dsimp only
  split <;> rfl

theorem engine_setRunState_same (hlen : s.grid.engines.length = 8) {k : Nat} (hk : k ∈ r.engines) :
    (s.setRunState r st cause detail kind).engine k = { s.engine k with state := st, cause := cause, detail := detail, pauseKind := kind } := by
  rw [engine_setRunState, if_pos ⟨hk, hlen.symm ▸ lt_of_mem_engines hk⟩]

theorem runs_setRunState_sole {x : Run} (hruns : s.grid.runs = [x]) (href : x.ref = r.ref) :
    (s.setRunState r st cause detail kind).grid.runs = [if st = 3 then x else { x with clock := .start }] := by
  have hset : ∀ f : Engine → Engine, (s.setEngines r.engines f).grid.runs = [x] := fun f => by
    rw [State.setEngines_eq]
    exact hruns
  unfold State.setRunState
  dsimp only
  split
  · exact hset _
  · have h := runs_setRun_sole (s := (s.setEngines r.engines fun e : Engine =>
      { e with state := st, cause := cause, detail := detail, pauseKind := kind }).setTask r.ref
        fun t => if st = 3 then t else { t with wholeInterval := false }) (r := x) (hset _) fun x => { x with clock := .start }
    rw [← href]
    rw [href] at h ⊢
    exact h
end

/-- A run that is held: its engines are HELD, and the events are raised (R367, R396). -/
theorem holdRun_reports {s : State} {ref : TaskRef} {r : Run} (hrun : s.run? ref = some r) (cause detail : Nat) :
    Reports (s.setRunState r 6 cause detail 0) (s.holdRun ref cause detail) := by
  unfold State.holdRun
  rw [hrun]
  exact .foldl (fun s e => reports_event s 2 1 _ _ _) _ _

theorem length_engines_setRunState (s : State) (r : Run) (st cause detail kind : Nat) :
    (s.setRunState r st cause detail kind).grid.engines.length = s.grid.engines.length := by
  have h := State.length_setEngines s r.engines fun e => { e with state := st, cause := cause, detail := detail, pauseKind := kind }
  rw [← h]
  unfold State.setRunState
  dsimp only
  split <;> rfl

section
variable {s : State} {r : Run} (hruns : s.grid.runs = [r])
include hruns

/-- What a hold does to a device with one run. -/
theorem holdRun_sole (hlen : s.grid.engines.length = 8) (cause detail : Nat) :
    (s.holdRun r.ref cause detail).grid.runs = [{ r with clock := .start }]
      ∧ (∀ k ∈ r.engines, (s.holdRun r.ref cause detail).engine k = { s.engine k with state := 6, cause := cause, detail := detail, pauseKind := 0 })
      ∧ (s.holdRun r.ref cause detail).nl = s.nl ∧ (s.holdRun r.ref cause detail).ops = s.ops
      ∧ (s.holdRun r.ref cause detail).grid.patterns = s.grid.patterns := by
  have hreports := holdRun_reports (run?_sole hruns) cause detail
  obtain ⟨gs, rs, ts, hmoves⟩ := setRunState_moves s r 6 cause detail 0
  refine ⟨?_, fun k hk => ?_, ?_, ?_, ?_⟩
  · rw [hreports.grid, runs_setRunState_sole 6 cause detail 0 hruns rfl]
    rfl
  · rw [hreports.engine, engine_setRunState_same 6 cause detail 0 hlen hk]
  · rw [hreports.nl, hmoves]
  · rw [hreports.ops, hmoves]
  · rw [hreports.grid, hmoves]
end

end Sys2Proof.Machine
end

section
/-! SUPPORT. Losses, launches and rehosts of a run over several devices. -/

namespace Sys2Proof.Machine

/-! ### A node is lost -/

/-- A run that neither waits for a pause nor for an end stops when one of its nodes is lost. -/
theorem loseFor_sole {s : State} {r : Run} (hruns : s.grid.runs = [r]) (hlen : s.grid.engines.length = 8) {n : Nat}
    (hbegun : r.begun = true) (hended : r.ended = none) (hn : n ∈ r.nodes) (hwants : r.wants = []) :
    ∃ x, (s.loseFor n r.ref).grid.runs = [x] ∧ x.ref = r.ref ∧ x.ticking = false ∧ x.work = [] ∧ x.tick = r.tick ∧ n ∈ x.lost
      ∧ n ∉ x.nodes ∧ (s.loseFor n r.ref).ops = s.ops := by
  obtain ⟨x, hx⟩ : ∃ x, x = { r.abandonTick with lost := addNew n r.lost, nodes := r.nodes.filter (· != n) } := ⟨_, rfl⟩
  obtain ⟨w, hw⟩ : ∃ w, w = s.setRun r.ref fun r => { r.abandonTick with lost := addNew n r.lost, nodes := r.nodes.filter (· != n) } := ⟨_, rfl⟩
  have hwruns : w.grid.runs = [x] := by
    rw [hw, hx]
    exact runs_setRun_sole hruns _
  have hwlen : w.grid.engines.length = 8 := by
    rw [hw]
    exact hlen
  have hxref : x.ref = r.ref := by rw [hx]; rfl
  have hxwants : x.wants = [] := by rw [hx]; exact hwants
  have hstep : s.loseFor n r.ref = if (w.continues x || (w.engine x.lead).state == 6) = true then w else w.holdRun x.ref 6 0 := by
    have hrun : w.run? r.ref = some x := hxref ▸ run?_sole hwruns
    unfold State.loseFor
    rw [run?_sole hruns]
    dsimp only
    rw [if_neg (by simp [hbegun, hended, hn]), ← hw, hrun, hwants]
    dsimp only [firstKill, wantedPause, List.findSome?_nil, List.filterMap_nil]
    rw [if_neg (by simp [hxwants]), hxref]
  have hlost : n ∈ x.lost := by
    rw [hx]
    show n ∈ addNew n r.lost
    unfold addNew
    split
    case isTrue h => exact List.contains_iff_mem.mp h
    case isFalse => exact List.mem_append_right _ (List.mem_singleton_self n)
  have hnodes : n ∉ x.nodes := by
    rw [hx]
    exact fun h => by simpa using (List.mem_filter.mp h).2
  have hops : w.ops = s.ops := by rw [hw]; rfl
  rw [hstep]
  split
  · exact ⟨x, hwruns, hxref, by rw [hx]; rfl, by rw [hx]; rfl, by rw [hx]; rfl, hlost, hnodes, hops⟩
  · obtain ⟨hruns', -, -, hops', -⟩ := holdRun_sole hwruns hwlen 6 0
    exact ⟨_, hruns', hxref, by rw [hx]; rfl, by rw [hx]; rfl, by rw [hx]; rfl, hlost, hnodes, hops'.trans hops⟩

theorem peerLost_stops {s : State} {r : Run} {i : Nat} {a : Arrival} {m : LostMsg} (hruns : s.grid.runs = [r])
    (hlen : s.grid.engines.length = 8) (hhears : s.hears i = true) (hi : i < s.nl.ports.length) (hgood : LinkFrame.good a.frame = true)
    (htype : a.frame.type = 4) (hseq : a.frame.seq = (s.port i).recvSeq) (hm : PeerMsg.decode a.frame.payload = some (.peerLost m))
    (hnew : m ∉ s.nl.lost) (hdetector : m.detector ≠ s.nodeCode) (hbegun : r.begun = true) (hended : r.ended = none)
    (hn : m.lost ∈ r.nodes) (hwants : r.wants = []) :
    ∃ t, exec (.peerLost i a) s = .next t ∧ ∃ x, t.grid.runs = [x] ∧ x.ref = r.ref ∧ x.ticking = false ∧ x.work = [] ∧ x.tick = r.tick
      ∧ m.lost ∈ x.lost ∧ m.lost ∉ x.nodes ∧ t.mem = s.mem := by
  obtain ⟨w, hw⟩ : ∃ w, w = s.heard i a (.peerLost m) := ⟨_, rfl⟩
  obtain ⟨ps, fl, hnl⟩ := heard_nl (s := s) (i := i) (a := a) (m := .peerLost m)
  obtain ⟨l, hlinks⟩ := links_heard (s := s) (i := i) (a := a) (m := .peerLost m)
  rw [← hw] at hnl hlinks
  have hwruns : w.grid.runs = [r] := by rw [hlinks]; exact hruns
  have hwlen : w.grid.engines.length = 8 := by rw [hlinks]; exact hlen
  have hwops : w.ops = [] := by rw [hlinks]
  have hwlost : w.nl.lost = s.nl.lost := by rw [hnl]
  have hwnode : w.nodeCode = s.nodeCode := by rw [State.nodeCode, hnl]; rfl
  obtain ⟨y, hy⟩ : ∃ y : State, y = { w with nl := { w.nl with
    lost := w.nl.lost ++ [m]
    arms := w.nl.arms.filter fun x => x.origin != m.lost || w.grid.runs.any fun r => r.tag == x.tag && r.begun } } := ⟨_, rfl⟩
  have hexec : exec (.peerLost i a) s = .next (s.run fun _ => y.loseFor m.lost r.ref) :=
    message_lands hhears hi hgood htype hseq rfl hm rfl (by
      rw [← hw]
      dsimp only [State.takeLost]
      rw [if_neg (by simpa [hwlost, hwnode] using ⟨hnew, hdetector⟩)]
      dsimp only [State.loseNode]
      rw [hy, hwruns]
      rfl)
  obtain ⟨x, hxruns, href, hticking, hwork, htick, hlost, hnodes, hops⟩ :=
    loseFor_sole (s := y) (by rw [hy]; exact hwruns) (by rw [hy]; exact hwlen) hbegun hended hn hwants
  refine ⟨_, hexec, x, ?_, href, hticking, hwork, htick, hlost, hnodes, run_mem_of_no_ops ?_⟩
  · rw [State.run_grid]
    exact hxruns
  · rw [hops, hy]
    exact hwops

/-! ### Launch votes -/

theorem launchVote_clash {s : State} {r : Run} {p : Pattern} (h : s.selfClash = true) : s.launchVote r p = 2 := by
  unfold State.launchVote
  dsimp only
  exact if_pos (by rw [h]; rfl)

theorem launchVote_missing {s : State} {r : Run} {p : Pattern} (hself : s.selfClash = false)
    (harms : ∀ a ∈ s.armsOf r.tag, a.origin ∉ s.clashes) (hbad : (s.badShard r.tag p.header.shards).isSome = true) :
    s.launchVote r p = 0 := by
  unfold State.launchVote
  dsimp only
  rw [if_neg (by simpa [hself] using harms)]
  exact if_pos hbad

/-- A run whose launch attempt was decided against is HELD with a cause. -/
theorem held_by_decision {s : State} {r : Run} (hruns : s.grid.runs = [r]) (hlen : s.grid.engines.length = 8) (hmask : r.mask % 256 ≠ 0)
    (cause detail : Nat) {t : State}
    (ht : t = if (s.engine r.lead).state = 6 then s.setRunState r 6 cause detail 0 else s.holdRun r.ref cause detail) :
    (t.engine r.lead).state = 6 ∧ (t.engine r.lead).cause = cause ∧ t.nl = s.nl := by
  subst ht
  split
  · obtain ⟨gs, rs, ts, hmoves⟩ := setRunState_moves s r 6 cause detail 0
    refine ⟨?_, ?_, by rw [hmoves]⟩
    · rw [engine_setRunState_same 6 cause detail 0 hlen (lead_mem hmask)]
    · rw [engine_setRunState_same 6 cause detail 0 hlen (lead_mem hmask)]
  · obtain ⟨-, heng, hnl, -, -⟩ := holdRun_sole hruns hlen cause detail
    refine ⟨?_, ?_, hnl⟩
    · rw [heng _ (lead_mem hmask)]
    · rw [heng _ (lead_mem hmask)]

/-- This device's vote in a launch attempt. -/
def State.ownVote (s : State) (r : Run) (k : Nat) : VoteMsg :=
  { tag := r.tag, index := r.attempt, slot := 0, kind := 3, value := k, origin := s.nodeCode }

theorem mem_addNew_iff {α : Type} [BEq α] [LawfulBEq α] {x y : α} {xs : List α} : y ∈ addNew x xs ↔ y = x ∨ y ∈ xs := by
  unfold addNew
  split
  case isTrue h =>
    exact ⟨.inr, fun hy => hy.elim (fun hyx => hyx ▸ List.contains_iff_mem.mp h) id⟩
  case isFalse => simp [or_comm]

section
variable {s : State} {r : Run} {p : Pattern} (hruns : s.grid.runs = [r]) (hp : s.pattern r.pattern = some p) {k : Nat}
  (hvote : s.launchVote r p = k)
include hruns hp hvote

/-- A vote in a launch attempt is noted in the run and kept with the others. -/
theorem castLaunch_casts : (s.castLaunch r.ref).grid = { s.grid with runs := [{ r with voted := some k }] }
    ∧ (s.castLaunch r.ref).ops = s.ops
    ∧ ∃ ps fl n, (s.castLaunch r.ref).nl = { s.nl with ports := ps, flooded := fl, sequence := n, votes := addNew (s.ownVote r k) s.nl.votes } := by
  obtain ⟨w, hw⟩ : ∃ w, w = s.setRun r.ref fun r => { r with voted := some k } := ⟨_, rfl⟩
  have hwgrid : w.grid = { s.grid with runs := [{ r with voted := some k }] } := by
    have hwruns := runs_setRun_sole hruns fun r => { r with voted := some k }
    rw [hw, ← hwruns]
    rfl
  obtain ⟨y, hy⟩ : ∃ y : State, y = { w with nl := { w.nl with votes := addNew (s.ownVote r k) w.nl.votes } } := ⟨_, rfl⟩
  have hcast : s.castLaunch r.ref = y.flood none (.vote (s.ownVote r k)) := by
    unfold State.castLaunch
    rw [run?_sole hruns]
    dsimp only
    rw [hp]
    dsimp only
    rw [hvote, ← hw, hy]
    rfl
  obtain ⟨ps, fl, n, hflood, -⟩ := tells_flood y none (.vote (s.ownVote r k))
  rw [hcast, hflood]
  refine ⟨?_, ?_, ps, fl, n, ?_⟩
  · rw [hy]
    exact hwgrid
  · rw [hy, hw]
    rfl
  · rw [hy, hw]
    rfl

variable (hlive : s.live = true) (harmed : r.armed = true) (hvoted : r.voted = none) (hlaunch : r.blk.launch.toNat ≤ s.cnt.stitch)
include hlive harmed hvoted hlaunch

/-- A launch attempt casts this device's vote; what the votes held then say is done (R288). -/
theorem launchAttempt_lands (v : HostView) : ∃ w : State, exec (.launchAttempt r.tag v) s = .next (s.run fun _ => w.decideLaunch v r.ref)
    ∧ w.grid = { s.grid with runs := [{ r with voted := some k }] } ∧ w.ops = []
    ∧ ∃ ps fl n, w.nl = { s.nl with ports := ps, flooded := fl, sequence := n, votes := addNew (s.ownVote r k) s.nl.votes } := by
  obtain ⟨u, hu⟩ : ∃ u : State, u = { s with ops := [] } := ⟨_, rfl⟩
  have huruns : u.grid.runs = [r] := by rw [hu]; exact hruns
  have hcasts := castLaunch_casts (s := u) huruns (by rw [hu]; exact hp) (k := k) (by rw [hu]; exact hvote)
  refine ⟨u.castLaunch r.ref, exec_lands_live rfl hlive ?_, ?_⟩
  · rw [← hu]
    have hfind : ((u.runsTagged r.tag).find? fun r => r.armed && r.voted.isNone && decide (r.blk.launch.toNat ≤ u.cnt.stitch)) = some r := by
      have hcnt : u.cnt = s.cnt := by rw [hu]
      simp [State.runsTagged, huruns, harmed, hvoted, hcnt, hlaunch]
    rw [hfind]
  · rw [hu] at hcasts ⊢
    exact hcasts

variable (hlen : s.grid.engines.length = 8) (hmask : r.mask % 256 ≠ 0) (v : HostView)
include hlen hmask

/-- A launch attempt in which a vote is not 1 leaves the engines HELD, with cause 7 where one of the votes is 2, else 6. -/
theorem launchAttempt_holds (hk : k ≠ 1) {cause : Nat}
    (hcause : (if ((addNew (s.ownVote r k) s.nl.votes).filter fun v => v.kind == 3 && v.tag == r.tag && v.index == r.attempt).any
      fun x => x.value == 2 then 7 else 6) = cause) :
    ∃ t, exec (.launchAttempt r.tag v) s = .next t ∧ (t.engine r.lead).state = 6
      ∧ (t.engine r.lead).cause = cause ∧ ∃ x ∈ t.nl.votes, x.tag = r.tag ∧ x.kind = 3 ∧ x.index = r.attempt ∧ x.value = k := by
  obtain ⟨w, hexec, hgrid, -, ps, fl, n, hnl⟩ := launchAttempt_lands hruns hp hvote hlive harmed hvoted hlaunch v
  obtain ⟨x, hx⟩ : ∃ x, x = { r with voted := some k } := ⟨_, rfl⟩
  have hwruns : w.grid.runs = [x] := by rw [hgrid, hx]
  have hwp : w.pattern x.pattern = some p := by
    rw [State.pattern, hgrid, hx]
    exact hp
  have hxref : x.ref = r.ref := by rw [hx]
  have hlead : x.lead = r.lead := by rw [hx]; rfl
  have hvotes : w.launchVotes x = (addNew (s.ownVote r k) s.nl.votes).filter fun v => v.kind == 3 && v.tag == r.tag && v.index == r.attempt := by
    rw [State.launchVotes, hnl, hx]
  have hmem : s.ownVote r k ∈ w.launchVotes x := by
    rw [hvotes, List.mem_filter]
    exact ⟨mem_addNew_iff.mpr (.inl rfl), by simp [State.ownVote]⟩
  have hany : ((w.launchVotes x).any fun x => x.value != 1) = true :=
    List.any_eq_true.mpr ⟨_, hmem, by simpa [State.ownVote] using hk⟩
  have hdecide : ∃ detail, w.decideLaunch v r.ref = if (w.engine x.lead).state = 6 then w.setRunState x 6 cause detail 0 else w.holdRun x.ref cause detail := by
    have hcause' : (if (w.launchVotes x).any fun x => x.value == 2 then 7 else 6) = cause := by rw [hvotes]; exact hcause
    unfold State.decideLaunch
    rw [← hxref, run?_sole hwruns]
    dsimp only
    rw [hwp]
    dsimp only
    rw [if_neg (by simp [hx, harmed]), if_pos hany, hcause']
    exact ⟨_, rfl⟩
  obtain ⟨detail, hdecide⟩ := hdecide
  obtain ⟨hstate, hcause, hsame⟩ := held_by_decision hwruns (by rw [hgrid]; exact hlen) (by rw [hx]; exact hmask) cause detail hdecide
  rw [hlead] at hstate hcause
  refine ⟨_, hexec, ?_, ?_, s.ownVote r k, ?_, rfl, rfl, rfl, rfl⟩
  · rw [State.run_engine]
    exact hstate
  · rw [State.run_engine]
    exact hcause
  · rw [State.run_nl, hsame, hnl]
    exact mem_addNew_iff.mpr (.inl rfl)

omit hlen hmask in
/-- A launch attempt in which a device that armed has not voted yet leaves the run to wait. -/
theorem launchAttempt_waits (hk : k = 1) (hothers : ∀ x ∈ s.nl.votes, x.tag = r.tag → x.kind = 3 → x.value = 1) {n : Nat}
    (hn : n ∈ s.armNodes r.tag) (hself : n ≠ s.nodeCode) (hmissing : ∀ x ∈ s.nl.votes, x.tag = r.tag → x.origin ≠ n) :
    ∃ t, exec (.launchAttempt r.tag v) s = .next t ∧ (∃ x, t.grid.runs = [x] ∧ x.voted = some 1 ∧ x.begun = r.begun)
      ∧ (∃ x ∈ t.nl.votes, x.tag = r.tag ∧ x.kind = 3 ∧ x.index = r.attempt ∧ x.value = 1) ∧ t.grid.engines = s.grid.engines := by
  subst hk
  obtain ⟨w, hexec, hgrid, -, ps, fl, sq, hnl⟩ := launchAttempt_lands hruns hp hvote hlive harmed hvoted hlaunch v
  obtain ⟨x, hx⟩ : ∃ x, x = { r with voted := some 1 } := ⟨_, rfl⟩
  have hwruns : w.grid.runs = [x] := by rw [hgrid, hx]
  have hwp : w.pattern x.pattern = some p := by
    rw [State.pattern, hgrid, hx]
    exact hp
  have hxref : x.ref = r.ref := by rw [hx]
  have hvotes : ∀ y ∈ w.launchVotes x, y = s.ownVote r 1 ∨ (y ∈ s.nl.votes ∧ y.tag = r.tag ∧ y.kind = 3) := by
    intro y hy
    rw [State.launchVotes, hnl, hx, List.mem_filter, mem_addNew_iff] at hy
    obtain ⟨hy, hkeys⟩ := hy
    simp only [Bool.and_eq_true, beq_iff_eq] at hkeys
    exact hy.imp id fun h => ⟨h, hkeys.1.2, hkeys.1.1⟩
  have hnone : ¬ ((w.launchVotes x).any fun x => x.value != 1) = true := by
    rw [List.any_eq_true]
    rintro ⟨y, hy, hvalue⟩
    obtain rfl | ⟨hmem, htag, hkind⟩ := hvotes y hy
    · simp [State.ownVote] at hvalue
    · simp [hothers y hmem htag hkind] at hvalue
  have hwait : ¬ (x.voted = some 1 ∧ ((w.armNodes x.tag).all fun n => (w.launchVotes x).any fun x => x.origin == n) = true) := by
    rintro ⟨-, hall⟩
    have harm : n ∈ w.armNodes x.tag := by
      rw [State.armNodes, State.armsOf, hnl, hx]
      exact hn
    obtain ⟨y, hy, horigin⟩ := List.any_eq_true.mp (List.all_eq_true.mp hall n harm)
    obtain rfl | ⟨hmem, htag, -⟩ := hvotes y hy
    · exact hself (beq_iff_eq.mp horigin).symm
    · exact hmissing y hmem htag (beq_iff_eq.mp horigin)
  have hdecide : w.decideLaunch v r.ref = w := by
    unfold State.decideLaunch
    rw [← hxref, run?_sole hwruns]
    dsimp only
    rw [hwp]
    dsimp only
    rw [if_neg (by simp [hx, harmed]), if_neg hnone, if_neg hwait]
  rw [hdecide] at hexec
  refine ⟨_, hexec, ⟨x, ?_, ?_, ?_⟩, ⟨s.ownVote r 1, ?_, rfl, rfl, rfl, rfl⟩, ?_⟩
  · rw [State.run_grid]
    exact hwruns
  · rw [hx]
  · rw [hx]
  · rw [State.run_nl, hnl]
    exact mem_addNew_iff.mpr (.inl rfl)
  · rw [State.run_grid, hgrid]
end

/-! ### Rehosts -/

@[simp] theorem State.writeDram_grid (s : State) (a : Nat) (bs : List Byte) : (s.writeDram a bs).grid = s.grid := by
  by_cases hbs : bs.isEmpty = true
  · simp [State.writeDram, hbs]
  · simp [State.writeDram, State.write, hbs]

theorem grid_foldl {α : Type} {f : State → α → State} (h : ∀ s x, (f s x).grid = s.grid) (xs : List α) (s : State) :
    (xs.foldl f s).grid = s.grid := by
  induction xs generalizing s with
  | nil => rfl
  | cons x xs ih => rw [List.foldl_cons, ih, h]

@[simp] theorem State.spoolOut_grid (s : State) (r : Run) (p : Pattern) (k : Nat) : (s.spoolOut r p k).grid = s.grid := by
  unfold State.spoolOut
  refine grid_foldl (fun s v => ?_) _ s
  split
  · exact State.writeDram_grid ..
  · rfl

/-- A weir that starts afresh leaves the rest of the run. -/
theorem startWeir_rest (r : Run) (p : Pattern) (t : Nat) : ∃ w d l, r.startWeir p t = { r with weir := w, due := d, later := l } := ⟨_, _, _, rfl⟩

theorem rewindTo_tick (r : Run) (p : Pattern) (h : Hem) : (r.rewindTo p h).ref = r.ref ∧ (r.rewindTo p h).tick = h.tick
    ∧ (r.rewindTo p h).rungMap = h.rungMap ∧ (r.rewindTo p h).ticking = false ∧ (r.rewindTo p h).mask = r.mask := by
  unfold Run.rewindTo
  dsimp only
  obtain ⟨_, _, _, heq⟩ := startWeir_rest _ p h.tick
  rw [heq]
  exact ⟨rfl, rfl, rfl, rfl, rfl⟩

section
variable {s : State} {r : Run} {p : Pattern} (hruns : s.grid.runs = [r]) (hp : s.pattern r.pattern = some p)
include hruns hp

theorem rewindRun_sole (h : Hem) : ∃ x, (s.rewindRun r.ref h).grid.runs = [x] ∧ (s.rewindRun r.ref h).grid.engines = s.grid.engines
    ∧ x.ref = r.ref ∧ x.tick = h.tick ∧ x.rungMap = h.rungMap ∧ x.ticking = false := by
  obtain ⟨p', hp'⟩ : ∃ p', p' = (if h.cores.isEmpty then p else { p with cores := h.cores }).recheck := ⟨_, rfl⟩
  obtain ⟨x, hx⟩ : ∃ x, x = r.rewindTo p' h := ⟨_, rfl⟩
  obtain ⟨w, hw⟩ : ∃ w, w = s.setRun r.ref fun _ => x := ⟨_, rfl⟩
  obtain ⟨y, hy⟩ : ∃ y : State, y = { w with grid := { w.grid with patterns := modifyIf (fun x => x.id == p.id) (fun _ => p') w.grid.patterns } } :=
    ⟨_, rfl⟩
  have hyruns : y.grid.runs = [x] := by
    rw [hy, hw]
    exact runs_setRun_sole hruns _
  have hyengines : y.grid.engines = s.grid.engines := by
    rw [hy, hw]
    rfl
  have hgrid : (s.rewindRun r.ref h).grid = y.grid := by
    unfold State.rewindRun
    rw [run?_sole hruns]
    dsimp only
    rw [hp]
    dsimp only
    rw [← hp', ← hx, ← hw, ← hy]
    split
    · exact grid_foldl (fun s k => State.spoolOut_grid ..) _ _
    · rfl
  obtain ⟨href, htick, hmap, hticking, -⟩ := rewindTo_tick r p' h
  exact ⟨x, hgrid ▸ hyruns, hgrid ▸ hyengines, hx ▸ href, hx ▸ htick, hx ▸ hmap, hx ▸ hticking⟩

omit hruns hp in
theorem restoreShards_nil (s : State) (ref : TaskRef) : s.restoreShards ref [] = s := by
  unfold State.restoreShards
  split
  · rfl
  · split
    · rfl
    · rfl

/-- A paused run goes on, after its rehost, from the tick of the hem, and stays paused. -/
theorem continueRun_paused (h : Hem) (hstate : (s.engine r.lead).state = 5) :
    ∃ x, (s.continueRun r.ref h []).grid.runs = [x] ∧ (s.continueRun r.ref h []).grid.engines = s.grid.engines ∧ x.ref = r.ref
      ∧ x.lost = [] ∧ x.tick = h.tick ∧ x.rungMap = h.rungMap ∧ x.ticking = false := by
  obtain ⟨w, hw⟩ : ∃ w : State, w = { s.forgetRun r.tag with q := { (s.forgetRun r.tag).q with hangReset := true } } := ⟨_, rfl⟩
  have hwgrid : w.grid = s.grid := by
    rw [hw]
    rfl
  obtain ⟨x, hxruns, hxengines, href, htick, hmap, hticking⟩ :=
    rewindRun_sole (s := w) (by rw [hwgrid]; exact hruns) (by rw [State.pattern, hwgrid]; exact hp) h
  obtain ⟨u, hu⟩ : ∃ u, u = w.rewindRun r.ref h := ⟨_, rfl⟩
  rw [← hu] at hxruns hxengines
  obtain ⟨y, hy⟩ : ∃ y, y = u.setRun r.ref fun r =>
    { r with lost := [], nodes := w.armNodes r.tag, routes := routesAmong w.edges (w.armNodes r.tag), redo := [] } := ⟨_, rfl⟩
  have hyengines : y.grid.engines = s.grid.engines := by
    rw [hy]
    exact hxengines.trans (by rw [hwgrid])
  have hcontinue : s.continueRun r.ref h [] = y := by
    have hpaused : (y.engine r.lead).state = 5 := by
      rw [State.engine, hyengines]
      exact hstate
    unfold State.continueRun
    rw [run?_sole hruns]
    dsimp only
    rw [← hw, restoreShards_nil, ← hu, ← hy]
    exact if_pos hpaused
  have hyruns : y.grid.runs =
      [{ x with lost := [], nodes := w.armNodes x.tag, routes := routesAmong w.edges (w.armNodes x.tag), redo := [] }] := by
    rw [hy, ← href]
    exact runs_setRun_sole hxruns _
  rw [hcontinue]
  exact ⟨_, hyruns, hyengines, href, rfl, htick, hmap, hticking⟩

variable (hlive : s.live = true) (hbegun : r.begun = true) (hlost : r.lost ≠ []) (hended : r.ended = none) (hrehost : r.noRehost = false)
  (hcontinues : s.continues r = true) (hstate : (s.engine r.lead).state ≠ 6)
include hlive hbegun hlost hended hrehost hcontinues hstate

omit hlive hp hcontinues hstate in
theorem rehost_finds : ((s.runsTagged r.tag).find? fun r => r.begun && !r.lost.isEmpty && r.ended.isNone && !r.noRehost) = some r := by
  have hnonempty : r.lost.isEmpty = false := by simpa using hlost
  simp [State.runsTagged, hruns, hbegun, hnonempty, hended, hrehost]

/-- A run of which no hem was acknowledged by every lost shard's buddy is held. -/
theorem rehost_holds (hlen : s.grid.engines.length = 8) (hmask : r.mask % 256 ≠ 0)
    (hhem : s.rewindHem r (s.lostShards r p) (fun t n => s.buddyOf r.tag t n) = none) :
    ∃ t, exec (.rehost r.tag) s = .next t
      ∧ (t.engine r.lead).state = 6 ∧ (t.engine r.lead).cause = 6 ∧ t.grid.runs = [{ r with clock := .start }] := by
  obtain ⟨w, hw⟩ : ∃ w : State, w = { s with ops := [] } := ⟨_, rfl⟩
  have hwruns : w.grid.runs = [r] := by rw [hw]; exact hruns
  have hexec : exec (.rehost r.tag) s = .next (s.run fun _ => w.holdRun r.ref 6 ((s.lostShards r p).headD 0)) := by
    refine exec_lands_live rfl hlive ?_
    have hfind := rehost_finds (s := w) hwruns hbegun hlost hended hrehost
    have hwp : w.pattern r.pattern = some p := by rw [hw]; exact hp
    have hwcontinues : w.continues r = true := by rw [hw]; exact hcontinues
    have hwstate : (w.engine r.lead).state ≠ 6 := by rw [hw]; exact hstate
    have hgo : ¬ (!w.continues r || (w.engine r.lead).state == 6) = true := by simp [hwcontinues, hwstate]
    have hwhem : w.rewindHem r (w.lostShards r p) (fun t n => w.buddyOf r.tag t n) = none := by rw [hw]; exact hhem
    have hwlost : w.lostShards r p = s.lostShards r p := by rw [hw]; rfl
    rw [← hw]
    dsimp only
    rw [hfind]
    dsimp only
    rw [hwp]
    dsimp only
    rw [if_neg hgo, hwhem]
    dsimp only
    rw [if_neg hwstate, hwlost]
  obtain ⟨hruns', heng, -, -, -⟩ := holdRun_sole hwruns (by rw [hw]; exact hlen) 6 ((s.lostShards r p).headD 0)
  have hlead := heng _ (lead_mem hmask)
  refine ⟨_, hexec, ?_, ?_, ?_⟩
  · rw [State.run_engine, hlead]
  · rw [State.run_engine, hlead]
  · rw [State.run_grid]
    exact hruns'

/-- A paused run whose lost shards other devices take is set back to the hem. -/
theorem rehost_rewinds (h : Hem) (hhem : s.rewindHem r (s.lostShards r p) (fun t n => s.buddyOf r.tag t n) = some h)
    (hpaused : (s.engine r.lead).state = 5)
    (hbuddies : ∀ n ∈ s.lostShards r p, ∃ b, s.buddyOf r.tag h.tick n = some b ∧ b ∉ r.lost ∧ s.nl.node ≠ some b) :
    ∃ t, exec (.rehost r.tag) s = .next t ∧ ∃ x, t.grid.runs = [x] ∧ x.ref = r.ref ∧ x.lost = []
      ∧ x.tick = h.tick ∧ x.rungMap = h.rungMap ∧ x.ticking = false ∧ (t.engine r.lead).state = 5 := by
  obtain ⟨w, hw⟩ : ∃ w : State, w = { s with ops := [] } := ⟨_, rfl⟩
  obtain ⟨moves, hmoves⟩ : ∃ moves, moves = (s.lostShards r p).map fun n => (n, s.buddyOf r.tag h.tick n) := ⟨_, rfl⟩
  have hwruns : w.grid.runs = [r] := by rw [hw]; exact hruns
  have hwp : w.pattern r.pattern = some p := by rw [hw]; exact hp
  have halive : ∀ dead : Nat × Option Nat → Bool, (∀ n b, dead (n, some b) = r.lost.contains b) → ¬ moves.any dead = true := by
    intro dead hsome hany
    rw [List.any_eq_true, hmoves] at hany
    obtain ⟨m, hm, hdead⟩ := hany
    obtain ⟨n, hn, rfl⟩ := List.mem_map.mp hm
    obtain ⟨b, hb, hnot, -⟩ := hbuddies n hn
    rw [hb, hsome] at hdead
    exact hnot (List.contains_iff_mem.mp hdead)
  have hmine : (moves.filter fun m => m.2 == s.nl.node).map (·.1) = [] := by
    rw [List.map_eq_nil_iff, List.filter_eq_nil_iff, hmoves]
    intro m hm hsame
    obtain ⟨n, hn, rfl⟩ := List.mem_map.mp hm
    obtain ⟨b, hb, -, hother⟩ := hbuddies n hn
    rw [hb] at hsame
    exact hother (beq_iff_eq.mp hsame).symm
  obtain ⟨y, hy⟩ : ∃ y, y = w.moveArms r (moves.filterMap fun m => m.2.map fun b => (m.1, b)) := ⟨_, rfl⟩
  have hygrid : y.grid = s.grid := by
    rw [hy, hw]
    rfl
  have hexec : exec (.rehost r.tag) s = .next (s.run fun _ => y.continueRun r.ref h []) := by
    refine exec_lands_live rfl hlive ?_
    have hfind := rehost_finds (s := w) hwruns hbegun hlost hended hrehost
    have hwcontinues : w.continues r = true := by rw [hw]; exact hcontinues
    have hwstate : (w.engine r.lead).state ≠ 6 := by rw [hw]; exact hstate
    have hgo : ¬ (!w.continues r || (w.engine r.lead).state == 6) = true := by simp [hwcontinues, hwstate]
    have hwhem : w.rewindHem r (w.lostShards r p) (fun t n => w.buddyOf r.tag t n) = some h := by rw [hw]; exact hhem
    have hwmoves : ((w.lostShards r p).map fun n => (n, w.buddyOf r.tag h.tick n)) = moves := by rw [hmoves, hw]; rfl
    have hwmine : (moves.filter fun m => m.2 == w.nl.node).map (·.1) = [] := by rw [hw]; exact hmine
    rw [← hw]
    dsimp only
    rw [hfind]
    dsimp only
    rw [hwp]
    dsimp only
    rw [if_neg hgo, hwhem]
    dsimp only
    rw [hwmoves, if_neg (halive _ ?_), hwmine, hy]
    · rfl
    · exact fun _ _ => rfl
  obtain ⟨x, hxruns, hxengines, href, hxlost, htick, hmap, hticking⟩ :=
    continueRun_paused (s := y) (by rw [hygrid]; exact hruns) (by rw [State.pattern, hygrid]; exact hp) h
      (by rw [State.engine, hygrid]; exact hpaused)
  refine ⟨_, hexec, x, ?_, href, hxlost, htick, hmap, hticking, ?_⟩
  · rw [State.run_grid]
    exact hxruns
  · rw [State.run_engine, State.engine, hxengines, hygrid]
    exact hpaused
end

/-- Settles O28: a loss refuses the tick; the launch votes decide; a rehost holds the run or sets it back to the hem. -/
theorem launchesAndLossesOfJoinedRuns : Obligations.LaunchesAndLossesOfJoinedRuns := by
  unfold Obligations.LaunchesAndLossesOfJoinedRuns
  intro s r p hlive hruns hp hlen hmask
  refine ⟨?_, launchVote_clash, launchVote_missing, ?_, ?_⟩
  · intro i a m hhears hports hgood htype hseq hm hnew hdetector hbegun hended hn hwants
    have hi : i < s.nl.ports.length := by
      simp only [State.hears, Bool.and_eq_true, decide_eq_true_eq] at hhears
      omega
    exact peerLost_stops hruns hlen hhears hi hgood htype hseq hm hnew hdetector hbegun hended hn hwants
  · intro v k harmed hvoted hlaunch hvote
    refine ⟨fun hk => ?_, fun hk hno => ?_, fun hk hothers harm => ?_⟩
    · subst hk
      refine launchAttempt_holds hruns hp hvote hlive harmed hvoted hlaunch hlen hmask v (by decide) ?_
      exact if_pos (List.any_eq_true.mpr ⟨s.ownVote r 2, List.mem_filter.mpr ⟨mem_addNew_iff.mpr (.inl rfl), by simp [State.ownVote]⟩, rfl⟩)
    · subst hk
      refine launchAttempt_holds hruns hp hvote hlive harmed hvoted hlaunch hlen hmask v (by decide) (if_neg fun h => ?_)
      obtain ⟨x, hx, htwo⟩ := List.any_eq_true.mp h
      obtain ⟨hmem, hkeys⟩ := List.mem_filter.mp hx
      simp only [Bool.and_eq_true, beq_iff_eq] at hkeys htwo
      obtain rfl | hmem := mem_addNew_iff.mp hmem
      · exact absurd htwo (by simp [State.ownVote])
      · exact hno x hmem ⟨hkeys.1.1, hkeys.1.2, hkeys.2, htwo⟩
    · obtain ⟨n, hn, hself, hmissing⟩ := harm
      exact launchAttempt_waits hruns hp hvote hlive harmed hvoted hlaunch v hk hothers hn hself hmissing
  · intro hbegun hlost hended hrehost hcontinues hstate
    exact ⟨rehost_holds hruns hp hlive hbegun hlost hended hrehost hcontinues hstate hlen hmask,
      rehost_rewinds hruns hp hlive hbegun hlost hended hrehost hcontinues hstate⟩

end Sys2Proof.Machine
end

section
/-! SUPPORT. How a session begins, resumes, is discarded and ends. -/

namespace Sys2Proof.Machine

@[simp] theorem State.finishMailbox_begun (s : State) (result : Nat) (outs : List (Nat × Nat)) :
    (s.finishMailbox result outs).host.begun = s.host.begun :=
  State.finishMailbox_of_signal (view := (·.host.begun)) (by simp) s result outs

@[simp] theorem State.finishMailbox_evtOff (s : State) (result : Nat) (outs : List (Nat × Nat)) :
    (s.finishMailbox result outs).host.evtOff = s.host.evtOff :=
  State.finishMailbox_of_signal (view := (·.host.evtOff)) (by simp) s result outs

/-! ### A new session -/

/-- The host port in a new session, with the low half of its cookie. -/
def HostPort.begin (h : HostPort) (low : Nat) : HostPort :=
  { h with session := true, attached := true, begun := h.begun + 1
           cookie := BitVec.ofNat 64 ((h.begun + 1) % 2 ^ 32 * 2 ^ 32 + low) }

theorem countCall_rest (s : State) (i : Nat) : ∃ rng, s.countCall i = { s with rng := rng } := by
  unfold State.countCall
  dsimp only
  split
  · exact ⟨_, rfl⟩
  · exact ⟨_, rfl⟩

/-- A new session leaves all but the host port and the entropy service's books. -/
theorem newSession_eq (s : State) : ∃ low rng n, low < 2 ^ 32 ∧ s.newSession = { s with host := s.host.begin low, rng := rng, free := n } := by
  by_cases hready : s.rng.state = 1
  · obtain ⟨rng, hrng⟩ := countCall_rest (s.drawBytes 0 4).2 0
    refine ⟨bytesLE (s.drawBytes 0 4).1, rng, s.free + 4, ?_, ?_⟩
    · have hlen : (s.drawBytes 0 4).1.length = 4 := by simp [State.drawBytes]
      exact (bytesLE_lt _).trans_eq (by rw [hlen]; decide)
    · unfold State.newSession
      simp only [hready, if_true, hrng]
      rfl
  · refine ⟨s.cnt.stitch % 2 ^ 32, s.rng, s.free, Nat.mod_lt _ (by decide), ?_⟩
    unfold State.newSession
    simp only [hready, if_false]
    rfl

/-- A session has begun: the next one, with its count in its cookie's high half (R368). -/
def Begins (s t : State) : Prop :=
  t.host.session = true ∧ t.host.attached = true ∧ t.host.begun = s.host.begun + 1
    ∧ t.host.cookie.toNat / 2 ^ 32 = (s.host.begun + 1) % 2 ^ 32

theorem begins_begin {s u : State} {low : Nat} (hlow : low < 2 ^ 32) (hsession : u.host.session = true) (hattached : u.host.attached = true)
    (hbegun : u.host.begun = s.host.begun + 1) (hcookie : u.host.cookie = (s.host.begin low).cookie) (result : Nat) (outs : List (Nat × Nat)) :
    Begins s (s.run fun _ => u.finishMailbox result outs) := by
  refine ⟨by simp [hsession], by simp [hattached], by simp [hbegun], ?_⟩
  rw [State.run_host, State.finishMailbox_cookie, hcookie, HostPort.begin, BitVec.toNat_ofNat]
  have hcount := Nat.mod_lt (s.host.begun + 1) (show 0 < 2 ^ 32 by decide)
  generalize (s.host.begun + 1) % 2 ^ 32 = k at hcount ⊢
  omega

/-! ### Another host -/

theorem leaveRun_tells (s : State) (ref : TaskRef) : Tells s (s.leaveRun ref) := by
  unfold State.leaveRun
  split
  · split
    · exact tells_flood s none _
    · exact .refl s
  · exact .refl s

/-- The tasks, patterns and runs go, and software DRAM is to be fresh; fences and the host port's registers stand. -/
theorem discardSession_discards (s : State) : s.discardSession.1.q.queues = [] ∧ s.discardSession.1.q.tasks = []
    ∧ s.discardSession.1.grid.runs = [] ∧ s.discardSession.1.grid.patterns = []
    ∧ (∀ e ∈ s.discardSession.1.grid.engines, e.pattern = none ∧ e.state ≤ 1) ∧ s.discardSession.1.q.fences = s.q.fences
    ∧ s.discardSession.1.host = { s.host with heldRecords := [] }
    ∧ s.discardSession.1.ops = s.ops ++ [.fresh 0 (s.mem.softTop / 64)] := by
  obtain ⟨w, hw⟩ : ∃ w, w = s.grid.runs.foldl (fun s r => s.leaveRun r.ref) s := ⟨_, rfl⟩
  obtain ⟨ps, fl, n, hleft, -⟩ : Tells s w := hw ▸ .foldl (fun s (r : Run) => leaveRun_tells s r.ref) _ _
  unfold State.discardSession
  dsimp only
  rw [← hw, hleft]
  refine ⟨rfl, rfl, rfl, rfl, fun e he => ?_, rfl, rfl, rfl⟩
  obtain ⟨g, -, rfl⟩ := List.mem_map.mp he
  refine ⟨rfl, ?_⟩
  dsimp only
  split
  · exact Nat.zero_le 1
  · exact Nat.le_refl 1

/-! ### The commands -/

section
variable {s : State} (v : HostView) (hholds : s.adminHolds 0x0002 = true) (hlen : s.host.mbxArgs.length = 8)
include hholds

/-- SESSION_ATTACH with mode RESUME. -/
theorem attachResume_lands {u w : State} (hw : w = { s with ops := [] }) (hmode : s.arg 1 = 0)
    (h : w.attach (fun y => (y.resumeSession v).finishMailbox 0 [(0, y.host.cookie.toNat), (1, y.q.queues.length), (2, 0), (3, 0)]) = u) :
    exec (.sessionAttachResume v) s = .next (s.run fun _ => u) := by
  have hwmode : w.arg 1 = 0 := by rw [hw]; exact hmode
  have hwholds : w.adminHolds 0x0002 = true := by rw [hw]; exact hholds
  refine exec_lands rfl ?_
  rw [← hw, ← h]
  exact if_neg (by simp [hwmode, hwholds])

include hlen

theorem attach_begins (hmode : s.arg 1 = 0) (hnone : s.host.session = false) :
    ∃ t, exec (.sessionAttachResume v) s = .next t ∧ answered s t 0 ∧ Begins s t
      ∧ outWord t 0 = t.host.cookie.toNat ∧ outWord t 2 = 0 ∧ t.q = s.q ∧ t.grid = s.grid ∧ t.mem = s.mem := by
  obtain ⟨w, hw⟩ : ∃ w : State, w = { s with ops := [] } := ⟨_, rfl⟩
  obtain ⟨low, rng, n, hlow, hnew⟩ := newSession_eq w
  obtain ⟨y, hy⟩ : ∃ y, y = w.newSession.ringBack := ⟨_, rfl⟩
  have hyall : y = { w with host := (w.host.begin low).restoreRing, rng := rng, free := n } := by rw [hy, hnew]; rfl
  have hwmode : w.arg 1 = 0 := by rw [hw]; exact hmode
  have hwnone : w.host.session = false := by rw [hw]; exact hnone
  have hexec := attachResume_lands v hholds hw hmode
    (u := y.finishMailbox 0 [(0, y.host.cookie.toNat), (1, 0), (2, 0), (3, 0)]) (by
      unfold State.attach
      rw [if_neg (by simp [hwmode]), hwnone]
      rw [hy]
      rfl)
  have hyhost : y.host = (s.host.begin low).restoreRing := by rw [hyall, hw]
  refine ⟨_, hexec, answered_run (by rw [hyhost]; rfl), begins_begin hlow ?_ ?_ ?_ ?_ _ _, ?_, ?_, ?_, ?_, ?_⟩
  · rw [hyhost]; rfl
  · rw [hyhost]; rfl
  · rw [hyhost]; rfl
  · rw [hyhost]; rfl
  · rw [outWord_lands (v := y.host.cookie.toNat) (by rw [hyhost]; rfl) hlen (by decide) List.mem_cons_self (by simp), State.run_host,
      State.finishMailbox_cookie]
    exact Nat.mod_eq_of_lt y.host.cookie.isLt
  · rw [outWord_lands (v := 0) (by rw [hyhost]; rfl) hlen (by decide) (by simp) (by simp), Nat.zero_mod]
  · rw [State.run_q, State.finishMailbox_q, hyall, hw]
  · rw [State.run_grid, State.finishMailbox_grid, hyall, hw]
  · exact run_mem_of_no_ops (by rw [State.finishMailbox_ops, hyall, hw])

theorem attach_discards (hmode : s.arg 1 = 0) (hsession : s.host.session = true) (hdetached : s.host.attached = false)
    (hother : s.arg 0 ≠ s.host.cookie.toNat) :
    ∃ t, exec (.sessionAttachResume v) s = .next t ∧ answered s t 0 ∧ Begins s t ∧ outWord t 0 = t.host.cookie.toNat
      ∧ outWord t 2 = s.q.tasks.length % 2 ^ 64 ∧ t.q.queues = [] ∧ t.q.tasks = [] ∧ t.grid.runs = [] ∧ t.grid.patterns = []
      ∧ (∀ e ∈ t.grid.engines, e.pattern = none ∧ e.state ≤ 1) ∧ t.mem = s.mem.fresh 0 (s.mem.softTop / 64) ∧ t.q.fences = s.q.fences := by
  obtain ⟨w, hw⟩ : ∃ w : State, w = { s with ops := [] } := ⟨_, rfl⟩
  obtain ⟨hqueues, htasks, hruns, hpatterns, hengines, hfences, hhost, hops⟩ := discardSession_discards w
  have hcount : w.discardSession.2 = s.q.tasks.length := by rw [hw]; rfl
  obtain ⟨x, hx⟩ : ∃ x, x = w.discardSession.1 := ⟨_, rfl⟩
  rw [← hx] at hqueues htasks hruns hpatterns hengines hfences hhost hops
  obtain ⟨low, rng, n, hlow, hnew⟩ := newSession_eq x
  obtain ⟨y, hy⟩ : ∃ y, y = x.newSession.ringBack := ⟨_, rfl⟩
  have hyall : y = { x with host := (x.host.begin low).restoreRing, rng := rng, free := n } := by rw [hy, hnew]; rfl
  have hwmode : w.arg 1 = 0 := by rw [hw]; exact hmode
  have hwsession : w.host.session = true := by rw [hw]; exact hsession
  have hwother : w.sameSession = false := by
    have hne : (s.arg 0 == s.host.cookie.toNat) = false := by simpa using hother
    rw [hw]
    show (s.host.attached || s.arg 0 == s.host.cookie.toNat) = false
    rw [hdetached, hne]
    rfl
  have hexec := attachResume_lands v hholds hw hmode
    (u := y.finishMailbox 0 [(0, y.host.cookie.toNat), (1, 0), (2, s.q.tasks.length), (3, 0)]) (by
      unfold State.attach
      rw [if_neg (by simp [hwmode]), hwsession, hwother, hy, hx, ← hcount]
      rfl)
  have hyhost : y.host = (({ s.host with heldRecords := [] } : HostPort).begin low).restoreRing := by rw [hyall, hhost, hw]
  have hyrest : y.q = x.q ∧ y.grid = x.grid ∧ y.ops = x.ops := by
    rw [hyall]
    exact ⟨rfl, rfl, rfl⟩
  obtain ⟨hyq, hygrid, hyops⟩ := hyrest
  refine ⟨_, hexec, answered_run (by rw [hyhost]; rfl), begins_begin hlow ?_ ?_ ?_ ?_ _ _, ?_, ?_, ?_, ?_, ?_, ?_, ?_, ?_, ?_⟩
  · rw [hyhost]; rfl
  · rw [hyhost]; rfl
  · rw [hyhost]; rfl
  · rw [hyhost]; rfl
  · rw [outWord_lands (v := y.host.cookie.toNat) (by rw [hyhost]; rfl) hlen (by decide) List.mem_cons_self (by simp), State.run_host,
      State.finishMailbox_cookie]
    exact Nat.mod_eq_of_lt y.host.cookie.isLt
  · rw [outWord_lands (v := s.q.tasks.length) (by rw [hyhost]; rfl) hlen (by decide) (by simp) (by simp)]
  · rw [State.run_q, State.finishMailbox_q, hyq, hqueues]
  · rw [State.run_q, State.finishMailbox_q, hyq, htasks]
  · rw [State.run_grid, State.finishMailbox_grid, hygrid, hruns]
  · rw [State.run_grid, State.finishMailbox_grid, hygrid, hpatterns]
  · rw [State.run_grid, State.finishMailbox_grid, hygrid]
    exact hengines
  · have hone : (y.finishMailbox 0 [(0, y.host.cookie.toNat), (1, 0), (2, s.q.tasks.length), (3, 0)]).ops
        = [.fresh 0 (s.mem.softTop / 64)] := by
      rw [State.finishMailbox_ops, hyops, hops, hw]
      rfl
    exact run_mem_one hone
  · rw [State.run_q, State.finishMailbox_q, hyq, hfences, hw]

/-! ### The same host -/

omit hholds hlen in
/-- Nothing is left to deliver where nothing was held. -/
theorem deliverAll_none {s : State} (hrecords : s.host.heldRecords = []) (v : HostView) (check : Bool) : s.deliverAll v check = s := by
  have hsame : ({ s with host := { s.host with heldRecords := [], unwritten := s.host.unwritten + 0 } } : State) = s := by
    rw [← hrecords]
    rfl
  unfold State.deliverAll
  dsimp only
  simp only [hrecords, List.filter_nil, List.length_nil]
  rw [hsame]
  exact List.foldl_fixed' (fun _ => rfl) _

omit hholds hlen in
theorem dropDetachPauses_none {s : State} (hruns : s.grid.runs = []) : s.dropDetachPauses = s := by
  have hsame : ({ s with grid := { s.grid with runs := [] } } : State) = s := by
    rw [← hruns]
  unfold State.dropDetachPauses
  rw [hruns]
  exact hsame

omit hholds hlen in
/-- What a session's return does where nothing was held and no run is on the device. -/
theorem back_idle {s : State} (hruns : s.grid.runs = []) (hrecords : s.host.heldRecords = []) (hheld : s.host.held = []) (v : HostView)
    (check : Bool) : (((s.deliverAll v check).ringBack).deliverHeld (s.deliverAll v check).ringBack.host.held.length).dropDetachPauses
      = s.ringBack := by
  have hringHeld : s.ringBack.host.held = [] := hheld
  rw [deliverAll_none hrecords, hringHeld]
  exact dropDetachPauses_none (s := s.ringBack) hruns

variable (hsession : s.host.session = true) (hdetached : s.host.attached = false) (hcookie : s.arg 0 = s.host.cookie.toNat)
include hsession hdetached hcookie

omit hholds hlen in
/-- The host with the cookie goes on in a new session. -/
theorem attach_same {w : State} (hw : w = { s with ops := [] }) (hmode : ¬ 2 ≤ s.arg 1) (f : State → State) : w.attach f = f w.newSession := by
  have hwmode : ¬ 2 ≤ w.arg 1 := by rw [hw]; exact hmode
  have hwsession : w.host.session = true := by rw [hw]; exact hsession
  have hwsame : w.sameSession = true := by
    rw [hw]
    show (s.host.attached || s.arg 0 == s.host.cookie.toNat) = true
    rw [hcookie]
    simp
  have hwdetach : w.detach = w := by
    have hwdetached : w.host.attached = false := by rw [hw]; exact hdetached
    unfold State.detach
    exact if_pos (by simp [hwdetached])
  unfold State.attach
  rw [if_neg hwmode, hwsession, hwsame, hwdetach]
  rfl

theorem attach_resumes (hmode : s.arg 1 = 0) (hruns : s.grid.runs = []) (hrecords : s.host.heldRecords = []) (hheld : s.host.held = []) :
    ∃ t, exec (.sessionAttachResume v) s = .next t ∧ answered s t 0 ∧ Begins s t ∧ t.host.evtOff = false
      ∧ outWord t 1 = s.q.queues.length % 2 ^ 64 ∧ t.q = s.q ∧ t.grid = s.grid ∧ t.mem = s.mem := by
  obtain ⟨w, hw⟩ : ∃ w : State, w = { s with ops := [] } := ⟨_, rfl⟩
  obtain ⟨low, rng, n, hlow, hnew⟩ := newSession_eq w
  obtain ⟨x, hx⟩ : ∃ x, x = w.newSession := ⟨_, rfl⟩
  have hxall : x = { w with host := w.host.begin low, rng := rng, free := n } := hx.trans hnew
  have hxruns : x.grid.runs = [] := by rw [hxall, hw]; exact hruns
  have hresume : x.resumeSession v = x.ringBack := by
    have hback := back_idle (s := x) hxruns (by rw [hxall, hw]; exact hrecords) (by rw [hxall, hw]; exact hheld) v false
    unfold State.resumeSession
    dsimp only
    rw [hback]
    have hnone : x.ringBack.grid.runs = [] := hxruns
    rw [hnone]
    rfl
  have hexec := attachResume_lands v hholds hw hmode
    (u := x.ringBack.finishMailbox 0 [(0, x.host.cookie.toNat), (1, x.q.queues.length), (2, 0), (3, 0)]) (by
      rw [attach_same hsession hdetached hcookie hw (by omega), ← hx, hresume])
  obtain ⟨y, hy⟩ : ∃ y, y = x.ringBack := ⟨_, rfl⟩
  rw [← hy] at hexec
  have hyhost : y.host = (s.host.begin low).restoreRing := by rw [hy, hxall, hw]; rfl
  have hyrest : y.q = s.q ∧ y.grid = s.grid ∧ y.ops = [] := by
    rw [hy, hxall, hw]
    exact ⟨rfl, rfl, rfl⟩
  obtain ⟨hyq, hygrid, hyops⟩ := hyrest
  have hqueues : x.q.queues.length = s.q.queues.length := by rw [hxall, hw]
  refine ⟨_, hexec, answered_run (by rw [hyhost]; rfl), begins_begin hlow ?_ ?_ ?_ ?_ _ _, ?_, ?_, ?_, ?_, ?_⟩
  · rw [hyhost]; rfl
  · rw [hyhost]; rfl
  · rw [hyhost]; rfl
  · rw [hyhost]; rfl
  · rw [State.run_host, State.finishMailbox_evtOff, hyhost]
    rfl
  · rw [outWord_lands (v := x.q.queues.length) (by rw [hyhost]; rfl) hlen (by decide) (by simp) (by simp), hqueues]
  · rw [State.run_q, State.finishMailbox_q, hyq]
  · rw [State.run_grid, State.finishMailbox_grid, hygrid]
  · exact run_mem_of_no_ops (by rw [State.finishMailbox_ops, hyops])

omit hholds hlen hsession hdetached hcookie in
/-- Queues without tasks that close leave the host port, the grid and DRAM. -/
theorem closeEach_idle {status : Nat} (ns : List Nat) {s : State} (htasks : s.q.tasks = []) :
    (ns.foldl (fun s n => s.closeQueue n status) s).q.tasks = [] ∧ (ns.foldl (fun s n => s.closeQueue n status) s).host = s.host
      ∧ (ns.foldl (fun s n => s.closeQueue n status) s).grid = s.grid ∧ (ns.foldl (fun s n => s.closeQueue n status) s).ops = s.ops := by
  induction ns generalizing s with
  | nil => exact ⟨htasks, rfl, rfl, rfl⟩
  | cons n ns ih =>
    have hstep : (s.closeQueue n status).q.tasks = [] ∧ (s.closeQueue n status).host = s.host ∧ (s.closeQueue n status).grid = s.grid
        ∧ (s.closeQueue n status).ops = s.ops := by
      cases hq : s.queue n with
      | none =>
        have hsame : s.closeQueue n status = s := by
          unfold State.closeQueue
          rw [hq]
        rw [hsame]
        exact ⟨htasks, rfl, rfl, rfl⟩
      | some q =>
        have hcloses := closes_closeQueue hq (fun u hu => absurd (htasks ▸ hu) List.not_mem_nil) status
        have hnone : s.tasksOf n = [] := by simp [State.tasksOf, htasks]
        refine ⟨?_, hcloses.host, hcloses.grid, hcloses.ops⟩
        rw [hcloses.tasks, hnone, htasks]
        rfl
    obtain ⟨htasks', hhost, hgrid, hops⟩ := hstep
    obtain ⟨ht, hh, hg, ho⟩ := ih htasks'
    exact ⟨ht, hh.trans hhost, hg.trans hgrid, ho.trans hops⟩

omit hlen in
theorem attach_ends (hmode : s.arg 1 = 1) (hruns : s.grid.runs = []) (htasks : s.q.tasks = []) (hrecords : s.host.heldRecords = [])
    (hheld : s.host.held = []) :
    ∃ t, exec (.sessionAttachEnd v) s = .next t ∧ answered s t 0 ∧ Begins s t ∧ t.q.queues = [] ∧ t.q.tasks = []
      ∧ t.grid = s.grid ∧ t.mem = s.mem := by
  obtain ⟨w, hw⟩ : ∃ w : State, w = { s with ops := [] } := ⟨_, rfl⟩
  obtain ⟨low, rng, n, hlow, hnew⟩ := newSession_eq w
  obtain ⟨x, hx⟩ : ∃ x : State, x = { w.newSession with host := { w.newSession.host with wait := .attachEnd, unwritten := 0 } } := ⟨_, rfl⟩
  have hxall : x = { w with host := { w.host.begin low with wait := .attachEnd, unwritten := 0 }, rng := rng, free := n } := by rw [hx, hnew]
  have hback := back_idle (s := x) (by rw [hxall, hw]; exact hruns) (by rw [hxall, hw]; exact hrecords) (by rw [hxall, hw]; exact hheld) v true
  obtain ⟨z, hz⟩ : ∃ z, z = x.ringBack := ⟨_, rfl⟩
  have hzhost : z.host = ({ s.host.begin low with wait := .attachEnd, unwritten := 0 } : HostPort).restoreRing := by
    rw [hz, hxall, hw]
    rfl
  have hzrest : z.q = s.q ∧ z.grid = s.grid ∧ z.ops = [] := by
    rw [hz, hxall, hw]
    exact ⟨rfl, rfl, rfl⟩
  obtain ⟨hzq, hzgrid, hzops⟩ := hzrest
  obtain ⟨c, hc⟩ : ∃ c, c = (z.q.queues.map (·.num)).foldl (fun s n => s.closeQueue n 0x0500) z := ⟨_, rfl⟩
  obtain ⟨hctasks, hchost, hcgrid, hcops⟩ := hc ▸ closeEach_idle (z.q.queues.map fun q : Queue => q.num) (status := 0x0500) (s := z) (by rw [hzq]; exact htasks)
  obtain ⟨outs, y, hsettle, hyhost, hyqueues, hytasks, hygrid, hyops⟩ : ∃ outs, ∃ y : State, c.settleQueues = y.finishMailbox 0 outs
      ∧ y.host = z.host ∧ y.q.queues = [] ∧ y.q.tasks = [] ∧ y.grid = s.grid ∧ y.ops = [] := by
    have hwait : c.host.wait = .attachEnd := by rw [hchost, hzhost]; rfl
    obtain ⟨outs, hsettle⟩ : ∃ outs, c.settleQueues = ({ c with q := { c.q with queues := [] } } : State).finishMailbox 0 outs := by
      unfold State.settleQueues
      rw [hwait]
      dsimp only
      exact ⟨_, if_pos (by rw [hctasks]; rfl)⟩
    exact ⟨outs, _, hsettle, hchost, rfl, hctasks, hcgrid.trans hzgrid, hcops.trans hzops⟩
  have hexec : exec (.sessionAttachEnd v) s = .next (s.run fun _ => y.finishMailbox 0 outs) := by
    have hwmode : w.arg 1 = 1 := by rw [hw]; exact hmode
    have hwholds : w.adminHolds 0x0002 = true := by rw [hw]; exact hholds
    refine exec_lands rfl ?_
    rw [← hw]
    refine (if_neg (by simp [hwmode, hwholds])).trans ?_
    rw [attach_same hsession hdetached hcookie hw (by omega)]
    dsimp only
    rw [← hx, hback, ← hz, ← hc, hsettle]
  rw [hzhost] at hyhost
  refine ⟨_, hexec, answered_run (by rw [hyhost]; rfl), begins_begin hlow ?_ ?_ ?_ ?_ _ _, ?_, ?_, ?_, ?_⟩
  · rw [hyhost]; rfl
  · rw [hyhost]; rfl
  · rw [hyhost]; rfl
  · rw [hyhost]; rfl
  · rw [State.run_q, State.finishMailbox_q, hyqueues]
  · rw [State.run_q, State.finishMailbox_q, hytasks]
  · rw [State.run_grid, State.finishMailbox_grid, hygrid]
  · exact run_mem_of_no_ops (by rw [State.finishMailbox_ops, hyops])
end

/-- Settles O47: each way of attaching begins the next session, and what it does to the work is read off the session held. -/
theorem sessionsBeginResumeAndEnd : Obligations.SessionsBeginResumeAndEnd := by
  unfold Obligations.SessionsBeginResumeAndEnd
  intro s v hholds hlen
  exact ⟨attach_begins v hholds hlen, attach_discards v hholds hlen,
    fun hmode hsession hdetached hcookie hruns hrecords hheld =>
      attach_resumes v hholds hlen hsession hdetached hcookie hmode hruns hrecords hheld,
    fun hmode hsession hdetached hcookie hruns htasks hrecords hheld _ =>
      attach_ends v hholds hsession hdetached hcookie hmode hruns htasks hrecords hheld⟩

end Sys2Proof.Machine
end

section
/-! SUPPORT. What the writing of results, records and checkpoints leaves of the device. -/

namespace Sys2Proof.Machine

/-! ### The control stands -/

@[simp] theorem control_setRun (s : State) (ref : TaskRef) (f : Run → Run) : (s.setRun ref f).control = s.control := rfl
@[simp] theorem control_setPort (s : State) (i : Nat) (f : Port → Port) : (s.setPort i f).control = s.control := rfl
@[simp] theorem control_setEngine (s : State) (e : Nat) (f : Engine → Engine) : (s.setEngine e f).control = s.control := rfl
@[simp] theorem control_setQueue (s : State) (n : Nat) (f : Queue → Queue) : (s.setQueue n f).control = s.control := rfl

@[simp] theorem control_setEngines (s : State) (es : List Nat) (f : Engine → Engine) : (s.setEngines es f).control = s.control :=
  control_foldl (fun s e => control_setEngine s e f) es s

@[simp] theorem control_signal (s : State) (v : Nat) : (s.signal v).control = s.control := by
  unfold State.signal
  split
  · rfl
  · split <;> rfl

@[simp] theorem control_ringWrite (s : State) (e : Event) : (s.ringWrite e).control = s.control := by
  unfold State.ringWrite
  dsimp only
  split
  · exact (control_signal _ _).trans (control_hostWrite s _ _ _ false)
  · exact control_hostWrite s _ _ _ false

@[simp] theorem control_holdEvent (s : State) (e : Event) : (s.holdEvent e).control = s.control := by
  unfold State.holdEvent
  dsimp only
  split
  · rfl
  · split <;> rfl

@[simp] theorem control_event (s : State) (cls code source : Nat) (tick : Option Nat) (detail : List Byte) :
    (s.event cls code source tick detail).control = s.control := by
  unfold State.event
  dsimp only
  split
  · exact control_ringWrite _ _
  · exact control_holdEvent _ _

/-! ### The records of runs -/

/-- A run's record after some of its output was written or its input taken. -/
def Run.Streamed (r x : Run) : Prop :=
  ∃ queue head part results taken inputPos outNo,
    x = { r with queue := queue, head := head, part := part, results := results, taken := taken, inputPos := inputPos, outNo := outNo }

theorem Run.Streamed.refl (r : Run) : r.Streamed r := ⟨_, _, _, _, _, _, _, rfl⟩

theorem Run.Streamed.trans {r x y : Run} (h : r.Streamed x) (k : x.Streamed y) : r.Streamed y := by
  obtain ⟨_, _, _, _, _, _, _, rfl⟩ := h
  obtain ⟨_, _, _, _, _, _, _, rfl⟩ := k
  exact ⟨_, _, _, _, _, _, _, rfl⟩

theorem Run.streamed_results (r : Run) (x : Results) : r.Streamed { r with results := x } := ⟨_, _, _, _, _, _, _, rfl⟩

/-- The record of a task in a list. -/
def recordOf (xs : List Run) (ref : TaskRef) : Option Run := xs.find? fun x => x.ref == ref

/-- Each task's record in the second list is that of the first, after some output; the lists are of one length. -/
def StreamedRuns (xs ys : List Run) : Prop :=
  ∃ g : Run → Run, ys = xs.map g ∧ (∀ x, (g x).ref = x.ref) ∧ ∀ ref x, recordOf xs ref = some x → x.Streamed (g x)

theorem recordOf_map {g : Run → Run} (h : ∀ x, (g x).ref = x.ref) (xs : List Run) (ref : TaskRef) :
    recordOf (xs.map g) ref = (recordOf xs ref).map g := by
  rw [recordOf, List.find?_map]
  have hsame : ((fun x : Run => x.ref == ref) ∘ g) = fun x => x.ref == ref := funext fun x => congrArg (· == ref) (h x)
  rw [hsame]
  rfl

theorem StreamedRuns.refl (xs : List Run) : StreamedRuns xs xs := ⟨id, (List.map_id xs).symm, fun _ => rfl, fun _ x _ => .refl x⟩

theorem StreamedRuns.trans {xs ys zs : List Run} (h : StreamedRuns xs ys) (k : StreamedRuns ys zs) : StreamedRuns xs zs := by
  obtain ⟨g, rfl, href, hg⟩ := h
  obtain ⟨g', rfl, href', hg'⟩ := k
  refine ⟨g' ∘ g, List.map_map .., fun x => (href' _).trans (href x), fun ref x hx => (hg ref x hx).trans (hg' ref (g x) ?_)⟩
  rw [recordOf_map href, hx]
  rfl

theorem StreamedRuns.record {xs ys : List Run} (h : StreamedRuns xs ys) {ref : TaskRef} {r : Run} (hr : recordOf xs ref = some r) :
    ∃ x, recordOf ys ref = some x ∧ r.Streamed x := by
  obtain ⟨g, rfl, href, hg⟩ := h
  refine ⟨g r, ?_, hg ref r hr⟩
  rw [recordOf_map href, hr]
  rfl

theorem StreamedRuns.sole {r : Run} {ys : List Run} (h : StreamedRuns [r] ys) : ∃ x, ys = [x] ∧ r.Streamed x := by
  obtain ⟨g, rfl, -, hg⟩ := h
  exact ⟨g r, rfl, hg r.ref r (by simp [recordOf])⟩

theorem streamedRuns_modify {xs : List Run} {ref : TaskRef} {f : Run → Run} (href : ∀ x, x.ref = ref → (f x).ref = ref)
    (hf : ∀ r, recordOf xs ref = some r → r.Streamed (f r)) : StreamedRuns xs (modifyIf (fun x => x.ref == ref) f xs) := by
  refine ⟨fun x => if x.ref == ref then f x else x, rfl, fun x => ?_, fun ref' x hx => ?_⟩
  · dsimp only
    split
    case isTrue h => exact (href x (beq_iff_eq.mp h)).trans (beq_iff_eq.mp h).symm
    case isFalse => rfl
  · dsimp only
    split
    case isTrue h =>
      have hx' : x.ref = ref' := by simpa using List.find?_some hx
      exact hf x ((beq_iff_eq.mp h) ▸ hx' ▸ hx)
    case isFalse => exact .refl x

/-! ### Serving -/

/-- Only output has been written and events raised: host memory and the event ring, frames that wait, DRAM writes with the
channels that they wake, and the books of the runs' streams. -/
def Serves (s t : State) : Prop :=
  ∃ host out ports mem dram pow more runs, t = { s with
      host := host, out := out, nl := { s.nl with ports := ports }, mem := mem, dram := dram, pow := pow, ops := s.ops ++ more
      grid := { s.grid with runs := runs } }
    ∧ t.control = s.control ∧ (∀ o ∈ more, ∃ a bs, o = .write a bs) ∧ StreamedRuns s.grid.runs runs
    ∧ ∀ c, (s.channel c).state ≠ 3 → t.channel c = s.channel c

theorem Serves.refl (s : State) : Serves s s :=
  ⟨s.host, s.out, s.nl.ports, s.mem, s.dram, s.pow, [], s.grid.runs, by rw [List.append_nil], rfl, fun _ h => absurd h List.not_mem_nil,
    .refl _, fun _ _ => rfl⟩

theorem Serves.trans {s t u : State} (h : Serves s t) (k : Serves t u) : Serves s u := by
  obtain ⟨host, out, ports, mem, dram, pow, more, runs, ht, hcontrol, hwrites, hruns, hchannels⟩ := h
  obtain ⟨host', out', ports', mem', dram', pow', more', runs', hu, hcontrol', hwrites', hruns', hchannels'⟩ := k
  refine ⟨host', out', ports', mem', dram', pow', more ++ more', runs', ?_, hcontrol'.trans hcontrol, fun o ho => ?_, ?_, fun c hc => ?_⟩
  · rw [hu, ht, List.append_assoc]
  · exact (List.mem_append.mp ho).elim (hwrites o) (hwrites' o)
  · refine hruns.trans ?_
    rw [ht] at hruns'
    exact hruns'
  · have hsame := hchannels c hc
    exact (hchannels' c (hsame.symm ▸ hc)).trans hsame

theorem Serves.ite {c : Prop} [Decidable c] {s t u : State} (ht : Serves s t) (hu : Serves s u) : Serves s (if c then t else u) := by
  split
  · exact ht
  · exact hu

theorem Serves.foldl {α : Type} {f : State → α → State} (h : ∀ s x, Serves s (f s x)) (xs : List α) (s : State) :
    Serves s (xs.foldl f s) := by
  induction xs generalizing s with
  | nil => exact .refl s
  | cons x xs ih => exact (h s x).trans (ih _)

section
variable {s t : State} (h : Serves s t)
include h

theorem Serves.control : t.control = s.control := by
  obtain ⟨_, _, _, _, _, _, _, _, -, hcontrol, -⟩ := h
  exact hcontrol

theorem Serves.engines : t.grid.engines = s.grid.engines := by
  obtain ⟨_, _, _, _, _, _, _, _, rfl, -⟩ := h
  rfl

theorem Serves.engine (k : Nat) : t.engine k = s.engine k := by
  rw [State.engine, h.engines]
  rfl

theorem Serves.patterns : t.grid.patterns = s.grid.patterns := by
  obtain ⟨_, _, _, _, _, _, _, _, rfl, -⟩ := h
  rfl

theorem Serves.pattern (id : Nat) : t.pattern id = s.pattern id := by
  rw [State.pattern, h.patterns]
  rfl

theorem Serves.q : t.q = s.q := by
  obtain ⟨_, _, _, _, _, _, _, _, rfl, -⟩ := h
  rfl

theorem Serves.log : t.log = s.log := by
  obtain ⟨_, _, _, _, _, _, _, _, rfl, -⟩ := h
  rfl

theorem Serves.votes : t.nl.votes = s.nl.votes := by
  obtain ⟨_, _, _, _, _, _, _, _, rfl, -⟩ := h
  rfl

theorem Serves.runs : StreamedRuns s.grid.runs t.grid.runs := by
  obtain ⟨_, _, _, _, _, _, _, _, rfl, -, -, hruns, -⟩ := h
  exact hruns

theorem Serves.run? {ref : TaskRef} {r : Run} (hr : s.run? ref = some r) : ∃ x, t.run? ref = some x ∧ r.Streamed x := h.runs.record hr

theorem Serves.sole {r : Run} (hr : s.grid.runs = [r]) : ∃ x, t.grid.runs = [x] ∧ r.Streamed x := StreamedRuns.sole (hr ▸ h.runs)

theorem Serves.ops : ∃ more, t.ops = s.ops ++ more ∧ ∀ o ∈ more, ∃ a bs, o = .write a bs := by
  obtain ⟨_, _, _, _, _, _, more, _, rfl, -, hwrites, -⟩ := h
  exact ⟨more, rfl, hwrites⟩

theorem Serves.channel {c : Nat} (hc : (s.channel c).state ≠ 3) : t.channel c = s.channel c := by
  obtain ⟨_, _, _, _, _, _, _, _, -, -, -, -, hchannels⟩ := h
  exact hchannels c hc
end

/-! ### The operations -/

theorem serves_host (s : State) (host : HostPort) (out : List Out) (h : ({ s with host := host, out := out } : State).control = s.control) :
    Serves s { s with host := host, out := out } :=
  ⟨host, out, s.nl.ports, s.mem, s.dram, s.pow, [], s.grid.runs, by rw [List.append_nil], h, fun _ h => absurd h List.not_mem_nil,
    .refl _, fun _ _ => rfl⟩

theorem serves_setPort (s : State) (i : Nat) (f : Port → Port) : Serves s (s.setPort i f) :=
  ⟨s.host, s.out, (s.setPort i f).nl.ports, s.mem, s.dram, s.pow, [], s.grid.runs, by rw [List.append_nil]; rfl, rfl,
    fun _ h => absurd h List.not_mem_nil, .refl _, fun _ _ => rfl⟩

theorem serves_setRun {s : State} {ref : TaskRef} {f : Run → Run} (href : ∀ x, x.ref = ref → (f x).ref = ref)
    (hf : ∀ r, s.run? ref = some r → r.Streamed (f r)) : Serves s (s.setRun ref f) :=
  ⟨s.host, s.out, s.nl.ports, s.mem, s.dram, s.pow, [], (s.setRun ref f).grid.runs, by rw [List.append_nil]; rfl, rfl,
    fun _ h => absurd h List.not_mem_nil, streamedRuns_modify href hf, fun _ _ => rfl⟩

theorem serves_write (s : State) (a : Nat) (bs : List Byte) : Serves s (s.write a bs) :=
  .ite (.refl s) ⟨s.host, s.out, s.nl.ports, s.mem.apply (.write a bs), s.dram, s.pow, [.write a bs], s.grid.runs, rfl, rfl,
    fun _ ho => ⟨a, bs, List.mem_singleton.mp ho⟩, .refl _, fun _ _ => rfl⟩

theorem channel_wakeChannels (s : State) {c : Nat} (hc : (s.channel c).state ≠ 3) : s.wakeChannels.channel c = s.channel c := by
  have hfold : ∀ (cs : List Nat) (w : State), (w.channel c).state ≠ 3 → (cs.foldl (fun s c =>
      if (s.channel c).state = 3 then
        (s.setChannel c fun ch => { ch with state := 2 }).setDomain (98 + c) fun d => { d with state := 2, wakes := (d.wakes + 1) % 2 ^ 32 }
      else s) w).channel c = w.channel c := by
    intro cs
    induction cs with
    | nil => exact fun _ _ => rfl
    | cons d cs ih =>
      intro w hw
      have hstep : (if (w.channel d).state = 3 then
          (w.setChannel d fun ch => { ch with state := 2 }).setDomain (98 + d) fun x => { x with state := 2, wakes := (x.wakes + 1) % 2 ^ 32 }
          else w).channel c = w.channel c := by
        split
        case isTrue hd =>
          refine State.channel_setChannel_ne (fun hcd => hw ?_) w fun ch => { ch with state := 2 }
          rw [hcd]
          exact hd
        case isFalse => rfl
      rw [List.foldl_cons, ih _ (hstep.symm ▸ hw), hstep]
  exact hfold _ s hc

theorem serves_wakeChannels (s : State) : Serves s s.wakeChannels := by
  obtain ⟨channels, domains, h⟩ := wakes_wakeChannels s
  refine ⟨s.host, s.out, s.nl.ports, s.mem, { s.dram with channels := channels }, { s.pow with domains := domains }, [], s.grid.runs, ?_,
    control_wakeChannels s, fun _ h => absurd h List.not_mem_nil, .refl _, fun c hc => channel_wakeChannels s hc⟩
  rw [h, List.append_nil]

theorem serves_writeDram (s : State) (a : Nat) (bs : List Byte) : Serves s (s.writeDram a bs) :=
  .ite (.refl s) ((serves_wakeChannels s).trans (serves_write _ a bs))

theorem serves_hostWrite (s : State) (pasid : Option Nat) (a : Nat) (bs : List Byte) (poison : Bool) :
    Serves s (s.hostWrite pasid a bs poison) :=
  .ite (serves_host s s.host _ rfl) (.refl s)

theorem serves_writeAny (s : State) (pasid : Option Nat) (a : Nat) (bs : List Byte) : Serves s (s.writeAny pasid a bs) :=
  .ite (serves_writeDram s a bs) (serves_hostWrite s pasid _ bs false)

theorem serves_event (s : State) (cls code source : Nat) (tick : Option Nat) (detail : List Byte) :
    Serves s (s.event cls code source tick detail) := by
  have hcontrol := control_event s cls code source tick detail
  obtain ⟨host, out, log, nv, sb, cnt, h⟩ := reports_event s cls code source tick detail
  have hlog : (s.event cls code source tick detail).log = s.log := State.event_log ..
  have hnv : (s.event cls code source tick detail).nv = s.nv := State.event_nv ..
  have hsb : (s.event cls code source tick detail).sb = s.sb := State.event_sb ..
  have hcnt : (s.event cls code source tick detail).cnt = s.cnt := State.event_cnt ..
  rw [h] at hlog hnv hsb hcnt hcontrol ⊢
  dsimp only at hlog hnv hsb hcnt
  subst hlog hnv hsb hcnt
  exact serves_host s host out hcontrol

theorem serves_sendFrame (s : State) (port type dest stream count first : Nat) (payload : List Byte) :
    Serves s (s.sendFrame port type dest stream count first payload) := serves_setPort s _ _

theorem serves_streamTo (s : State) (port node stream dest kind : Nat) (bs : List Byte) : Serves s (s.streamTo port node stream dest kind bs) :=
  (serves_sendFrame s _ _ _ _ _ _ _).trans (.foldl (fun s _ => serves_sendFrame s _ _ _ _ _ _ _) _ _)

theorem serves_streamFor (s : State) (r : Run) (node stream dest kind : Nat) (bs : List Byte) :
    Serves s (s.streamFor r node stream dest kind bs) := by
  unfold State.streamFor
  split
  · exact serves_streamTo s _ _ _ _ _ _
  · exact .refl s

theorem serves_gatherResults (s : State) (ref : TaskRef) : Serves s (s.gatherResults ref) := by
  unfold State.gatherResults
  split
  · exact .refl s
  · split
    · exact .refl s
    · exact .ite (.refl s) (.foldl (fun s _ => .foldl (fun s _ => serves_streamFor s _ _ _ _ _ _) _ _) _ _)

theorem ref_of_run? {s : State} {ref : TaskRef} {r : Run} (h : s.run? ref = some r) : r.ref = ref := by
  simpa using List.find?_some h

theorem serves_writeResults (s : State) (ref : TaskRef) (state : Nat) : Serves s (s.writeResults ref state) := by
  unfold State.writeResults
  split
  case h_1 r hr =>
    split
    · obtain ⟨w, hw⟩ : ∃ w, w = s.writeField (r.blk.result + 8) 4 (r.results.seq + 1) := ⟨_, rfl⟩
      have hserves : Serves s w := hw ▸ serves_write s _ _
      have hruns : w.grid.runs = s.grid.runs := by
        rw [hw, State.writeField, State.write]
        split <;> rfl
      dsimp only
      rw [← hw]
      refine Serves.trans (hserves.trans ?_) (serves_writeDram _ _ _)
      have href : r.ref = ref := ref_of_run? hr
      refine serves_setRun (fun _ _ => href) fun x hx => ?_
      have hsame : r = x := by
        rw [State.run?, hruns] at hx
        exact Option.some.inj (hr.symm.trans hx)
      rw [← hsame]
      exact r.streamed_results _
    · exact .refl s
  · exact .refl s

theorem serves_publish (s : State) (ref : TaskRef) (state : Nat) : Serves s (s.publish ref state) :=
  (serves_writeResults s ref state).trans (serves_gatherResults _ ref)

theorem serves_setQueued {s : State} {ref : TaskRef} {f : Run → Run} (href : ∀ x, (f x).ref = x.ref) (hf : ∀ r : Run, r.Streamed (f r)) :
    Serves s (s.setRun ref f) := serves_setRun (fun x hx => (href x).trans hx) fun r _ => hf r

theorem serves_ringWriteLines (s : State) (ref : TaskRef) (bs : List Byte) : Serves s (s.ringWriteLines ref bs) := by
  unfold State.ringWriteLines
  split
  case h_1 r _ =>
    obtain ⟨w, hw⟩ : ∃ w, w = (chunks 64 bs).zipIdx.foldl (fun s x =>
      s.writeDram (r.blk.ring + 64 * ((r.head + x.2) % (r.blk.ringLines - 1) + 1)) x.1) s := ⟨_, rfl⟩
    have hlines : Serves s w := hw ▸ .foldl (fun s x => serves_writeDram s _ _) _ s
    dsimp only
    rw [← hw]
    refine Serves.trans (hlines.trans ?_) (serves_write _ _ _)
    exact serves_setQueued (fun _ => rfl) fun _ => ⟨_, _, _, _, _, _, _, rfl⟩
  · exact .refl s

theorem serves_drainRing (ref : TaskRef) (n : Nat) (s : State) : Serves s (s.drainRing ref n) := by
  induction n generalizing s with
  | zero => exact .refl s
  | succ n ih =>
    unfold State.drainRing
    split
    · exact .refl s
    · split
      · exact .refl s
      · refine .ite (Serves.trans (Serves.trans ?_ (serves_ringWriteLines _ ref _)) (ih _)) (.refl s)
        exact serves_setQueued (fun _ => rfl) fun _ => ⟨_, _, _, _, _, _, _, rfl⟩

theorem serves_flushRing (s : State) (ref : TaskRef) : Serves s (s.flushRing ref) := by
  unfold State.flushRing
  split
  · exact serves_drainRing ref _ s
  · exact .refl s

theorem serves_ringPut (s : State) (ref : TaskRef) (bs : List Byte) : Serves s (s.ringPut ref bs) := by
  refine Serves.trans ?_ (serves_flushRing _ ref)
  exact serves_setQueued (fun _ => rfl) fun _ => ⟨_, _, _, _, _, _, _, rfl⟩

theorem serves_writeScores (s : State) (ref : TaskRef) (flush : Bool) : Serves s (s.writeScores ref flush) := by
  unfold State.writeScores
  split
  · dsimp only
    have hset (s : State) (part : List (Nat × Int)) : Serves s (s.setRun ref fun r => { r with part := part }) :=
      serves_setQueued (fun _ => rfl) fun _ => ⟨_, _, _, _, _, _, _, rfl⟩
    refine .ite (Serves.trans (Serves.trans ?_ (serves_ringPut _ ref _)) (hset _ [])) (Serves.trans ?_ (hset _ _))
    · exact .foldl (fun s line => serves_ringPut s ref _) _ s
    · exact .foldl (fun s line => serves_ringPut s ref _) _ s
  · exact .refl s

theorem serves_advanceInput (s : State) (ref : TaskRef) (n : Nat) : Serves s (s.advanceInput ref n) := by
  unfold State.advanceInput
  split
  · split
    · refine Serves.trans ?_ (serves_writeAny _ _ _ _)
      exact serves_setQueued (fun _ => rfl) fun _ => ⟨_, _, _, _, _, _, _, rfl⟩
    · exact .refl s
  · exact .refl s

theorem serves_writeCheckpoint (s : State) (ref : TaskRef) (a : Nat) : Serves s (s.writeCheckpoint ref a) := by
  unfold State.writeCheckpoint
  split
  · split
    · exact serves_writeDram s _ _
    · exact .refl s
  · exact .refl s

theorem serves_spoolOut (s : State) (r : Run) (p : Pattern) (k : Nat) : Serves s (s.spoolOut r p k) := by
  unfold State.spoolOut
  refine .foldl (fun s v => ?_) _ s
  split
  · exact serves_writeDram s _ _
  · exact .refl s

theorem serves_resetRings (s : State) (r : Run) (p : Pattern) : Serves s (s.resetRings r p) := by
  unfold State.resetRings
  dsimp only
  have hring : Serves s (if r.streams p then s.writeDram r.blk.ring (zeroBytes 16) else s) := .ite (serves_writeDram s _ _) (.refl s)
  exact .ite hring (hring.trans (serves_writeAny _ _ _ _))

/-- The scores that wait leave before a pause or an end. -/
theorem serves_leaveScores (s : State) (r : Run) (ref : TaskRef) : Serves s (if r.part.isEmpty then s else s.writeScores ref true) :=
  .ite (.refl s) (serves_writeScores s ref true)

end Sys2Proof.Machine
end

section
/-! SUPPORT. What the pause, the end and the loss of a device's one run leave. -/

namespace Sys2Proof.Machine

/-! ### Patterns unloaded -/

theorem engine_unload {s : State} {es : List Nat} {k : Nat} (hk : k ∈ es) (hlt : k < s.grid.engines.length) :
    ∃ left, (s.unload es).engine k =
      { s.engine k with pattern := none, state := if (s.engine k).state = 0 then 0 else 1, progress := 0, left := left } := by
  have hget : s.grid.engines.getD k .reset = s.grid.engines[k] := by simp [List.getD_eq_getElem?_getD, List.getElem?_eq_getElem hlt]
  have hcontains : es.contains k = true := List.contains_iff_mem.mpr hk
  unfold State.unload State.engine
  dsimp only
  rw [List.getD_eq_getElem?_getD, List.getElem?_mapIdx, List.getElem?_eq_getElem hlt, hget]
  simp only [Option.map_some, Option.getD_some, hcontains, Bool.or_true, if_true]
  exact ⟨_, rfl⟩

@[simp] theorem length_engines_unload (s : State) (es : List Nat) : (s.unload es).grid.engines.length = s.grid.engines.length := by
  simp [State.unload]

/-- Every engine that the list names has no pattern and is IDLE or OFF. -/
theorem engines_unload_all {s : State} (hlen : s.grid.engines.length ≤ 8) :
    ∀ g ∈ (s.unload (List.range 8)).grid.engines, g.pattern = none ∧ g.state ≤ 1 := by
  intro g hg
  obtain ⟨k, hk, rfl⟩ := List.getElem_of_mem hg
  rw [length_engines_unload] at hk
  have hlt : k < (s.unload (List.range 8)).grid.engines.length := by rw [length_engines_unload]; exact hk
  obtain ⟨left, h⟩ := engine_unload (s := s) (List.mem_range.mpr (lt_of_lt_of_le hk hlen)) hk
  have hget : (s.unload (List.range 8)).engine k = (s.unload (List.range 8)).grid.engines[k] := by
    simp [State.engine, List.getD_eq_getElem?_getD, List.getElem?_eq_getElem hlt]
  rw [← hget, h]
  refine ⟨rfl, ?_⟩
  dsimp only
  split
  · exact Nat.zero_le 1
  · exact Nat.le_refl 1

/-! ### A run is released -/

/-- What the release of a run may move. -/
theorem releaseRun_moves {s : State} {ref : TaskRef} {r : Run} (hr : s.run? ref = some r) (status detail : Nat) :
    ∃ gs ps ts arms votes sums, s.releaseRun ref status detail = { s with
        grid := { s.grid with engines := gs, patterns := ps, runs := s.grid.runs.filter fun x => x.ref != ref }
        q := { s.q with tasks := ts }
        nl := { s.nl with arms := arms, votes := votes, sums := sums } }
      ∧ gs.length = s.grid.engines.length ∧ (s.grid.engines.length = 8 → ∀ k ∈ r.engines,
          (gs.getD k .reset).state = (if r.blk.kind = 2 then 1 else 2) ∧ (gs.getD k .reset).task = none) := by
  obtain ⟨w, hw⟩ : ∃ w, w = s.setEngines r.engines fun e : Engine =>
    { e with state := 2, cause := 0, detail := 0, pauseKind := 0, progress := 0, task := none } := ⟨_, rfl⟩
  obtain ⟨gs, hgs⟩ : ∃ gs, w = { s with grid := { s.grid with engines := gs } } := ⟨_, hw.trans (State.setEngines_eq ..)⟩
  have hwlen : w.grid.engines.length = s.grid.engines.length := hw ▸ State.length_setEngines ..
  have hwengine : s.grid.engines.length = 8 → ∀ k ∈ r.engines, (w.engine k).state = 2 ∧ (w.engine k).task = none := fun hlen k hk => by
    rw [hw, State.engine_setEngines_same hlen _ hk]
    exact ⟨rfl, rfl⟩
  unfold State.releaseRun
  rw [hr]
  dsimp only
  rw [← hw]
  split
  case isTrue hkind =>
    obtain ⟨y, hy⟩ : ∃ y : State, y = { w with grid := { w.grid with
      patterns := modifyIf (fun p => p.id == r.pattern) (fun p => { p with left := if r.begun then r.lanes p else p.left }) w.grid.patterns } } :=
      ⟨_, rfl⟩
    rw [← hy]
    obtain ⟨hs, ps, hyunload, hhs⟩ : ∃ hs ps, y.unload r.engines = { s with grid := { s.grid with engines := hs, patterns := ps } }
        ∧ hs = (y.unload r.engines).grid.engines := by
      rw [hy, hgs]
      exact ⟨_, _, rfl, rfl⟩
    have hylen : y.grid.engines.length = s.grid.engines.length := by
      rw [hy]
      exact hwlen
    have hhslen : hs.length = s.grid.engines.length := by rw [hhs, length_engines_unload, hylen]
    have hhsengine : s.grid.engines.length = 8 → ∀ k ∈ r.engines, (hs.getD k .reset).state = 1 ∧ (hs.getD k .reset).task = none := by
      intro hlen k hk
      obtain ⟨hstate, htask⟩ := hwengine hlen k hk
      obtain ⟨left, h⟩ := engine_unload (s := y) hk (by rw [hylen, hlen]; exact lt_of_mem_engines hk)
      have hyengine : y.engine k = w.engine k := by rw [hy]; rfl
      have hget : hs.getD k .reset = (y.unload r.engines).engine k := by rw [hhs]; rfl
      rw [hget, h, hyengine, hstate]
      exact ⟨rfl, htask⟩
    rw [hyunload]
    exact ⟨hs, _, _, _, _, _, rfl, hhslen, hhsengine⟩
  case isFalse hkind =>
    rw [hgs] at hwengine hwlen ⊢
    exact ⟨gs, _, _, _, _, _, rfl, hwlen, hwengine⟩

/-- DRAM has only been written since, and no channel but those in self-refresh has moved. -/
structure Drifts (s t : State) : Prop where
  ops : ∃ more, t.ops = s.ops ++ more ∧ ∀ o ∈ more, ∃ a bs, o = .write a bs
  channel : ∀ c, (s.channel c).state ≠ 3 → t.channel c = s.channel c

theorem Drifts.refl (s : State) : Drifts s s := ⟨⟨[], (List.append_nil _).symm, fun _ h => absurd h List.not_mem_nil⟩, fun _ _ => rfl⟩

theorem Drifts.of_eq {s t : State} (hops : t.ops = s.ops) (hdram : t.dram = s.dram) : Drifts s t :=
  ⟨⟨[], by rw [hops, List.append_nil], fun _ h => absurd h List.not_mem_nil⟩, fun c _ => by rw [State.channel, hdram]; rfl⟩

theorem Drifts.trans {s t u : State} (h : Drifts s t) (k : Drifts t u) : Drifts s u := by
  obtain ⟨more, hops, hwrites⟩ := h.ops
  obtain ⟨more', hops', hwrites'⟩ := k.ops
  refine ⟨⟨more ++ more', by rw [hops', hops, List.append_assoc], fun o ho => ?_⟩, fun c hc => ?_⟩
  · exact (List.mem_append.mp ho).elim (hwrites o) (hwrites' o)
  · exact (k.channel c (h.channel c hc ▸ hc)).trans (h.channel c hc)

theorem Drifts.foldl {α : Type} {f : State → α → State} (h : ∀ s x, Drifts s (f s x)) (xs : List α) (s : State) :
    Drifts s (xs.foldl f s) := by
  induction xs generalizing s with
  | nil => exact .refl s
  | cons x xs ih => exact (h s x).trans (ih _)

theorem Drifts.ite {c : Prop} [Decidable c] {s t u : State} (ht : Drifts s t) (hu : Drifts s u) : Drifts s (if c then t else u) := by
  split
  · exact ht
  · exact hu

theorem Serves.drifts {s t : State} (h : Serves s t) : Drifts s t := ⟨h.ops, fun _ hc => h.channel hc⟩

theorem Tells.drifts {s t : State} (h : Tells s t) : Drifts s t := by
  obtain ⟨_, _, _, rfl, -⟩ := h
  exact .of_eq rfl rfl

theorem drifts_logFault (s : State) (kind source : Nat) (queue : Option Nat) (place : Nat) : Drifts s (s.logFault kind source queue place) := by
  obtain ⟨_, _, _, _, _, _, h⟩ := reports_logFault s kind source queue place
  rw [h]
  exact .of_eq rfl rfl

theorem drifts_releaseRun (s : State) (ref : TaskRef) (status detail : Nat) : Drifts s (s.releaseRun ref status detail) := by
  cases hr : s.run? ref with
  | none =>
    unfold State.releaseRun
    rw [hr]
    exact .refl s
  | some r =>
    obtain ⟨_, _, _, _, _, _, h, -⟩ := releaseRun_moves hr status detail
    rw [h]
    exact .of_eq rfl rfl

/-! ### A run ends -/

theorem dropCheckpoints_moves (s : State) (r : Run) : ∃ ts, s.dropCheckpoints r = { s with q := { s.q with tasks := ts } } := by
  have hfold : ∀ (ws : List Want) (s : State), ∃ ts, ws.foldl (fun s w => match w with
      | .checkpoint t _ _ => s.endTask t 0x0100 0xFFFFFFFD
      | _ => s) s = { s with q := { s.q with tasks := ts } } := by
    intro ws
    induction ws with
    | nil => exact fun s => ⟨s.q.tasks, rfl⟩
    | cons w ws ih =>
      intro s
      obtain ⟨ts, h⟩ := ih (match w with | .checkpoint t _ _ => s.endTask t 0x0100 0xFFFFFFFD | _ => s)
      refine ⟨ts, h.trans ?_⟩
      cases w <;> rfl
  exact hfold r.wants s

/-- No CHECKPOINT waits for a run. -/
def Run.noCheckpoint (r : Run) : Prop := ∀ w ∈ r.wants, ∀ t a b, w ≠ .checkpoint t a b

theorem dropCheckpoints_none {r : Run} (h : r.noCheckpoint) (s : State) : s.dropCheckpoints r = s := by
  have hfold : ∀ (ws : List Want), (∀ w ∈ ws, ∀ t a b, w ≠ .checkpoint t a b) → ws.foldl (fun s w => match w with
      | .checkpoint t _ _ => s.endTask t 0x0100 0xFFFFFFFD
      | _ => s) s = s := by
    intro ws
    induction ws with
    | nil => exact fun _ => rfl
    | cons w ws ih =>
      intro hnone
      have hw := hnone w List.mem_cons_self
      cases w with
      | checkpoint t a b => exact absurd rfl (hw t a b)
      | kill a b => exact ih fun x hx => hnone x (List.mem_cons_of_mem _ hx)
      | pause a b => exact ih fun x hx => hnone x (List.mem_cons_of_mem _ hx)
      | stop => exact ih fun x hx => hnone x (List.mem_cons_of_mem _ hx)
  exact hfold r.wants h

/-- The one run r of a device has ended: its engines are free, its task is set to retire, and beyond its results nothing is
written. -/
structure EndsRun (s t : State) (r : Run) (status detail : Nat) : Prop where
  runs : t.grid.runs = []
  length : t.grid.engines.length = s.grid.engines.length
  engine : s.grid.engines.length = 8 → ∀ k ∈ r.engines, (t.engine k).state = (if r.blk.kind = 2 then 1 else 2) ∧ (t.engine k).task = none
  ends : r.noCheckpoint → ∀ u, s.task r.ref = some u → u.phase = .running → ends t r.ref status detail
  control : t.control = s.control
  log : t.log = s.log
  drifts : Drifts s t

theorem endsRun_releaseRun {s : State} {r : Run} (hruns : s.grid.runs = [r]) (status detail : Nat) :
    EndsRun s (s.releaseRun r.ref status detail) r status detail := by
  have hr := run?_sole hruns
  obtain ⟨gs, ps, ts, arms, votes, sums, h, hlen, hengines⟩ := releaseRun_moves hr status detail
  refine ⟨?_, ?_, fun h8 k hk => ?_, fun _ u hu hphase => ends_releaseRun hr hu hphase, ?_, ?_, drifts_releaseRun ..⟩
  · rw [h, hruns]
    simp
  · rw [h]
    exact hlen
  · have hget : (s.releaseRun r.ref status detail).engine k = gs.getD k .reset := by rw [h]; rfl
    rw [hget]
    exact hengines h8 k hk
  · rw [h]
    rfl
  · rw [h]

/-- What came before an end that neither tasks nor engines nor the log have seen. -/
theorem EndsRun.after {s w t : State} {r x : Run} {status detail : Nat} (h : EndsRun w t x status detail) (hq : w.q = s.q)
    (hengines : w.grid.engines.length = s.grid.engines.length) (hcontrol : w.control = s.control) (hlog : w.log = s.log)
    (hdrifts : Drifts s w) (href : x.ref = r.ref) (hmask : x.mask = r.mask) (hblk : x.blk = r.blk) (hwants : x.wants = r.wants) :
    EndsRun s t r status detail where
  runs := h.runs
  length := h.length.trans hengines
  engine := fun h8 k hk => by
    have hx : k ∈ x.engines := by
      rw [Run.engines, hmask]
      exact hk
    rw [← hblk]
    exact h.engine (hengines.trans h8) k hx
  ends := fun hnone u hu hphase => by
    rw [← href]
    refine h.ends ?_ u ?_ hphase
    · rw [Run.noCheckpoint, hwants]
      exact hnone
    · rw [State.task, hq, href]
      exact hu
  control := h.control.trans hcontrol
  log := h.log.trans hlog
  drifts := hdrifts.trans h.drifts

theorem endsRun_finishRun {s : State} {r : Run} (hruns : s.grid.runs = [r]) (himaging : r.imaging = none) (status detail state : Nat) :
    EndsRun s (s.finishRun r.ref status detail state) r status detail := by
  obtain ⟨w, hw⟩ : ∃ w, w = (if r.part.isEmpty then s else s.writeScores r.ref true).publish r.ref state := ⟨_, rfl⟩
  have hserves : Serves s w := hw ▸ (serves_leaveScores s r r.ref).trans (serves_publish _ _ _)
  obtain ⟨x, hwruns, _, _, _, _, _, _, _, hx⟩ := hserves.sole hruns
  obtain ⟨ts, hdrop⟩ := dropCheckpoints_moves w r
  obtain ⟨y, hy⟩ : ∃ y, y = (w.dropCheckpoints r).setRun r.ref fun r => { r with wants := [] } := ⟨_, rfl⟩
  have hxref : x.ref = r.ref := by rw [hx]
  have hyruns : y.grid.runs = [{ x with wants := [] }] := by
    rw [hy, hdrop, ← hxref]
    exact runs_setRun_sole hwruns _
  have hfinish : s.finishRun r.ref status detail state = y.releaseRun r.ref status detail := by
    unfold State.finishRun
    rw [run?_sole hruns]
    dsimp only
    rw [himaging, ← hw, ← hy]
    rfl
  have hrelease := endsRun_releaseRun hyruns status detail
  have href : ({ x with wants := [] } : Run).ref = r.ref := hxref
  rw [href] at hrelease
  have hends : r.noCheckpoint → ∀ u, s.task r.ref = some u → u.phase = .running → ends (y.releaseRun r.ref status detail) r.ref status detail := by
    intro hnone u hu hphase
    rw [← href]
    rw [← href] at hrelease
    refine hrelease.ends (fun w hw => absurd hw List.not_mem_nil) u ?_ hphase
    rw [hy, dropCheckpoints_none hnone, href]
    have hq : w.task r.ref = s.task r.ref := by rw [State.task, hserves.q]; rfl
    exact hq.trans hu
  rw [hfinish]
  have hyengines : y.grid.engines = s.grid.engines := by
    rw [hy, hdrop]
    exact hserves.engines
  refine ⟨hrelease.runs, hrelease.length.trans (by rw [hyengines]), fun h8 k hk => ?_, hends, hrelease.control.trans ?_,
    hrelease.log.trans ?_, Drifts.trans ?_ hrelease.drifts⟩
  · have hkx : k ∈ ({ x with wants := [] } : Run).engines := by
      rw [hx]
      exact hk
    have hkind : ({ x with wants := [] } : Run).blk = r.blk := by rw [hx]
    have h := hrelease.engine (by rw [hyengines]; exact h8) k hkx
    rw [hkind] at h
    exact h
  · rw [hy, hdrop]
    exact hserves.control
  · rw [hy, hdrop]
    exact hserves.log
  · rw [hy, hdrop]
    exact hserves.drifts.trans (.of_eq rfl rfl)

theorem Tells.grid {s t : State} (h : Tells s t) : t.grid = s.grid := by
  obtain ⟨_, _, _, rfl, -⟩ := h
  rfl

theorem Tells.q {s t : State} (h : Tells s t) : t.q = s.q := by
  obtain ⟨_, _, _, rfl, -⟩ := h
  rfl

theorem Tells.log {s t : State} (h : Tells s t) : t.log = s.log := by
  obtain ⟨_, _, _, rfl, -⟩ := h
  rfl

theorem Tells.control {s t : State} (h : Tells s t) : t.control = s.control := by
  obtain ⟨_, _, _, rfl, -⟩ := h
  rfl

theorem endsRun_breakRun {s : State} {r : Run} (hruns : s.grid.runs = [r]) (himaging : r.imaging = none) (status detail state : Nat) :
    EndsRun s (s.breakRun r.ref status detail state) r status detail := by
  have htells := leaveRun_tells s r.ref
  have h := endsRun_finishRun (s := s.leaveRun r.ref) (by rw [htells.grid]; exact hruns) himaging status detail state
  exact h.after htells.q (by rw [htells.grid]) htells.control htells.log htells.drifts rfl rfl rfl rfl

theorem endsRun_cannotContinue {s : State} {r : Run} (hruns : s.grid.runs = [r]) (himaging : r.imaging = none) :
    EndsRun s (s.cannotContinue r.ref) r 0x0100 0xFFFFFFFE := by
  unfold State.cannotContinue
  rw [run?_sole hruns]
  dsimp only
  split
  · exact endsRun_breakRun hruns himaging _ _ _
  · exact endsRun_releaseRun hruns _ _

end Sys2Proof.Machine
end

section
/-! SUPPORT. Hang intervals, cycles of fence waits, and the time-out of a guilty run. -/

namespace Sys2Proof.Machine

section
variable {s : State} (hlive : s.live = true)
include hlive

/-! ### Hang intervals -/

theorem hangInterval_unwatched (hwatch : s.q.hangWatch = 0) : ∃ t, exec .hangInterval s = .next t ∧ t.q.tasks = s.q.tasks.map s.judge
    ∧ t.q.queues = s.q.queues ∧ t.grid = s.grid ∧ t.mem = s.mem := by
  obtain ⟨u, hu⟩ : ∃ u : State, u = { s with ops := [], q := { s.q with tasks := s.q.tasks.map s.judge, hangReset := false } } := ⟨_, rfl⟩
  refine ⟨_, exec_lands_live rfl hlive (u := u) ?_, ?_, ?_, ?_, run_mem_of_no_ops (by rw [hu])⟩
  · dsimp only
    rw [if_pos hwatch, hu]
    rfl
  · rw [State.run_q, hu]
  · rw [State.run_q, hu]
  · rw [State.run_grid, hu]

omit hlive in
theorem stopRun_running {w : State} {r : Run} (hruns : w.grid.runs = [r]) (hended : r.ended = none) (hbegun : r.begun = true)
    (hstate : (w.engine r.lead).state = 3) (status detail : Nat) :
    w.stopRun r.ref status detail = w.setRun r.ref fun r => { r with wants := r.wants ++ [.kill status detail] } := by
  unfold State.stopRun
  rw [run?_sole hruns]
  dsimp only
  rw [if_neg (by simp [hended]), if_neg (by simp [hbegun]), if_pos hstate]

omit hlive in
/-- What a queue's reset leaves of a device on which it has one task, a RUN between boundaries. -/
theorem makeGuilty_running {w : State} {q : Queue} {u : Task} {r : Run} (hqueues : w.q.queues = [q]) (htasks : w.q.tasks = [u])
    (hruns : w.grid.runs = [r]) (hqueue : u.ref.queue = q.num) (hopcode : u.opcode = 1) (hphase : u.phase = .running) (href : r.ref = u.ref)
    (hended : r.ended = none) (hbegun : r.begun = true) (hstate : (w.engine r.lead).state = 3) :
    ∃ x, (w.makeGuilty q.num 1).queue q.num = some x ∧ x.state = .guilty ∧ x.cause = 1
      ∧ (w.makeGuilty q.num 1).grid.runs = [{ r with wants := r.wants ++ [.kill 0x0102 0] }] ∧ (w.makeGuilty q.num 1).ops = w.ops := by
  have hq : w.queue q.num = some q := by simp [State.queue, hqueues]
  obtain ⟨g, hg⟩ : ∃ g : Queue → Queue, g = fun x => { x with
    state := .guilty, cause := 1, purgeTo := q.head + (q.tail.toNat + 2 ^ 32 - q.head % 2 ^ 32) % 2 ^ 32 } := ⟨_, rfl⟩
  obtain ⟨y, hy⟩ : ∃ y, y = w.setQueue q.num g := ⟨_, rfl⟩
  have hyq : y.queue q.num = some (g q) := by
    rw [hy]
    exact State.queue_setQueue_same (fun x hx => by rw [hg]; exact hx) hq
  have hyruns : y.grid.runs = [r] := by rw [hy]; exact hruns
  obtain ⟨z, hz⟩ : ∃ z, z = y.setRun r.ref fun r => { r with wants := r.wants ++ [.kill 0x0102 0] } := ⟨_, rfl⟩
  have hzruns : z.grid.runs = [{ r with wants := r.wants ++ [.kill 0x0102 0] }] := by
    rw [hz]
    exact runs_setRun_sole hyruns _
  have hzq : z.queue q.num = some (g q) := by
    rw [hz]
    exact hyq
  have hzops : z.ops = w.ops := by
    rw [hz, hy]
    rfl
  have htasksOf : y.tasksOf q.num = [u] := by
    rw [hy]
    show List.filter _ w.q.tasks = _
    rw [htasks]
    simp [hqueue]
  have hstop : y.stopTask u 0x0102 = z := by
    unfold State.stopTask
    rw [hphase]
    dsimp only
    rw [if_pos hopcode, ← href, hz]
    exact stopRun_running hyruns hended hbegun (by rw [hy]; exact hstate) _ _
  obtain ⟨n, hn⟩ : ∃ n, n = (z.purgeChains q.num).2 := ⟨_, rfl⟩
  obtain ⟨c, hc⟩ : ∃ c, c = (z.purgeChains q.num).1.setQueue q.num fun x => { x with purged := x.purged + n } := ⟨_, rfl⟩
  have hcq : c.queue q.num = some { g q with purged := (g q).purged + n } := by
    rw [hc]
    exact State.queue_setQueue_same (f := fun x => { x with purged := x.purged + n }) (fun x hx => hx) hzq
  obtain ⟨draws, engines, hdraws⟩ := dropDraws_eq c q.num
  have hguilty : w.makeGuilty q.num 1 = (c.dropDraws q.num).noteWork q.num := by
    unfold State.makeGuilty
    rw [hq]
    dsimp only
    rw [← hg, ← hy]
    unfold State.stopAll
    rw [if_pos rfl, htasksOf, List.foldl_cons, List.foldl_nil, hstop]
    dsimp only
    rw [← hn, ← hc]
  rw [hguilty]
  refine ⟨{ g q with purged := (g q).purged + n }, ?_, ?_, ?_, ?_, ?_⟩
  · rw [State.noteWork_queue, hdraws]
    exact hcq
  · rw [hg]
  · rw [hg]
  · rw [State.noteWork_grid, hdraws, hc]
    exact hzruns
  · rw [State.noteWork_ops, hdraws, hc]
    exact hzops

theorem hangInterval_stops {q : Queue} {u : Task} {r : Run} (hqueues : s.q.queues = [q]) (htasks : s.q.tasks = [u]) (hruns : s.grid.runs = [r])
    (hactive : q.state = .active) (hqueue : u.ref.queue = q.num) (hopcode : u.opcode = 1) (hphase : u.phase = .running)
    (href : r.ref = u.ref) (hended : r.ended = none) (hbegun : r.begun = true) (hstate : (s.engine r.lead).state = 3)
    (hwhole : u.wholeInterval = true) (hprogress : u.progress = u.lastProgress) (hreset : s.q.hangReset = false)
    (hattached : s.host.attached = true) (hpos : 0 < s.q.hangWatch) (hstill : s.q.hangWatch ≤ u.still + 1) :
    ∃ t x, exec .hangInterval s = .next t ∧ t.queue q.num = some x ∧ x.state = .guilty ∧ x.cause = 1
      ∧ t.grid.runs = [{ r with wants := r.wants ++ [.kill 0x0102 0] }] ∧ t.mem = s.mem := by
  have hruns' : s.runsNow u = true := by
    rw [State.runsNow, ← href, run?_sole hruns]
    simp [hbegun, hstate]
  have hjudge : (s.judge u).still = u.still + 1 ∧ (s.judge u).ref = u.ref ∧ (s.judge u).opcode = u.opcode ∧ (s.judge u).phase = u.phase := by
    refine ⟨?_, rfl, rfl, rfl⟩
    exact if_pos (by simp [hphase, hruns', hwhole, hreset, hattached, hprogress])
  obtain ⟨hstill', href', hopcode', hphase'⟩ := hjudge
  obtain ⟨o, ho⟩ : ∃ o : State, o = { s with ops := [] } := ⟨_, rfl⟩
  have hojudge : o.judge u = s.judge u := by rw [ho]; rfl
  obtain ⟨w, hw⟩ : ∃ w : State, w = { o with q := { o.q with tasks := o.q.tasks.map o.judge, hangReset := false } } := ⟨_, rfl⟩
  have hwtasks : w.q.tasks = [s.judge u] := by
    have hotasks : o.q.tasks = [u] := by rw [ho]; exact htasks
    rw [hw, hotasks, ← hojudge]
    rfl
  obtain ⟨x, hx, hguilty, hcause, hwants, hops⟩ := makeGuilty_running (w := w) (q := q) (u := s.judge u) (r := r) (by rw [hw, ho]; exact hqueues)
    hwtasks (by rw [hw, ho]; exact hruns) (by rw [href']; exact hqueue) (hopcode'.trans hopcode) (hphase'.trans hphase)
    (by rw [href', href]) hended hbegun (by rw [hw, ho]; exact hstate)
  have hexec : exec .hangInterval s = .next (s.run fun _ => w.makeGuilty q.num 1) := by
    have hwatch : o.q.hangWatch ≠ 0 := by
      rw [ho]
      exact hpos.ne'
    have hfilter : (o.q.queues.filter fun q => q.state == .active && (o.q.tasks.map o.judge).any fun t =>
        t.ref.queue == q.num && decide (o.q.hangWatch ≤ t.still)) = [q] := by
      have hoqueues : o.q.queues = [q] := by rw [ho]; exact hqueues
      have hotasks : o.q.tasks = [u] := by rw [ho]; exact htasks
      have howatch : o.q.hangWatch = s.q.hangWatch := by rw [ho]
      simp [hoqueues, hotasks, hojudge, hactive, href', hqueue, hstill', howatch, hstill]
    refine exec_lands_live rfl hlive ?_
    rw [← ho]
    dsimp only
    rw [if_neg hwatch, hfilter, ← hw]
    rfl
  refine ⟨_, x, hexec, ?_, hguilty, hcause, ?_, run_mem_of_no_ops ?_⟩
  · rw [State.run_queue]
    exact hx
  · rw [State.run_grid]
    exact hwants
  · rw [hops, hw, ho]

/-! ### Cycles of fence waits -/

omit hlive in
/-- What stopping the tasks of a queue leaves where no run is on the device. -/
def StopsIdle (s t : State) : Prop :=
  ∃ fences tasks loads, t = { s with q := { s.q with fences := fences, tasks := tasks }, grid := { s.grid with runs := [], loads := loads } }

omit hlive in
theorem stopsIdle_stopTask {w : State} (hruns : w.grid.runs = []) (t : Task) (status : Nat) : StopsIdle w (w.stopTask t status) := by
  have hsame : ∀ ts, ({ w with q := { w.q with tasks := ts } } : State)
      = { w with q := { w.q with tasks := ts }, grid := { w.grid with runs := [] } } := fun ts => by rw [← hruns]
  unfold State.stopTask
  split
  · exact ⟨_, _, _, hsame w.q.tasks⟩
  · obtain ⟨fences, h⟩ := breakSignal_eq w t
    rw [h]
    refine ⟨fences, (w.endTask t.ref status 0).q.tasks, w.grid.loads, ?_⟩
    rw [← hruns]
    rfl
  · split
    · have hnone : w.run? t.ref = none := by simp [State.run?, hruns]
      unfold State.stopRun
      rw [hnone]
      exact ⟨_, _, _, hsame _⟩
    · refine ⟨w.q.fences, (w.endTask t.ref status 0).q.tasks, (w.dropLoad t.ref).grid.loads, ?_⟩
      rw [State.withdrawCheckpoint, hruns]
      rfl

omit hlive in
theorem stopsIdle_stopTasks {w : State} (hruns : w.grid.runs = []) (ts : List Task) (status : Nat) :
    StopsIdle w (ts.foldl (fun s t => s.stopTask t status) w) := by
  induction ts generalizing w with
  | nil =>
    refine ⟨w.q.fences, w.q.tasks, w.grid.loads, ?_⟩
    rw [← hruns]
    rfl
  | cons t ts ih =>
    obtain ⟨fences, tasks, loads, h⟩ := stopsIdle_stopTask hruns t status
    obtain ⟨fences', tasks', loads', h'⟩ := ih (w := w.stopTask t status) (by rw [h])
    rw [List.foldl_cons, h', h]
    exact ⟨fences', tasks', loads', rfl⟩

omit hlive in
/-- The reset of a queue where no run is on the device: the queue is GUILTY, every other queue stands. -/
theorem makeGuilty_idle {w : State} (hruns : w.grid.runs = []) {n : Nat} {q : Queue} (hq : w.queue n = some q) (cause : Nat) :
    (∃ x, (w.makeGuilty n cause).queue n = some x ∧ x.state = .guilty ∧ x.cause = cause)
      ∧ (∀ m, m ≠ n → (w.makeGuilty n cause).queue m = w.queue m) ∧ (w.makeGuilty n cause).grid.runs = []
      ∧ (w.makeGuilty n cause).fw = w.fw ∧ (w.makeGuilty n cause).ops = w.ops := by
  obtain ⟨g, hg⟩ : ∃ g : Queue → Queue, g = fun x => { x with
    state := .guilty, cause := cause, purgeTo := q.head + (q.tail.toNat + 2 ^ 32 - q.head % 2 ^ 32) % 2 ^ 32 } := ⟨_, rfl⟩
  have hgnum : ∀ x : Queue, x.num = n → (g x).num = n := fun x hx => by rw [hg]; exact hx
  obtain ⟨y, hy⟩ : ∃ y, y = w.setQueue n g := ⟨_, rfl⟩
  obtain ⟨z, hz⟩ : ∃ z, z = (y.tasksOf n).foldl (fun s t => s.stopTask t (if cause = 1 then 0x0102 else 0x0400)) y := ⟨_, rfl⟩
  obtain ⟨fences, tasks, loads, hstops⟩ := stopsIdle_stopTasks (w := y) (by rw [hy]; exact hruns) (y.tasksOf n)
    (if cause = 1 then 0x0102 else 0x0400)
  rw [← hz] at hstops
  obtain ⟨k, hk⟩ : ∃ k, k = (z.purgeChains n).2 := ⟨_, rfl⟩
  obtain ⟨c, hc⟩ : ∃ c, c = (z.purgeChains n).1.setQueue n fun x => { x with purged := x.purged + k } := ⟨_, rfl⟩
  obtain ⟨draws, engines, hdraws⟩ := dropDraws_eq c n
  have hguilty : w.makeGuilty n cause = (c.dropDraws n).noteWork n := by
    unfold State.makeGuilty
    rw [hq]
    dsimp only
    rw [← hg, ← hy]
    unfold State.stopAll
    rw [← hz]
    dsimp only
    rw [← hk, ← hc]
  have hyq : y.queue n = some (g q) := by
    rw [hy]
    exact State.queue_setQueue_same hgnum hq
  have hpurged : (z.purgeChains n).1.queue n = some (g q) := by
    rw [hstops]
    exact hyq
  have hcq : c.queue n = some { g q with purged := (g q).purged + k } := by
    rw [hc]
    exact State.queue_setQueue_same (f := fun x => { x with purged := x.purged + k }) (fun x hx => hx) hpurged
  have hcother : ∀ m, m ≠ n → c.queue m = w.queue m := fun m hm => by
    rw [hc, State.queue_setQueue_ne (f := fun x => { x with purged := x.purged + k }) (fun x hx => hx) hm, hstops]
    show y.queue m = w.queue m
    rw [hy, State.queue_setQueue_ne hgnum hm]
  have hcrest : c.grid.runs = [] ∧ c.fw = w.fw ∧ c.ops = w.ops := by
    rw [hc, hstops, hy]
    exact ⟨rfl, rfl, rfl⟩
  obtain ⟨hcruns, hcfw, hcops⟩ := hcrest
  rw [hguilty]
  refine ⟨⟨{ g q with purged := (g q).purged + k }, ?_, ?_, ?_⟩, fun m hm => ?_, ?_, ?_, ?_⟩
  · rw [State.noteWork_queue, hdraws]
    exact hcq
  · rw [hg]
  · rw [hg]
  · rw [State.noteWork_queue, hdraws]
    exact hcother m hm
  · rw [State.noteWork_grid, hdraws]
    exact hcruns
  · obtain ⟨waiting, hnote⟩ := State.noteWork_eq (c.dropDraws n) n
    rw [hnote, hdraws]
    exact hcfw
  · rw [State.noteWork_ops, hdraws]
    exact hcops

omit hlive in
theorem foldl_pick_mem {α : Type} (p : α → α → Prop) [∀ b x, Decidable (p b x)] (xs : List α) (b : α) :
    xs.foldl (fun b x => if p b x then x else b) b ∈ b :: xs := by
  induction xs generalizing b with
  | nil => exact List.mem_singleton_self b
  | cons x xs ih =>
    rw [List.foldl_cons]
    obtain h | h := List.mem_cons.mp (ih (if p b x then x else b))
    · rw [h]
      split
      · exact List.mem_cons_of_mem _ List.mem_cons_self
      · exact List.mem_cons_self
    · exact List.mem_cons_of_mem _ (List.mem_cons_of_mem _ h)

omit hlive in
/-- The queue that a cycle resets is ACTIVE. -/
theorem cycleVictim_active {w : State} {n : Nat} (h : w.cycleVictim = some n) : ∃ q, w.queue n = some q ∧ q.state = .active := by
  have hwait : ∃ x ∈ w.fenceWaits, x.1 = n := by
    unfold State.cycleVictim at h
    dsimp only at h
    split at h
    · exact absurd h (by simp)
    case h_2 x rest hcycle =>
      refine ⟨_, ?_, Option.some.inj h⟩
      have hmem := foldl_pick_mem (fun b x : Nat × Nat × Nat × Nat × Nat => b.2.1 < x.2.1 ∨ (b.2.1 = x.2.1 ∧ b.1 < x.1)) rest x
      rw [← hcycle] at hmem
      exact (List.mem_filter.mp hmem).1
  obtain ⟨x, hx, hn⟩ := hwait
  obtain ⟨u, -, hu⟩ := List.mem_filterMap.mp hx
  split at hu
  case h_1 c f q _ _ hq =>
    split at hu
    case isTrue hall =>
      have hnum : q.num = n := by
        rw [← hn, ← Option.some.inj hu]
      exact ⟨q, by rw [← hnum, State.queue_num hq]; exact hq, hall.2.2⟩
    case isFalse => exact absurd hu (by simp)
  · exact absurd hu (by simp)

omit hlive in
/-- A search keeps the queues that it has reset, and touches no run and no DRAM. -/
theorem breakCycles_keeps {n : Nat} (k : Nat) {w : State} (hruns : w.grid.runs = []) {x : Queue} (hx : w.queue n = some x)
    (hguilty : x.state = .guilty) : (State.breakCycles k w).queue n = some x ∧ (State.breakCycles k w).fw = w.fw
      ∧ (State.breakCycles k w).ops = w.ops := by
  induction k generalizing w with
  | zero => exact ⟨hx, rfl, rfl⟩
  | succ k ih =>
    unfold State.breakCycles
    split
    case h_1 m hm =>
      obtain ⟨q, hq, hactive⟩ := cycleVictim_active hm
      obtain ⟨-, hothers, hruns', hfw, hops⟩ := makeGuilty_idle hruns hq 2
      have hne : n ≠ m := by
        rintro rfl
        rw [hx] at hq
        rw [← Option.some.inj hq, hguilty] at hactive
        exact QueueState.noConfusion hactive
      obtain ⟨hq', hfw', hops'⟩ := ih hruns' ((hothers n hne).trans hx)
      exact ⟨hq', hfw'.trans hfw, hops'.trans hops⟩
    case h_2 => exact ⟨hx, rfl, rfl⟩

section
variable (hcore : s.fw.noCore = false) (hrunning : s.fw.running.isSome = true)
include hcore hrunning

theorem fenceCycleScan_lands {o w : State} (ho : o = { s with ops := [] }) (hw : w = { o with fw := { o.fw with scanned := true } }) :
    exec .fenceCycleScan s = .next (s.run fun _ => State.breakCycles o.q.queues.length w) := by
  have hidle : ¬ (o.fw.noCore || o.fw.running.isNone) = true := by
    rw [ho]
    simp [hcore, Option.isSome_iff_ne_none.mp hrunning]
  refine exec_lands_live rfl hlive ?_
  rw [← ho, hw]
  exact if_neg hidle

theorem fenceCycleScan_finds_none (hnone : s.cycleVictim = none) : ∃ t, exec .fenceCycleScan s = .next t
    ∧ t.fw = { s.fw with scanned := true } ∧ t.q = s.q ∧ t.grid = s.grid ∧ t.mem = s.mem := by
  obtain ⟨o, ho⟩ : ∃ o : State, o = { s with ops := [] } := ⟨_, rfl⟩
  obtain ⟨w, hw⟩ : ∃ w : State, w = { o with fw := { o.fw with scanned := true } } := ⟨_, rfl⟩
  have hwnone : w.cycleVictim = none := by
    rw [hw, ho]
    exact hnone
  have hstop : State.breakCycles o.q.queues.length w = w := by
    cases o.q.queues.length with
    | zero => rfl
    | succ k =>
      unfold State.breakCycles
      rw [hwnone]
  have hexec := fenceCycleScan_lands hlive hcore hrunning ho hw
  rw [hstop] at hexec
  refine ⟨_, hexec, ?_, ?_, ?_, run_mem_of_no_ops ?_⟩
  · rw [State.run_fw, hw, ho]
  · rw [State.run_q, hw, ho]
  · rw [State.run_grid, hw, ho]
  · rw [hw, ho]

theorem fenceCycleScan_resets {n : Nat} (hvictim : s.cycleVictim = some n) (hruns : s.grid.runs = []) :
    ∃ t x, exec .fenceCycleScan s = .next t ∧ t.fw.scanned = true ∧ t.queue n = some x ∧ x.state = .guilty ∧ x.cause = 2 ∧ t.mem = s.mem := by
  obtain ⟨o, ho⟩ : ∃ o : State, o = { s with ops := [] } := ⟨_, rfl⟩
  obtain ⟨w, hw⟩ : ∃ w : State, w = { o with fw := { o.fw with scanned := true } } := ⟨_, rfl⟩
  have hwvictim : w.cycleVictim = some n := by
    rw [hw, ho]
    exact hvictim
  obtain ⟨q, hq, -⟩ := cycleVictim_active hwvictim
  obtain ⟨⟨x, hx, hguilty, hcause⟩, -, hruns', hfw, hops⟩ := makeGuilty_idle (by rw [hw, ho]; exact hruns) hq 2
  have hlen : o.q.queues.length ≠ 0 := by
    have hmem : q ∈ w.q.queues := List.mem_of_find?_eq_some hq
    rw [hw] at hmem
    exact (List.length_pos_of_mem hmem).ne'
  obtain ⟨k, hk⟩ := Nat.exists_eq_succ_of_ne_zero hlen
  have hexec := fenceCycleScan_lands hlive hcore hrunning ho hw
  have hfirst : State.breakCycles (k + 1) w = State.breakCycles k (w.makeGuilty n 2) := by
    rw [State.breakCycles, hwvictim]
  rw [hk, Nat.succ_eq_add_one, hfirst] at hexec
  obtain ⟨hq', hfw', hops'⟩ := breakCycles_keeps k hruns' hx hguilty
  refine ⟨_, x, hexec, ?_, ?_, hguilty, hcause, run_mem_of_no_ops ?_⟩
  · rw [State.run_fw, hfw', hfw, hw]
  · rw [State.run_queue]
    exact hq'
  · rw [hops', hops, hw, ho]
end

/-! ### A run that reaches no boundary -/

theorem engineResetTimeout_ends {r : Run} {p : Pattern} {e d : Nat} (hsole : soleRun s r p) (he : e ∈ r.engines)
    (hwants : r.wants = [.kill 0x0102 d]) (hsome : s.task r.ref ≠ none) (hphase : ∀ u, s.task r.ref = some u → u.phase = .running) :
    ∃ t, exec (.engineResetTimeout e) s = .next t ∧ t.grid.runs = [] ∧ ends t r.ref 0x0102 d
      ∧ ∀ k ∈ r.engines, (t.engine k).state = 1 ∧ (t.engine k).pattern = none := by
  obtain ⟨hruns, -, hlen, -, -⟩ := id hsole
  obtain ⟨u, hu⟩ := Option.ne_none_iff_exists'.mp hsome
  obtain ⟨o, ho⟩ : ∃ o : State, o = { s with ops := [] } := ⟨_, rfl⟩
  obtain ⟨x, hx⟩ : ∃ x, x = { r with
    ticking := false, work := [], done := [], updating := false, imaging := none, offers := [], records := [] } := ⟨_, rfl⟩
  obtain ⟨w, hw⟩ : ∃ w, w = o.setRun r.ref fun r =>
    { r with ticking := false, work := [], done := [], updating := false, imaging := none, offers := [], records := [] } := ⟨_, rfl⟩
  have hwruns : w.grid.runs = [x] := by
    rw [hw, hx]
    exact runs_setRun_sole (by rw [ho]; exact hruns) _
  have hwlen : w.grid.engines.length = 8 := by rw [hw, ho]; exact hlen
  have hxref : x.ref = r.ref := by rw [hx]
  have hxengines : x.engines = r.engines := by rw [hx]; rfl
  have hend := endsRun_breakRun hwruns (by rw [hx]) 0x0102 d 3
  rw [hxref] at hend
  obtain ⟨y, hy⟩ : ∃ y, y = w.breakRun r.ref 0x0102 d 3 := ⟨_, rfl⟩
  rw [← hy] at hend
  have hexec : exec (.engineResetTimeout e) s = .next (s.run fun _ => y.unload r.engines) := by
    have hof : o.runOf e = some r := by
      have hosole : soleRun o r p := by rw [ho]; exact hsole
      exact runOf_sole hosole he
    refine exec_lands_live rfl hlive ?_
    rw [← ho]
    dsimp only
    rw [hof]
    dsimp only
    rw [hwants]
    dsimp only [firstKill, List.findSome?_cons]
    rw [if_pos (.inl rfl), ← hw, hy]
  refine ⟨_, hexec, ?_, ?_, fun k hk => ?_⟩
  · rw [State.run_grid]
    exact hend.runs
  · have hnone : x.noCheckpoint := by
      intro v hv a b c hck
      have hxwants : x.wants = [.kill 0x0102 d] := by rw [hx]; exact hwants
      rw [hxwants, List.mem_singleton] at hv
      rw [hv] at hck
      exact Want.noConfusion hck
    obtain ⟨v, hv, hvphase⟩ := hend.ends hnone u (by rw [hw, ho, hxref]; exact hu) (hphase u hu)
    refine ⟨v, ?_, hvphase⟩
    rw [State.run_task, ← hxref]
    exact hv
  · have hky : k < y.grid.engines.length := by
      rw [hend.length, hwlen]
      exact lt_of_mem_engines hk
    obtain ⟨left, h⟩ := engine_unload hk hky
    obtain ⟨hstate, -⟩ := hend.engine hwlen k (hxengines.symm ▸ hk)
    rw [State.run_engine, h]
    refine ⟨?_, rfl⟩
    refine if_neg ?_
    rw [hstate]
    split <;> decide
end

/-- Settles O44: the judgement of an interval, the search for cycles and the time-out each stop the queue or the run they name. -/
theorem guiltStopsQueues : Obligations.GuiltStopsQueues := by
  unfold Obligations.GuiltStopsQueues
  intro s hlive
  refine ⟨hangInterval_unwatched hlive, ?_, fun hcore hrunning => ⟨fenceCycleScan_finds_none hlive hcore hrunning, ?_⟩, ?_⟩
  · intro q u r hqueues htasks hruns hactive hqueue hopcode hphase href hended hbegun hstate hwhole hprogress hreset hattached _ hpos hstill
    exact hangInterval_stops hlive hqueues htasks hruns hactive hqueue hopcode hphase href hended hbegun hstate hwhole hprogress hreset
      hattached hpos hstill
  · intro n hvictim hruns _
    exact fenceCycleScan_resets hlive hcore hrunning hvictim hruns
  · intro r p e d hsole he hwants hsome hphase
    exact engineResetTimeout_ends hlive hsole he hwants hsome hphase

end Sys2Proof.Machine
end

section
/-! SUPPORT. How a run goes on from a boundary: what holds nothing back, what it lacks, and the pauses asked for. -/

namespace Sys2Proof.Machine

/-! ### The record of a task -/

theorem run?_setRun (s : State) {ref : TaskRef} {f : Run → Run} (hf : ∀ x : Run, x.ref = ref → (f x).ref = ref) :
    (s.setRun ref f).run? ref = (s.run? ref).map f := find?_modifyIf (by simpa using hf) s.grid.runs

/-- The engines of a run take state 3: no record of a run moves. -/
theorem runs_setRunState_going (s : State) (r : Run) (cause detail kind : Nat) : (s.setRunState r 3 cause detail kind).grid.runs = s.grid.runs := by
  unfold State.setRunState
  dsimp only
  rw [if_pos rfl, State.setEngines_eq]
  rfl

/-- The engines of a run take another state: its clock begins afresh. -/
theorem run?_setRunState_resting (s : State) {r : Run} {ref : TaskRef} (href : r.ref = ref) {st : Nat} (hst : st ≠ 3) (cause detail kind : Nat) :
    (s.setRunState r st cause detail kind).run? ref = (s.run? ref).map fun x => { x with clock := .start } := by
  obtain ⟨w, hw⟩ : ∃ w, w = (s.setEngines r.engines fun e : Engine =>
      { e with state := st, cause := cause, detail := detail, pauseKind := kind }).setTask r.ref
        fun t => if st = 3 then t else { t with wholeInterval := false } := ⟨_, rfl⟩
  have hruns : w.grid.runs = s.grid.runs := by
    rw [hw, State.setEngines_eq]
    rfl
  have hrun : w.run? ref = s.run? ref := by rw [State.run?, hruns, State.run?]
  unfold State.setRunState
  dsimp only
  rw [if_neg hst, ← hw, href, run?_setRun w (by exact fun _ h => h), hrun]

/-- The engines of a run in a new state: beyond engines, records and tasks nothing has moved. -/
theorem setRunState_drifts (s : State) (r : Run) (st cause detail kind : Nat) : Drifts s (s.setRunState r st cause detail kind)
    ∧ (s.setRunState r st cause detail kind).control = s.control := by
  obtain ⟨_, _, _, h⟩ := setRunState_moves s r st cause detail kind
  rw [h]
  exact ⟨.of_eq rfl rfl, rfl⟩

section
variable {s : State} {ref : TaskRef} {r : Run} (hr : s.run? ref = some r)
include hr

/-! ### Going on -/

/-- The engines of a run are RUNNING, and nothing of its record but what it starved on has moved. -/
structure Goes (s t : State) (ref : TaskRef) (r : Run) : Prop where
  record : t.run? ref = some { r with starved := [] }
  sole : s.grid.runs = [r] → t.grid.runs = [{ r with starved := [] }]
  engine : s.grid.engines.length = 8 → ∀ k ∈ r.engines, (t.engine k).state = 3
  control : t.control = s.control
  drifts : Drifts s t
  ops : t.ops = s.ops

theorem goRun_goes : Goes s (s.goRun ref) ref r := by
  obtain ⟨w, hw⟩ : ∃ w, w = s.setRunState r 3 0 0 0 := ⟨_, rfl⟩
  obtain ⟨y, hy⟩ : ∃ y, y = w.setRun ref fun r => { r with starved := [] } := ⟨_, rfl⟩
  have hwruns : w.grid.runs = s.grid.runs := hw ▸ runs_setRunState_going s r 0 0 0
  obtain ⟨hdrifts, hcontrol⟩ := hw ▸ setRunState_drifts s r 3 0 0 0
  obtain ⟨_, _, _, hmoves⟩ := hw ▸ setRunState_moves s r 3 0 0 0
  have hevents : Serves y (s.goRun ref) ∧ Reports y (s.goRun ref) := by
    unfold State.goRun
    rw [hr]
    dsimp only
    rw [← hw, ← hy]
    exact ⟨.foldl (fun s x => serves_event s _ _ _ _ _) _ _, .foldl (fun s x => reports_event s _ _ _ _ _) _ _⟩
  obtain ⟨hserves, hreports⟩ := hevents
  refine ⟨?_, fun hsole => ?_, fun hlen k hk => ?_, ?_, ?_, ?_⟩
  · rw [State.run?, hreports.grid, ← State.run?, hy, run?_setRun w (by exact fun _ h => h), State.run?, hwruns, ← State.run?, hr]
    rfl
  · rw [hreports.grid, hy, ← ref_of_run? hr]
    exact runs_setRun_sole (hwruns.trans hsole) _
  · rw [hreports.engine, hy]
    show (w.engine k).state = 3
    rw [hw, engine_setRunState_same 3 0 0 0 hlen hk]
  · rw [hserves.control, hy]
    exact hcontrol
  · exact (hy ▸ hdrifts.trans (.of_eq rfl rfl) : Drifts s y).trans hserves.drifts
  · rw [hreports.ops, hy]
    show w.ops = s.ops
    rw [hmoves]

/-! ### What holds nothing back -/

variable {p : Pattern} (hp : s.pattern r.pattern = some p)

/-- A run whose pattern has no program makes no sprouts. -/
theorem makeSprouts_none (hp : s.pattern r.pattern = some p) (hprograms : p.programs = []) :
    ∃ waiting, s.makeSprouts ref = ({ s with q := { s.q with waiting := waiting } }, true) := by
  have hsteps : (r.sproutSteps p r.tick).drop r.sprouted = [] := by simp [Run.sproutSteps, hprograms]
  unfold State.makeSprouts
  rw [hr]
  dsimp only
  rw [hp]
  cases hq : s.queue ref.queue with
  | none => exact ⟨s.q.waiting, rfl⟩
  | some q =>
    cases ht : s.task ref with
    | none => exact ⟨s.q.waiting, rfl⟩
    | some t =>
      dsimp only
      rw [hsteps]
      simp only [List.take_nil, List.mapIdx_nil, List.append_nil, List.length_nil, Nat.add_zero, Nat.zero_le, decide_true]
      have hqueue : s.setQueue q.num (fun q => { q with lane := q.lane, sprouts := q.sprouts }) = s := by
        have hsame : modifyIf (fun x : Queue => x.num == q.num) (fun q => { q with lane := q.lane, sprouts := q.sprouts }) s.q.queues = s.q.queues :=
          (List.map_congr_left fun x _ => by split <;> rfl).trans (List.map_id _)
        unfold State.setQueue
        rw [hsame]
      obtain ⟨waiting, hnote⟩ := State.noteWork_eq s q.num
      have hrun : ({ s with q := { s.q with waiting := waiting } } : State).setRun ref (fun r => { r with sprouted := r.sprouted })
          = { s with q := { s.q with waiting := waiting } } := by
        have hsame : modifyIf (fun x : Run => x.ref == ref) (fun r => { r with sprouted := r.sprouted }) s.grid.runs = s.grid.runs :=
          (List.map_congr_left fun x _ => by split <;> rfl).trans (List.map_id _)
        unfold State.setRun
        dsimp only
        rw [hsame]
      rw [hqueue, hnote, hrun]
      exact ⟨waiting, rfl⟩

/-- The first clamp vectors of a learning run, and nothing for another run. -/
theorem firstClamps_takes (hp : s.pattern r.pattern = some p) (v : HostView) : ∃ reps x, (s.firstClamps v ref).run? ref = some x
    ∧ ({ r with replicas := reps } : Run).Streamed x ∧ (s.grid.runs = [r] → (s.firstClamps v ref).grid.runs = [x])
    ∧ (s.firstClamps v ref).grid.engines = s.grid.engines ∧ (s.firstClamps v ref).control = s.control ∧ Drifts s (s.firstClamps v ref) := by
  by_cases hkind : r.blk.kind = 2 ∧ r.inputPos < p.phase
  · obtain ⟨reps, hreps⟩ : ∃ reps, reps = r.replicas.mapIdx fun k rep =>
      if k < p.phase then r.build p (r.clampState p k 0 (s.inputVector v r p k)) else rep := ⟨_, rfl⟩
    obtain ⟨w, hw⟩ : ∃ w, w = s.setRun ref fun r => { r with replicas := reps } := ⟨_, rfl⟩
    have hwrun : w.run? ref = some { r with replicas := reps } := by
      rw [hw, run?_setRun s (by exact fun _ h => h), hr]
      rfl
    have hclamps : s.firstClamps v ref = w.advanceInput ref p.phase := by
      unfold State.firstClamps
      rw [hr]
      dsimp only
      rw [hp]
      dsimp only
      rw [if_pos hkind, ← hreps, ← hw]
    have hserves := serves_advanceInput w ref p.phase
    obtain ⟨x, hx, hstreamed⟩ := hserves.run? hwrun
    rw [hclamps]
    refine ⟨reps, x, hx, hstreamed, fun hsole => ?_, ?_, ?_, ?_⟩
    · have hwsole : w.grid.runs = [{ r with replicas := reps }] := by
        rw [hw, ← ref_of_run? hr]
        exact runs_setRun_sole hsole _
      obtain ⟨y, hy, -⟩ := hserves.sole hwsole
      have hxy : x = y := by
        have hmem : x ∈ (w.advanceInput ref p.phase).grid.runs := List.mem_of_find?_eq_some hx
        rw [hy] at hmem
        exact List.mem_singleton.mp hmem
      rw [hxy]
      exact hy
    · rw [hserves.engines, hw]
      rfl
    · rw [hserves.control, hw]
      rfl
    · exact Drifts.trans (by rw [hw]; exact .of_eq rfl rfl) hserves.drifts
  · have hclamps : s.firstClamps v ref = s := by
      unfold State.firstClamps
      rw [hr]
      dsimp only
      rw [hp]
      dsimp only
      rw [if_neg hkind]
    rw [hclamps]
    exact ⟨r.replicas, r, hr, .refl r, id, rfl, rfl, .refl s⟩

theorem firstClamps_other (hp : s.pattern r.pattern = some p) (v : HostView) (hkind : r.blk.kind ≠ 2) : s.firstClamps v ref = s := by
  unfold State.firstClamps
  rw [hr]
  dsimp only
  rw [hp]
  dsimp only
  rw [if_neg fun h => hkind h.1]

section
variable {v : HostView} (hnoise : r.blk.noise = false) (hprograms : p.programs = []) (hcounter : s.counterFails v r p = false)
include hp hnoise hprograms hcounter

/-- A run that lacks no stream goes on, from a state that differs from the boundary's in the queues that wait alone. -/
theorem proceed_goes (hlacking : s.lacking v r p = []) (hinput : s.inputFails v r p = false) :
    ∃ waiting, s.proceed v ref = ((({ s with q := { s.q with waiting := waiting } } : State).firstClamps v ref).goRun ref) := by
  obtain ⟨waiting, hmade⟩ := makeSprouts_none hr hp hprograms
  refine ⟨waiting, ?_⟩
  obtain ⟨w, hw⟩ : ∃ w : State, w = { s with q := { s.q with waiting := waiting } } := ⟨_, rfl⟩
  have hwlacking : w.lacking v r p = [] := by rw [hw]; exact hlacking
  have hwcounter : w.counterFails v r p = false := by rw [hw]; exact hcounter
  have hwinput : w.inputFails v r p = false := by rw [hw]; exact hinput
  rw [← hw] at hmade
  unfold State.proceed
  rw [hr]
  dsimp only
  rw [hp]
  dsimp only
  rw [if_neg (by simp [hnoise]), hmade]
  dsimp only
  rw [if_neg (by simp [hwcounter]), hwlacking, if_neg (by simp), if_neg (by simp [hwinput]), hw]

/-- A run that lacks streams starves on them. -/
theorem proceed_starves (hlacking : s.lacking v r p ≠ []) :
    ∃ waiting, s.proceed v ref = (({ s with q := { s.q with waiting := waiting } } : State).starveRun ref (s.lacking v r p)) := by
  obtain ⟨waiting, hmade⟩ := makeSprouts_none hr hp hprograms
  refine ⟨waiting, ?_⟩
  obtain ⟨w, hw⟩ : ∃ w : State, w = { s with q := { s.q with waiting := waiting } } := ⟨_, rfl⟩
  have hwlacking : w.lacking v r p = s.lacking v r p := by rw [hw]; rfl
  have hwcounter : w.counterFails v r p = false := by rw [hw]; exact hcounter
  rw [← hw] at hmade
  unfold State.proceed
  rw [hr]
  dsimp only
  rw [hp]
  dsimp only
  rw [if_neg (by simp [hnoise]), hmade]
  dsimp only
  rw [if_neg (by simp [hwcounter]), hwlacking, if_pos (by simpa using hlacking), hw]
  simp
end

/-- The engines of a run are STARVED. -/
theorem starveRun_starves (streams : List Nat) : (∃ x, (s.starveRun ref streams).run? ref = some x ∧ x.tick = r.tick ∧ x.starved = streams
      ∧ (s.grid.runs = [r] → (s.starveRun ref streams).grid.runs = [x]))
    ∧ (s.grid.engines.length = 8 → ∀ k ∈ r.engines, ((s.starveRun ref streams).engine k).state = 4) := by
  have href := ref_of_run? hr
  obtain ⟨w, hw⟩ : ∃ w, w = s.setRunState r 4 0 0 0 := ⟨_, rfl⟩
  obtain ⟨y, hy⟩ : ∃ y, y = w.setRun ref fun r => { r with starved := streams } := ⟨_, rfl⟩
  have hwrun : w.run? ref = some { r with clock := .start } := by
    rw [hw, run?_setRunState_resting s href (by decide), hr]
    rfl
  have hyrun : y.run? ref = some { r with clock := .start, starved := streams } := by
    rw [hy, run?_setRun w (by exact fun _ h => h), hwrun]
    rfl
  have hserves : Serves y (s.starveRun ref streams) := by
    unfold State.starveRun
    rw [hr]
    dsimp only
    rw [← hw, ← hy]
    exact (serves_leaveScores y r ref).trans (.foldl (fun s x => serves_event s _ _ _ _ _) _ _)
  obtain ⟨x, hx, hstreamed⟩ := hserves.run? hyrun
  refine ⟨⟨x, hx, ?_, ?_, fun hsole => ?_⟩, fun hlen k hk => ?_⟩
  · obtain ⟨_, _, _, _, _, _, _, hx⟩ := hstreamed
    rw [hx]
  · obtain ⟨_, _, _, _, _, _, _, hx⟩ := hstreamed
    rw [hx]
  · have hwsole : w.grid.runs = [{ r with clock := .start }] := by
      rw [hw, runs_setRunState_sole 4 0 0 0 hsole rfl]
      rfl
    have hysole : y.grid.runs = [{ r with clock := .start, starved := streams }] := by
      rw [hy, ← href]
      exact runs_setRun_sole hwsole fun x => { x with starved := streams }
    obtain ⟨z, hz, -⟩ := hserves.sole hysole
    have hmem : x ∈ (s.starveRun ref streams).grid.runs := List.mem_of_find?_eq_some hx
    rw [hz] at hmem ⊢
    rw [List.mem_singleton.mp hmem]
  · rw [hserves.engine, hy]
    show (w.engine k).state = 4
    rw [hw, engine_setRunState_same 4 0 0 0 hlen hk]

/-! ### Row nine -/

/-- Where no record waits for room nothing is written. -/
theorem flushRing_none (hqueue : r.queue = []) : s.flushRing ref = s := by
  unfold State.flushRing
  rw [hr]
  dsimp only
  rw [hqueue]
  rfl

omit hr in
theorem barrierPause_none (hvotes : s.nl.votes = []) (x : Run) : s.barrierPause x = none := by
  unfold State.barrierPause
  rw [hvotes]
  rfl

omit hr in
theorem settles_lockstep {x : Run} (hloose : x.blk.loose = false) (t : Nat) : x.settles t = true := by
  simp [Run.settles, hloose]

theorem takeCheckpoints_none (hnone : r.noCheckpoint) : s.takeCheckpoints ref = (s, false) := by
  unfold State.takeCheckpoints
  rw [hr]
  refine if_pos ?_
  rw [List.isEmpty_iff, List.filterMap_eq_nil_iff]
  intro w hw
  cases w with
  | checkpoint t a b => exact absurd rfl (hnone _ hw t a b)
  | kill a b => rfl
  | pause a b => rfl
  | stop => rfl

/-- A run that nothing ends or pauses proceeds. -/
theorem rowNine_proceeds (hp : s.pattern r.pattern = some p) (hwants : r.wants = []) (hpause : r.pauseAt = 0) (hcomplete : r.complete p = false)
    (hloose : r.blk.loose = false) (hqueue : r.queue = []) (hvotes : s.nl.votes = []) (v : HostView) : s.rowNine v ref = s.proceed v ref := by
  have hnone : r.noCheckpoint := fun w hw => absurd (hwants ▸ hw) List.not_mem_nil
  unfold State.rowNine
  rw [flushRing_none hr hqueue]
  dsimp only
  rw [hr]
  dsimp only
  rw [hp]
  dsimp only
  rw [if_neg (by simp [settles_lockstep hloose]), hwants]
  dsimp only [firstKill, List.findSome?_nil]
  rw [if_neg (by simp [hcomplete]), if_neg (by simp), if_neg (by simp [hcomplete]), takeCheckpoints_none hr hnone]
  dsimp only
  rw [barrierPause_none hvotes]
  dsimp only [wantedPause, List.filterMap_nil]
  rw [if_neg (by simp [hpause]), if_neg (by simp)]
end

end Sys2Proof.Machine
end

section
/-! SUPPORT. The ends of what holds a run. -/

namespace Sys2Proof.Machine

/-! ### Missing streams -/

theorem Run.Streamed.tick {x y : Run} (h : x.Streamed y) : y.tick = x.tick := by
  obtain ⟨_, _, _, _, _, _, _, rfl⟩ := h
  rfl

theorem Run.Streamed.engines {x y : Run} (h : x.Streamed y) : y.engines = x.engines := by
  obtain ⟨_, _, _, _, _, _, _, rfl⟩ := h
  rfl

section
variable {s : State} {r : Run} {p : Pattern} {e : Nat} (hsole : soleRun s r p) (he : e ∈ r.engines) (hlive : s.live = true)
include hsole

theorem unhindered_proceeds (hfree : unhindered s r p) (v : HostView) : s.rowNine v r.ref = s.proceed v r.ref := by
  obtain ⟨hruns, hp, -, -, -⟩ := hsole
  obtain ⟨-, hwants, -, hpause, hcomplete, -, hloose, -, -, hqueue, hvotes⟩ := hfree
  exact rowNine_proceeds (run?_sole hruns) hp hwants hpause hcomplete hloose hqueue hvotes v

/-- A run with all its streams goes on at the same tick. -/
theorem rowNine_goes (hfree : unhindered s r p) {v : HostView} (hcounter : s.counterFails v r p = false) (hinput : s.inputFails v r p = false)
    (hlacking : s.lacking v r p = []) : ∃ x, (∀ k ∈ r.engines, ((s.rowNine v r.ref).engine k).state = 3)
      ∧ (s.rowNine v r.ref).grid.runs = [x] ∧ x.tick = r.tick ∧ x.starved = [] := by
  rw [unhindered_proceeds hsole hfree]
  obtain ⟨hruns, hp, hlen, -, -⟩ := hsole
  obtain ⟨-, -, -, -, -, hnoise, -, hprograms, -⟩ := hfree
  obtain ⟨waiting, hproceed⟩ := proceed_goes (run?_sole hruns) hp hnoise hprograms hcounter hlacking hinput
  obtain ⟨w, hw⟩ : ∃ w : State, w = { s with q := { s.q with waiting := waiting } } := ⟨_, rfl⟩
  have hwruns : w.grid.runs = [r] := by rw [hw]; exact hruns
  have hwp : w.pattern r.pattern = some p := by rw [hw]; exact hp
  obtain ⟨_, x, hx, hstreamed, hxsole, hengines, -, -⟩ := firstClamps_takes (run?_sole hwruns) hwp v
  have hgoes := goRun_goes hx
  rw [hproceed, ← hw]
  refine ⟨_, fun k hk => hgoes.engine ?_ k ?_, hgoes.sole (hxsole hwruns), hstreamed.tick, rfl⟩
  · rw [hengines, hw]
    exact hlen
  · rw [hstreamed.engines]
    exact hk

/-- A run that lacks streams is STARVED at the same tick. -/
theorem rowNine_starves (hfree : unhindered s r p) {v : HostView} (hcounter : s.counterFails v r p = false)
    (hlacking : s.lacking v r p ≠ []) : ∃ x, (∀ k ∈ r.engines, ((s.rowNine v r.ref).engine k).state = 4)
      ∧ (s.rowNine v r.ref).grid.runs = [x] ∧ x.tick = r.tick ∧ x.starved = s.lacking v r p := by
  rw [unhindered_proceeds hsole hfree]
  obtain ⟨hruns, hp, hlen, -, -⟩ := hsole
  obtain ⟨-, -, -, -, -, hnoise, -, hprograms, -⟩ := hfree
  obtain ⟨waiting, hproceed⟩ := proceed_starves (run?_sole hruns) hp hnoise hprograms hcounter hlacking
  obtain ⟨w, hw⟩ : ∃ w : State, w = { s with q := { s.q with waiting := waiting } } := ⟨_, rfl⟩
  have hwruns : w.grid.runs = [r] := by rw [hw]; exact hruns
  obtain ⟨⟨x, -, htick, hstarved, hxsole⟩, hengine⟩ := starveRun_starves (run?_sole hwruns) (s.lacking v r p)
  rw [hproceed, ← hw]
  exact ⟨x, hengine (by rw [hw]; exact hlen), hxsole hwruns, htick, hstarved⟩

include he hlive

/-- RING_POLL of a STARVED run decides at the boundary. -/
theorem ringPoll_lands {v : HostView} (hstate : (s.engine r.lead).state = 4)
    (hopen : s.hostOpen = true ∨ r.blk.kind = 0 ∨ r.blk.input < hostWindow) :
    exec (.ringPoll e v) s = .next (s.run fun _ => ({ s with ops := [] } : State).rowNine v r.ref) := by
  refine sole_lands rfl hlive hsole he ?_
  obtain ⟨o, ho⟩ : ∃ o : State, o = { s with ops := [] } := ⟨_, rfl⟩
  have hostate : (o.engine r.lead).state = 4 := by rw [ho]; exact hstate
  have hoopen : o.hostOpen = true ∨ r.blk.kind = 0 ∨ r.blk.input < hostWindow := by rw [ho]; exact hopen
  rw [← ho]
  exact if_pos ⟨hostate, hoopen⟩

theorem ringPoll_goes (hfree : unhindered s r p) {v : HostView} (hstate : (s.engine r.lead).state = 4)
    (hopen : s.hostOpen = true ∨ r.blk.kind = 0 ∨ r.blk.input < hostWindow) (hcounter : s.counterFails v r p = false)
    (hinput : s.inputFails v r p = false) (hlacking : s.lacking v r p = []) :
    ∃ t x, exec (.ringPoll e v) s = .next t ∧ (∀ k ∈ r.engines, (t.engine k).state = 3) ∧ t.grid.runs = [x] ∧ x.tick = r.tick
      ∧ x.starved = [] := by
  obtain ⟨o, ho⟩ : ∃ o : State, o = { s with ops := [] } := ⟨_, rfl⟩
  have hosole : soleRun o r p := by rw [ho]; exact hsole
  have hofree : unhindered o r p := by rw [ho]; exact hfree
  have hexec := ringPoll_lands hsole he hlive (v := v) hstate hopen
  rw [← ho] at hexec
  obtain ⟨x, hengine, hruns, htick, hstarved⟩ := rowNine_goes hosole hofree (v := v) (by rw [ho]; exact hcounter) (by rw [ho]; exact hinput)
    (by rw [ho]; exact hlacking)
  refine ⟨_, x, hexec, fun k hk => ?_, ?_, htick, hstarved⟩
  · rw [State.run_engine]
    exact hengine k hk
  · rw [State.run_grid]
    exact hruns

theorem ringPoll_starves (hfree : unhindered s r p) {v : HostView} (hstate : (s.engine r.lead).state = 4)
    (hopen : s.hostOpen = true ∨ r.blk.kind = 0 ∨ r.blk.input < hostWindow) (hcounter : s.counterFails v r p = false)
    (hlacking : s.lacking v r p ≠ []) :
    ∃ t x, exec (.ringPoll e v) s = .next t ∧ (∀ k ∈ r.engines, (t.engine k).state = 4) ∧ t.grid.runs = [x] ∧ x.tick = r.tick
      ∧ x.starved = s.lacking v r p := by
  obtain ⟨o, ho⟩ : ∃ o : State, o = { s with ops := [] } := ⟨_, rfl⟩
  have hosole : soleRun o r p := by rw [ho]; exact hsole
  have hofree : unhindered o r p := by rw [ho]; exact hfree
  have holacking : o.lacking v r p = s.lacking v r p := by rw [ho]; rfl
  have hexec := ringPoll_lands hsole he hlive (v := v) hstate hopen
  rw [← ho] at hexec
  obtain ⟨x, hengine, hruns, htick, hstarved⟩ := rowNine_starves hosole hofree (v := v) (by rw [ho]; exact hcounter) (holacking ▸ hlacking)
  refine ⟨_, x, hexec, fun k hk => ?_, ?_, htick, hstarved.trans holacking⟩
  · rw [State.run_engine]
    exact hengine k hk
  · rw [State.run_grid]
    exact hruns

/-! ### Spools, weir rows and wires -/

/-- A command that moves the run's record alone. -/
theorem record_lands {c : Instr} {F : State → Run → Pattern → State} {g : Run → Run}
    (hexec : exec c s = .next (s.whenLive fun s => s.withRun e (F s)))
    (hF : F { s with ops := [] } r p = ({ s with ops := [] } : State).setRun r.ref g) :
    ∃ t, exec c s = .next t ∧ t.grid.runs = [g r] ∧ t.grid.engines = s.grid.engines ∧ t.mem = s.mem := by
  have hruns := runs_setRun_sole (s := { s with ops := [] }) hsole.1 g
  refine ⟨_, sole_lands hexec hlive hsole he hF, ?_, ?_, run_mem_of_no_ops rfl⟩
  · rw [State.run_grid]
    exact hruns
  · rw [State.run_grid]
    rfl

theorem spoolLoadComplete_loads {k : Nat} (hk : k ∈ r.loading)
    (hclean : s.mem.poisonIn (r.blk.spool + 64 * k * p.replicaLines) (64 * p.replicaLines) = false) :
    ∃ t, exec (.spoolLoadComplete e k) s = .next t
      ∧ t.grid.runs = [{ r with loading := r.loading.filter (· != k), resident := r.resident ++ [k]
                                replicas := modifyAt (fun _ => r.spoolIn p s.mem k) k r.replicas }]
      ∧ t.grid.engines = s.grid.engines ∧ t.mem = s.mem := by
  refine record_lands hsole he hlive (g := fun x => { x with
    loading := x.loading.filter (· != k), resident := x.resident ++ [k]
    replicas := modifyAt (fun _ => r.spoolIn p s.mem k) k x.replicas }) rfl ?_
  dsimp only
  rw [if_neg (by simpa using hk), if_neg (by simp [hclean])]

theorem weirRebuildComplete_builds {rung : Nat} {c : Change} (hc : (r.due.take 4).find? (fun c => c.rung == rung) = some c) :
    ∃ t, exec (.weirRebuildComplete e rung) s = .next t ∧ t.grid.runs = [r.builtWeir c] ∧ t.grid.engines = s.grid.engines
      ∧ t.mem = s.mem := by
  refine record_lands hsole he hlive (g := fun r => r.builtWeir c) rfl ?_
  rw [hc]

/-! ### Repaired rows -/

omit hsole he hlive in
theorem reports_repairs (s : State) (e : Nat) (tick : Option Nat) :
    Reports (s.setEngine e fun g => { g with repaired := g.repaired ++ (s.engine e).toRepair }) (s.endRepair e tick) :=
  .foldl (fun s _ => reports_event s _ _ _ _ _) _ _

omit hsole he hlive in
theorem endRepairs_repairs (tick : Option Nat) {es : List Nat} (hnodup : es.Nodup) (s : State) (hlen : ∀ k ∈ es, k < s.grid.engines.length) :
    ∃ t, t = es.foldl (fun (s : State) e => s.endRepair e tick) s ∧ t.grid.runs = s.grid.runs ∧ t.mem = s.mem ∧ t.ops = s.ops
      ∧ (∀ k ∈ es, (t.engine k).repaired = (s.engine k).repaired ++ (s.engine k).toRepair)
      ∧ ∀ k, k ∉ es → t.engine k = s.engine k := by
  induction es generalizing s with
  | nil => exact ⟨s, rfl, rfl, rfl, rfl, fun _ h => absurd h List.not_mem_nil, fun _ _ => rfl⟩
  | cons e es ih =>
    obtain ⟨hfresh, hrest⟩ := List.nodup_cons.mp hnodup
    have hreports := reports_repairs s e tick
    obtain ⟨w, hw⟩ : ∃ w, w = s.endRepair e tick := ⟨_, rfl⟩
    rw [← hw] at hreports
    have hsame : (w.engine e).repaired = (s.engine e).repaired ++ (s.engine e).toRepair := by
      rw [hreports.engine, State.engine_setEngine_same (hlen e List.mem_cons_self)]
    have hother {k : Nat} (hk : k ≠ e) : w.engine k = s.engine k := by
      rw [hreports.engine, State.engine_setEngine_ne hk]
    have hwlen : w.grid.engines.length = s.grid.engines.length := by
      rw [hreports.grid]
      exact length_modifyAt ..
    obtain ⟨t, ht, hruns, hmem, hops, hin, hout⟩ := ih hrest w fun k hk => by rw [hwlen]; exact hlen k (List.mem_cons_of_mem _ hk)
    refine ⟨t, by rw [List.foldl_cons, ← hw]; exact ht, ?_, ?_, ?_, fun k hk => ?_, fun k hk => ?_⟩
    · rw [hruns, hreports.grid]
      rfl
    · rw [hmem, hreports.mem]
      rfl
    · rw [hops, hreports.ops]
      rfl
    · obtain rfl | hk := List.mem_cons.mp hk
      · rw [hout k hfresh, hsame]
      · rw [hin k hk, hother fun h => hfresh (h ▸ hk)]
    · rw [hout k fun h => hk (List.mem_cons_of_mem _ h), hother fun h => hk (h ▸ List.mem_cons_self)]

theorem shiftRepairComplete_repairs (hpowered : ∀ k ∈ r.engines, (s.engine k).toRepair ≠ [] → s.powered k = true) :
    ∃ t, exec (.shiftRepairComplete e) s = .next t ∧ t.grid.runs = [{ r with repairing := false }]
      ∧ (∀ k ∈ r.engines, (t.engine k).repaired = (s.engine k).repaired ++ (s.engine k).toRepair) ∧ t.mem = s.mem := by
  obtain ⟨o, ho⟩ : ∃ o : State, o = { s with ops := [] } := ⟨_, rfl⟩
  have hosole : soleRun o r p := by rw [ho]; exact hsole
  have hoengine : ∀ k, o.engine k = s.engine k := fun k => by rw [ho]; rfl
  obtain ⟨es, hes⟩ : ∃ es, es = r.engines.filter fun e => !(o.engine e).toRepair.isEmpty := ⟨_, rfl⟩
  have hmem {k : Nat} : k ∈ es ↔ k ∈ r.engines ∧ (s.engine k).toRepair ≠ [] := by rw [hes]; simp [hoengine]
  have hall : es.all o.powered = true := by
    rw [List.all_eq_true]
    intro k hk
    obtain ⟨hk, hrows⟩ := hmem.mp hk
    rw [ho]
    exact hpowered k hk hrows
  obtain ⟨t, ht, hruns, htmem, hops, hin, hout⟩ := endRepairs_repairs (some r.tick) (hes ▸ (nodup_engines r).filter _ : es.Nodup) o
    fun k hk => by rw [hosole.2.2.1]; exact lt_of_mem_engines (hmem.mp hk).1
  have hlands : exec (.shiftRepairComplete e) s = .next (s.run fun _ => t.setRun r.ref fun r => { r with repairing := false }) := by
    refine exec_lands_live rfl hlive ?_
    rw [← ho, ht]
    dsimp only
    rw [runOf_sole hosole he]
    dsimp only
    rw [← hes, if_neg (by simp [hall])]
  refine ⟨_, hlands, ?_, fun k hk => ?_, ?_⟩
  · rw [State.run_grid]
    exact runs_setRun_sole (hruns.trans hosole.1) _
  · rw [State.run_engine]
    show (t.engine k).repaired = _
    by_cases hrows : (s.engine k).toRepair = []
    · rw [hout k fun h => (hmem.mp h).2 hrows, hoengine, hrows, List.append_nil]
    · rw [hin k (hmem.mpr ⟨hk, hrows⟩), hoengine]
  · refine run_mem_of_no_ops ?_
    show t.ops = []
    rw [hops, ho]
end

/-- Settles O52: the boundary decides anew for a STARVED run; the other completions move the run's record, or the repaired rows of its
engines. -/
theorem holdsAndWaitsEnd : Obligations.HoldsAndWaitsEnd := by
  intro s r p e hsole he hlive
  refine ⟨fun v hfree hstate hopen hcounter hinput => ⟨ringPoll_goes hsole he hlive hfree hstate hopen hcounter hinput,
    ringPoll_starves hsole he hlive hfree hstate hopen hcounter⟩, fun k hk hclean => ?_,
    fun rung c hc => weirRebuildComplete_builds hsole he hlive hc, shiftRepairComplete_repairs hsole he hlive,
    record_lands hsole he hlive (g := fun r => { r with steering := false }) rfl rfl⟩
  obtain ⟨t, ht, hruns, -, hmem⟩ := spoolLoadComplete_loads hsole he hlive hk hclean
  exact ⟨t, ht, hmem, hruns⟩

end Sys2Proof.Machine
end

section
/-! SUPPORT. The place a run stands at, which row nine leaves unless the run ends, and the state in which a start comes to row nine. -/

namespace Sys2Proof.Machine

/-! ### The place of a run -/

/-- Two records of a run that stand at the same boundary of the same work. -/
structure Run.SamePlace (r x : Run) : Prop where
  begun : x.begun = r.begun
  tick : x.tick = r.tick
  blk : x.blk = r.blk
  mask : x.mask = r.mask
  pattern : x.pattern = r.pattern

theorem Run.SamePlace.refl (r : Run) : r.SamePlace r := ⟨rfl, rfl, rfl, rfl, rfl⟩

theorem Run.SamePlace.trans {r x y : Run} (h : r.SamePlace x) (k : x.SamePlace y) : r.SamePlace y :=
  ⟨k.begun.trans h.begun, k.tick.trans h.tick, k.blk.trans h.blk, k.mask.trans h.mask, k.pattern.trans h.pattern⟩

theorem Run.Streamed.samePlace {r x : Run} (h : r.Streamed x) : r.SamePlace x := by
  obtain ⟨_, _, _, _, _, _, _, rfl⟩ := h
  exact ⟨rfl, rfl, rfl, rfl, rfl⟩

/-- The run of a task stands at its place, and the patterns stand. -/
structure HoldsPlace (s t : State) (ref : TaskRef) : Prop where
  record : ∀ r, s.run? ref = some r → ∃ x, t.run? ref = some x ∧ r.SamePlace x
  pattern : ∀ id, t.pattern id = s.pattern id

section
variable {s t u : State} {ref : TaskRef}

theorem HoldsPlace.refl (s : State) (ref : TaskRef) : HoldsPlace s s ref := ⟨fun r hr => ⟨r, hr, .refl r⟩, fun _ => rfl⟩

theorem HoldsPlace.trans (h : HoldsPlace s t ref) (k : HoldsPlace t u ref) : HoldsPlace s u ref := by
  refine ⟨fun r hr => ?_, fun id => (k.pattern id).trans (h.pattern id)⟩
  obtain ⟨x, hx, hrx⟩ := h.record r hr
  obtain ⟨y, hy, hxy⟩ := k.record x hx
  exact ⟨y, hy, hrx.trans hxy⟩

theorem HoldsPlace.ite {c : Prop} [Decidable c] (ht : HoldsPlace s t ref) (hu : HoldsPlace s u ref) :
    HoldsPlace s (if c then t else u) ref := by
  split
  · exact ht
  · exact hu

theorem Serves.holdsPlace (h : Serves s t) (ref : TaskRef) : HoldsPlace s t ref := by
  refine ⟨fun r hr => ?_, h.pattern⟩
  obtain ⟨x, hx, hstreamed⟩ := h.run? hr
  exact ⟨x, hx, hstreamed.samePlace⟩

theorem HoldsPlace.of_grid (h : t.grid = s.grid) (ref : TaskRef) : HoldsPlace s t ref := by
  refine ⟨fun r hr => ⟨r, ?_, .refl r⟩, fun id => ?_⟩
  · rw [State.run?, h]
    exact hr
  · rw [State.pattern, h]
    rfl

theorem Reports.holdsPlace (h : Reports s t) (ref : TaskRef) : HoldsPlace s t ref := .of_grid h.grid ref

theorem holdsPlace_setRun (s : State) (ref : TaskRef) {f : Run → Run} (href : ∀ x : Run, x.ref = ref → (f x).ref = ref)
    (hf : ∀ r : Run, r.SamePlace (f r)) : HoldsPlace s (s.setRun ref f) ref := by
  refine ⟨fun r hr => ⟨f r, ?_, hf r⟩, fun _ => rfl⟩
  rw [run?_setRun s href, hr]
  rfl

theorem holdsPlace_setRunState (s : State) {r : Run} (href : r.ref = ref) (st cause detail kind : Nat) :
    HoldsPlace s (s.setRunState r st cause detail kind) ref := by
  obtain ⟨_, _, _, hmoves⟩ := setRunState_moves s r st cause detail kind
  refine ⟨fun x hx => ?_, fun id => by rw [hmoves]; rfl⟩
  by_cases hst : st = 3
  · refine ⟨x, ?_, .refl x⟩
    rw [hst, State.run?, runs_setRunState_going]
    exact hx
  · refine ⟨{ x with clock := .start }, ?_, ⟨rfl, rfl, rfl, rfl, rfl⟩⟩
    rw [run?_setRunState_resting s href hst, hx]
    rfl

theorem holdsPlace_holdRun (s : State) (ref : TaskRef) (cause detail : Nat) : HoldsPlace s (s.holdRun ref cause detail) ref := by
  cases hr : s.run? ref with
  | none =>
    unfold State.holdRun
    rw [hr]
    exact .refl s ref
  | some r => exact (holdsPlace_setRunState s (ref_of_run? hr) 6 cause detail 0).trans ((holdRun_reports hr cause detail).holdsPlace ref)

theorem holdsPlace_goRun (s : State) (ref : TaskRef) : HoldsPlace s (s.goRun ref) ref := by
  cases hr : s.run? ref with
  | none =>
    unfold State.goRun
    rw [hr]
    exact .refl s ref
  | some r =>
    unfold State.goRun
    rw [hr]
    dsimp only
    refine ((holdsPlace_setRunState s (ref_of_run? hr) 3 0 0 0).trans ?_).trans
      (Reports.holdsPlace (.foldl (fun s x => reports_event s _ _ _ _ _) _ _) ref)
    exact holdsPlace_setRun _ ref (fun _ h => h) fun _ => ⟨rfl, rfl, rfl, rfl, rfl⟩

theorem holdsPlace_starveRun (s : State) (ref : TaskRef) (streams : List Nat) : HoldsPlace s (s.starveRun ref streams) ref := by
  cases hr : s.run? ref with
  | none =>
    unfold State.starveRun
    rw [hr]
    exact .refl s ref
  | some r =>
    unfold State.starveRun
    rw [hr]
    dsimp only
    refine .trans (.trans ((holdsPlace_setRunState s (ref_of_run? hr) 4 0 0 0).trans ?_) ((serves_leaveScores _ r ref).holdsPlace ref))
      (Reports.holdsPlace (.foldl (fun s x => reports_event s _ _ _ _ _) _ _) ref)
    exact holdsPlace_setRun _ ref (fun _ h => h) fun _ => ⟨rfl, rfl, rfl, rfl, rfl⟩

theorem holdsPlace_pauseRun (s : State) (ref : TaskRef) (kind : Nat) : HoldsPlace s (s.pauseRun ref kind) ref := by
  cases hr : s.run? ref with
  | none =>
    unfold State.pauseRun
    rw [hr]
    exact .refl s ref
  | some r =>
    unfold State.pauseRun
    rw [hr]
    dsimp only
    exact .ite (holdsPlace_setRunState s (ref_of_run? hr) 5 0 0 kind)
      ((((serves_leaveScores s r ref).trans (serves_publish _ ref 1)).holdsPlace ref).trans (holdsPlace_setRunState _ (ref_of_run? hr) 5 0 0 kind))

theorem holdsPlace_firstClamps (s : State) (v : HostView) (ref : TaskRef) : HoldsPlace s (s.firstClamps v ref) ref := by
  unfold State.firstClamps
  split
  · split
    · refine .ite ?_ (.refl s ref)
      refine HoldsPlace.trans ?_ ((serves_advanceInput _ ref _).holdsPlace ref)
      exact holdsPlace_setRun s ref (fun _ h => h) fun _ => ⟨rfl, rfl, rfl, rfl, rfl⟩
    · exact .refl s ref
  · exact .refl s ref

theorem holdsPlace_makeSprouts (s : State) (ref : TaskRef) : HoldsPlace s (s.makeSprouts ref).1 ref := by
  unfold State.makeSprouts
  split
  · exact .refl s ref
  · split
    · dsimp only
      refine HoldsPlace.trans (.of_grid ?_ ref) (holdsPlace_setRun _ ref (fun _ h => h) fun _ => ⟨rfl, rfl, rfl, rfl, rfl⟩)
      rw [State.noteWork_grid]
      rfl
    · exact .refl s ref

theorem holdsPlace_proceed (s : State) (v : HostView) (ref : TaskRef) : HoldsPlace s (s.proceed v ref) ref := by
  unfold State.proceed
  split
  · exact .refl s ref
  · split
    · exact .refl s ref
    · have hmade := holdsPlace_makeSprouts s ref
      exact .ite (holdsPlace_holdRun s ref 4 0) (.ite (hmade.trans (holdsPlace_holdRun _ ref 7 0))
        (.ite (hmade.trans (holdsPlace_starveRun _ ref _)) (.ite (hmade.trans (holdsPlace_holdRun _ ref 7 0))
          (hmade.trans ((holdsPlace_firstClamps _ v ref).trans (holdsPlace_goRun _ ref))))))

/-- A run that is not complete, and that nothing asked to end, stands at its place once row nine has decided. -/
theorem holdsPlace_rowNine {r : Run} {p : Pattern} (hr : s.run? ref = some r) (hp : s.pattern r.pattern = some p)
    (hwants : r.wants = []) (hqueue : r.queue = []) (hcomplete : r.complete p = false) (v : HostView) :
    HoldsPlace s (s.rowNine v ref) ref := by
  have hnone : r.noCheckpoint := fun w hw => absurd (hwants ▸ hw) List.not_mem_nil
  have hproceed := holdsPlace_proceed s v ref
  have hland (kind : Nat) (addrs : List Nat) (f : Run → Run) (href : ∀ x : Run, x.ref = ref → (f x).ref = ref)
      (hf : ∀ x : Run, x.SamePlace (f x)) :
      HoldsPlace s ((addrs.foldl (fun s a => s.writeCheckpoint ref a) (s.pauseRun ref kind)).setRun ref f) ref :=
    ((holdsPlace_pauseRun s ref kind).trans
      (Serves.holdsPlace (.foldl (fun s a => serves_writeCheckpoint s ref a) _ _) ref)).trans (holdsPlace_setRun _ ref href hf)
  unfold State.rowNine
  rw [flushRing_none hr hqueue]
  dsimp only
  rw [hr]
  dsimp only
  rw [hp]
  dsimp only
  refine .ite hproceed ?_
  rw [hwants]
  dsimp only [firstKill, List.findSome?_nil]
  rw [if_neg (by simp [hcomplete]), if_neg (by simp), if_neg (by simp [hcomplete]), takeCheckpoints_none hr hnone]
  dsimp only [wantedPause, List.filterMap_nil]
  split
  · exact .ite (hland _ _ _ (fun _ h => h) fun _ => ⟨rfl, rfl, rfl, rfl, rfl⟩) (.ite (.refl s ref) hproceed)
  case h_2 h => exact absurd h (by simp)
  · exact hland _ _ _ (fun _ h => h) fun _ => ⟨rfl, rfl, rfl, rfl, rfl⟩

end

/-! ### The start -/

/-- The record of a run as it begins from a boundary. -/
def Run.opened (r : Run) (p : Pattern) : Run :=
  { r with begun := true, armed := false, resident := residentAt p r.tick, progress := 0, base := r.tick }

/-- The state in which a start comes to row nine: record, couplings, rings and spool are those of the boundary before its first
tick. -/
def State.openRun (s : State) (ref : TaskRef) (p : Pattern) (cores : List Core) (r : Run) : State :=
  let r := r.opened p
  let s := s.setRun ref fun _ => r
  let s := { s with grid := { s.grid with patterns := modifyIf (fun x => x.id == p.id) (fun x => { x with cores := cores }) s.grid.patterns } }
  let s := s.resetRings r p
  let s := if p.spools && r.blk.kind == 0 then
      ((List.range p.header.total).filter fun k => !r.resident.contains k).foldl (fun s k => s.spoolOut r p k) s
    else s
  s.setEngines r.engines fun e => { e with progress := 0 }

section
variable {s : State} {ref : TaskRef} {r : Run} {p : Pattern} (hr : s.run? ref = some r) (hp : s.pattern r.pattern = some p)
include hr hp

/-- What the opening of a run leaves. -/
structure Opens (s t : State) (ref : TaskRef) (p : Pattern) (cores : List Core) (x : Run) : Prop where
  record : t.run? ref = some (x.opened p)
  sole : ∀ r, s.grid.runs = [r] → t.grid.runs = [x.opened p]
  pattern : t.pattern x.pattern = some { p with cores := cores }
  length : t.grid.engines.length = s.grid.engines.length
  engine : ∀ k, (t.engine k).state = (s.engine k).state
  votes : t.nl.votes = s.nl.votes
  control : t.control = s.control
  drifts : Drifts s t

omit hr hp in
theorem resetRings_grid (s : State) (r : Run) (p : Pattern) : (s.resetRings r p).grid = s.grid := by
  have hany (w : State) (pasid : Option Nat) (a : Nat) (bs : List Byte) : (w.writeAny pasid a bs).grid = w.grid := by
    unfold State.writeAny
    split
    · exact State.writeDram_grid ..
    · exact State.hostWrite_grid ..
  unfold State.resetRings
  split
  · split
    · exact State.writeDram_grid ..
    · exact (hany ..).trans (State.writeDram_grid ..)
  · split
    · rfl
    · exact hany ..

theorem openRun_opens (cores : List Core) {x : Run} (href : x.ref = ref) (hpattern : x.pattern = r.pattern) :
    Opens s (s.openRun ref p cores x) ref p cores x := by
  obtain ⟨w, hw⟩ : ∃ w, w = s.setRun ref fun _ => x.opened p := ⟨_, rfl⟩
  obtain ⟨y, hy⟩ : ∃ y : State, y = { w with
    grid := { w.grid with patterns := modifyIf (fun x => x.id == p.id) (fun x => { x with cores := cores }) w.grid.patterns } } := ⟨_, rfl⟩
  obtain ⟨z, hz⟩ : ∃ z, z = (if p.spools && (x.opened p).blk.kind == 0 then
      ((List.range p.header.total).filter fun k => !(x.opened p).resident.contains k).foldl (fun s k => s.spoolOut (x.opened p) p k)
        (y.resetRings (x.opened p) p)
    else y.resetRings (x.opened p) p) := ⟨_, rfl⟩
  have hserves : Serves y z := hz ▸ (serves_resetRings y (x.opened p) p).trans
    (.ite (.foldl (fun s k => serves_spoolOut s _ p k) _ _) (.refl _))
  obtain ⟨gs, hgs⟩ : ∃ gs, z.setEngines x.engines (fun e => { e with progress := 0 }) = { z with grid := { z.grid with engines := gs } } :=
    ⟨_, State.setEngines_eq ..⟩
  have hopen : s.openRun ref p cores x = z.setEngines x.engines fun e => { e with progress := 0 } := by
    rw [hz, hy, hw]
    rfl
  have hyrun : y.run? ref = some (x.opened p) := by
    have hwrun : w.run? ref = some (x.opened p) := by
      rw [hw, run?_setRun s (by exact fun _ _ => href), hr]
      rfl
    rw [hy]
    exact hwrun
  have hypattern : y.pattern x.pattern = some { p with cores := cores } := by
    have hid : p.id = x.pattern := by
      rw [hpattern]
      simpa using List.find?_some hp
    rw [hy, hw, ← hid]
    show (modifyIf (fun x => x.id == p.id) _ s.grid.patterns).find? (fun x => x.id == p.id) = _
    rw [find?_modifyIf (by simp)]
    have hfind : s.grid.patterns.find? (fun x => x.id == p.id) = some p := by
      rw [hid, hpattern]
      exact hp
    rw [hfind]
    rfl
  have hgrid : z.grid = y.grid := by
    rw [hz]
    split
    · rw [grid_foldl (by simp)]
      exact resetRings_grid ..
    · exact resetRings_grid ..
  rw [hopen]
  refine ⟨?_, fun r' hsole => ?_, ?_, ?_, fun k => ?_, ?_, ?_, ?_⟩
  · have hzrun : z.run? ref = some (x.opened p) := by
      rw [State.run?, hgrid]
      exact hyrun
    rw [hgs]
    exact hzrun
  · have hr' : r' = r := by
      have hmem : r ∈ s.grid.runs := List.mem_of_find?_eq_some hr
      rw [hsole] at hmem
      exact (List.mem_singleton.mp hmem).symm
    have hwruns : w.grid.runs = [x.opened p] := by
      rw [hw, ← ref_of_run? hr]
      exact runs_setRun_sole (hr' ▸ hsole) fun _ => x.opened p
    rw [hgs]
    show z.grid.runs = _
    rw [hgrid, hy]
    exact hwruns
  · rw [hgs]
    show z.pattern x.pattern = _
    rw [hserves.pattern]
    exact hypattern
  · rw [State.length_setEngines, hserves.engines, hy, hw]
    rfl
  · have hstate : (z.engine k).state = (s.engine k).state := by
      rw [hserves.engine, hy, hw]
      rfl
    rw [State.engine_setEngines (nodup_engines x)]
    split
    · exact hstate
    · exact hstate
  · rw [hgs]
    show z.nl.votes = _
    rw [hserves.votes, hy, hw]
    rfl
  · rw [hgs]
    show z.control = _
    rw [hserves.control, hy, hw]
    rfl
  · have hy' : Drifts s y := by
      rw [hy, hw]
      exact .of_eq rfl rfl
    refine (hy'.trans hserves.drifts).trans ?_
    rw [hgs]
    exact .of_eq rfl rfl

/-! ### What a run begins from -/

/-- The record of a run that begins at tick 0. -/
def State.firstRecord (s : State) (v : HostView) (p : Pattern) (r : Run) : Run :=
  if r.blk.kind = 1 then r
  else
    let r := { r with replicas := (List.range p.header.total).map fun i => r.build p (s.initState v r.blk p i) }
    let r := r.startWeir p 0
    if r.blk.kind = 0 then
      { r with results := takeOffers p.plan true ((List.range p.header.total).map fun i => r.offer p i 0 true) r.results }
    else r

omit hr hp in
/-- Replicas, weir and results of the record of tick 0 are new, and nothing else. -/
theorem firstRecord_rest (s : State) (v : HostView) (p : Pattern) (r : Run) : ∃ reps w d l results, s.firstRecord v p r =
    { r with replicas := reps, weir := w, due := d, later := l, results := results } := by
  obtain ⟨x, hx⟩ : ∃ x : Run, x = { r with replicas := (List.range p.header.total).map fun i => r.build p (s.initState v r.blk p i) } := ⟨_, rfl⟩
  obtain ⟨_, _, _, h⟩ := startWeir_rest x p 0
  unfold State.firstRecord
  dsimp only
  rw [← hx]
  split
  · exact ⟨_, _, _, _, _, rfl⟩
  · split
    · rw [h, hx]
      exact ⟨_, _, _, _, _, rfl⟩
    · rw [h, hx]
      exact ⟨_, _, _, _, _, rfl⟩

omit hr hp in
theorem complete_firstRecord (s : State) (v : HostView) (p q : Pattern) (r : Run) : (s.firstRecord v p r).complete q = r.complete q := by
  by_cases hkind : r.blk.kind = 1
  · rw [State.firstRecord, if_pos hkind]
  · obtain ⟨_, _, _, _, _, h⟩ := firstRecord_rest s v p r
    rw [h]
    unfold Run.complete
    dsimp only
    split
    · rfl
    case h_2 h => exact absurd h hkind
    · rfl

theorem beginRun_fresh (hresume : r.blk.resume = false) (hrehost : r.blk.rehost = false) (v : HostView) :
    s.beginRun v ref = (s.openRun ref p p.cores (s.firstRecord v p r)).rowNine v ref := by
  unfold State.beginRun
  rw [hr]
  dsimp -zeta only
  rw [hp]
  dsimp -zeta only
  extract_lets go
  have hgo (x : Run) (cores : List Core) : go x cores s = (s.openRun ref p cores x).rowNine v ref := rfl
  clear_value go
  rw [if_neg (by simp [hresume, hrehost]), if_neg (by simp [hrehost]), State.firstRecord]
  split
  · exact hgo _ _
  · exact hgo _ _

theorem beginRun_resumed {x : Run} {cores : List Core} (himage : r.blk.resume = true ∨ (r.blk.rehost = true ∧ r.blk.resumeAt ≠ 0))
    (hrestore : r.restore p (imageAt s.mem r.blk.resumeAt) = some (x, cores)) (v : HostView) :
    s.beginRun v ref = (s.openRun ref p cores x).rowNine v ref := by
  unfold State.beginRun
  rw [hr]
  dsimp -zeta only
  rw [hp]
  dsimp -zeta only
  extract_lets go
  have hgo (x : Run) (cores : List Core) : go x cores s = (s.openRun ref p cores x).rowNine v ref := rfl
  clear_value go
  rw [if_pos (by simpa using himage), hrestore]
  exact hgo x cores

theorem beginRun_rehosted {x : Run} {cores : List Core} {n : Nat} (hresume : r.blk.resume = false) (hrehost : r.blk.rehost = true)
    (hat : r.blk.resumeAt = 0) (htick : s.hemTick r.tag p.hosted = some n)
    (hrestore : r.restore p (hemReader s.mem r p (s.hemPlaces r.tag p.hosted n) n) = some (x, cores)) (v : HostView) :
    s.beginRun v ref = (s.openRun ref p cores x).rowNine v ref := by
  unfold State.beginRun
  rw [hr]
  dsimp -zeta only
  rw [hp]
  dsimp -zeta only
  extract_lets go
  have hgo (x : Run) (cores : List Core) : go x cores s = (s.openRun ref p cores x).rowNine v ref := rfl
  clear_value go
  rw [if_neg (by simp [hresume, hat]), if_pos hrehost, htick]
  dsimp only
  rw [hrestore]
  exact hgo x cores

end
end Sys2Proof.Machine
end

section
/-! SUPPORT. A dispatched task whose parameter block is read. -/

namespace Sys2Proof.Machine

/-- The state in which a dispatched task acts: channels in self-refresh have woken, and the task keeps its block. -/
def State.withBlock (s : State) (ref : TaskRef) (b : List Byte) : State :=
  ({ s with ops := [] } : State).wakeChannels.setTask ref fun t => { t with block := b }

theorem withBlock_moves (s : State) (ref : TaskRef) (b : List Byte) : ∃ channels domains tasks, s.withBlock ref b = { s with
    ops := [], dram := { s.dram with channels := channels }, pow := { s.pow with domains := domains }, q := { s.q with tasks := tasks } } := by
  obtain ⟨channels, domains, h⟩ := wakes_wakeChannels { s with ops := [] }
  rw [State.withBlock, h]
  exact ⟨channels, domains, _, rfl⟩

section
variable (s : State) (ref : TaskRef) (b : List Byte)

@[simp] theorem State.withBlock_grid : (s.withBlock ref b).grid = s.grid := by obtain ⟨_, _, _, h⟩ := withBlock_moves s ref b; rw [h]
@[simp] theorem State.withBlock_mem : (s.withBlock ref b).mem = s.mem := by obtain ⟨_, _, _, h⟩ := withBlock_moves s ref b; rw [h]
@[simp] theorem State.withBlock_host : (s.withBlock ref b).host = s.host := by obtain ⟨_, _, _, h⟩ := withBlock_moves s ref b; rw [h]
@[simp] theorem State.withBlock_nl : (s.withBlock ref b).nl = s.nl := by obtain ⟨_, _, _, h⟩ := withBlock_moves s ref b; rw [h]
@[simp] theorem State.withBlock_rng : (s.withBlock ref b).rng = s.rng := by obtain ⟨_, _, _, h⟩ := withBlock_moves s ref b; rw [h]
@[simp] theorem State.withBlock_cnt : (s.withBlock ref b).cnt = s.cnt := by obtain ⟨_, _, _, h⟩ := withBlock_moves s ref b; rw [h]
@[simp] theorem State.withBlock_out : (s.withBlock ref b).out = s.out := by obtain ⟨_, _, _, h⟩ := withBlock_moves s ref b; rw [h]
@[simp] theorem State.withBlock_free : (s.withBlock ref b).free = s.free := by obtain ⟨_, _, _, h⟩ := withBlock_moves s ref b; rw [h]
@[simp] theorem State.withBlock_ops : (s.withBlock ref b).ops = [] := by obtain ⟨_, _, _, h⟩ := withBlock_moves s ref b; rw [h]

@[simp] theorem State.withBlock_run? (r : TaskRef) : (s.withBlock ref b).run? r = s.run? r := by
  obtain ⟨_, _, _, h⟩ := withBlock_moves s ref b
  rw [h]
  rfl

@[simp] theorem State.withBlock_pattern (id : Nat) : (s.withBlock ref b).pattern id = s.pattern id := by
  obtain ⟨_, _, _, h⟩ := withBlock_moves s ref b
  rw [h]
  rfl

@[simp] theorem State.withBlock_engine (k : Nat) : (s.withBlock ref b).engine k = s.engine k := by
  obtain ⟨_, _, _, h⟩ := withBlock_moves s ref b
  rw [h]
  rfl

@[simp] theorem State.withBlock_queue (n : Nat) : (s.withBlock ref b).queue n = s.queue n := by
  obtain ⟨_, _, _, h⟩ := withBlock_moves s ref b
  rw [h]
  rfl

@[simp] theorem State.withBlock_copyEngine (c : Nat) : (s.withBlock ref b).copyEngine c = s.copyEngine c := by
  obtain ⟨_, _, _, h⟩ := withBlock_moves s ref b
  rw [h]
  rfl

@[simp] theorem State.withBlock_addressFault (q : Queue) (t : Task) (as : List (Nat × Nat × Nat × Bool)) :
    (s.withBlock ref b).addressFault q t as = s.addressFault q t as := by
  rw [State.addressFault, State.withBlock_mem]
  rfl
end

section
variable {s : State} {ref : TaskRef} {u : Task} {q : Queue} {opcode n : Nat} {b : List Byte}

theorem waiting_of_mayDispatch (h : s.mayDispatch u = true) : u.phase = .waiting := by
  simp only [State.mayDispatch, State.isReady, Bool.and_eq_true, beq_iff_eq] at h
  exact h.1.2.1.1.1.1.1.1

/-- The task keeps its block. -/
theorem task_withBlock (hu : s.task ref = some u) : (s.withBlock ref b).task ref = some { u with block := b } := by
  have hwake : ({ s with ops := [] } : State).wakeChannels.task ref = some u := by
    rw [State.task, State.wakeChannels_q]
    exact hu
  rw [State.withBlock, State.task_setTask (f := fun t : Task => { t with block := b }) _ _ fun _ => rfl, hwake]
  rfl

theorem task_withBlock_ne {r : TaskRef} (hr : r ≠ ref) : (s.withBlock ref b).task r = s.task r := by
  rw [State.withBlock, State.task_setTask_ne (f := fun t : Task => { t with block := b }) (fun _ => rfl) hr, State.task, State.wakeChannels_q]
  rfl

theorem dispatchBlock_dispatched (h : dispatched s ref u q opcode n b) (hn : blockSize opcode = some n)
    (f : Task → Queue → List Byte → State → State) :
    ({ s with ops := [] } : State).dispatchBlock ref opcode f = f u q b (s.withBlock ref b) := by
  obtain ⟨hu, hop, hmay, hq, hdead, hparam, hclean, hb⟩ := h
  have hq' : s.queue u.ref.queue = some q := by rw [State.task_ref hu]; exact hq
  obtain ⟨o, ho⟩ : ∃ o : State, o = { s with ops := [] } := ⟨_, rfl⟩
  have hoq : o.queue u.ref.queue = some q := by rw [ho]; exact hq'
  have hodead : o.dramDead = false := by rw [ho]; exact hdead
  have homem : o.mem = s.mem := by rw [ho]
  unfold State.dispatchBlock State.withBlock
  rw [← hop, dispatch_due hu hmay, ← ho, hoq]
  dsimp only
  rw [hodead, if_neg (by simp), hop, hn, Option.getD_some, if_neg (Nat.not_le.mpr hparam), homem, if_neg (by simp [hclean]), hb]

/-- A task that a command ends. -/
theorem ends_withBlock (h : dispatched s ref u q opcode n b) (status detail : Nat) :
    ends ((s.withBlock ref b).endTask ref status detail) ref status detail := by
  obtain ⟨hu, -, hmay, -⟩ := h
  exact ends_endTask (task_withBlock hu) (.inl (waiting_of_mayDispatch hmay))

end
end Sys2Proof.Machine
end

section
/-! SUPPORT. RUN_CONTROL, ENG_RELEASE and CHECKPOINT. -/

namespace Sys2Proof.Machine

section
variable {s : State} {r : Run} {p : Pattern} {q : Queue} (hsole : soleRun s r p) (hq : s.queue r.ref.queue = some q)
  (hactive : q.state = .active) (hended : r.ended = none) (hholds : holdsCommand s 0x0106) (h0 : s.arg 0 = r.ref.queue)
  (h1 : s.arg 1 = r.ref.seq)

/-! ### RUN_CONTROL -/

include hsole hq hactive hended hholds h0 h1 in
/-- A RUN_CONTROL command on the device's run. -/
theorem runControl_lands {c : Instr} {other : State → Prop} [DecidablePred other] {f : Run → Pattern → Nat → State → CmdWork} {result : Nat}
    {outs : List (Nat × Nat)} {w : State} (hexec : exec c s = .next (s.run fun s => if other s then s else s.runControl f))
    (hmine : ¬ other { s with ops := [] }) (h2 : s.arg 2 < 4)
    (hf : f r p (s.engine r.lead).state { s with ops := [] } = (result, outs, w)) :
    exec c s = .next (s.run fun _ => w.finishMailbox result outs) := by
  refine exec_lands hexec ?_
  rw [if_neg hmine]
  obtain ⟨o, ho⟩ : ∃ o : State, o = { s with ops := [] } := ⟨_, rfl⟩
  have hsole' : soleRun o r p := by rw [ho]; exact hsole
  have hholds' : holdsCommand o 0x0106 := by rw [ho]; exact hholds
  have harg0 : o.arg 0 = r.ref.queue := by rw [ho]; exact h0
  have harg1 : o.arg 1 = r.ref.seq := by rw [ho]; exact h1
  have harg2 : o.arg 2 < 4 := by rw [ho]; exact h2
  have hq' : o.queue r.ref.queue = some q := by rw [ho]; exact hq
  have hf' : f r p (o.engine r.lead).state o = (result, outs, w) := by rw [ho]; exact hf
  rw [← ho]
  unfold State.runControl
  have hrun : o.run? { queue := r.ref.queue, seq := r.ref.seq } = some r := run?_sole hsole'.1
  rw [State.admin_of_holdsCommand hholds', harg0, harg1]
  dsimp only
  rw [hrun, hq']
  dsimp only
  rw [hsole'.2.1]
  dsimp only
  rw [if_pos ⟨hactive, by simp [hended]⟩, if_neg (by omega), hf']

/-- What a command that asks the run for something at its next boundary leaves. -/
theorem asks_lands {c : Instr} {g : Run → Run} (hruns : s.grid.runs = [r])
    (hexec : exec c s = .next (s.run fun _ => (({ s with ops := [] } : State).setRun r.ref g).finishMailbox 0 [])) :
    ∃ t, exec c s = .next t ∧ answered s t 0 ∧ t.grid.runs = [g r] ∧ t.grid.engines = s.grid.engines ∧ t.mem = s.mem := by
  obtain ⟨w, hw⟩ : ∃ w, w = ({ s with ops := [] } : State).setRun r.ref g := ⟨_, rfl⟩
  have hwruns : w.grid.runs = [g r] := hw ▸ runs_setRun_sole (s := { s with ops := [] }) hruns g
  rw [← hw] at hexec
  refine ⟨_, hexec, answered_run (by rw [hw]; rfl), ?_, ?_, run_mem_of_no_ops ?_⟩
  · rw [State.run_grid, State.finishMailbox_grid]
    exact hwruns
  · rw [State.run_grid, State.finishMailbox_grid, hw]
    rfl
  · rw [State.finishMailbox_ops, hw]
    rfl

section
include hsole hq hactive hended hholds h0 h1

theorem runPause_asks (h2 : s.arg 2 = 0) (h3 : s.arg 3 = 0) (hbegun : r.begun = true) (hstate : (s.engine r.lead).state = 3) :
    ∃ t, exec .runPause s = .next t ∧ answered s t 0 ∧ t.grid.runs = [{ r with wants := r.wants ++ [.pause 1 0] }]
      ∧ t.grid.engines = s.grid.engines ∧ t.mem = s.mem := by
  refine asks_lands (g := fun r => { r with wants := r.wants ++ [.pause 1 0] }) hsole.1
    (runControl_lands hsole hq hactive hended hholds h0 h1 rfl ?_ (by omega) ?_)
  · show ¬ s.arg 2 % 4 ≠ 0
    omega
  · have harg : ({ s with ops := [] } : State).arg 3 = 0 := h3
    dsimp only
    rw [if_neg (by simp [hbegun, hstate]), harg, if_neg (by simp), if_neg (by simp), hstate, if_neg (by decide)]

theorem runStop_asks (h2 : s.arg 2 = 2) (hbegun : r.begun = true) (hstate : (s.engine r.lead).state = 3) :
    ∃ t, exec .runStop s = .next t ∧ answered s t 0 ∧ t.grid.runs = [{ r with wants := r.wants ++ [.stop] }]
      ∧ t.grid.engines = s.grid.engines ∧ t.mem = s.mem := by
  refine asks_lands (g := fun r => { r with wants := r.wants ++ [.stop] }) hsole.1
    (runControl_lands hsole hq hactive hended hholds h0 h1 rfl ?_ (by omega) ?_)
  · show ¬ s.arg 2 % 4 < 2
    omega
  · have harg : ({ s with ops := [] } : State).arg 2 = 2 := h2
    rw [if_neg (by simp [harg]), if_neg (by simp [hbegun]), if_pos hstate]

theorem runStop_ends (h2 : s.arg 2 = 2) (hbegun : r.begun = true) (hwants : r.wants = []) (himaging : r.imaging = none)
    (hstate : (s.engine r.lead).state = 4 ∨ (s.engine r.lead).state = 5) {u : Task} (hu : s.task r.ref = some u) (hphase : u.phase = .running) :
    ∃ t, exec .runStop s = .next t ∧ answered s t 0 ∧ t.grid.runs = [] ∧ ends t r.ref r.doneStatus 0
      ∧ ∀ e ∈ r.engines, (t.engine e).state = (if r.blk.kind = 2 then 1 else 2) ∧ (t.engine e).task = none := by
  obtain ⟨w, hw⟩ : ∃ w, w = ({ s with ops := [] } : State).breakRun r.ref r.doneStatus 0 2 := ⟨_, rfl⟩
  have hbreak : EndsRun { s with ops := [] } w r r.doneStatus 0 := hw ▸ endsRun_breakRun (s := { s with ops := [] }) hsole.1 himaging _ _ _
  have hexec := runControl_lands hsole hq hactive hended hholds h0 h1 (c := .runStop) (result := 0) (outs := []) (w := w) rfl
    (show ¬ s.arg 2 % 4 < 2 by omega) (by omega) (by
      have harg : ({ s with ops := [] } : State).arg 2 = 2 := h2
      have hne : (s.engine r.lead).state ≠ 3 := by omega
      rw [if_neg (by simp [harg]), if_neg (by simp [hbegun]), if_neg hne, if_pos hstate, hw])
  refine ⟨_, hexec, answered_run ?_, ?_, ?_, fun k hk => ?_⟩
  · have hcmd : w.control.mbxCmd = _ := congrArg _ hbreak.control
    exact hcmd
  · rw [State.run_grid, State.finishMailbox_grid]
    exact hbreak.runs
  · obtain ⟨x, hx, hphase⟩ := hbreak.ends (fun w hw => absurd (hwants ▸ hw) List.not_mem_nil) u hu hphase
    refine ⟨x, ?_, hphase⟩
    rw [State.run_task, State.task, State.finishMailbox_q]
    exact hx
  · rw [State.run_engine, State.engine, State.finishMailbox_grid]
    exact hbreak.engine hsole.2.2.1 k hk

theorem runStop_cancels (h2 : s.arg 2 = 2) (hbegun : r.begun = false) (hstate : (s.engine r.lead).state = 6) {u : Task}
    (hu : s.task r.ref = some u) (hphase : u.phase = .running) : ∃ t, exec .runStop s = .next t ∧ answered s t 0 ∧ t.grid.runs = []
      ∧ ends t r.ref 0x0100 0xFFFFFFFF ∧ t.mem = s.mem := by
  obtain ⟨o, ho⟩ : ∃ o : State, o = { s with ops := [] } := ⟨_, rfl⟩
  have hosole : o.grid.runs = [r] := by rw [ho]; exact hsole.1
  have hou : o.task r.ref = some u := by rw [ho]; exact hu
  obtain ⟨w, hw⟩ : ∃ w, w = o.releaseRun r.ref 0x0100 0xFFFFFFFF := ⟨_, rfl⟩
  have hbreak : EndsRun o w r _ _ := hw ▸ endsRun_releaseRun hosole 0x0100 0xFFFFFFFF
  obtain ⟨x, hx, hxphase⟩ : ends w r.ref 0x0100 0xFFFFFFFF := hw ▸ ends_releaseRun (run?_sole hosole) hou hphase
  have hops : w.ops = [] := by
    obtain ⟨_, _, _, _, _, _, h, -⟩ := releaseRun_moves (run?_sole hosole) 0x0100 0xFFFFFFFF
    rw [hw, h, ho]
  have hexec := runControl_lands hsole hq hactive hended hholds h0 h1 (c := .runStop) (result := 0) (outs := []) (w := w) rfl
    (show ¬ s.arg 2 % 4 < 2 by omega) (by omega) (by
      have harg : o.arg 2 = 2 := by rw [ho]; exact h2
      rw [← ho]
      rw [if_neg (by simp [harg]), if_pos (by simp [hbegun]), if_pos hstate, hw])
  refine ⟨_, hexec, answered_run ?_, ?_, ⟨x, ?_, hxphase⟩, run_mem_of_no_ops ?_⟩
  · have hcmd : w.control.mbxCmd = _ := congrArg _ hbreak.control
    rw [ho] at hcmd
    exact hcmd
  · rw [State.run_grid, State.finishMailbox_grid]
    exact hbreak.runs
  · rw [State.run_task, State.task, State.finishMailbox_q]
    exact hx
  · rw [State.finishMailbox_ops]
    exact hops
end

/-! ### Pausing and resuming -/

omit hq hactive hended hholds h0 h1 hsole in
theorem spansDevices_of_shards (h : p.header.shards ≤ 1) : p.spansDevices = false := by
  simp [Pattern.spansDevices, Nat.not_lt.mpr h]

omit hq hactive hended hholds h0 h1 hsole in
theorem pauseRun_pauses (hruns : s.grid.runs = [r]) (hlen : s.grid.engines.length = 8) (hstate : (s.engine r.lead).state ≠ 5) (kind : Nat) :
    (∀ k ∈ r.engines, ((s.pauseRun r.ref kind).engine k).state = 5 ∧ ((s.pauseRun r.ref kind).engine k).pauseKind = kind)
      ∧ (s.pauseRun r.ref kind).control = s.control := by
  obtain ⟨w, hw⟩ : ∃ w, w = (if r.part.isEmpty then s else s.writeScores r.ref true).publish r.ref 1 := ⟨_, rfl⟩
  have hserves : Serves s w := hw ▸ (serves_leaveScores s r r.ref).trans (serves_publish _ r.ref 1)
  have hpause : s.pauseRun r.ref kind = w.setRunState r 5 0 0 kind := by
    unfold State.pauseRun
    rw [run?_sole hruns]
    dsimp only
    rw [if_neg hstate, hw]
  rw [hpause]
  refine ⟨fun k hk => ?_, (setRunState_drifts w r 5 0 0 kind).2.trans hserves.control⟩
  rw [engine_setRunState_same 5 0 0 kind (by rw [hserves.engines]; exact hlen) hk]
  exact ⟨rfl, rfl⟩

omit hq hactive hended hholds h0 h1 hsole in
/-- The host's pause of a run on one device that nothing else stops. -/
theorem rowNine_pauses (hruns : s.grid.runs = [r]) (hp : s.pattern r.pattern = some p) (hwants : r.wants = [.pause 1 0])
    (hpause : r.pauseAt = 0) (hcomplete : r.complete p = false) (hloose : r.blk.loose = false) (hqueue : r.queue = [])
    (hvotes : s.nl.votes = []) (hshards : p.header.shards ≤ 1) (v : HostView) :
    ∃ f, s.rowNine v r.ref = (s.pauseRun r.ref 1).setRun r.ref f := by
  have hr := run?_sole hruns
  have hnone : r.noCheckpoint := by
    intro w hw
    rw [hwants, List.mem_singleton] at hw
    rw [hw]
    exact fun _ _ _ h => Want.noConfusion h
  have hkill : firstKill r.wants = none := by rw [hwants]; rfl
  have hstop : r.wants.contains .stop = false := by rw [hwants]; rfl
  have hwanted : wantedPause r.wants = some (1, []) := by rw [hwants]; rfl
  unfold State.rowNine
  rw [flushRing_none hr hqueue]
  dsimp only
  rw [hr]
  dsimp only
  rw [hp]
  dsimp only
  rw [if_neg (by simp [settles_lockstep hloose]), hkill]
  dsimp only
  rw [if_neg (by simp [hcomplete]), hstop, if_neg (by simp), if_neg (by simp [hcomplete]), takeCheckpoints_none hr hnone]
  dsimp only
  rw [barrierPause_none hvotes, hwanted]
  dsimp only
  rw [if_neg (by simp [spansDevices_of_shards hshards]), if_neg (by simp [hpause])]
  exact ⟨_, rfl⟩

omit hq hactive hended hholds h0 h1 hsole in
/-- An annealing run that streams nothing needs nothing for its next tick. -/
theorem needs_nothing {v : HostView} (hkind : r.blk.kind = 0) (hsamples : p.plan.samples = false) (hqueue : r.queue = []) :
    s.counterFails v r p = false ∧ s.inputFails v r p = false ∧ s.lacking v r p = [] := by
  have hvectors : r.vectorsOf p r.tick = 0 := by simp [Run.vectorsOf, hkind]
  have hlines : r.linesOf p r.tick = 0 := by simp [Run.linesOf, hkind, sampled, hsamples]
  refine ⟨?_, ?_, ?_⟩
  · simp [State.counterFails, hvectors]
  · simp [State.inputFails, hvectors]
  · simp [State.lacking, hvectors, hlines, hqueue]

omit hq hactive hended hholds h0 h1 hsole in
/-- An annealing run that streams nothing goes on. -/
theorem proceed_annealing {ref : TaskRef} (hr : s.run? ref = some r) (hp : s.pattern r.pattern = some p) (hkind : r.blk.kind = 0)
    (hsamples : p.plan.samples = false) (hnoise : r.blk.noise = false) (hprograms : p.programs = []) (hqueue : r.queue = []) (v : HostView) :
    Goes s (s.proceed v ref) ref r := by
  obtain ⟨hcounter, hinput, hlacking⟩ := needs_nothing (s := s) (v := v) hkind hsamples hqueue
  obtain ⟨waiting, h⟩ := proceed_goes hr hp hnoise hprograms hcounter hlacking hinput
  obtain ⟨w, hw⟩ : ∃ w : State, w = { s with q := { s.q with waiting := waiting } } := ⟨_, rfl⟩
  have hwr : w.run? ref = some r := by rw [hw]; exact hr
  have hwp : w.pattern r.pattern = some p := by rw [hw]; exact hp
  rw [h, ← hw, firstClamps_other hwr hwp v (by omega)]
  have hgoes := goRun_goes hwr
  refine ⟨hgoes.record, fun hsole => hgoes.sole (by rw [hw]; exact hsole), fun hlen => hgoes.engine (by rw [hw]; exact hlen), ?_, ?_, ?_⟩
  · rw [hgoes.control, hw]
    rfl
  · exact Drifts.trans (by rw [hw]; exact .of_eq rfl rfl) hgoes.drifts
  · rw [hgoes.ops, hw]

section
include hsole hq hactive hended hholds h0 h1

theorem runPause_pauses (h2 : s.arg 2 = 0) (h3 : s.arg 3 = 0) (hplain : plain s r p) (hstate : (s.engine r.lead).state = 4) :
    ∃ t, exec .runPause s = .next t ∧ answered s t 0 ∧ ∀ e ∈ r.engines, (t.engine e).state = 5 ∧ (t.engine e).pauseKind = 1 := by
  obtain ⟨⟨hbegun, hwants, -, hpause, hcomplete, -, hloose, -, hshards, hqueue, hvotes⟩, -, -⟩ := hplain
  obtain ⟨o, ho⟩ : ∃ o : State, o = { s with ops := [] } := ⟨_, rfl⟩
  obtain ⟨x, hx⟩ : ∃ x : Run, x = { r with wants := r.wants ++ [.pause 1 0] } := ⟨_, rfl⟩
  obtain ⟨y, hy⟩ : ∃ y, y = o.setRun r.ref fun r => { r with wants := r.wants ++ [.pause 1 0] } := ⟨_, rfl⟩
  have hyruns : y.grid.runs = [x] := by
    rw [hy, hx]
    exact runs_setRun_sole (by rw [ho]; exact hsole.1) _
  have hxref : x.ref = r.ref := by rw [hx]
  have hylen : y.grid.engines.length = 8 := by rw [hy, ho]; exact hsole.2.2.1
  have hystate : (y.engine x.lead).state ≠ 5 := by
    have h : (y.engine x.lead).state = 4 := by
      rw [hy, ho, hx]
      exact hstate
    omega
  obtain ⟨f, hrow⟩ := rowNine_pauses (s := y) hyruns (p := p) (by rw [hy, ho, hx]; exact hsole.2.1) (by rw [hx, hwants]; rfl)
    (by rw [hx]; exact hpause) (by rw [hx]; exact hcomplete) (by rw [hx]; exact hloose) (by rw [hx]; exact hqueue)
    (by rw [hy, ho]; exact hvotes) hshards noHost
  obtain ⟨hengine, hcontrol⟩ := pauseRun_pauses hyruns hylen hystate 1
  rw [hxref] at hrow hengine hcontrol
  have hexec := runControl_lands hsole hq hactive hended hholds h0 h1 (c := .runPause) (result := 0) (outs := [])
    (w := (y.pauseRun r.ref 1).setRun r.ref f) rfl (show ¬ s.arg 2 % 4 ≠ 0 by omega) (by omega) (by
      have harg : o.arg 3 = 0 := by rw [ho]; exact h3
      rw [← ho]
      dsimp only
      rw [if_neg (by simp [hbegun, hstate]), harg, if_neg (by simp), if_neg (by simp), hstate, if_pos rfl, ← hy, hrow])
  refine ⟨_, hexec, answered_run ?_, fun k hk => ?_⟩
  · have hcmd : (y.pauseRun r.ref 1).control.mbxCmd = y.control.mbxCmd := congrArg _ hcontrol
    refine Eq.trans hcmd ?_
    rw [hy, ho]
    rfl
  · rw [State.run_engine, State.engine, State.finishMailbox_grid]
    refine hengine k ?_
    rw [hx]
    exact hk

theorem runResume_goes (v : HostView) (h2 : s.arg 2 = 1) (hplain : plain s r p) (hstate : (s.engine r.lead).state = 5)
    (hkind : (s.engine r.lead).pauseKind = 1) : ∃ t, exec (.runResume v) s = .next t ∧ answered s t 0
      ∧ (∃ x, t.grid.runs = [x] ∧ x.tick = r.tick ∧ x.replicas = r.replicas) ∧ (∀ e ∈ r.engines, (t.engine e).state = 3) ∧ t.mem = s.mem := by
  obtain ⟨⟨-, hwants, -, hpause, hcomplete, hnoise, hloose, hprograms, hshards, hqueue, hvotes⟩, hblk, hsamples⟩ := hplain
  obtain ⟨o, ho⟩ : ∃ o : State, o = { s with ops := [] } := ⟨_, rfl⟩
  have hosole : o.grid.runs = [r] := by rw [ho]; exact hsole.1
  have hop : o.pattern r.pattern = some p := by rw [ho]; exact hsole.2.1
  have hgoes := proceed_annealing (run?_sole hosole) hop hblk hsamples hnoise hprograms hqueue v
  obtain ⟨w, hw⟩ : ∃ w, w = o.proceed v r.ref := ⟨_, rfl⟩
  rw [← hw] at hgoes
  have hexec := runControl_lands hsole hq hactive hended hholds h0 h1 (c := .runResume v) (result := 0) (outs := []) (w := w) rfl
    (show ¬ s.arg 2 % 4 ≠ 1 by omega) (by omega) (by
      have hopause : (o.engine r.lead).pauseKind = 1 := by rw [ho]; exact hkind
      rw [← ho]
      rw [if_pos ⟨hstate, hopause⟩]
      unfold State.resumeRun
      rw [run?_sole hosole]
      dsimp only
      rw [hop]
      dsimp only
      rw [if_neg (by simp [Run.votes, spansDevices_of_shards hshards]), hw])
  refine ⟨_, hexec, answered_run ?_, ⟨{ r with starved := [] }, ?_, rfl, rfl⟩, fun k hk => ?_, run_mem_of_no_ops ?_⟩
  · have hcmd : w.control.mbxCmd = o.control.mbxCmd := congrArg _ hgoes.control
    rw [ho] at hcmd
    exact hcmd
  · rw [State.run_grid, State.finishMailbox_grid]
    exact hgoes.sole hosole
  · rw [State.run_engine, State.engine, State.finishMailbox_grid]
    exact hgoes.engine (by rw [ho]; exact hsole.2.2.1) k hk
  · rw [State.finishMailbox_ops, hgoes.ops, ho]
end

end

/-! ### Held runs -/

theorem maskOf_congr {n : Nat} {f g : Nat → Bool} (h : ∀ k < n, f k = g k) : maskOf n f = maskOf n g := by
  induction n with
  | zero => rfl
  | succ n ih =>
    have ih := ih fun k hk => h k (by omega)
    unfold maskOf at ih ⊢
    rw [List.range_succ, List.foldl_append, List.foldl_append, ih, List.foldl_cons, List.foldl_cons, h n (by omega)]
    rfl

theorem maskOf_natBit (m n : Nat) : maskOf n (natBit m) = m % 2 ^ n := by
  induction n with
  | zero => simp [maskOf, Nat.mod_one]
  | succ n ih =>
    unfold maskOf at ih ⊢
    rw [List.range_succ, List.foldl_append, ih, Nat.mod_pow_succ]
    have hbit : m / 2 ^ n % 2 < 2 := Nat.mod_lt _ (by decide)
    simp only [List.foldl_cons, List.foldl_nil, natBit, beq_iff_eq]
    split
    case isTrue h => rw [h, Nat.mul_one]
    case isFalse h => rw [show m / 2 ^ n % 2 = 0 by omega, Nat.mul_zero, Nat.add_zero]

section
variable {s : State} {ref : TaskRef} {r : Run} {p : Pattern} (hr : s.run? ref = some r) (hp : s.pattern r.pattern = some p)
include hr hp

/-- The start of an annealing run on one device that streams nothing: it RUNs from its boundary. -/
theorem beginRun_annealing (hkind : r.blk.kind = 0) (hresume : r.blk.resume = false) (hrehost : r.blk.rehost = false)
    (hnoise : r.blk.noise = false) (hloose : r.blk.loose = false) (hsamples : p.plan.samples = false) (hprograms : p.programs = [])
    (hvotes : s.nl.votes = []) (hqueue : r.queue = []) (hwants : r.wants = []) (hpause : r.pauseAt = 0) (hcomplete : r.complete p = false)
    (v : HostView) : ∃ x : Run, (s.beginRun v ref).run? ref = some x ∧ x.ref = ref ∧ x.begun = true ∧ x.tick = r.tick ∧ x.mask = r.mask
      ∧ x.blk = r.blk ∧ (∀ y, s.grid.runs = [y] → (s.beginRun v ref).grid.runs = [x])
      ∧ (s.grid.engines.length = 8 → ∀ k ∈ r.engines, ((s.beginRun v ref).engine k).state = 3)
      ∧ (s.beginRun v ref).control = s.control := by
  have href := ref_of_run? hr
  obtain ⟨x, hx⟩ : ∃ x, x = s.firstRecord v p r := ⟨_, rfl⟩
  have hbegin := beginRun_fresh hr hp hresume hrehost v
  have hxcomplete : x.complete p = false := by rw [hx, complete_firstRecord]; exact hcomplete
  obtain ⟨_, _, _, _, _, hrest⟩ := firstRecord_rest s v p r
  rw [← hx] at hbegin hrest
  have hopens := openRun_opens hr hp p.cores (x := x) (by rw [hrest]; exact href) (by rw [hrest])
  obtain ⟨w, hw⟩ : ∃ w, w = s.openRun ref p p.cores x := ⟨_, rfl⟩
  obtain ⟨y, hy⟩ : ∃ y, y = x.opened p := ⟨_, rfl⟩
  rw [← hw] at hbegin hopens
  have hwr : w.run? ref = some y := hy ▸ hopens.record
  have hwp : w.pattern y.pattern = some p := by rw [hy]; exact hopens.pattern
  have hyqueue : y.queue = [] := by rw [hy, hrest]; exact hqueue
  have hykind : y.blk.kind = 0 := by rw [hy, hrest]; exact hkind
  have hynoise : y.blk.noise = false := by rw [hy, hrest]; exact hnoise
  have hrow := rowNine_proceeds hwr hwp (by rw [hy, hrest]; exact hwants) (by rw [hy, hrest]; exact hpause)
    (by rw [hy]; exact hxcomplete) (by rw [hy, hrest]; exact hloose) hyqueue (by rw [hopens.votes]; exact hvotes) v
  have hgoes := proceed_annealing hwr hwp hykind hsamples hynoise hprograms hyqueue v
  rw [hbegin, hrow]
  refine ⟨_, hgoes.record, ?_, ?_, ?_, ?_, ?_, fun z hsole => ?_, fun hlen k hk => ?_, ?_⟩
  · rw [hy, hrest]
    exact href
  · rw [hy]
    rfl
  · rw [hy, hrest]
    rfl
  · rw [hy, hrest]
    rfl
  · rw [hy, hrest]
    rfl
  · exact hgoes.sole (hy ▸ hopens.sole z hsole)
  · refine hgoes.engine (by rw [hopens.length]; exact hlen) k ?_
    rw [hy, hrest]
    exact hk
  · exact hgoes.control.trans hopens.control

theorem launchOrArm_alone (hshards : p.header.shards ≤ 1) (v : HostView) : s.launchOrArm v ref = s.beginRun v ref := by
  unfold State.launchOrArm
  rw [hr]
  dsimp only
  rw [hp]
  dsimp only
  rw [if_pos hshards]
end

section
variable {s : State} {r : Run} {p : Pattern} {u : Task} (hsole : soleRun s r p) (hu : s.task r.ref = some u)
include hsole

theorem runsOn_mask : s.runsOn r.mask = [r.ref] := by
  obtain ⟨hruns, -, -, hmask, -⟩ := hsole
  have hne : (r.mask &&& r.mask != 0) = true := by
    rw [Nat.and_self, bne_iff_ne]
    omega
  rw [State.runsOn, hruns, List.filter_cons, if_pos hne]
  rfl

include hu

theorem engRelease_releases (hholds : holdsCommand s 0x0004) (h0 : s.arg 0 = r.mask) (hmask : r.mask < 256)
    (hheld : ∀ e ∈ r.engines, (s.engine e).state = 6) (hbegun : r.begun = false) (harmed : r.armed = false) (hlost : r.lost = [])
    (hwants : r.wants = []) (hkind : r.blk.kind = 0) (hresume : r.blk.resume = false) (hrehost : r.blk.rehost = false)
    (hnoise : r.blk.noise = false) (hloose : r.blk.loose = false) (hsamples : p.plan.samples = false) (hprograms : p.programs = [])
    (hshards : p.header.shards ≤ 1) (hvotes : s.nl.votes = []) (hqueue : r.queue = []) (hpause : r.pauseAt = 0)
    (hcomplete : r.complete p = false) (v : HostView) (hhold : s.startHold v r p u.slot = none) :
    ∃ t, exec (.engRelease v) s = .next t ∧ answered s t 0 ∧ outWord t 0 = r.mask ∧ (∀ e ∈ r.engines, (t.engine e).state = 3)
      ∧ ∃ x, t.grid.runs = [x] ∧ x.ref = r.ref ∧ x.begun = true ∧ x.tick = r.tick := by
  obtain ⟨o, ho⟩ : ∃ o : State, o = { s with ops := [] } := ⟨_, rfl⟩
  have hosole : soleRun o r p := by rw [ho]; exact hsole
  have hou : o.task r.ref = some u := by rw [ho]; exact hu
  have hohold : o.startHold v r p u.slot = none := by rw [ho]; exact hhold
  have hoarg : o.arg 0 = r.mask := by rw [ho]; exact h0
  have hoheld : ∀ e ∈ r.engines, (o.engine e).state = 6 := by rw [ho]; exact hheld
  have hor := run?_sole hosole.1
  obtain ⟨x, hx, hxref, hxbegun, hxtick, hxmask, -, hxsole, hengine, hcontrol⟩ := beginRun_annealing hor hosole.2.1 hkind hresume hrehost
    hnoise hloose hsamples hprograms (by rw [ho]; exact hvotes) hqueue hwants hpause hcomplete v
  obtain ⟨w, hw⟩ : ∃ w, w = o.beginRun v r.ref := ⟨_, rfl⟩
  rw [← hw] at hx hxsole hengine hcontrol
  have hwengine := hengine hosole.2.2.1
  have hlead := lead_mem hosole.2.2.2.1
  have hwlead : (w.engine x.lead).state = 3 := by
    have h : x.lead = r.lead := by rw [Run.lead, Run.engines, hxmask]; rfl
    rw [h]
    exact hwengine _ hlead
  have hreexamine : o.reexamine v r.ref = w := by
    unfold State.reexamine
    rw [hor]
    dsimp only
    rw [hosole.2.1, hou]
    dsimp only
    rw [if_neg (by simp [hoheld _ hlead]), if_neg (by simp [hlost]), if_neg (by simp [hbegun]), hohold]
    dsimp only
    rw [if_neg (by simp [harmed]), if_pos hshards, launchOrArm_alone hor hosole.2.1 hshards, ← hw]
    unfold State.unlessHeld
    rw [hx]
    exact if_neg (by omega)
  have hword : maskOf 8 (fun e => natBit (o.arg 0) e && (o.engine e).state == 6 && (w.engine e).state != 6) = r.mask := by
    have hbits : ∀ k < 8, (natBit (o.arg 0) k && (o.engine k).state == 6 && (w.engine k).state != 6) = natBit r.mask k := by
      intro k hk
      rw [hoarg]
      cases hbit : natBit r.mask k with
      | false => rfl
      | true =>
        have hmem : k ∈ r.engines := List.mem_filter.mpr ⟨List.mem_range.mpr hk, hbit⟩
        rw [hoheld k hmem, hwengine k hmem]
        rfl
    rw [maskOf_congr hbits, maskOf_natBit, Nat.mod_eq_of_lt (show r.mask < 2 ^ 8 from hmask)]
  have hexec : exec (.engRelease v) s = .next (s.run fun _ => w.finishMailbox 0 [(0, r.mask)]) := by
    refine session_lands rfl hholds ?_
    rw [← ho]
    dsimp only
    rw [if_neg (by omega), hoarg, runsOn_mask hosole, List.foldl_cons, List.foldl_nil, hreexamine, ← hoarg, hword, hoarg]
  have hargs : w.host.mbxArgs = s.host.mbxArgs := by
    have h : w.control.mbxArgs = o.control.mbxArgs := congrArg _ hcontrol
    rw [ho] at h
    exact h
  have hcmd : w.host.mbxCmd = s.host.mbxCmd := by
    have h : w.control.mbxCmd = o.control.mbxCmd := congrArg _ hcontrol
    rw [ho] at h
    exact h
  refine ⟨_, hexec, answered_run hcmd, ?_, fun k hk => ?_, x, ?_, hxref, hxbegun, hxtick⟩
  · rw [outWord_lands hargs hholds.2.2 (by decide) (List.mem_singleton.mpr rfl) (List.nodup_singleton _)]
    exact Nat.mod_eq_of_lt (by omega)
  · rw [State.run_engine, State.engine, State.finishMailbox_grid]
    exact hwengine k hk
  · rw [State.run_grid, State.finishMailbox_grid]
    exact hxsole r hosole.1
end

/-! ### CHECKPOINT -/

/-- A command that writes some bytes of DRAM, or none. -/
theorem run_mem_writes {s u : State} {a : Nat} {bs : List Byte} (h : u.ops = if bs.isEmpty then [] else [.write a bs]) :
    (s.run fun _ => u).mem = s.mem.write a bs := by
  split at h
  case isTrue hnil =>
    rw [List.isEmpty_iff.mp hnil]
    exact run_mem_of_no_ops h
  case isFalse => exact run_mem_one h

theorem writeDram_ops (s : State) (a : Nat) (bs : List Byte) :
    (s.writeDram a bs).ops = s.ops ++ if bs.isEmpty then [] else [.write a bs] := by
  unfold State.writeDram State.write
  split
  · rw [List.append_nil]
  · show s.wakeChannels.ops ++ _ = _
    rw [State.wakeChannels_ops]

theorem checkpointBytes_withBlock (s : State) (ref : TaskRef) (b : List Byte) (r : Run) (p : Pattern) :
    checkpointBytes (s.withBlock ref b) r p = checkpointBytes s r p := by
  obtain ⟨_, _, _, h⟩ := withBlock_moves s ref b
  rw [h]
  rfl

section
variable {s : State} {r : Run} {p : Pattern} {ref : TaskRef} {c : Task} {b : List Byte} {q cq : Queue} (hsole : soleRun s r p)
  (h : dispatched s ref c cq 0x0013 32 b) (hqueue : fieldOf b 0 2 = r.ref.queue) (hseq : fieldOf b 8 8 = r.ref.seq)
  (hmode : fieldOf b 2 1 < 2) (hzero : fieldOf b 3 5 = 0) (halign : fieldOf b 0x10 8 % 64 = 0) (hdst : fieldOf b 0x10 8 < hostWindow)
  (hroom : checkpointLength r p ≤ 64 * fieldOf b 0x18 8) (hq : s.queue r.ref.queue = some q) (hpasid : q.pasid = cq.pasid)
  (hbegun : r.begun = true) (hended : r.ended = none) (hkill : firstKill r.wants = none)
  (haddr : s.addressFault cq c [(0x10, fieldOf b 0x10 8, 64 * fieldOf b 0x18 8, true)] = none)
include hsole h hqueue hseq hmode hzero halign hdst hroom hq hpasid hbegun hended hkill haddr

theorem checkpoint_lands {w : State} (hstate : 3 ≤ (s.engine r.lead).state ∧ (s.engine r.lead).state ≤ 5)
    (hw : (if (s.engine r.lead).state = 5 then ((s.withBlock ref b).writeCheckpoint r.ref (fieldOf b 0x10 8)).endTask ref 0 0
      else
        let s' := (s.withBlock ref b).setTask ref fun t => { t with phase := .running }
        let s' := s'.setRun r.ref fun r => { r with wants := r.wants ++ [.checkpoint ref (fieldOf b 0x10 8) (fieldOf b 2 1 == 1)] }
        if (s.engine r.lead).state = 4 then s'.rowNine noHost r.ref else s') = w) :
    exec (.checkpoint ref) s = .next (s.run fun _ => w) := by
  refine exec_lands rfl ((dispatchBlock_dispatched h rfl _).trans ?_)
  obtain ⟨o, ho⟩ : ∃ o, o = s.withBlock ref b := ⟨_, rfl⟩
  have htarget : ({ queue := fieldOf b 0 2, seq := fieldOf b 8 8 } : TaskRef) = r.ref := by rw [hqueue, hseq]
  have hrun : o.run? r.ref = some r := by rw [ho, State.withBlock_run?]; exact run?_sole hsole.1
  have hpattern : o.pattern r.pattern = some p := by rw [ho, State.withBlock_pattern]; exact hsole.2.1
  have hoq : o.queue (fieldOf b 0 2) = some q := by rw [ho, State.withBlock_queue, hqueue]; exact hq
  have hoengine : o.engine r.lead = s.engine r.lead := by rw [ho, State.withBlock_engine]
  have hoaddr : o.addressFault cq c [(0x10, fieldOf b 0x10 8, 64 * fieldOf b 0x18 8, true)] = none := by
    rw [ho, State.withBlock_addressFault]
    exact haddr
  rw [← ho] at hw ⊢
  dsimp only
  rw [htarget, hrun, hoq]
  dsimp only [Option.bind_some]
  rw [hpattern]
  simp only [hoengine, Option.map_some]
  have hchecks : firstBlockFault [(0, q.pasid != cq.pasid), (2, decide (2 ≤ fieldOf b 2 1)), (3, fieldOf b 3 5 != 0),
      (8, !(r.begun && r.ended.isNone && decide (3 ≤ (s.engine r.lead).state) && decide ((s.engine r.lead).state ≤ 5)
        && (firstKill r.wants).isNone)), (0x10, fieldOf b 0x10 8 % 64 != 0),
      (0x18, !decide (checkpointLength r p ≤ 64 * fieldOf b 0x18 8))] = none := by
    simp [firstBlockFault, hpasid, hmode, hzero, hbegun, hended, hstate.1, hstate.2, hkill, halign, hroom]
  rw [hchecks]
  dsimp only
  rw [hoaddr]
  dsimp only
  rw [if_neg (Nat.not_le.mpr hdst)]
  exact hw

theorem checkpoint_paused (hstate : (s.engine r.lead).state = 5) : ∃ t, exec (.checkpoint ref) s = .next t ∧ ends t ref 0 0
    ∧ t.mem = s.mem.write (fieldOf b 0x10 8) (checkpointBytes s r p) ∧ t.grid = s.grid := by
  obtain ⟨o, ho⟩ : ∃ o, o = s.withBlock ref b := ⟨_, rfl⟩
  obtain ⟨w, hw⟩ : ∃ w, w = (o.writeCheckpoint r.ref (fieldOf b 0x10 8)).endTask ref 0 0 := ⟨_, rfl⟩
  have hlands := checkpoint_lands hsole h hqueue hseq hmode hzero halign hdst hroom hq hpasid hbegun hended hkill haddr (w := w) (by omega)
    (by rw [if_pos hstate, hw, ho])
  have hwrite : o.writeCheckpoint r.ref (fieldOf b 0x10 8) = o.writeDram (fieldOf b 0x10 8) (checkpointBytes s r p) := by
    unfold State.writeCheckpoint
    rw [ho, State.withBlock_run?, run?_sole hsole.1]
    dsimp only
    rw [State.withBlock_pattern, hsole.2.1]
    dsimp only
    rw [checkpointBytes_withBlock]
  obtain ⟨y, hy⟩ : ∃ y, y = o.writeDram (fieldOf b 0x10 8) (checkpointBytes s r p) := ⟨_, rfl⟩
  have hserves : Serves o y := hy ▸ serves_writeDram o (fieldOf b 0x10 8) (checkpointBytes s r p)
  rw [hwrite, ← hy] at hw
  refine ⟨_, hlands, ?_, run_mem_writes ?_, ?_⟩
  · obtain ⟨x, hx, hphase⟩ := ends_endTask (s := y) (ref := ref) (status := 0) (detail := 0)
      (u := { c with block := b }) (by rw [State.task, hserves.q, ← State.task, ho]; exact task_withBlock h.1)
      (.inl (waiting_of_mayDispatch h.2.2.1))
    exact ⟨x, by rw [State.run_task, hw]; exact hx, hphase⟩
  · rw [hw, State.endTask, State.setTask_ops, hy, writeDram_ops, ho, State.withBlock_ops, List.nil_append]
  · rw [State.run_grid, hw, State.endTask, State.setTask_grid, hy, State.writeDram_grid, ho, State.withBlock_grid]

theorem checkpoint_waits (hstate : (s.engine r.lead).state = 3) : ∃ t, exec (.checkpoint ref) s = .next t
    ∧ (∃ x, t.task ref = some x ∧ x.phase = .running) ∧ t.mem = s.mem
    ∧ t.grid.runs = [{ r with wants := r.wants ++ [.checkpoint ref (fieldOf b 0x10 8) (fieldOf b 2 1 == 1)] }] := by
  obtain ⟨o, ho⟩ : ∃ o, o = s.withBlock ref b := ⟨_, rfl⟩
  obtain ⟨y, hy⟩ : ∃ y, y = o.setTask ref fun t => { t with phase := .running } := ⟨_, rfl⟩
  obtain ⟨w, hw⟩ : ∃ w, w = y.setRun r.ref fun r =>
    { r with wants := r.wants ++ [.checkpoint ref (fieldOf b 0x10 8) (fieldOf b 2 1 == 1)] } := ⟨_, rfl⟩
  have hlands := checkpoint_lands hsole h hqueue hseq hmode hzero halign hdst hroom hq hpasid hbegun hended hkill haddr (w := w) (by omega) (by
    rw [if_neg (by omega)]
    dsimp only
    rw [if_neg (by omega), ← ho, ← hy, hw])
  have hyruns : y.grid.runs = [r] := by
    rw [hy, State.setTask_grid, ho, State.withBlock_grid]
    exact hsole.1
  refine ⟨_, hlands, ⟨{ c with block := b, phase := .running }, ?_, rfl⟩, run_mem_of_no_ops ?_, ?_⟩
  · rw [State.run_task, hw, State.task, State.setRun_q, ← State.task, hy, State.task_setTask (f := fun t : Task => { t with phase := .running }) _ _ fun _ => rfl, ho, task_withBlock h.1]
    rfl
  · rw [hw, State.setRun_ops, hy, State.setTask_ops, ho, State.withBlock_ops]
  · rw [State.run_grid, hw]
    exact runs_setRun_sole hyruns _
end

/-- Settles O46: RUN_CONTROL asks at the next boundary, decides at the boundary the run stands at, or ends the run; ENG_RELEASE decides
the start anew; CHECKPOINT writes or waits. -/
theorem runsArePausedResumedStoppedAndCheckpointed : Obligations.RunsArePausedResumedStoppedAndCheckpointed := by
  intro s r p u q _ hsole hu hphase hq hactive
  refine ⟨?_, ?_, ?_, ?_, ?_, ?_, ?_, ?_⟩
  · rintro ⟨hholds, h0, h1, h2, h3, hended⟩ hbegun hstate
    exact runPause_asks hsole hq hactive hended hholds h0 h1 h2 h3 hbegun hstate
  · rintro ⟨hholds, h0, h1, h2, h3, hended⟩ hplain hstate
    exact runPause_pauses hsole hq hactive hended hholds h0 h1 h2 h3 hplain hstate
  · rintro v ⟨hholds, h0, h1, h2, -, hended⟩ hplain hstate hkind
    exact runResume_goes hsole hq hactive hended hholds h0 h1 v h2 hplain hstate hkind
  · rintro ⟨hholds, h0, h1, h2, -, hended⟩ hbegun hstate
    exact runStop_asks hsole hq hactive hended hholds h0 h1 h2 hbegun hstate
  · rintro ⟨hholds, h0, h1, h2, -, hended⟩ hbegun hwants himaging hstate
    exact runStop_ends hsole hq hactive hended hholds h0 h1 h2 hbegun hwants himaging hstate hu hphase
  · rintro ⟨hholds, h0, h1, h2, -, hended⟩ hbegun hstate
    exact runStop_cancels hsole hq hactive hended hholds h0 h1 h2 hbegun hstate hu hphase
  · intro v hholds h0 hmask hheld hbegun harmed hlost hwants hkind hresume hrehost hnoise hloose hsamples hprograms hshards hvotes hqueue
      hpause hcomplete hhold
    exact engRelease_releases hsole hu hholds h0 hmask hheld hbegun harmed hlost hwants hkind hresume hrehost hnoise hloose hsamples
      hprograms hshards hvotes hqueue hpause hcomplete v hhold
  · intro ref c b cq h _ hqueue hseq hmode hzero halign hdst hroom hpasid hbegun hended hkill haddr
    exact ⟨checkpoint_paused hsole h hqueue hseq hmode hzero halign hdst hroom hq hpasid hbegun hended hkill haddr,
      checkpoint_waits hsole h hqueue hseq hmode hzero halign hdst hroom hq hpasid hbegun hended hkill haddr⟩

end Sys2Proof.Machine
end

section
/-! SUPPORT. The loss of a memory channel and of device DRAM. -/

namespace Sys2Proof.Machine

/-! ### The fault log -/

theorem getLast?_logAppend (entries : List LogEntry) (e : LogEntry) : (logAppend entries e).getLast? = some e := by
  unfold logAppend
  split
  · exact List.getLast?_concat
  · split
    · exact List.getLast?_concat
    · exact List.getLast?_concat

/-- A HARD entry that came last outlives the next. -/
theorem mem_logAppend_of_last {entries : List LogEntry} {x : LogEntry} (hlast : entries.getLast? = some x) (hhard : hardKind x.kind = true)
    (e : LogEntry) : x ∈ logAppend entries e := by
  obtain ⟨xs, rfl⟩ := List.getLast?_eq_some_iff.mp hlast
  unfold logAppend
  split
  · exact List.mem_append_left _ (by simp)
  · split
    · refine List.mem_append_left _ ?_
      have hmem : x ∈ (xs ++ [x]).takeWhile (fun x => hardKind x.kind) ++ (xs ++ [x]).dropWhile fun x => hardKind x.kind := by
        rw [List.takeWhile_append_dropWhile]
        simp
      rcases List.mem_append.mp hmem with h | h
      · exact List.mem_append_left _ h
      · refine List.mem_append_right _ ?_
        cases hdrop : (xs ++ [x]).dropWhile fun x => hardKind x.kind with
        | nil => rw [hdrop] at h; exact absurd h List.not_mem_nil
        | cons y ys =>
          have hsoft : hardKind y.kind = false := by
            have hhead := List.head?_dropWhile_not (fun x : LogEntry => hardKind x.kind) (xs ++ [x])
            rw [hdrop] at hhead
            simpa using hhead
          rw [hdrop] at h
          rcases List.mem_cons.mp h with rfl | h
          · rw [hsoft] at hhard
            exact absurd hhard (by decide)
          · exact h
    · refine List.mem_append_left _ ?_
      cases xs with
      | nil => simp at *
      | cons y ys => simp

theorem logFault_log (s : State) (kind source : Nat) (queue : Option Nat) (place : Nat) :
    ∃ e : LogEntry, e.kind = kind ∧ (s.logFault kind source queue place).log.entries = logAppend s.log.entries e := by
  refine ⟨{ stitch := s.cnt.stitch, number := s.log.appended, kind := kind, source := source
            queue := match queue with | some q => BitVec.ofNat 32 q | none => BitVec.allOnes 32
            place := BitVec.ofNat 64 place }, rfl, ?_⟩
  unfold State.logFault
  dsimp only
  split
  · refine (congrArg FaultLog.entries ((State.occasions_log ..).trans (State.alert_log ..))).trans ?_
    rfl
  · rfl

/-! ### Lost units -/

theorem lost_drainEntry (m : Mem) (e : MergeEntry) : (m.drainEntry e).lost = m.lost := by
  unfold Mem.drainEntry
  split
  · rfl
  · rfl

theorem lost_writeLine (m : Mem) (line : Nat) (bs : List Byte) : (m.writeLine line bs).lost = m.lost := by
  unfold Mem.writeLine
  split
  · rfl
  · rfl

theorem lost_writePart (m : Mem) (line off : Nat) (bs : List Byte) : (m.writePart line off bs).lost = m.lost := by
  unfold Mem.writePart
  split
  · rfl
  · split
    · rfl
    · dsimp only
      split
      · split
        · exact lost_drainEntry ..
        · rfl
      · rfl

theorem lost_write (m : Mem) (a : Nat) (bs : List Byte) : (m.write a bs).lost = m.lost := by
  have hfold : ∀ (ps : List (Nat × Nat × List Byte)) (m : Mem), (ps.foldl (fun m p =>
      if p.2.2.length = 64 then m.writeLine p.1 p.2.2 else m.writePart p.1 p.2.1 p.2.2) m).lost = m.lost := by
    intro ps
    induction ps with
    | nil => exact fun _ => rfl
    | cons p ps ih =>
      intro m
      refine (ih _).trans ?_
      dsimp only
      split
      · exact lost_writeLine ..
      · exact lost_writePart ..
  exact hfold _ m

theorem mem_lost_of_ops {s u : State} {n : Nat} {before more : List MemOp} (h : u.ops = before ++ .loseUnit n :: more)
    (hmore : ∀ o ∈ more, ∃ a bs, o = .write a bs) : n ∈ (s.run fun _ => u).mem.lost := by
  have hwrites : ∀ (ops : List MemOp) (m : Mem), (∀ o ∈ ops, ∃ a bs, o = .write a bs) → (m.applyAll ops).lost = m.lost := by
    intro ops
    induction ops with
    | nil => exact fun _ _ => rfl
    | cons o ops ih =>
      intro m hops
      obtain ⟨a, bs, rfl⟩ := hops o List.mem_cons_self
      exact (ih _ fun o ho => hops o (List.mem_cons_of_mem _ ho)).trans (lost_write m a bs)
  rw [State.run_mem, h, Mem.applyAll, List.foldl_append, List.foldl_cons, ← Mem.applyAll, hwrites _ _ hmore]
  exact mem_addNew_iff.mpr (.inl rfl)

/-! ### What the loss of DRAM drifts to -/

theorem drifts_finishRun (s : State) (ref : TaskRef) (status detail state : Nat) : Drifts s (s.finishRun ref status detail state) := by
  unfold State.finishRun
  split
  case h_1 r hr =>
    have hserves := (serves_leaveScores s r ref).trans (serves_publish _ ref state)
    obtain ⟨w, hw⟩ : ∃ w, w = (if r.part.isEmpty then s else s.writeScores ref true).publish ref state := ⟨_, rfl⟩
    rw [← hw] at hserves
    obtain ⟨ts, hdrop⟩ := dropCheckpoints_moves w r
    have hset : Drifts s ((w.dropCheckpoints r).setRun ref fun r => { r with wants := [] }) := by
      refine hserves.drifts.trans ?_
      rw [hdrop]
      exact .of_eq rfl rfl
    dsimp only
    rw [← hw]
    exact .ite (hset.trans (.of_eq rfl rfl)) (hset.trans (drifts_releaseRun _ _ _ _))
  case h_2 => exact .refl s

theorem drifts_breakRun (s : State) (ref : TaskRef) (status detail state : Nat) : Drifts s (s.breakRun ref status detail state) :=
  (leaveRun_tells s ref).drifts.trans (drifts_finishRun _ _ _ _ _)

theorem drifts_cannotContinue (s : State) (ref : TaskRef) : Drifts s (s.cannotContinue ref) := by
  unfold State.cannotContinue
  split
  · exact .ite (drifts_breakRun ..) (drifts_releaseRun ..)
  · exact .refl s

theorem loseRun_eq {s : State} {ref : TaskRef} {r : Run} {p : Pattern} (hr : s.run? ref = some r) (hp : s.pattern r.pattern = some p) :
    s.loseRun ref = (((s.setRun ref fun r => { r with imaging := none, updating := false, ticking := false, work := [] }).logFault 12
      (sourceOf 1 r.lead) (some ref.queue) noCore).cannotContinue ref) := by
  obtain ⟨w, hw⟩ : ∃ w, w = s.setRun ref fun r => { r with imaging := none, updating := false, ticking := false, work := [] } := ⟨_, rfl⟩
  have hwr : w.run? ref = some { r with imaging := none, updating := false, ticking := false, work := [] } := by
    rw [hw, run?_setRun s (by exact fun _ h => h), hr]
    rfl
  have hwp : w.pattern r.pattern = some p := by rw [hw]; exact hp
  unfold State.loseRun State.giveUp
  rw [← hw]
  dsimp only
  rw [hwr]
  dsimp only
  rw [hwp]
  simp only [Bool.and_false, Bool.false_eq_true, if_false]
  rfl

theorem drifts_giveUp_unusable (s : State) (ref : TaskRef) (core : Option Nat) : Drifts s (s.giveUp ref core false) := by
  unfold State.giveUp
  split
  · exact .refl s
  · split
    · exact .refl s
    · simp only [Bool.and_false, Bool.false_eq_true, if_false]
      exact (drifts_logFault _ _ _ _ _).trans (drifts_cannotContinue _ ref)

theorem drifts_loseRun (s : State) (ref : TaskRef) : Drifts s (s.loseRun ref) := by
  unfold State.loseRun
  refine Drifts.trans ?_ (drifts_giveUp_unusable _ ref none)
  exact .of_eq rfl rfl

theorem drifts_endLoads (s : State) : Drifts s (s.grid.loads.foldl (fun s l => s.endTask l.ref 0x0100 0xFFFFFFFE) s) := by
  refine Drifts.foldl (f := fun s (l : Load) => s.endTask l.ref 0x0100 0xFFFFFFFE) (fun s l => ?_) _ s
  exact .of_eq rfl rfl

/-- Device DRAM is lost: the runs end, the loads end, and the patterns go. -/
theorem loseDram_eq (s : State) : ∃ w x, w = (s.grid.runs.map (·.ref)).foldl State.loseRun s
    ∧ x = w.grid.loads.foldl (fun s l => s.endTask l.ref 0x0100 0xFFFFFFFE) w
    ∧ s.loseDram = ({ x with grid := { x.grid with loads := [] } } : State).unload (List.range 8) := ⟨_, _, rfl, rfl, rfl⟩

theorem drifts_loseDram (s : State) : Drifts s s.loseDram := by
  obtain ⟨w, x, hw, hx, h⟩ := loseDram_eq s
  have hruns : Drifts s w := hw ▸ .foldl (fun s ref => drifts_loseRun s ref) _ s
  have hloads : Drifts w x := hx ▸ drifts_endLoads w
  rw [h]
  exact (hruns.trans hloads).trans (.of_eq rfl rfl)

/-! ### A channel is lost -/

/-- The loss of a channel that serves a unit alone: its state and cause are shown, the unit is lost, the fault logged, and then DRAM is
lost with its runs. -/
theorem loseChannel_alone {s : State} {c u : Nat} (hc : c < s.dram.channels.length) (hstate : (s.channel c).state = 2)
    (hmirrored : s.dram.mirrored = false) (hu : s.dram.map.findIdx? (fun e => e == c) = some u) :
    ∃ (w : State) (e : LogEntry), s.loseChannel c = w.loseDram ∧ w.channel c = { s.channel c with state := 4, cause := 4, mirror := 0 }
      ∧ w.ops = s.ops ++ [.loseUnit u] ∧ w.grid = s.grid ∧ e.kind = 8 ∧ w.log.entries.getLast? = some e := by
  obtain ⟨y, hy⟩ : ∃ y, y = s.setChannel c fun ch => { ch with state := 4, cause := 4, mirror := 0 } := ⟨_, rfl⟩
  obtain ⟨e, hkind, hlog⟩ := logFault_log y 8 (sourceOf 2 c) none c
  obtain ⟨z, hz⟩ : ∃ z, z = y.logFault 8 (sourceOf 2 c) none c := ⟨_, rfl⟩
  have hreports : Reports y z := hz ▸ reports_logFault y _ _ _ _
  have hchannel : y.channel c = { s.channel c with state := 4, cause := 4, mirror := 0 } := by
    rw [hy]
    exact State.channel_setChannel_same hc _
  refine ⟨z.store (.loseUnit u), e, ?_, ?_, ?_, ?_, hkind, ?_⟩
  · have hfind : (s.dram.map.findIdx? fun e => e == c || (s.dram.mirrored && e + 1 == c)) = some u := by
      rw [hmirrored]
      simpa using hu
    unfold State.loseChannel
    rw [hfind]
    dsimp only
    rw [if_neg (by simp [hstate]), hmirrored]
    simp only [Bool.false_and, Bool.false_eq_true, if_false]
    rw [hz, hy]
  · show z.channel c = _
    rw [← hchannel, State.channel, hz, State.logFault_dram]
    rfl
  · show z.ops ++ _ = _
    rw [hreports.ops, hy]
    rfl
  · show z.grid = _
    rw [hreports.grid, hy]
    rfl
  · show z.log.entries.getLast? = _
    rw [hz, hlog, getLast?_logAppend]

/-- What the loss of DRAM leaves of the channel and the unit that brought it. -/
theorem loseDram_leaves {s w : State} {before : List MemOp} {c u : Nat} (hchannel : (w.channel c).state ≠ 3)
    (hops : w.ops = before ++ [.loseUnit u]) : w.loseDram.channel c = w.channel c ∧ u ∈ (s.run fun _ => w.loseDram).mem.lost := by
  have hdrifts := drifts_loseDram w
  obtain ⟨more, hmore, hwrites⟩ := hdrifts.ops
  refine ⟨hdrifts.channel c hchannel, mem_lost_of_ops (before := before) (more := more) ?_ hwrites⟩
  rw [hmore, hops, List.append_assoc]
  rfl

end Sys2Proof.Machine
end

section
/-! SUPPORT. Losses: a channel, a control core. -/

namespace Sys2Proof.Machine

/-! ### A channel that serves alone -/

theorem loseRun_sole {s : State} {r : Run} {p : Pattern} (hruns : s.grid.runs = [r]) (hp : s.pattern r.pattern = some p) :
    (s.loseRun r.ref).grid.runs = [] ∧ ∃ e, (s.loseRun r.ref).log.entries = logAppend s.log.entries e := by
  obtain ⟨y, hy⟩ : ∃ y, y = s.setRun r.ref fun r => { r with imaging := none, updating := false, ticking := false, work := [] } := ⟨_, rfl⟩
  obtain ⟨x, hx⟩ : ∃ x : Run, x = { r with imaging := none, updating := false, ticking := false, work := [] } := ⟨_, rfl⟩
  obtain ⟨e, -, hlog⟩ := logFault_log y 12 (sourceOf 1 r.lead) (some r.ref.queue) noCore
  obtain ⟨z, hz⟩ : ∃ z, z = y.logFault 12 (sourceOf 1 r.lead) (some r.ref.queue) noCore := ⟨_, rfl⟩
  have hyruns : y.grid.runs = [x] := by
    rw [hy, hx]
    exact runs_setRun_sole hruns _
  have hzruns : z.grid.runs = [x] := by
    rw [hz, State.logFault_grid]
    exact hyruns
  have hends := endsRun_cannotContinue hzruns (by rw [hx])
  have hxref : x.ref = r.ref := by rw [hx]
  have hylog : y.log = s.log := by rw [hy]; rfl
  rw [hxref] at hends
  rw [loseRun_eq (run?_sole hruns) hp, ← hy, ← hz]
  refine ⟨hends.runs, e, ?_⟩
  rw [hends.log, hz, hlog, hylog]

theorem endLoads_rest (ls : List Load) (s : State) : ∃ ts, ls.foldl (fun (s : State) l => s.endTask l.ref 0x0100 0xFFFFFFFE) s
    = { s with q := { s.q with tasks := ts } } := by
  induction ls generalizing s with
  | nil => exact ⟨s.q.tasks, rfl⟩
  | cons l ls ih => exact ih (s.endTask l.ref 0x0100 0xFFFFFFFE)

/-- The engines of the dies have no pattern and are IDLE or OFF. -/
theorem engines_unload_dies (s : State) : ∀ g ∈ (s.unload (List.range 8)).grid.engines.take 8, g.pattern = none ∧ g.state ≤ 1 := by
  intro g hg
  obtain ⟨k, hk, rfl⟩ := List.getElem_of_mem hg
  rw [List.length_take, length_engines_unload] at hk
  have hlt : k < s.grid.engines.length := by omega
  have hlt' : k < (s.unload (List.range 8)).grid.engines.length := by rw [length_engines_unload]; exact hlt
  obtain ⟨left, h⟩ := engine_unload (s := s) (List.mem_range.mpr (by omega : k < 8)) hlt
  have hget : (s.unload (List.range 8)).engine k = (s.unload (List.range 8)).grid.engines[k] := by
    simp [State.engine, List.getD_eq_getElem?_getD, List.getElem?_eq_getElem hlt']
  rw [List.getElem_take, ← hget, h]
  refine ⟨rfl, ?_⟩
  dsimp only
  split
  · exact Nat.zero_le 1
  · exact Nat.le_refl 1

theorem loseDram_ends {w : State} (hruns : w.grid.runs = [] ∨ ∃ r p, w.grid.runs = [r] ∧ w.pattern r.pattern = some p) {e : LogEntry}
    (hlast : w.log.entries.getLast? = some e) (hhard : hardKind e.kind = true) :
    w.loseDram.grid.runs = [] ∧ (∀ g ∈ w.loseDram.grid.engines.take 8, g.pattern = none ∧ g.state ≤ 1) ∧ e ∈ w.loseDram.log.entries := by
  obtain ⟨y, x, hy, hx, heq⟩ := loseDram_eq w
  obtain ⟨ts, hts⟩ := endLoads_rest y.grid.loads y
  rw [← hx] at hts
  have hyends : y.grid.runs = [] ∧ e ∈ y.log.entries := by
    obtain hnone | ⟨r, p, hsole, hp⟩ := hruns
    · rw [hnone] at hy
      rw [hy]
      exact ⟨hnone, List.mem_of_getLast? hlast⟩
    · obtain ⟨hnone, e', hlog⟩ := loseRun_sole hsole hp
      rw [hsole] at hy
      rw [hy]
      exact ⟨hnone, hlog ▸ mem_logAppend_of_last hlast hhard e'⟩
  rw [heq, hts]
  exact ⟨hyends.1, engines_unload_dies _, hyends.2⟩

theorem loseChannel_loses {s x : State} {c u : Nat} (hc : c < x.dram.channels.length) (hstate : (x.channel c).state = 2)
    (hmirrored : x.dram.mirrored = false) (hu : x.dram.map.findIdx? (fun e => e == c) = some u)
    (hruns : x.grid.runs = [] ∨ ∃ r p, soleRun x r p) {t : State} (ht : t = s.run fun _ => x.loseChannel c) :
    (t.channel c).state = 4 ∧ (t.channel c).cause = 4 ∧ u ∈ t.mem.lost ∧ t.grid.runs = []
      ∧ (∀ g ∈ t.grid.engines.take 8, g.pattern = none ∧ g.state ≤ 1) ∧ ∃ e ∈ t.log.entries, e.kind = 8 := by
  obtain ⟨w, e, hlose, hchannel, hwops, hgrid, hkind, hlast⟩ := loseChannel_alone hc hstate hmirrored hu
  obtain ⟨hc', hlost⟩ := loseDram_leaves (s := s) (w := w) (c := c) (by rw [hchannel]; simp) hwops
  have hwruns : w.grid.runs = [] ∨ ∃ r p, w.grid.runs = [r] ∧ w.pattern r.pattern = some p := by
    obtain hnone | ⟨r, p, hsole⟩ := hruns
    · exact .inl (hgrid ▸ hnone)
    · refine .inr ⟨r, p, hgrid ▸ hsole.1, ?_⟩
      rw [State.pattern, hgrid]
      exact hsole.2.1
  obtain ⟨hnone, hengines, hmem⟩ := loseDram_ends hwruns hlast (by rw [hkind]; rfl)
  rw [ht, hlose, State.run_channel, State.run_grid, State.run_log, hc', hchannel]
  exact ⟨rfl, rfl, hlost, hnone, hengines, e, hmem, hkind⟩

section
variable {s : State} (hlive : s.live = true)
include hlive

theorem channelLost_loses {c u : Nat} (hc : c < 8) (hlen : s.dram.channels.length = 8) (hstate : (s.channel c).state = 2)
    (hmirrored : s.dram.mirrored = false) (hu : s.dram.map.findIdx? (fun e => e == c) = some u)
    (hruns : s.grid.runs = [] ∨ ∃ r p, soleRun s r p) {i : Instr} (hi : i = .channelLost c ∨ i = .mcAlertN c false false) :
    ∃ t, exec i s = .next t ∧ (t.channel c).state = 4 ∧ (t.channel c).cause = 4 ∧ u ∈ t.mem.lost ∧ t.grid.runs = []
      ∧ (∀ g ∈ t.grid.engines.take 8, g.pattern = none ∧ g.state ≤ 1) ∧ ∃ e ∈ t.log.entries, e.kind = 8 := by
  obtain ⟨o, ho⟩ : ∃ o : State, o = { s with ops := [] } := ⟨_, rfl⟩
  obtain rfl | rfl := hi
  · refine ⟨_, exec_lands_live rfl hlive rfl, ?_⟩
    rw [← ho]
    exact loseChannel_loses (s := s) (by rw [ho]; show c < s.dram.channels.length; omega) (by rw [ho]; exact hstate)
      (by rw [ho]; exact hmirrored) (by rw [ho]; exact hu) (by rw [ho]; exact hruns) rfl
  · obtain ⟨x, hx⟩ : ∃ x, x = o.setChannel c fun ch => { ch with alerts := (ch.alerts + 1) % 2 ^ 32 } := ⟨_, rfl⟩
    have hlands : exec (.mcAlertN c false false) s = .next (s.run fun _ => x.loseChannel c) := by
      refine exec_lands_live rfl hlive ?_
      have hostate : (o.channel c).state = 2 := by rw [ho]; exact hstate
      rw [← ho]
      dsimp only
      rw [if_neg (by omega), hx]
      rfl
    have hxchannel : (x.channel c).state = 2 := by
      rw [hx, State.channel_setChannel_same (by rw [ho]; show c < s.dram.channels.length; omega), ho]
      exact hstate
    refine ⟨_, hlands, loseChannel_loses (s := s) ?_ hxchannel (by rw [hx, ho]; exact hmirrored)
      (by rw [hx, ho]; exact hu) (by rw [hx, ho]; exact hruns) rfl⟩
    rw [hx, ho]
    show c < (modifyAt _ c s.dram.channels).length
    rw [length_modifyAt]
    omega

/-! ### A channel of a pair -/

theorem channelLost_mirrored {c u m : Nat} (hc : c < 8) (hlen : s.dram.channels.length = 8) (hstate : (s.channel c).state = 2)
    (hmirrored : s.dram.mirrored = true) (hu : s.dram.map.findIdx? (fun e => e == c || e + 1 == c) = some u)
    (hm : m = if c = s.dram.map.getD u 0 then s.dram.map.getD u 0 + 1 else s.dram.map.getD u 0) (hm8 : m < 8) (hne : m ≠ c)
    (hpartner : (s.channel m).state = 2) : ∃ t, exec (.channelLost c) s = .next t ∧ (t.channel c).state = 4 ∧ (t.channel c).mirror = 3
      ∧ (t.channel m).state = 2 ∧ (t.channel m).mirror = 2 ∧ t.mem = s.mem ∧ t.grid = s.grid ∧ t.q = s.q := by
  obtain ⟨o, ho⟩ : ∃ o : State, o = { s with ops := [] } := ⟨_, rfl⟩
  obtain ⟨y, hy⟩ : ∃ y, y = o.setChannel c fun ch => { ch with state := 4, cause := 4, mirror := 3 } := ⟨_, rfl⟩
  obtain ⟨z, hz⟩ : ∃ z, z = y.logFault 8 (sourceOf 2 c) none c := ⟨_, rfl⟩
  obtain ⟨x, hx⟩ : ∃ x, x = z.setChannel m fun ch => { ch with mirror := 2 } := ⟨_, rfl⟩
  obtain ⟨t, ht⟩ : ∃ t, t = x.event 1 3 (sourceOf 2 c) none (zeroBytes 8 ++ toBytesLE 8 c) := ⟨_, rfl⟩
  have hyz : Reports y z := hz ▸ reports_logFault y _ _ _ _
  have hxt : Reports x t := ht ▸ reports_event x _ _ _ _ _
  have holen : o.dram.channels.length = 8 := by rw [ho]; exact hlen
  have hydram : y.dram.channels.length = 8 := by
    rw [hy, ← holen]
    exact length_modifyAt ..
  have hzdram : z.dram = y.dram := by rw [hz, State.logFault_dram]
  have htdram : t.dram = x.dram := by rw [ht, State.event_dram]
  have hyc : y.channel c = { s.channel c with state := 4, cause := 4, mirror := 3 } := by
    rw [hy, State.channel_setChannel_same (by omega), ho]
    rfl
  have hym : y.channel m = s.channel m := by
    rw [hy, State.channel_setChannel_ne hne, ho]
    rfl
  have hzchannel (d : Nat) : z.channel d = y.channel d := by
    rw [State.channel, hzdram]
    rfl
  have htchannel (d : Nat) : t.channel d = x.channel d := by
    rw [State.channel, htdram]
    rfl
  have hlands : exec (.channelLost c) s = .next (s.run fun _ => t) := by
    refine exec_lands_live rfl hlive ?_
    have homirrored : o.dram.mirrored = true := by rw [ho]; exact hmirrored
    have hofind : o.dram.map.findIdx? (fun e => e == c || (o.dram.mirrored && e + 1 == c)) = some u := by
      rw [homirrored, ho]
      simpa using hu
    have hostate : (o.channel c).state = 2 := by rw [ho]; exact hstate
    have hom : m = if c = o.dram.map.getD u 0 then o.dram.map.getD u 0 + 1 else o.dram.map.getD u 0 := by rw [ho]; exact hm
    have hopartner : (o.channel m).state = 2 := by rw [ho]; exact hpartner
    rw [← ho]
    unfold State.loseChannel
    rw [hofind]
    dsimp only
    rw [← hom, if_neg (by simp [hostate]), homirrored]
    simp only [hopartner, Bool.true_and, beq_self_eq_true, Bool.true_or, if_true]
    rw [← hy, ← hz, ← hx, ← ht]
  refine ⟨_, hlands, ?_, ?_, ?_, ?_, run_mem_of_no_ops ?_, ?_, ?_⟩
  · rw [State.run_channel, htchannel, hx, State.channel_setChannel_ne (Ne.symm hne), hzchannel, hyc]
  · rw [State.run_channel, htchannel, hx, State.channel_setChannel_ne (Ne.symm hne), hzchannel, hyc]
  · rw [State.run_channel, htchannel, hx, State.channel_setChannel_same (by rw [hzdram, hydram]; exact hm8), hzchannel, hym]
    exact hpartner
  · rw [State.run_channel, htchannel, hx, State.channel_setChannel_same (by rw [hzdram, hydram]; exact hm8)]
  · rw [hxt.ops, hx]
    show z.ops = []
    rw [hyz.ops, hy, ho]
    rfl
  · rw [State.run_grid, hxt.grid, hx]
    show z.grid = s.grid
    rw [hyz.grid, hy, ho]
    rfl
  · rw [State.run_q, hxt.q, hx]
    show z.q = s.q
    rw [hyz.q, hy, ho]
    rfl

theorem mcAlertN_counts {c : Nat} (hc : c < 8) (hlen : s.dram.channels.length = 8) (hstate : (s.channel c).state = 2) {a b : Bool}
    (hcured : (a || b) = true) : ∃ t, exec (.mcAlertN c a b) s = .next t
      ∧ t.channel c = { s.channel c with alerts := ((s.channel c).alerts + 1) % 2 ^ 32 } ∧ (∀ d, d ≠ c → t.channel d = s.channel d)
      ∧ t.mem = s.mem ∧ t.grid = s.grid := by
  obtain ⟨o, ho⟩ : ∃ o : State, o = { s with ops := [] } := ⟨_, rfl⟩
  obtain ⟨x, hx⟩ : ∃ x, x = o.setChannel c fun ch => { ch with alerts := (ch.alerts + 1) % 2 ^ 32 } := ⟨_, rfl⟩
  have hlands : exec (.mcAlertN c a b) s = .next (s.run fun _ => x) := by
    refine exec_lands_live rfl hlive ?_
    have hostate : (o.channel c).state = 2 := by rw [ho]; exact hstate
    rw [← ho]
    dsimp only
    rw [if_neg (by omega), hcured, if_pos rfl, hx]
  refine ⟨_, hlands, ?_, fun d hd => ?_, run_mem_of_no_ops ?_, ?_⟩
  · rw [State.run_channel, hx, State.channel_setChannel_same (by rw [ho]; show c < s.dram.channels.length; omega), ho]
    rfl
  · rw [State.run_channel, hx, State.channel_setChannel_ne hd, ho]
    rfl
  · rw [hx, ho]
    rfl
  · rw [State.run_grid, hx, ho]
    rfl

/-! ### The last control core -/

omit hlive in
/-- Every run that goes on between boundaries is asked to pause, and nothing else moves. -/
theorem pauseAll_asks (rs : List Run) (hstates : ∀ r ∈ rs, (s.engine r.lead).state ≠ 4) :
    ∃ g : Run → Run, rs.foldl (fun s r =>
      let st := (s.engine r.lead).state
      let hostStarved := st == 4 && r.blk.kind != 0 && r.starved.any (· < 3) && decide (hostWindow ≤ r.blk.input)
      if r.ended.isSome || hostStarved || decide (5 ≤ st) then s
      else
        let s := s.setRun r.ref fun r => { r with wants := r.wants ++ [.pause 2 0] }
        if st = 4 then s.rowNine noHost r.ref else s) s = { s with grid := { s.grid with runs := s.grid.runs.map g } }
      ∧ ∀ x, ∃ more, g x = { x with wants := x.wants ++ more }
        ∧ ∀ r ∈ rs, r.ref = x.ref → (s.engine r.lead).state = 3 → r.ended = none → Want.pause 2 0 ∈ more := by
  induction rs generalizing s with
  | nil => exact ⟨id, by simp, fun x => ⟨[], by simp, fun _ h => absurd h List.not_mem_nil⟩⟩
  | cons r rs ih =>
    have hstate := hstates r List.mem_cons_self
    rw [List.foldl_cons]
    by_cases hskip : r.ended.isSome = true ∨ 5 ≤ (s.engine r.lead).state
    · obtain ⟨g, hfold, hg⟩ := ih (s := s) fun r hr => hstates r (List.mem_cons_of_mem _ hr)
      refine ⟨g, ?_, fun x => ?_⟩
      · rw [← hfold]
        dsimp only
        rw [if_pos (by simpa [hstate] using hskip)]
      · obtain ⟨more, hx, hmore⟩ := hg x
        refine ⟨more, hx, fun y hy href hrun hended => ?_⟩
        obtain rfl | hy := List.mem_cons.mp hy
        · rcases hskip with h | h
          · rw [hended] at h
            exact absurd h (by decide)
          · omega
        · exact hmore y hy href hrun hended
    · obtain ⟨w, hw⟩ : ∃ w, w = s.setRun r.ref fun r => { r with wants := r.wants ++ [.pause 2 0] } := ⟨_, rfl⟩
      have hwengine : ∀ k, w.engine k = s.engine k := fun k => by rw [hw]; rfl
      obtain ⟨g, hfold, hg⟩ := ih (s := w) fun r hr => by rw [hwengine]; exact hstates r (List.mem_cons_of_mem _ hr)
      refine ⟨fun x => g (if x.ref == r.ref then { x with wants := x.wants ++ [.pause 2 0] } else x), ?_, fun x => ?_⟩
      · dsimp only
        rw [if_neg (by simpa [hstate] using hskip), if_neg hstate, ← hw, hfold, hw]
        have hmap : (modifyIf (fun x : Run => x.ref == r.ref) (fun r => { r with wants := r.wants ++ [.pause 2 0] }) s.grid.runs).map g
            = s.grid.runs.map fun x => g (if x.ref == r.ref then { x with wants := x.wants ++ [.pause 2 0] } else x) := List.map_map ..
        rw [← hmap]
        rfl
      · dsimp only
        split
        case isTrue href =>
          obtain ⟨more, hx, -⟩ := hg { x with wants := x.wants ++ [.pause 2 0] }
          refine ⟨.pause 2 0 :: more, ?_, fun _ _ _ _ _ => List.mem_cons_self⟩
          rw [hx]
          simp
        case isFalse href =>
          obtain ⟨more, hx, hmore⟩ := hg x
          refine ⟨more, hx, fun y hy hyref hrun hended => ?_⟩
          obtain rfl | hy := List.mem_cons.mp hy
          · exact absurd (beq_iff_eq.mpr hyref.symm) href
          · exact hmore y hy hyref (by rw [hwengine]; exact hrun) hended

theorem soleCoreFailure_fails (hcore : s.fw.noCore = false) (hrunning : s.fw.running.isSome = true) (hstandby : s.fw.standby = none)
    (hstates : ∀ r ∈ s.grid.runs, (s.engine r.lead).state ≠ 4) :
    ∃ t, exec .soleCoreFailure s = .next t ∧ t.fw.noCore = true ∧ t.boot.ready = false ∧ t.sb.alert = s.sb.alert ||| 4
      ∧ (∀ r ∈ t.grid.runs, (t.engine r.lead).state = 3 → r.ended = none → Want.pause 2 0 ∈ r.wants) ∧ t.mem = s.mem ∧ t.q = s.q := by
  obtain ⟨w, hw⟩ : ∃ w : State, w = { s with
    ops := [], fw := { s.fw with noCore := true, failed := addNew s.fw.active s.fw.failed }, boot := { s.boot with ready := false } } := ⟨_, rfl⟩
  have hwgrid : w.grid = s.grid := by rw [hw]
  have hwengine : ∀ k, w.engine k = s.engine k := fun k => by rw [hw]; rfl
  obtain ⟨g, hfold, hg⟩ := pauseAll_asks (s := w) w.grid.runs fun r hr => by rw [hwengine]; exact hstates r (hwgrid ▸ hr)
  obtain ⟨y, hy⟩ : ∃ y, y = w.pauseAll := ⟨_, rfl⟩
  have hyeq : y = { w with grid := { w.grid with runs := w.grid.runs.map g } } := hy.trans hfold
  obtain ⟨t, ht⟩ : ∃ t, t = y.alert 4 := ⟨_, rfl⟩
  have hlands : exec .soleCoreFailure s = .next (s.run fun _ => t) := by
    refine exec_lands_live rfl hlive ?_
    have hno : (({ s with ops := [] } : State).fw.noCore || ({ s with ops := [] } : State).fw.running.isNone
        || ({ s with ops := [] } : State).fw.standby.isSome) = false := by
      show (s.fw.noCore || s.fw.running.isNone || s.fw.standby.isSome) = false
      rw [hcore, hstandby, Option.isNone_eq_false_iff.mpr hrunning]
      rfl
    rw [if_neg (by rw [hno]; decide), ht, hy, hw]
  have htgrid : t.grid = y.grid := by rw [ht, State.alert_grid]
  refine ⟨_, hlands, ?_, ?_, ?_, fun r hr hstate hended => ?_, run_mem_of_no_ops ?_, ?_⟩
  · rw [State.run_fw, ht, State.alert_fw, hyeq, hw]
  · rw [State.run_boot, ht, State.alert_boot, hyeq, hw]
  · rw [State.run_sb_alert, ht]
    have halert : (y.alert 4).sb.alert = y.sb.alert ||| 4 := by
      unfold State.alert
      dsimp only
      split
      · rfl
      · rfl
    rw [halert, hyeq, hw]
  · rw [State.run_grid, htgrid, hyeq] at hr
    obtain ⟨x, hx, rfl⟩ := List.mem_map.mp hr
    obtain ⟨more, hgx, hmore⟩ := hg x
    rw [hgx] at hended hstate ⊢
    refine List.mem_append_right _ (hmore x hx rfl ?_ hended)
    rw [State.run_engine, State.engine, htgrid, hyeq] at hstate
    exact hstate
  · rw [ht, State.alert_ops, hyeq, hw]
  · rw [State.run_q, ht, State.alert_q, hyeq, hw]

/-! ### Takeover and repair -/

theorem controlCoreTakeover_swaps {i j : Image} (hi : s.fw.running = some i) (hj : s.fw.standby = some j) (hphase : s.fw.phase = 0)
    (hwindow : s.fw.window = none) (hreloading : s.fw.reloading = none) :
    ∃ t, exec .controlCoreTakeover s = .next t ∧ t.fw.running = some j ∧ t.fw.standby = none ∧ t.fw.active = 1 - s.fw.active
      ∧ t.fw.failed = [s.fw.active] ∧ t.log.appended = s.log.appended + 1 ∧ t.q = s.q ∧ t.grid = s.grid ∧ t.mem = s.mem := by
  obtain ⟨w, hw⟩ : ∃ w : State, w = { s with ops := [], fw := { s.fw with
    running := some j, standby := none, reloading := none, active := 1 - s.fw.active, failed := [s.fw.active] } } := ⟨_, rfl⟩
  obtain ⟨y, hy⟩ : ∃ y, y = w.event 1 3 (sourceOf 0 (0x100 + s.fw.active)) none (zeroBytes 16) := ⟨_, rfl⟩
  obtain ⟨t, ht⟩ : ∃ t, t = y.logFault 10 (sourceOf 0 (0x100 + s.fw.active)) none s.fw.active := ⟨_, rfl⟩
  have hlands : exec .controlCoreTakeover s = .next (s.run fun _ => t) := by
    refine exec_lands_live rfl hlive ?_
    simp only [hi, hj, hphase, hwindow, hreloading]
    rw [ht, hy, hw]
    rfl
  have hreports : Reports w t := ht ▸ hy ▸ (reports_event w _ _ _ _ _).trans (reports_logFault _ _ _ _ _)
  have hfw : t.fw = w.fw := by rw [ht, State.logFault_fw, hy, State.event_fw]
  refine ⟨_, hlands, ?_, ?_, ?_, ?_, ?_, ?_, ?_, run_mem_of_no_ops ?_⟩
  · rw [State.run_fw, hfw, hw]
  · rw [State.run_fw, hfw, hw]
  · rw [State.run_fw, hfw, hw]
  · rw [State.run_fw, hfw, hw]
  · rw [State.run_log, ht, State.logFault_appended, hy, State.event_log, hw]
  · rw [State.run_q, hreports.q, hw]
  · rw [State.run_grid, hreports.grid, hw]
  · rw [hreports.ops, hw]

theorem standbyRestore_passes {c : Nat} {rest : List Nat} (hfailed : s.fw.failed = c :: rest) (hcore : s.fw.noCore = false)
    (hstandby : s.fw.standby = none) : ∃ t, exec (.standbyRestore true) s = .next t ∧ t.fw.standby = s.fw.running ∧ t.fw.failed = []
      ∧ t.log = s.log ∧ t.boot = s.boot ∧ t.grid = s.grid := by
  refine ⟨_, exec_lands_live (u := { s with ops := [], fw := { s.fw with standby := s.fw.running, failed := [] } }) rfl hlive ?_, ?_⟩
  · simp only [hfailed, hcore, hstandby]
    rfl
  · simp

theorem standbyRestore_fails {c : Nat} {rest : List Nat} (hfailed : s.fw.failed = c :: rest) (hcore : s.fw.noCore = false)
    (hstandby : s.fw.standby = none) : ∃ t, exec (.standbyRestore false) s = .next t ∧ t.fw = s.fw
      ∧ t.log.appended = s.log.appended + 1 ∧ t.boot = s.boot ∧ t.grid = s.grid := by
  refine ⟨_, exec_lands_live (u := ({ s with ops := [] } : State).logFault 11 (sourceOf 0 (0x100 + c)) none c) rfl hlive ?_, ?_⟩
  · simp only [hfailed, hcore, hstandby]
    rfl
  · simp

theorem standbyReloadComplete_reloads {i : Image} (hreloading : s.fw.reloading = some i) : ∃ t, exec .standbyReloadComplete s = .next t
    ∧ t.fw = { s.fw with standby := some i, reloading := none } ∧ t.grid = s.grid ∧ t.q = s.q ∧ t.mem = s.mem := by
  refine ⟨_, exec_lands_live (u := { s with ops := [], fw := { s.fw with standby := some i, reloading := none } }) rfl hlive ?_, ?_, ?_, ?_,
    run_mem_of_no_ops rfl⟩
  · simp only [hreloading]
  · simp
  · simp
  · simp

theorem sequencerReload_reloads {i : Image} {e : Nat} (hi : s.fw.running = some i) (hdue : e ∈ s.fw.reloadDue)
    (htask : (s.engine e).task = none) (he : e < s.fw.sequencers.length) : ∃ t, exec (.sequencerReload e) s = .next t
      ∧ t.fw.sequencers.getD e [] = i.seqDigest ∧ e ∉ t.fw.reloadDue
      ∧ (∀ k, k ≠ e → t.fw.sequencers.getD k [] = s.fw.sequencers.getD k []) ∧ t.grid = s.grid ∧ t.mem = s.mem := by
  refine ⟨_, exec_lands_live (u := { s with ops := [], fw := { s.fw with
    sequencers := modifyAt (fun _ => i.seqDigest) e s.fw.sequencers, reloadDue := s.fw.reloadDue.filter (· != e) } }) rfl hlive ?_, ?_, ?_,
    fun k hk => ?_, ?_, run_mem_of_no_ops rfl⟩
  · simp only [hi]
    rw [if_pos (by simp [hdue, htask])]
  · rw [State.run_fw]
    exact getD_modifyAt_same he _ _
  · rw [State.run_fw]
    simp
  · rw [State.run_fw]
    exact getD_modifyAt_ne hk _ _ _
  · rw [State.run_grid]
end

/-- Settles O56: what each loss leaves, and what replaces or repairs a control core. -/
theorem lossesAreContained : Obligations.LossesAreContained := by
  intro s hlive
  refine ⟨fun c hc hlen hstate => ⟨?_, ?_, fun a b => mcAlertN_counts hlive hc hlen hstate⟩, soleCoreFailure_fails hlive,
    fun i j => controlCoreTakeover_swaps hlive, fun c rest hfailed hcore hstandby =>
      ⟨standbyRestore_passes hlive hfailed hcore hstandby, standbyRestore_fails hlive hfailed hcore hstandby⟩,
    fun i => standbyReloadComplete_reloads hlive, fun i e => sequencerReload_reloads hlive⟩
  · intro u hmirrored hu _ hruns i hi
    exact channelLost_loses hlive hc hlen hstate hmirrored hu hruns hi
  · intro u hmirrored hu m hm hne hpartner
    exact channelLost_mirrored hlive hc hlen hstate hmirrored hu rfl hm hne hpartner

end Sys2Proof.Machine
end

section
/-! SUPPORT. Reads of lines: what a correction notes, what a failure leaves. -/

namespace Sys2Proof.Machine

/-! ### Notes of a correction -/

theorem field_setChannel {α : Type} {g : Channel → α} {f : Channel → Channel} (h : ∀ ch, g (f ch) = g ch) (s : State) (c d : Nat) :
    g ((s.setChannel c f).channel d) = g (s.channel d) := by
  by_cases hd : d = c
  · subst hd
    by_cases hlen : d < s.dram.channels.length
    · rw [State.channel_setChannel_same hlen, h]
    · have hnone : s.dram.channels[d]? = none := List.getElem?_eq_none (by omega)
      have hnone' : (modifyAt f d s.dram.channels)[d]? = none := List.getElem?_eq_none (by rw [length_modifyAt]; omega)
      show g ((modifyAt f d s.dram.channels).getD d .reset) = g (s.dram.channels.getD d .reset)
      rw [List.getD_eq_getElem?_getD, List.getD_eq_getElem?_getD, hnone, hnone']
  · rw [State.channel_setChannel_ne hd]

/-- The other channel of a pair. -/
def partnerOf (c : Nat) : Nat := if c % 2 = 0 then c + 1 else c - 1

/-- What a correction may note on channel c and, of a pair, on its partner: sites, marks and spares; its counts and states stand. -/
structure Notes (s t : State) (c : Nat) (paired : Bool) : Prop where
  moves : ∃ host out log nv sb cnt channels, t = { s with
    host := host, out := out, log := log, nv := nv, sb := sb, cnt := cnt, dram := { s.dram with channels := channels } }
  length : t.dram.channels.length = s.dram.channels.length
  corr : ∀ d, (t.channel d).corr = (s.channel d).corr
  uncorr : ∀ d, (t.channel d).uncorr = (s.channel d).uncorr
  failures : ∀ d, (t.channel d).failures = (s.channel d).failures
  state : ∀ d, (t.channel d).state = (s.channel d).state
  other : ∀ d, d ≠ c → d ≠ partnerOf c ∨ paired = false → t.channel d = s.channel d

section
variable {s t u : State} {c : Nat} {paired : Bool}

theorem Notes.of_reports (h : Reports s t) (hdram : t.dram = s.dram) (c : Nat) (paired : Bool) : Notes s t c paired := by
  have hchannel : ∀ d, t.channel d = s.channel d := fun d => by
    rw [State.channel, hdram]
    rfl
  refine ⟨?_, by rw [hdram], fun d => by rw [hchannel], fun d => by rw [hchannel], fun d => by rw [hchannel], fun d => by rw [hchannel],
    fun d _ _ => hchannel d⟩
  obtain ⟨_, _, _, _, _, _, rfl⟩ := h
  exact ⟨_, _, _, _, _, _, s.dram.channels, rfl⟩

theorem Notes.refl (s : State) (c : Nat) (paired : Bool) : Notes s s c paired := .of_reports (.refl s) rfl c paired

theorem Notes.trans (h : Notes s t c paired) (k : Notes t u c paired) : Notes s u c paired := by
  refine ⟨?_, k.length.trans h.length, fun d => (k.corr d).trans (h.corr d), fun d => (k.uncorr d).trans (h.uncorr d),
    fun d => (k.failures d).trans (h.failures d), fun d => (k.state d).trans (h.state d),
    fun d hd ho => (k.other d hd ho).trans (h.other d hd ho)⟩
  obtain ⟨_, _, _, _, _, _, _, rfl⟩ := h.moves
  obtain ⟨_, _, _, _, _, _, _, rfl⟩ := k.moves
  exact ⟨_, _, _, _, _, _, _, rfl⟩

theorem Notes.foldl {α : Type} {f : State → α → State} (h : ∀ s x, Notes s (f s x) c paired) (xs : List α) (s : State) :
    Notes s (xs.foldl f s) c paired := by
  induction xs generalizing s with
  | nil => exact .refl s c paired
  | cons x xs ih => exact (h s x).trans (ih _)

/-- Sites, marks and spares of one channel. -/
theorem notes_setChannel {e : Nat} {f : Channel → Channel} (he : e = c ∨ (e = partnerOf c ∧ paired = true)) (hcorr : ∀ ch, (f ch).corr = ch.corr)
    (huncorr : ∀ ch, (f ch).uncorr = ch.uncorr) (hfailures : ∀ ch, (f ch).failures = ch.failures) (hstate : ∀ ch, (f ch).state = ch.state)
    (s : State) : Notes s (s.setChannel e f) c paired := by
  refine ⟨⟨_, _, _, _, _, _, _, rfl⟩, length_modifyAt .., field_setChannel hcorr s e, field_setChannel huncorr s e,
    field_setChannel hfailures s e, field_setChannel hstate s e, fun d hd hother => ?_⟩
  refine State.channel_setChannel_ne ?_ s f
  rcases he with rfl | ⟨rfl, hpaired⟩
  · exact hd
  · rcases hother with hother | hother
    · exact hother
    · rw [hpaired] at hother
      exact absurd hother (by decide)

theorem reports_corrected (s : State) (source kind place : Nat) : Reports s (s.corrected source kind place) ∧ (s.corrected source kind place).dram = s.dram
    ∧ (s.corrected source kind place).log = s.log := by
  unfold State.corrected
  dsimp only
  split
  · exact ⟨(reports_host s _).trans (reports_event _ _ _ _ _ _), State.event_dram .., State.event_log ..⟩
  · split
    · exact ⟨(reports_host s _).trans (reports_event _ _ _ _ _ _), State.event_dram .., State.event_log ..⟩
    · exact ⟨reports_host s _, rfl, rfl⟩

theorem notes_corrected (s : State) (source kind place c : Nat) (paired : Bool) : Notes s (s.corrected source kind place) c paired := by
  obtain ⟨hreports, hdram, -⟩ := reports_corrected s source kind place
  exact .of_reports hreports hdram c paired

theorem notes_tell (s : State) (cls code source kind place c : Nat) (detail : List Byte) (paired : Bool) :
    Notes s ((s.event cls code source none detail).logFault kind source none place) c paired := by
  refine .of_reports ((reports_event ..).trans (reports_logFault ..)) ?_ c paired
  rw [State.logFault_dram, State.event_dram]

theorem notes_noteDevice (s : State) (c line : Nat) (l : Location) (device : Nat) (paired : Bool) : Notes s (s.noteDevice c line l device) c paired := by
  have hset : ∀ f : Channel → Channel, (∀ ch, (f ch).corr = ch.corr) → (∀ ch, (f ch).uncorr = ch.uncorr) →
      (∀ ch, (f ch).failures = ch.failures) → (∀ ch, (f ch).state = ch.state) → ∀ s : State, Notes s (s.setChannel c f) c paired :=
    fun f h1 h2 h3 h4 s => notes_setChannel (.inl rfl) h1 h2 h3 h4 s
  have hsites := hset (fun ch => { ch with sites := addNew (l.key, device, line) ch.sites }) (fun _ => rfl) (fun _ => rfl) (fun _ => rfl)
    (fun _ => rfl) s
  obtain ⟨mark, hmark⟩ : ∃ mark, mark = (0x80 + device) * 2 ^ (8 * l.key) := ⟨_, rfl⟩
  have hdev := hset (fun ch => { ch with devMark := ch.devMark + mark }) (fun _ => rfl) (fun _ => rfl) (fun _ => rfl) (fun _ => rfl)
  unfold State.noteDevice
  dsimp only
  rw [← hmark]
  split
  · exact (hsites.trans (hdev _)).trans (notes_tell ..)
  · exact hsites

theorem pairWhole_congr (hmap : t.dram.map = s.dram.map) (hmirrored : t.dram.mirrored = s.dram.mirrored)
    (hstate : ∀ d, (t.channel d).state = (s.channel d).state) (n : Nat) : t.pairWhole n = s.pairWhole n := by
  unfold State.pairWhole
  dsimp only
  rw [hmap, hmirrored, hstate, hstate]

theorem pairWhole_notes (h : Notes s t c paired) (n : Nat) : t.pairWhole n = s.pairWhole n := by
  have hdram : t.dram.map = s.dram.map ∧ t.dram.mirrored = s.dram.mirrored := by
    obtain ⟨_, _, _, _, _, _, _, rfl⟩ := h.moves
    exact ⟨rfl, rfl⟩
  exact pairWhole_congr hdram.1 hdram.2 h.state n

theorem Channel.spareOut_keeps (ch : Channel) (line : Nat) : (ch.spareOut line).corr = ch.corr ∧ (ch.spareOut line).uncorr = ch.uncorr
    ∧ (ch.spareOut line).failures = ch.failures ∧ (ch.spareOut line).state = ch.state := by
  unfold Channel.spareOut
  split
  · exact ⟨rfl, rfl, rfl, rfl⟩
  · exact ⟨rfl, rfl, rfl, rfl⟩

theorem notes_noteErred (s : State) (c line : Nat) : Notes s (s.noteErred c line) c (s.pairWhole (unitOf s.mem.units (64 * line))) := by
  have hspare : ∀ (e : Nat) (paired : Bool), (e = c ∨ (e = partnerOf c ∧ paired = true)) → ∀ s : State,
      Notes s (s.setChannel e fun ch => ch.spareOut line) c paired := fun e paired he s =>
    notes_setChannel he (fun ch => (ch.spareOut_keeps line).1) (fun ch => (ch.spareOut_keeps line).2.1)
      (fun ch => (ch.spareOut_keeps line).2.2.1) (fun ch => (ch.spareOut_keeps line).2.2.2) s
  unfold State.noteErred
  dsimp only
  split
  · split
    · obtain ⟨w, hw⟩ : ∃ w, w = s.setChannel c fun ch => ch.spareOut line := ⟨_, rfl⟩
      have hfirst : Notes s w c (s.pairWhole (unitOf s.mem.units (64 * line))) := hw ▸ hspare c _ (.inl rfl) s
      have hmem : w.mem = s.mem := by rw [hw]; rfl
      rw [← hw, hmem, pairWhole_notes hfirst]
      refine hfirst.trans ?_
      split
      case isTrue hpaired => exact .trans (hspare (partnerOf c) _ (.inr ⟨rfl, hpaired⟩) w) (notes_tell ..)
      case isFalse => exact notes_tell ..
    · exact .refl s c _
  · exact notes_setChannel (f := fun ch => { ch with erred := ch.erred ++ [(s.channel c).home line] }) (.inl rfl) (fun _ => rfl) (fun _ => rfl)
      (fun _ => rfl) (fun _ => rfl) s

/-! ### A correction -/

/-- A corrected line: it is counted on its channel, and only noted beyond that. -/
theorem correctLine_counts (s : State) (c line : Nat) (wrong : List Nat) : ∃ w, w = s.setChannel c (fun ch => { ch with corr := (ch.corr + 1) % 2 ^ 64 })
    ∧ Notes w (s.correctLine c line wrong) c (s.pairWhole (unitOf s.mem.units (64 * line))) := by
  obtain ⟨w, hw⟩ : ∃ w, w = s.setChannel c (fun ch => { ch with corr := (ch.corr + 1) % 2 ^ 64 }) := ⟨_, rfl⟩
  obtain ⟨y, hy⟩ : ∃ y, y = w.corrected (sourceOf 2 c) 2 (localAddr s.mem.units (64 * line)) := ⟨_, rfl⟩
  obtain ⟨z, hz⟩ : ∃ z, z = (wrong.map (· / 8)).eraseDups.foldl (fun s' d => s'.noteDevice c line (s.lineAt c line) d) y := ⟨_, rfl⟩
  have hwy (paired : Bool) : Notes w y c paired := hy ▸ notes_corrected w _ _ _ c paired
  have hyz (paired : Bool) : Notes y z c paired := hz ▸ .foldl (fun s d => notes_noteDevice s c line _ d paired) _ y
  have hwhole : z.pairWhole (unitOf s.mem.units (64 * line)) = s.pairWhole (unitOf s.mem.units (64 * line)) := by
    rw [pairWhole_notes ((hwy false).trans (hyz false))]
    have hstate := field_setChannel (g := Channel.state) (f := fun ch => { ch with corr := (ch.corr + 1) % 2 ^ 64 }) (fun _ => rfl) s c
    rw [← hw] at hstate
    exact pairWhole_congr (by rw [hw]; rfl) (by rw [hw]; rfl) hstate _
  have hmem : z.mem = s.mem := by
    obtain ⟨_, _, _, _, _, _, _, h⟩ := ((hwy false).trans (hyz false)).moves
    rw [h, hw]
    rfl
  have herred := notes_noteErred z c line
  rw [hmem, hwhole] at herred
  have hcorrect : s.correctLine c line wrong = z.noteErred c line := by
    rw [hz, hy, hw]
    rfl
  rw [hcorrect]
  exact ⟨w, hw, ((hwy _).trans (hyz _)).trans herred⟩
end

/-! ### One read -/

theorem partnerOf_ne (c : Nat) : partnerOf c ≠ c := by
  unfold partnerOf
  split
  · omega
  · omega

/-- Channel c has failed a line. -/
theorem failLine_counts {s : State} {c : Nat} (hc : c < s.dram.channels.length) : (s.failLine c).channel c = { s.channel c with
    uncorr := ((s.channel c).uncorr + 1) % 2 ^ 32, failures := (s.cnt.stitch :: (s.channel c).failures).take 4 } :=
  State.channel_setChannel_same hc _

theorem failLine_ne {s : State} {c d : Nat} (hd : d ≠ c) : (s.failLine c).channel d = s.channel d := State.channel_setChannel_ne hd s _

section
variable {s : State} {c line : Nat} {e : LineError}

theorem readLine_clean (hclean : e.here = []) : s.readLine c line e = s := by
  unfold State.readLine
  dsimp only
  rw [if_pos (by simp [hclean])]

section
variable (hvalid : s.mem.valid.contains line = true) (hpoison : s.mem.linePoisoned line = false) (hhere : e.here ≠ [])
include hvalid hpoison hhere

theorem readLine_corrects (hreads : s.readable c line e.here = true) : s.readLine c line e = s.correctLine c line e.here := by
  unfold State.readLine
  dsimp only
  rw [if_neg (by simpa [hpoison, hhere] using hvalid), if_pos hreads]

/-- A line that the partner's copy mends. -/
theorem readLine_mends (hreads : s.readable c line e.here = false) (hpaired : s.pairWhole (unitOf s.mem.units (64 * line)) = true)
    (hpartner : (s.failLine c).readable (partnerOf c) line e.partner = true) :
    s.readLine c line e = ((if e.partner.isEmpty then s.failLine c else (s.failLine c).correctLine (partnerOf c) line e.partner).setChannel c
      fun ch => { ch with corr := (ch.corr + 1) % 2 ^ 64 }).corrected (sourceOf 2 c) 2 (localAddr s.mem.units (64 * line)) := by
  unfold State.readLine
  dsimp only
  rw [if_neg (by simpa [hpoison, hhere] using hvalid), if_neg (by simp [hreads])]
  exact if_pos (by rw [hpaired, Bool.true_and]; exact hpartner)

/-- A line that becomes poison. -/
theorem readLine_poisons (hreads : s.readable c line e.here = false)
    (hfails : s.pairWhole (unitOf s.mem.units (64 * line)) = false ∨ (s.failLine c).readable (partnerOf c) line e.partner = false) :
    s.readLine c line e = ((((if s.pairWhole (unitOf s.mem.units (64 * line)) = true then (s.failLine c).failLine (partnerOf c) else s.failLine c).store
      (.poison line)).event 1 3 (sourceOf 2 c) none (zeroBytes 8 ++ toBytesLE 8 c)).logFault 7 (sourceOf 2 c) none
        (localAddr s.mem.units (64 * line))) := by
  unfold State.readLine
  dsimp only
  rw [if_neg (by simpa [hpoison, hhere] using hvalid), if_neg (by simp [hreads])]
  refine if_neg ?_
  rcases hfails with h | h
  · rw [h]
    simp
  · rw [Bool.and_eq_true]
    exact fun hboth => absurd (hboth.2.symm.trans h) (by decide)
end

/-! ### Losses that a read declares -/

theorem readOrLose_quiet {t : State} (ht : s.readLine c line e = t) (h : ∀ d, (t.channel d).uncorr = (s.channel d).uncorr) :
    s.readOrLose c line e = t := by
  unfold State.readOrLose
  rw [ht]
  dsimp only
  rw [if_neg (by simp [h]), if_neg (by simp [h])]

theorem checkLoss_few {t : State} {d : Nat} (h : (t.channel d).failures.length ≤ 3) : t.checkLoss d = t := by
  have hnone : (t.channel d).failures[3]? = none := List.getElem?_eq_none (by omega)
  rw [State.checkLoss, hnone]

theorem readOrLose_few {t : State} (ht : s.readLine c line e = t) (hc : (t.channel c).failures.length ≤ 3)
    (hother : (t.channel (partnerOf c)).failures.length ≤ 3) : s.readOrLose c line e = t := by
  unfold State.readOrLose
  rw [ht]
  dsimp only
  rw [checkLoss_few hc, ite_self]
  exact (congrArg (ite _ · t) (checkLoss_few hother)).trans (ite_self _)

/-- The fourth failure within a second declares the channel lost. -/
theorem readOrLose_loses {t : State} {first : Nat} (ht : s.readLine c line e = t) (hc : (t.channel c).uncorr ≠ (s.channel c).uncorr)
    (hother : (t.channel (partnerOf c)).uncorr = (s.channel (partnerOf c)).uncorr) (hfirst : (t.channel c).failures[3]? = some first)
    (hsoon : t.cnt.stitch ≤ first + 10 ^ 8) : s.readOrLose c line e = t.loseChannel c := by
  unfold State.readOrLose
  rw [ht]
  dsimp only
  have hlose : t.checkLoss c = t.loseChannel c := by
    rw [State.checkLoss, hfirst]
    exact if_pos hsoon
  refine (if_neg ?_).trans ((if_pos ?_).trans hlose)
  · rw [bne_iff_ne]
    exact fun h => h hother
  · rw [bne_iff_ne]
    exact hc
end

/-! ### DRAM_READ -/

theorem wakeChannels_awake {s : State} (h : ∀ d, (s.channel d).state ≠ 3) : s.wakeChannels = s := by
  have hfold : ∀ cs : List Nat, cs.foldl (fun s c =>
      if (s.channel c).state = 3 then
        (s.setChannel c fun ch => { ch with state := 2 }).setDomain (98 + c) fun d => { d with state := 2, wakes := (d.wakes + 1) % 2 ^ 32 }
      else s) s = s := by
    intro cs
    induction cs with
    | nil => rfl
    | cons c cs ih => rw [List.foldl_cons, if_neg (h c), ih]
  exact hfold _

theorem dramRead_lands {s t : State} {a : Nat} {e : LineError} (hlive : s.live = true) (hin : s.inDram a = true)
    (hawake : ∀ d, (s.channel d).state ≠ 3)
    (ht : ({ s with ops := [] } : State).readOrLose (s.servingChannel (unitOf s.mem.units a)) (a / 64) e = t) :
    exec (.dramRead a e) s = .next (s.run fun _ => t) := by
  refine exec_lands_live rfl hlive ?_
  have hin' : ({ s with ops := [] } : State).inDram a = true := hin
  have hawake' : ∀ d, (({ s with ops := [] } : State).channel d).state ≠ 3 := hawake
  dsimp only
  rw [if_pos hin', wakeChannels_awake hawake']
  exact ht

theorem mem_held_holdEvent_code {e : Event} (hcode : e.code ≠ 1) (s : State) :
    e ∈ (s.holdEvent e).host.held ∨ 4096 ≤ (s.holdEvent e).host.held.length := by
  by_cases hroom : s.host.held.length < 4096
  · exact .inl (by simp [State.holdEvent, hroom])
  · exact .inr (by simpa [State.holdEvent, hroom, hcode] using Nat.le_of_not_lt hroom)

theorem out_prefix_logFault (s : State) (kind source : Nat) (queue : Option Nat) (place : Nat) :
    s.out <+: (s.logFault kind source queue place).out := by
  unfold State.logFault
  dsimp only
  split
  · rw [State.occasions_out]
    refine List.IsPrefix.trans ?_ (out_prefix_alert _ _)
    exact List.prefix_rfl
  · exact List.prefix_rfl

/-- The record and the entry that a failure brings. -/
theorem raised_failure {s y : State} (hy : s.host.evtSeq ≤ y.host.evtSeq) (cls : Nat) {code : Nat} (hcode : code ≠ 1) (source : Nat)
    (detail : List Byte) (kind place : Nat) :
    raised s ((y.event cls code source none detail).logFault kind source none place) cls code source := by
  have hraised : raised y (y.event cls code source none detail) cls code source := by
    let e := y.eventRecord cls code source none detail
    refine ⟨e, rfl, rfl, rfl, le_rfl, ?seq, ?delivered⟩
    case seq => simp [e, State.eventRecord]
    case delivered =>
      rw [State.event_eq]
      split
      case isTrue hready => exact .inr (.inl (mem_out_ringWrite (s := y.numbered) (Bool.and_eq_true_iff.mp hready).2 e))
      case isFalse => exact (mem_held_holdEvent_code (e := e) hcode _).imp_right .inr
  refine raised_widen hraised hy (State.logFault_host ..) ?_
  exact out_prefix_logFault ..

end Sys2Proof.Machine
end

section
/-! SUPPORT. Reads, scrub, refresh and self-refresh. -/

namespace Sys2Proof.Machine

theorem unitOf_line (units a : Nat) : unitOf units (64 * (a / 64)) = unitOf units a := by
  have hgroup : 64 * (a / 64) / 256 = a / 256 := by omega
  unfold unitOf
  dsimp only
  rw [hgroup]

/-! ### Reads -/

section
variable {s : State} {a c : Nat} {err : LineError} (hlive : s.live = true) (hlen : s.dram.channels.length = 8) (hin : s.inDram a = true)
  (hawake : ∀ d, (s.channel d).state ≠ 3) (hserves : s.servingChannel (unitOf s.mem.units a) = c)
include hlive hin hawake hserves

theorem dramRead_clean : ∃ t, exec (.dramRead a .clean) s = .next t ∧ t.mem = s.mem ∧ t.dram = s.dram ∧ t.log = s.log := by
  obtain ⟨o, ho⟩ : ∃ o : State, o = { s with ops := [] } := ⟨_, rfl⟩
  have hlands : exec (.dramRead a .clean) s = .next (s.run fun _ => o) := by
    refine dramRead_lands hlive hin hawake ?_
    rw [hserves, ← ho]
    exact readOrLose_quiet (readLine_clean rfl) fun _ => rfl
  refine ⟨_, hlands, run_mem_of_no_ops (by rw [ho]), ?_, ?_⟩
  · rw [State.run_dram, ho]
  · rw [State.run_log, ho]

section
variable (hc : c < 8) (hvalid : s.mem.valid.contains (a / 64) = true) (hpoison : s.mem.linePoisoned (a / 64) = false) (hhere : err.here ≠ [])
include hlen hc hvalid hpoison hhere

theorem dramRead_corrects (hreads : s.readable c (a / 64) err.here = true) : ∃ t, exec (.dramRead a err) s = .next t ∧ t.mem = s.mem
    ∧ (t.channel c).corr = ((s.channel c).corr + 1) % 2 ^ 64 ∧ (t.channel c).uncorr = (s.channel c).uncorr
    ∧ ∀ d, d ≠ c → d ≠ partnerOf c ∨ s.pairWhole (unitOf s.mem.units a) = false → t.channel d = s.channel d := by
  obtain ⟨o, ho⟩ : ∃ o : State, o = { s with ops := [] } := ⟨_, rfl⟩
  have hochannel : ∀ d, o.channel d = s.channel d := fun d => by rw [ho]; rfl
  obtain ⟨w, hw, hnotes⟩ := correctLine_counts o c (a / 64) err.here
  obtain ⟨t, ht⟩ : ∃ t, t = o.correctLine c (a / 64) err.here := ⟨_, rfl⟩
  rw [← ht] at hnotes
  have hread : o.readLine c (a / 64) err = t := by
    rw [ht]
    exact readLine_corrects (by rw [ho]; exact hvalid) (by rw [ho]; exact hpoison) hhere (by rw [ho]; exact hreads)
  have hwc : w.channel c = { s.channel c with corr := ((s.channel c).corr + 1) % 2 ^ 64 } := by
    rw [hw, State.channel_setChannel_same (by rw [ho]; show c < s.dram.channels.length; omega), hochannel]
  have hwuncorr : ∀ d, (w.channel d).uncorr = (s.channel d).uncorr := fun d => by
    rw [hw, ← hochannel]
    exact field_setChannel (g := Channel.uncorr) (by exact fun _ => rfl) o c d
  have hlands : exec (.dramRead a err) s = .next (s.run fun _ => t) := by
    refine dramRead_lands hlive hin hawake ?_
    rw [hserves, ← ho]
    exact readOrLose_quiet hread fun d => by rw [hnotes.uncorr, hwuncorr, hochannel]
  have hpaired : o.pairWhole (unitOf o.mem.units (64 * (a / 64))) = s.pairWhole (unitOf s.mem.units a) := by
    rw [unitOf_line, ho]
    rfl
  rw [hpaired] at hnotes
  refine ⟨_, hlands, run_mem_of_no_ops ?_, ?_, ?_, fun d hd hother => ?_⟩
  · obtain ⟨_, _, _, _, _, _, _, h⟩ := hnotes.moves
    rw [h, hw, ho]
    rfl
  · rw [State.run_channel, hnotes.corr, hwc]
  · rw [State.run_channel, hnotes.uncorr, hwuncorr]
  · rw [State.run_channel, hnotes.other d hd hother, hw, State.channel_setChannel_ne hd, hochannel]

section
variable (hfails : s.readable c (a / 64) err.here = false)
include hfails

theorem dramRead_mends (hfew : (s.channel c).failures.length < 3) (hfew' : (s.channel (partnerOf c)).failures.length < 3)
    (hpaired : s.pairWhole (unitOf s.mem.units a) = true) (hpartner : s.readable (partnerOf c) (a / 64) err.partner = true) :
    ∃ t, exec (.dramRead a err) s = .next t ∧ t.mem = s.mem ∧ (t.channel c).corr = ((s.channel c).corr + 1) % 2 ^ 64
      ∧ (err.partner = [] → t.log = s.log) := by
  obtain ⟨o, ho⟩ : ∃ o : State, o = { s with ops := [] } := ⟨_, rfl⟩
  have hochannel : ∀ d, o.channel d = s.channel d := fun d => by rw [ho]; rfl
  obtain ⟨x, hx⟩ : ∃ x, x = o.failLine c := ⟨_, rfl⟩
  have hxc : x.channel c = { s.channel c with
      uncorr := ((s.channel c).uncorr + 1) % 2 ^ 32, failures := (o.cnt.stitch :: (s.channel c).failures).take 4 } := by
    rw [hx, failLine_counts (by rw [ho]; show c < s.dram.channels.length; omega), hochannel]
  have hxother : x.channel (partnerOf c) = s.channel (partnerOf c) := by rw [hx, failLine_ne (partnerOf_ne c), hochannel]
  obtain ⟨y, hy⟩ : ∃ y, y = if err.partner.isEmpty then x else x.correctLine (partnerOf c) (a / 64) err.partner := ⟨_, rfl⟩
  have hyx : (y.channel c).corr = (x.channel c).corr ∧ (∀ d, (y.channel d).failures = (x.channel d).failures) ∧ y.ops = x.ops
      ∧ y.dram.channels.length = x.dram.channels.length ∧ (err.partner = [] → y = x) := by
    rw [hy]
    split
    case isTrue => exact ⟨rfl, fun _ => rfl, rfl, rfl, fun _ => rfl⟩
    case isFalse hne =>
      obtain ⟨w, hw, hnotes⟩ := correctLine_counts x (partnerOf c) (a / 64) err.partner
      refine ⟨?_, fun d => ?_, ?_, ?_, fun h => absurd (by rw [h]; rfl) hne⟩
      · rw [hnotes.corr, hw, State.channel_setChannel_ne (Ne.symm (partnerOf_ne c))]
      · rw [hnotes.failures, hw]
        exact field_setChannel (g := Channel.failures) (by exact fun _ => rfl) x (partnerOf c) d
      · obtain ⟨_, _, _, _, _, _, _, h⟩ := hnotes.moves
        rw [h, hw]
        rfl
      · rw [hnotes.length, hw]
        exact length_modifyAt ..
  obtain ⟨hycorr, hyfailures, hyops, hylen, hyempty⟩ := hyx
  obtain ⟨z, hz⟩ : ∃ z, z = y.setChannel c fun ch => { ch with corr := (ch.corr + 1) % 2 ^ 64 } := ⟨_, rfl⟩
  obtain ⟨t, ht⟩ : ∃ t, t = z.corrected (sourceOf 2 c) 2 (localAddr o.mem.units (64 * (a / 64))) := ⟨_, rfl⟩
  obtain ⟨hzt, htdram, htlog⟩ := reports_corrected z (sourceOf 2 c) 2 (localAddr o.mem.units (64 * (a / 64)))
  rw [← ht] at hzt htdram htlog
  have htchannel : ∀ d, t.channel d = z.channel d := fun d => by rw [State.channel, htdram]; rfl
  have hxlen : x.dram.channels.length = 8 := by
    rw [hx, ho, ← hlen]
    exact length_modifyAt ..
  have hread : o.readLine c (a / 64) err = t := by
    rw [ht, hz, hy, hx]
    refine readLine_mends (by rw [ho]; exact hvalid) (by rw [ho]; exact hpoison) hhere (by rw [ho]; exact hfails) ?_ ?_
    · rw [unitOf_line, ho]
      exact hpaired
    · rw [← hx, State.readable, hxother]
      have hline : x.lineAt (partnerOf c) (a / 64) = s.lineAt (partnerOf c) (a / 64) := by
        rw [State.lineAt, hxother, hx, ho]
        rfl
      rw [hline]
      exact hpartner
  have htfailures : ∀ d, (t.channel d).failures = (x.channel d).failures := fun d => by
    rw [htchannel, hz, field_setChannel (g := Channel.failures) (f := fun ch => { ch with corr := (ch.corr + 1) % 2 ^ 64 }) (fun _ => rfl) y c d,
      hyfailures]
  have hlands : exec (.dramRead a err) s = .next (s.run fun _ => t) := by
    refine dramRead_lands hlive hin hawake ?_
    rw [hserves, ← ho]
    refine readOrLose_few hread ?_ ?_
    · rw [htfailures, hxc, List.length_take, List.length_cons]
      omega
    · rw [htfailures, hxother]
      omega
  refine ⟨_, hlands, run_mem_of_no_ops ?_, ?_, fun hempty => ?_⟩
  · rw [hzt.ops, hz]
    show y.ops = []
    rw [hyops, hx, ho]
    rfl
  · rw [State.run_channel, htchannel, hz, State.channel_setChannel_same (by rw [hylen, hxlen]; exact hc), hycorr, hxc]
  · rw [State.run_log, htlog, hz]
    show y.log = s.log
    rw [hyempty hempty, hx, ho]
    rfl

omit hlive hin hawake in
/-- What a line that becomes poison leaves, before losses are looked for. -/
theorem readLine_poisons_leaves {o : State} (ho : o = { s with ops := [] })
    (hboth : s.pairWhole (unitOf s.mem.units a) = false ∨ s.readable (partnerOf c) (a / 64) err.partner = false) :
    ∃ t, o.readLine c (a / 64) err = t ∧ t.ops = [.poison (a / 64)] ∧ t.dram.channels.length = 8 ∧ t.dram.map = s.dram.map
      ∧ t.dram.mirrored = s.dram.mirrored ∧ t.cnt.stitch = s.cnt.stitch
      ∧ t.channel c = { s.channel c with
          uncorr := ((s.channel c).uncorr + 1) % 2 ^ 32, failures := (s.cnt.stitch :: (s.channel c).failures).take 4 }
      ∧ (t.channel (partnerOf c)).failures.length ≤ (s.channel (partnerOf c)).failures.length + 1
      ∧ (s.pairWhole (unitOf s.mem.units a) = false → t.channel (partnerOf c) = s.channel (partnerOf c))
      ∧ t.log.appended = s.log.appended + 1 ∧ raised s t 1 3 (sourceOf 2 c) := by
  have hochannel : ∀ d, o.channel d = s.channel d := fun d => by rw [ho]; rfl
  have holen : o.dram.channels.length = 8 := by rw [ho]; exact hlen
  obtain ⟨x, hx⟩ : ∃ x, x = o.failLine c := ⟨_, rfl⟩
  have hxc : x.channel c = { s.channel c with
      uncorr := ((s.channel c).uncorr + 1) % 2 ^ 32, failures := (s.cnt.stitch :: (s.channel c).failures).take 4 } := by
    rw [hx, failLine_counts (by omega), hochannel, ho]
  have hxother : x.channel (partnerOf c) = s.channel (partnerOf c) := by rw [hx, failLine_ne (partnerOf_ne c), hochannel]
  have hwhole : o.pairWhole (unitOf o.mem.units (64 * (a / 64))) = s.pairWhole (unitOf s.mem.units a) := by
    rw [unitOf_line, ho]
    rfl
  obtain ⟨y, hy⟩ : ∃ y, y = if s.pairWhole (unitOf s.mem.units a) = true then x.failLine (partnerOf c) else x := ⟨_, rfl⟩
  obtain ⟨channels, hychannels, hyeq⟩ : ∃ channels, channels.length = 8 ∧ y = { o with dram := { o.dram with channels := channels } } := by
    rw [hy, hx]
    split
    · refine ⟨_, ?_, rfl⟩
      rw [← holen]
      exact (length_modifyAt ..).trans (length_modifyAt ..)
    · refine ⟨_, ?_, rfl⟩
      rw [← holen]
      exact length_modifyAt ..
  have hyc : y.channel c = x.channel c := by
    rw [hy]
    split
    · exact failLine_ne (Ne.symm (partnerOf_ne c))
    · rfl
  have hyother : (y.channel (partnerOf c)).failures.length ≤ (s.channel (partnerOf c)).failures.length + 1 := by
    rw [hy]
    split
    · have hxlen : x.dram.channels.length = 8 := by
        rw [hx, ← holen]
        exact length_modifyAt ..
      rw [failLine_counts (by rw [hxlen]; unfold partnerOf; split <;> omega), hxother, List.length_take, List.length_cons]
      omega
    · rw [hxother]
      omega
  obtain ⟨z, hz⟩ : ∃ z, z = y.store (.poison (a / 64)) := ⟨_, rfl⟩
  obtain ⟨v, hv⟩ : ∃ v, v = z.event 1 3 (sourceOf 2 c) none (zeroBytes 8 ++ toBytesLE 8 c) := ⟨_, rfl⟩
  obtain ⟨t, ht⟩ : ∃ t, t = v.logFault 7 (sourceOf 2 c) none (localAddr o.mem.units (64 * (a / 64))) := ⟨_, rfl⟩
  have hread : o.readLine c (a / 64) err = t := by
    have hlost : o.pairWhole (unitOf o.mem.units (64 * (a / 64))) = false
        ∨ (o.failLine c).readable (partnerOf c) (a / 64) err.partner = false := by
      rw [hwhole]
      refine hboth.imp_right fun h => ?_
      have hline : x.lineAt (partnerOf c) (a / 64) = s.lineAt (partnerOf c) (a / 64) := by
        rw [State.lineAt, hxother, hx, ho]
        rfl
      rw [← hx, State.readable, hxother, hline]
      exact h
    rw [readLine_poisons (by rw [ho]; exact hvalid) (by rw [ho]; exact hpoison) hhere (by rw [ho]; exact hfails) hlost, hwhole, ← hx, ← hy, ← hz,
      ← hv, ← ht]
  have htdram : t.dram = y.dram := by rw [ht, State.logFault_dram, hv, State.event_dram, hz]; rfl
  have htchannel : ∀ d, t.channel d = y.channel d := fun d => by rw [State.channel, htdram]; rfl
  refine ⟨t, hread, ?_, ?_, ?_, ?_, ?_, ?_, ?_, fun hunpaired => ?_, ?_, ?_⟩
  · rw [ht, State.logFault_ops, hv, State.event_ops, hz, hyeq, ho]
    rfl
  · rw [htdram, hyeq]
    exact hychannels
  · rw [htdram, hyeq, ho]
  · rw [htdram, hyeq, ho]
  · rw [ht, State.logFault_cnt, hv, State.event_cnt, hz, hyeq, ho]
    rfl
  · rw [htchannel, hyc, hxc]
  · rw [htchannel]
    exact hyother
  · rw [htchannel, hy, if_neg (by simp [hunpaired]), hxother]
  · rw [ht, State.logFault_appended, hv, State.event_log, hz, hyeq, ho]
    rfl
  · rw [ht, hv]
    refine raised_failure ?_ 1 (by decide) _ _ 7 _
    rw [hz, hyeq, ho]
    exact le_rfl

theorem dramRead_poisons (hfew : (s.channel c).failures.length < 3) (hfew' : (s.channel (partnerOf c)).failures.length < 3)
    (hboth : s.pairWhole (unitOf s.mem.units a) = false ∨ s.readable (partnerOf c) (a / 64) err.partner = false) :
    ∃ t, exec (.dramRead a err) s = .next t ∧ t.mem = s.mem.poisonLine (a / 64)
      ∧ (t.channel c).uncorr = ((s.channel c).uncorr + 1) % 2 ^ 32 ∧ t.log.appended = s.log.appended + 1 ∧ raised s t 1 3 (sourceOf 2 c) := by
  obtain ⟨o, ho⟩ : ∃ o : State, o = { s with ops := [] } := ⟨_, rfl⟩
  obtain ⟨t, hread, hops, -, -, -, -, hchannel, hother, -, hlog, hraised⟩ :=
    readLine_poisons_leaves hlen hserves hc hvalid hpoison hhere hfails ho hboth
  have hlands : exec (.dramRead a err) s = .next (s.run fun _ => t) := by
    refine dramRead_lands hlive hin hawake ?_
    rw [hserves, ← ho]
    refine readOrLose_few hread ?_ (by omega)
    rw [hchannel, List.length_take, List.length_cons]
    omega
  refine ⟨_, hlands, run_mem_one hops, ?_, ?_, ?_⟩
  · rw [State.run_channel, hchannel]
  · rw [State.run_log]
    exact hlog
  · exact raised_widen hraised le_rfl (State.run_host ..) (State.run_out s (fun _ => t) ▸ List.prefix_rfl)

theorem dramRead_loses {x y first u : Nat} (hmirrored : s.dram.mirrored = false) (hstate : (s.channel c).state = 2)
    (hfailures : (s.channel c).failures = [x, y, first]) (hsoon : s.cnt.stitch ≤ first + 10 ^ 8)
    (hu : s.dram.map.findIdx? (fun e => e == c) = some u) :
    ∃ t, exec (.dramRead a err) s = .next t ∧ (t.channel c).state = 4 ∧ (t.channel c).cause = 4 ∧ u ∈ t.mem.lost := by
  obtain ⟨o, ho⟩ : ∃ o : State, o = { s with ops := [] } := ⟨_, rfl⟩
  have hunpaired : s.pairWhole (unitOf s.mem.units a) = false := by simp [State.pairWhole, hmirrored]
  obtain ⟨t, hread, hops, htlen, htmap, htmirrored, hstitch, hchannel, -, hother, -, -⟩ :=
    readLine_poisons_leaves hlen hserves hc hvalid hpoison hhere hfails ho (.inl hunpaired)
  have hlands : exec (.dramRead a err) s = .next (s.run fun _ => t.loseChannel c) := by
    refine dramRead_lands hlive hin hawake ?_
    rw [hserves, ← ho]
    refine readOrLose_loses (first := first) hread ?_ ?_ ?_ (by rw [hstitch]; exact hsoon)
    · have hcounts : (t.channel c).uncorr = ((s.channel c).uncorr + 1) % 2 ^ 32 := by rw [hchannel]
      have hsame : o.channel c = s.channel c := by rw [ho]; rfl
      rw [hcounts, hsame]
      omega
    · rw [hother hunpaired, ho]
      rfl
    · rw [hchannel, hfailures]
      rfl
  obtain ⟨w, -, hlose, hwchannel, hwops, -, -, -⟩ := loseChannel_alone (s := t) (c := c) (u := u) (by omega) (by rw [hchannel]; exact hstate)
    (htmirrored.trans hmirrored) (by rw [htmap]; exact hu)
  obtain ⟨hc', hlost⟩ := loseDram_leaves (s := s) (w := w) (c := c) (by rw [hwchannel]; simp) hwops
  refine ⟨_, hlands, ?_, ?_, ?_⟩
  · rw [State.run_channel, hlose, hc', hwchannel]
  · rw [State.run_channel, hlose, hc', hwchannel]
  · rw [hlose]
    exact hlost
end
end
end

/-! ### Scrub, refresh, temperature -/

section
variable {s : State} {c : Nat} (hlive : s.live = true) (hlen : s.dram.channels.length = 8) (hc : c < 8) (hstate : (s.channel c).state = 2)
include hlive hlen hc hstate

omit hlive hstate in
/-- A command that moves one channel, and no DRAM. -/
theorem channel_lands {i : Instr} {f : Channel → Channel} (hexec : exec i s = .next (s.run fun _ => ({ s with ops := [] } : State).setChannel c f)) :
    ∃ t, exec i s = .next t ∧ t.channel c = f (s.channel c) ∧ (∀ d, d ≠ c → t.channel d = s.channel d) ∧ t.mem = s.mem ∧ t.grid = s.grid := by
  obtain ⟨o, ho⟩ : ∃ o : State, o = { s with ops := [] } := ⟨_, rfl⟩
  have hochannel : ∀ d, o.channel d = s.channel d := fun d => by rw [ho]; rfl
  rw [← ho] at hexec
  refine ⟨_, hexec, ?_, fun d hd => ?_, run_mem_of_no_ops ?_, ?_⟩
  · rw [State.run_channel, State.channel_setChannel_same (by rw [ho]; show c < s.dram.channels.length; omega), hochannel]
  · rw [State.run_channel, State.channel_setChannel_ne hd, hochannel]
  · rw [ho]
    rfl
  · rw [State.run_grid, ho]
    rfl

theorem refresh_refreshes (b : Nat) : ∃ t, exec (.refresh c b) s = .next t ∧ t.channel c = { s.channel c with bank := b }
    ∧ (∀ d, d ≠ c → t.channel d = s.channel d) ∧ t.mem = s.mem ∧ t.grid = s.grid :=
  channel_lands hlen hc (f := fun ch => { ch with bank := b }) (exec_lands_live rfl hlive (if_pos hstate))

theorem mr4Poll_reads (hot : Bool) : ∃ t, exec (.mr4Poll c hot) s = .next t ∧ t.channel c = { s.channel c with hot := hot }
    ∧ (∀ d, d ≠ c → t.channel d = s.channel d) ∧ t.mem = s.mem ∧ t.grid = s.grid :=
  channel_lands hlen hc (f := fun ch => { ch with hot := hot }) (exec_lands_live rfl hlive (if_pos hstate))

omit hlive hlen hc hstate in
theorem readOrLose_clean (w : State) (c line : Nat) : w.readOrLose c line .clean = w := readOrLose_quiet (readLine_clean rfl) fun _ => rfl

/-- The channel as a visit leaves it. -/
def Channel.visited (ch : Channel) (line : Nat) (last : Bool) : Channel :=
  if last then { ch with scrubPos := 0, scrubAt := none, passes := (ch.passes + 1) % 2 ^ 32 }
  else { ch with scrubPos := ch.scrubPos + 1, scrubAt := some line }

variable (hperiod : 0 < (s.channel c).period) (hunits : 0 < s.mem.units)
include hperiod hunits

theorem scrubRead_visits {line : Nat} {more : List Nat}
    (hleft : (s.channelLines c).filter (fun x => match (s.channel c).scrubAt with | none => true | some l => decide (l < x)) = line :: more) :
    ∃ t, exec (.scrubRead c .clean) s = .next t ∧ t.channel c = (s.channel c).visited line more.isEmpty
      ∧ (∀ d, d ≠ c → t.channel d = s.channel d) ∧ t.mem = s.mem := by
  obtain ⟨o, ho⟩ : ∃ o : State, o = { s with ops := [] } := ⟨_, rfl⟩
  have holines : o.channelLines c = s.channelLines c := by rw [ho]; rfl
  have hochannel : ∀ d, o.channel d = s.channel d := fun d => by rw [ho]; rfl
  have hounits : 0 < o.mem.units := by rw [ho]; exact hunits
  obtain ⟨w, hw⟩ : ∃ w, w = o.setChannel c fun ch => { ch with scrubPos := ch.scrubPos + 1, scrubAt := some line } := ⟨_, rfl⟩
  obtain ⟨t, ht⟩ : ∃ t, t = if more.isEmpty then w.endPass c else w := ⟨_, rfl⟩
  have holen : c < o.dram.channels.length := by rw [ho]; show c < s.dram.channels.length; omega
  have hwlen : c < w.dram.channels.length := by
    rw [hw]
    exact (length_modifyAt ..).symm ▸ holen
  have hlands : exec (.scrubRead c .clean) s = .next (s.run fun _ => t) := by
    refine exec_lands_live rfl hlive ?_
    rw [← ho]
    dsimp only
    rw [hochannel, if_pos ⟨hstate, hperiod, hounits⟩, holines]
    cases hat : (s.channel c).scrubAt with
    | none =>
      rw [hat] at hleft
      have hlines : s.channelLines c = line :: more := by rw [← hleft]; simp
      dsimp only
      rw [hlines]
      dsimp only
      rw [readOrLose_clean, ht, hw]
    | some l =>
      rw [hat] at hleft
      dsimp only at hleft ⊢
      rw [hleft]
      dsimp only
      rw [readOrLose_clean, ht, hw]
  refine ⟨_, hlands, ?_, fun d hd => ?_, run_mem_of_no_ops ?_⟩
  · rw [State.run_channel, ht, Channel.visited]
    split
    · rw [State.endPass, State.channel_setChannel_same hwlen, hw, State.channel_setChannel_same holen, hochannel]
    · rw [hw, State.channel_setChannel_same holen, hochannel]
  · rw [State.run_channel, ht]
    split
    · rw [State.endPass, State.channel_setChannel_ne hd, hw, State.channel_setChannel_ne hd, hochannel]
    · rw [hw, State.channel_setChannel_ne hd, hochannel]
  · rw [ht, hw, ho]
    split
    · rfl
    · rfl

theorem scrubRead_wraps {l line next : Nat} {more : List Nat} (hat : (s.channel c).scrubAt = some l)
    (hlines : s.channelLines c = line :: next :: more) (hpast : ∀ x ∈ s.channelLines c, x ≤ l) :
    ∃ t, exec (.scrubRead c .clean) s = .next t ∧ t.mem = s.mem ∧ (t.channel c).scrubAt = some line ∧ (t.channel c).scrubPos = 1
      ∧ (t.channel c).passes = ((s.channel c).passes + 1) % 2 ^ 32 := by
  obtain ⟨o, ho⟩ : ∃ o : State, o = { s with ops := [] } := ⟨_, rfl⟩
  have holines : o.channelLines c = s.channelLines c := by rw [ho]; rfl
  have hochannel : ∀ d, o.channel d = s.channel d := fun d => by rw [ho]; rfl
  have hounits : 0 < o.mem.units := by rw [ho]; exact hunits
  have holen : c < o.dram.channels.length := by rw [ho]; show c < s.dram.channels.length; omega
  obtain ⟨w, hw⟩ : ∃ w, w = o.endPass c := ⟨_, rfl⟩
  obtain ⟨t, ht⟩ : ∃ t, t = w.setChannel c fun ch => { ch with scrubPos := ch.scrubPos + 1, scrubAt := some line } := ⟨_, rfl⟩
  have hwlen : c < w.dram.channels.length := by
    rw [hw]
    exact (length_modifyAt ..).symm ▸ holen
  have hnone : (s.channelLines c).filter (fun x => decide (l < x)) = [] := by
    rw [List.filter_eq_nil_iff]
    intro x hx
    have := hpast x hx
    simpa using this
  have hlands : exec (.scrubRead c .clean) s = .next (s.run fun _ => t) := by
    refine exec_lands_live rfl hlive ?_
    rw [← ho]
    dsimp only
    rw [hochannel, if_pos ⟨hstate, hperiod, hounits⟩, holines, hat]
    dsimp only
    rw [hnone, hlines]
    dsimp only
    rw [readOrLose_clean, ht, hw]
    rfl
  have hchannel : t.channel c = { s.channel c with scrubPos := 1, scrubAt := some line, passes := ((s.channel c).passes + 1) % 2 ^ 32 } := by
    rw [ht, State.channel_setChannel_same hwlen, hw, State.endPass, State.channel_setChannel_same holen, hochannel]
  refine ⟨_, hlands, run_mem_of_no_ops ?_, ?_, ?_, ?_⟩
  · rw [ht, hw, ho]
    rfl
  · rw [State.run_channel, hchannel]
  · rw [State.run_channel, hchannel]
  · rw [State.run_channel, hchannel]
end

/-! ### Self-refresh -/

/-- Channels of a list that stand in one state take another, each with its power domain. -/
def State.moveChannels (src dst : Nat) (g : Domain → Domain) (cs : List Nat) (s : State) : State :=
  cs.foldl (fun s c => if (s.channel c).state = src then (s.setChannel c fun ch => { ch with state := dst }).setDomain (98 + c) g else s) s

theorem moveChannels_moves {src dst : Nat} (hne : src ≠ dst) (g : Domain → Domain) (cs : List Nat) (s : State) :
    (State.moveChannels src dst g cs s).ops = s.ops
      ∧ (∀ c, (s.channel c).state ≠ src ∨ c ∉ cs → (State.moveChannels src dst g cs s).channel c = s.channel c
          ∧ (State.moveChannels src dst g cs s).domain (98 + c) = s.domain (98 + c))
      ∧ (s.dram.channels.length = 8 → s.pow.domains.length = 116 → ∀ c ∈ cs, c < 8 → (s.channel c).state = src →
          (State.moveChannels src dst g cs s).channel c = { s.channel c with state := dst }
          ∧ (State.moveChannels src dst g cs s).domain (98 + c) = g (s.domain (98 + c))) := by
  induction cs generalizing s with
  | nil => exact ⟨rfl, fun _ _ => ⟨rfl, rfl⟩, fun _ _ _ h => absurd h List.not_mem_nil⟩
  | cons d cs ih =>
    obtain ⟨w, hw⟩ : ∃ w, w = if (s.channel d).state = src then (s.setChannel d fun ch => { ch with state := dst }).setDomain (98 + d) g else s :=
      ⟨_, rfl⟩
    have hfold : State.moveChannels src dst g (d :: cs) s = State.moveChannels src dst g cs w := by rw [hw]; rfl
    obtain ⟨hops, hstay, hmove⟩ := ih w
    have hwops : w.ops = s.ops := by rw [hw]; split <;> rfl
    have hwlen : w.dram.channels.length = s.dram.channels.length ∧ w.pow.domains.length = s.pow.domains.length := by
      rw [hw]
      split
      · exact ⟨length_modifyAt .., length_modifyAt ..⟩
      · exact ⟨rfl, rfl⟩
    have hwne : ∀ c, c ≠ d → w.channel c = s.channel c ∧ w.domain (98 + c) = s.domain (98 + c) := fun c hc => by
      rw [hw]
      split
      · exact ⟨State.channel_setChannel_ne hc s fun ch => { ch with state := dst }, State.domain_setDomain_ne (by omega) _ g⟩
      · exact ⟨rfl, rfl⟩
    have hwskip : (s.channel d).state ≠ src → w = s := fun h => by rw [hw, if_neg h]
    rw [hfold]
    refine ⟨hops.trans hwops, fun c hc => ?_, fun hlen hlen' c hc hc8 hstate => ?_⟩
    · have hcw : w.channel c = s.channel c ∧ w.domain (98 + c) = s.domain (98 + c) := by
        by_cases hcd : c = d
        · have hskip : (s.channel d).state ≠ src := by
            rcases hc with h | h
            · exact hcd ▸ h
            · exact absurd (hcd ▸ List.mem_cons_self) h
          rw [hwskip hskip]
          exact ⟨rfl, rfl⟩
        · exact hwne c hcd
      obtain ⟨hchannel, hdomain⟩ := hstay c (hc.imp (fun h => hcw.1.symm ▸ h) fun h hm => h (List.mem_cons_of_mem _ hm))
      exact ⟨hchannel.trans hcw.1, hdomain.trans hcw.2⟩
    · by_cases hcd : c = d
      · subst hcd
        have hwc : w.channel c = { s.channel c with state := dst } ∧ w.domain (98 + c) = g (s.domain (98 + c)) := by
          rw [hw, if_pos hstate]
          exact ⟨State.channel_setChannel_same (by omega) fun ch => { ch with state := dst }, State.domain_setDomain_same (by
            show 98 + c < s.pow.domains.length
            omega) g⟩
        obtain ⟨hchannel, hdomain⟩ := hstay c (.inl (by rw [hwc.1]; exact Ne.symm hne))
        exact ⟨hchannel.trans hwc.1, hdomain.trans hwc.2⟩
      · obtain ⟨hcw, hdw⟩ := hwne c hcd
        have hmem : c ∈ cs := (List.mem_cons.mp hc).resolve_left hcd
        obtain ⟨hchannel, hdomain⟩ := hmove (hwlen.1.trans hlen) (hwlen.2.trans hlen') c hmem hc8 (by rw [hcw]; exact hstate)
        rw [hchannel, hdomain, hcw, hdw]
        exact ⟨rfl, rfl⟩

section
variable {s : State} (hlive : s.live = true) (hlen : s.dram.channels.length = 8) (hdomains : s.pow.domains.length = 116)
include hlive hlen hdomains

theorem selfRefreshEntry_enters (hidle : s.memoryIdle = true) (hmap : s.dram.map ≠ []) :
    ∃ t, exec .selfRefreshEntry s = .next t ∧ t.mem = s.mem
      ∧ (∀ c ∈ s.dram.members, c < 8 → (s.channel c).state = 2 → (t.channel c).state = 3 ∧ (t.domain (98 + c)).state = 5)
      ∧ ∀ c, c ∉ s.dram.members → t.channel c = s.channel c := by
  obtain ⟨o, ho⟩ : ∃ o : State, o = { s with ops := [] } := ⟨_, rfl⟩
  have hochannel : ∀ d, o.channel d = s.channel d := fun d => by rw [ho]; rfl
  obtain ⟨hops, hstay, hmove⟩ := moveChannels_moves (src := 2) (dst := 3) (by decide) (fun d => { d with state := 5 }) s.dram.members o
  obtain ⟨t, ht⟩ : ∃ t, t = State.moveChannels 2 3 (fun d => { d with state := 5 }) s.dram.members o := ⟨_, rfl⟩
  rw [← ht] at hops hstay hmove
  have hlands : exec .selfRefreshEntry s = .next (s.run fun _ => t) := by
    refine exec_lands_live rfl hlive ?_
    have hidle' : (o.memoryIdle && !o.dram.map.isEmpty) = true := by
      rw [ho]
      show (s.memoryIdle && !s.dram.map.isEmpty) = true
      simp [hidle, hmap]
    rw [← ho, if_pos hidle', ht, ho]
    rfl
  refine ⟨_, hlands, run_mem_of_no_ops (by rw [hops, ho]), fun c hc hc8 hstate => ?_, fun c hc => ?_⟩
  · obtain ⟨hchannel, hdomain⟩ := hmove (by rw [ho]; exact hlen) (by rw [ho]; exact hdomains) c hc hc8 (by rw [hochannel]; exact hstate)
    rw [State.run_channel, State.run_domain, hchannel, hdomain]
    exact ⟨rfl, rfl⟩
  · rw [State.run_channel, (hstay c (.inr hc)).1, hochannel]

theorem selfRefreshExit_exits : ∃ t, exec .selfRefreshExit s = .next t ∧ t.mem = s.mem
    ∧ (∀ c, c < 8 → (s.channel c).state = 3 → (t.channel c).state = 2 ∧ (t.domain (98 + c)).state = 2
      ∧ (t.domain (98 + c)).wakes = ((s.domain (98 + c)).wakes + 1) % 2 ^ 32)
    ∧ ∀ c, (s.channel c).state ≠ 3 → t.channel c = s.channel c := by
  obtain ⟨o, ho⟩ : ∃ o : State, o = { s with ops := [] } := ⟨_, rfl⟩
  have hochannel : ∀ d, o.channel d = s.channel d := fun d => by rw [ho]; rfl
  have hodomain : ∀ d, o.domain d = s.domain d := fun d => by rw [ho]; rfl
  obtain ⟨hops, hstay, hmove⟩ := moveChannels_moves (src := 3) (dst := 2) (by decide)
    (fun d => { d with state := 2, wakes := (d.wakes + 1) % 2 ^ 32 }) (List.range 8) o
  obtain ⟨t, ht⟩ : ∃ t, t = State.moveChannels 3 2 (fun d => { d with state := 2, wakes := (d.wakes + 1) % 2 ^ 32 }) (List.range 8) o := ⟨_, rfl⟩
  rw [← ht] at hops hstay hmove
  have hlands : exec .selfRefreshExit s = .next (s.run fun _ => t) := by
    refine exec_lands_live rfl hlive ?_
    rw [← ho, ht]
    rfl
  refine ⟨_, hlands, run_mem_of_no_ops (by rw [hops, ho]), fun c hc hstate => ?_, fun c hc => ?_⟩
  · obtain ⟨hchannel, hdomain⟩ := hmove (by rw [ho]; exact hlen) (by rw [ho]; exact hdomains) c (List.mem_range.mpr hc) hc
      (by rw [hochannel]; exact hstate)
    rw [State.run_channel, State.run_domain, hchannel, hdomain, hodomain]
    exact ⟨rfl, rfl, rfl⟩
  · rw [State.run_channel, (hstay c (.inl (by rw [hochannel]; exact hc))).1, hochannel]
end

/-- Settles O54: a read by what it finds, the scrub by its place in the pass, and what refresh and self-refresh move. -/
theorem readsScrubAndRefresh : Obligations.ReadsScrubAndRefresh := by
  intro s hlive hlen
  refine ⟨fun a hin hawake => ?_, fun c line more hc hstate hperiod hunits hleft => ?_, fun c l line next more hc hstate hperiod hunits hat hlines hpast =>
    scrubRead_wraps hlive hlen hc hstate hperiod hunits hat hlines hpast, fun c hc hstate => ⟨refresh_refreshes hlive hlen hc hstate,
      mr4Poll_reads hlive hlen hc hstate⟩, fun hidle hmap hdomains => selfRefreshEntry_enters hlive hlen hdomains hidle hmap,
    fun hdomains => selfRefreshExit_exits hlive hlen hdomains⟩
  · refine ⟨dramRead_clean hlive hin hawake rfl, fun hc hvalid hpoison err hhere => ⟨fun hreads => ?_, fun hfails hfew hfew' => ⟨fun hpaired hpartner => ?_,
      fun hboth => ?_⟩, fun x y first u hfails hmirrored hstate hfailures hsoon hu => ?_⟩⟩
    · exact dramRead_corrects hlive hlen hin hawake rfl hc hvalid hpoison hhere hreads
    · exact dramRead_mends hlive hlen hin hawake rfl hc hvalid hpoison hhere hfails hfew hfew' hpaired hpartner
    · exact dramRead_poisons hlive hlen hin hawake rfl hc hvalid hpoison hhere hfails hfew hfew' hboth
    · exact dramRead_loses hlive hlen hin hawake rfl hc hvalid hpoison hhere hfails hmirrored hstate hfailures hsoon hu
  · obtain ⟨t, ht, hchannel, hother, hmem⟩ := scrubRead_visits hlive hlen hc hstate hperiod hunits hleft
    refine ⟨t, ht, hmem, hother, fun hmore => ?_, fun hmore => ?_⟩
    · rw [hchannel, Channel.visited, if_neg (by simpa using hmore)]
      exact ⟨rfl, rfl, rfl⟩
    · rw [hchannel, Channel.visited, if_pos (by simpa using hmore)]
      exact ⟨rfl, rfl, rfl⟩

end Sys2Proof.Machine
end

section
/-! SUPPORT. The dispatch of a RUN: its checks, its record, and the holds of its start. -/

namespace Sys2Proof.Machine

/-! ### The record of a dispatched RUN -/

/-- The state in which the start of a RUN is tried: the record is made, the engines and the task know each other. -/
def State.withRecord (s : State) (ref : TaskRef) (r : Run) : State :=
  let s := { s with grid := { s.grid with runs := s.grid.runs ++ [r] } }
  let s := s.setEngines r.engines fun e => { e with task := some ref, progress := 0 }
  let s := s.reloadEngines r.engines
  s.setTask ref fun t => { t with phase := .running, engines := t.mask }

theorem withRecord_moves (s : State) (ref : TaskRef) (r : Run) : ∃ gs fw tasks, s.withRecord ref r = { s with
      grid := { s.grid with engines := gs, runs := s.grid.runs ++ [r] }, fw := fw, q := { s.q with tasks := tasks } }
    ∧ gs.length = s.grid.engines.length
    ∧ (s.grid.engines.length = 8 → ∀ k ∈ r.engines, (gs.getD k .reset).task = some ref)
    ∧ tasks = modifyIf (fun t => t.ref == ref) (fun t => { t with phase := .running, engines := t.mask }) s.q.tasks := by
  obtain ⟨w, hw⟩ : ∃ w : State, w = { s with grid := { s.grid with runs := s.grid.runs ++ [r] } } := ⟨_, rfl⟩
  obtain ⟨y, hy⟩ : ∃ y, y = w.setEngines r.engines fun e : Engine => { e with task := some ref, progress := 0 } := ⟨_, rfl⟩
  obtain ⟨gs, hgs⟩ : ∃ gs, y = { w with grid := { w.grid with engines := gs } } := ⟨_, hy.trans (State.setEngines_eq ..)⟩
  obtain ⟨fw, hfw⟩ := State.reloadEngines_eq y r.engines
  have hlen : gs.length = s.grid.engines.length := by
    have h : y.grid.engines.length = w.grid.engines.length := hy ▸ State.length_setEngines ..
    rw [hgs, hw] at h
    exact h
  have hengine : s.grid.engines.length = 8 → ∀ k ∈ r.engines, (gs.getD k .reset).task = some ref := fun h8 k hk => by
    have h : (y.engine k).task = some ref := by
      rw [hy, State.engine_setEngines_same (by rw [hw]; exact h8) _ hk]
    rw [hgs] at h
    exact h
  unfold State.withRecord
  dsimp only
  rw [← hw, ← hy, hfw, hgs, hw]
  exact ⟨gs, fw, _, rfl, hlen, hengine, rfl⟩

theorem run?_append {s : State} {ref : TaskRef} {r : Run} (hnone : s.run? ref = none) (href : r.ref = ref) :
    (s.grid.runs ++ [r]).find? (fun x => x.ref == ref) = some r := by
  rw [List.find?_append]
  have hnone' : s.grid.runs.find? (fun x => x.ref == ref) = none := hnone
  rw [hnone']
  simp [href]

/-- A start is held by what it reads of DRAM, host port, peers, entropy service, its task and the physical noise of other runs. -/
theorem startHold_congr {s t : State} {v : HostView} {r : Run} {p : Pattern} {slot : Nat} {u u' : Task} (hmem : t.mem = s.mem)
    (hhost : t.host = s.host) (hnl : t.nl = s.nl) (hrng : t.rng = s.rng) (hnoise : ∀ kind, t.noiseFits r.ref p kind = s.noiseFits r.ref p kind)
    (hu : s.task r.ref = some u) (hu' : t.task r.ref = some u') (hparam : u'.param = u.param) (hpattern : u'.pattern = u.pattern) :
    t.startHold v r p slot = s.startHold v r p slot := by
  unfold State.startHold State.initState
  rw [hmem, hhost, hnl, hrng, hu, hu']
  dsimp only
  rw [hnoise, hparam, hpattern]

theorem pattern_of_runPattern {s : State} {u : Task} {p : Pattern} (h : s.runPattern u = some p) : s.pattern p.id = some p := by
  unfold State.runPattern at h
  dsimp only at h
  split at h
  case h_1 q hq =>
    split at h
    · obtain rfl := Option.some.inj h
      obtain ⟨e, -, he⟩ := Option.bind_eq_some_iff.mp hq
      obtain ⟨id, -, hid⟩ := Option.bind_eq_some_iff.mp he
      have hpid : q.id = id := by simpa using List.find?_some hid
      rw [hpid]
      exact hid
    · exact absurd h (by simp)
  case h_2 => exact absurd h (by simp)

section
variable {s : State} {ref : TaskRef} {u : Task} {q : Queue} {p : Pattern} {b : List Byte} (h : dispatched s ref u q 0x0001 256 b)
  (haccepted : runAccepted s u q p b)
include h haccepted

/-- A RUN whose checks pass comes to the holds of its start. -/
theorem startRun_accepted {v : HostView} : ({ s with ops := [] } : State).startRun v ref
    = ((s.withBlock ref b).withRecord ref (newRun ref p u.mask u.program (readRunBlock b))).tryStart v ref := by
  obtain ⟨hblock, hheader, hp, hprogram, haddr, hresume⟩ := haccepted
  have hparam : u.param < hostWindow := h.2.2.2.2.2.1
  obtain ⟨o, ho⟩ : ∃ o, o = s.withBlock ref b := ⟨_, rfl⟩
  have homem : o.mem = s.mem := by rw [ho, State.withBlock_mem]
  have hop : o.runPattern u = some p := by
    rw [← hp]
    obtain ⟨_, _, _, hmoves⟩ := withBlock_moves s ref b
    rw [ho, hmoves]
    rfl
  have hoaddr : o.addressFault q u (runRegions s.mem (readRunBlock b) p) = none := by
    rw [ho, State.withBlock_addressFault]
    exact haddr
  unfold State.startRun
  rw [dispatchBlock_dispatched h rfl, ← ho]
  dsimp only
  rw [homem, hop]
  dsimp only
  have hblind : ¬ hostWindow ≤ u.param := Nat.not_le.mpr hparam
  simp only [hblind, decide_false, Bool.false_eq_true, if_false]
  rw [hblock]
  dsimp only
  rw [if_neg (by simpa using fun hin => hheader.resolve_left (Nat.not_le.mpr hin)), if_neg (Nat.not_le.mpr hprogram), hoaddr]
  dsimp only
  rw [if_neg]
  · rw [← homem]
    rfl
  · rw [Bool.and_eq_true, Bool.not_eq_true']
    exact fun hboth => absurd ((hresume hboth.1).symm.trans hboth.2) (by decide)

omit h in
/-- A RUN's block has a KIND that is named. -/
theorem kind_le_two : (readRunBlock b).kind ≤ 2 := by
  obtain ⟨hblock, -⟩ := haccepted
  by_contra hkind
  have hnone : (runBlockChecks b (s.mem.field (u.pattern + 0x45) 1) ((readRunBlock b).kind != 0 || p.plan.samples)).find? (·.2) = none := by
    simpa [firstBlockFault] using hblock
  have hfirst := List.find?_eq_none.mp hnone (0x00, decide (2 < (readRunBlock b).kind)) (by simp [runBlockChecks])
  simp at hfirst
  omega

/-- The row of the table that a RUN's block belongs to. -/
theorem runRow_dispatched : ({ s with ops := [] } : State).runRow ref
    = some (if (readRunBlock b).rehost then 4 else if (readRunBlock b).resume then 3 else (readRunBlock b).kind) := by
  have hkind := kind_le_two haccepted
  obtain ⟨hu, -, -, -, -, hparam, -, hb⟩ := h
  have hu' : ({ s with ops := [] } : State).task ref = some u := hu
  unfold State.runRow
  rw [hu']
  dsimp only
  rw [if_pos hparam, hb, if_pos hkind]

/-- The command of a RUN's row tries its start. -/
theorem run_lands {v : HostView} {c : Instr} (hc : c = (if (readRunBlock b).rehost then .runRehostStart ref v
      else if (readRunBlock b).resume then .runFromCheckpoint ref v else if (readRunBlock b).kind = 0 then .runAnneal ref v
      else if (readRunBlock b).kind = 1 then .runScoring ref v else .runLearning ref v)) :
    exec c s = .next (s.run fun _ => ((s.withBlock ref b).withRecord ref (newRun ref p u.mask u.program (readRunBlock b))).tryStart v ref) := by
  have hkind := kind_le_two haccepted
  have hrow := runRow_dispatched h haccepted
  have hstart := startRun_accepted h haccepted (v := v)
  have hlands {n : Nat} (hn : ({ s with ops := [] } : State).runRow ref = some n)
      (hexec : exec c s = .next (s.run fun s => if s.runRow ref = some n then s.startRun v ref else s)) :
      exec c s = .next (s.run fun _ => ((s.withBlock ref b).withRecord ref (newRun ref p u.mask u.program (readRunBlock b))).tryStart v ref) :=
    exec_lands hexec ((if_pos hn).trans hstart)
  cases hrehost : (readRunBlock b).rehost with
  | true =>
    rw [hrehost] at hrow hc
    exact hlands hrow (by rw [hc]; rfl)
  | false =>
    cases hresume : (readRunBlock b).resume with
    | true =>
      rw [hrehost, hresume] at hrow hc
      exact hlands hrow (by rw [hc]; rfl)
    | false =>
      rw [hrehost, hresume] at hrow hc
      simp only [Bool.false_eq_true, if_false] at hrow hc
      by_cases h0 : (readRunBlock b).kind = 0
      · rw [h0] at hrow hc
        exact hlands hrow (by rw [hc]; rfl)
      · by_cases h1 : (readRunBlock b).kind = 1
        · rw [h1] at hrow hc
          exact hlands hrow (by rw [hc]; rfl)
        · have h2 : (readRunBlock b).kind = 2 := by omega
          rw [h2] at hrow hc
          exact hlands hrow (by rw [hc]; rfl)
end

end Sys2Proof.Machine
end

section
/-! SUPPORT. The start of a dispatched RUN: held, begun at a boundary, or armed for its launch. -/

namespace Sys2Proof.Machine

/-! ### The state in which a start is tried -/

/-- A state that comes to the start of run r of pattern p: the run is new, its engines and its task know it, and what the holds read
stands as in s. -/
structure Tries (s t : State) (ref : TaskRef) (u : Task) (p : Pattern) (r : Run) : Prop where
  record : t.run? ref = some r
  pattern : t.pattern r.pattern = some p
  task : ∃ x, t.task ref = some x ∧ x.slot = u.slot
  hold : ∀ v, t.startHold v r p u.slot = s.startHold v r p u.slot
  engine : ∀ k ∈ r.engines, (t.engine k).task = some ref
  length : t.grid.engines.length = 8
  mem : t.mem = s.mem
  nl : t.nl = s.nl
  cnt : t.cnt = s.cnt

/-- Physical noise of other runs is not touched by a record of a run's own. -/
theorem noiseFits_append {s t : State} {r : Run} (hruns : t.grid.runs = s.grid.runs ++ [r]) (hpatterns : t.grid.patterns = s.grid.patterns)
    (p : Pattern) (kind : Nat) : t.noiseFits r.ref p kind = s.noiseFits r.ref p kind := by
  have hpattern : t.pattern = s.pattern := by
    funext id
    rw [State.pattern, hpatterns]
    rfl
  have hothers : (t.grid.runs.filter fun x => x.blk.noise && x.ref != r.ref && x.begun)
      = s.grid.runs.filter fun x => x.blk.noise && x.ref != r.ref && x.begun := by
    rw [hruns, List.filter_append]
    simp
  unfold State.noiseFits
  rw [hothers, hpattern]

theorem tries_dispatched {s : State} {ref : TaskRef} {u : Task} {q : Queue} {p : Pattern} {b : List Byte} (h : dispatched s ref u q 0x0001 256 b)
    (haccepted : runAccepted s u q p b) (hnone : s.run? ref = none) (hlen : s.grid.engines.length = 8) {r : Run}
    (href : r.ref = ref) (hpattern : r.pattern = p.id) : Tries s ((s.withBlock ref b).withRecord ref r) ref u p r := by
  obtain ⟨hu, -⟩ := h
  obtain ⟨-, -, hp, -⟩ := haccepted
  have hpat := pattern_of_runPattern hp
  obtain ⟨o, ho⟩ : ∃ o, o = s.withBlock ref b := ⟨_, rfl⟩
  have hogrid : o.grid = s.grid := by rw [ho, State.withBlock_grid]
  have hou : o.task ref = some { u with block := b } := by rw [ho, task_withBlock hu]
  have homem : o.mem = s.mem := by rw [ho, State.withBlock_mem]
  have hohost : o.host = s.host := by rw [ho, State.withBlock_host]
  have honl : o.nl = s.nl := by rw [ho, State.withBlock_nl]
  have horng : o.rng = s.rng := by rw [ho, State.withBlock_rng]
  have hocnt : o.cnt = s.cnt := by rw [ho, State.withBlock_cnt]
  rw [← ho]
  clear ho
  obtain ⟨gs, fw, tasks, ht, hgs, hengine, htasks⟩ := withRecord_moves o ref r
  obtain ⟨t, htdef⟩ : ∃ t, t = o.withRecord ref r := ⟨_, rfl⟩
  rw [← htdef] at ht ⊢
  have htruns : t.grid.runs = s.grid.runs ++ [r] := by rw [ht, hogrid]
  have htpatterns : t.grid.patterns = s.grid.patterns := by rw [ht, hogrid]
  have httask : t.task ref = some { u with block := b, phase := .running, engines := u.mask } := by
    have htq : t.q.tasks = tasks := by rw [ht]
    have hq : o.q.tasks.find? (fun x => x.ref == ref) = some { u with block := b } := hou
    rw [State.task, htq, htasks, find?_modifyIf (by exact fun _ hx => hx), hq]
    rfl
  have hlen' : o.grid.engines.length = 8 := by rw [hogrid]; exact hlen
  refine ⟨?_, ?_, ⟨_, httask, rfl⟩, fun v => ?_, fun k hk => ?_, ?_, ?_, ?_, ?_⟩
  · rw [State.run?, htruns]
    exact run?_append hnone href
  · rw [State.pattern, htpatterns, hpattern]
    exact hpat
  · have hmem : t.mem = s.mem := by rw [ht]; exact homem
    have hhost : t.host = s.host := by rw [ht]; exact hohost
    have hnl : t.nl = s.nl := by rw [ht]; exact honl
    have hrng : t.rng = s.rng := by rw [ht]; exact horng
    have httask' := href.symm ▸ httask
    have hu' : s.task r.ref = some u := href.symm ▸ hu
    exact startHold_congr hmem hhost hnl hrng (noiseFits_append htruns htpatterns p) hu' httask' rfl rfl
  · rw [ht]
    exact hengine hlen' k hk
  · rw [ht]
    exact hgs.trans hlen'
  · rw [ht]
    exact homem
  · rw [ht]
    exact honl
  · rw [ht]
    exact hocnt

/-! ### A start that a rule holds -/

section
variable {s t : State} {ref : TaskRef} {u : Task} {p : Pattern} {r : Run} (htries : Tries s t ref u p r)
include htries

theorem tryStart_held {v : HostView} {cause detail : Nat} (hhold : s.startHold v r p u.slot = some (cause, detail)) (hclock : r.clock = .start) :
    (t.tryStart v ref).run? ref = some r
      ∧ ∀ k ∈ r.engines, ((t.tryStart v ref).engine k).state = 6 ∧ ((t.tryStart v ref).engine k).cause = cause
          ∧ ((t.tryStart v ref).engine k).task = some ref := by
  obtain ⟨x, hx, hslot⟩ := htries.task
  have htry : t.tryStart v ref = t.holdRun ref cause detail := by
    unfold State.tryStart
    rw [htries.record]
    dsimp only
    rw [htries.pattern, hx]
    dsimp only
    rw [hslot, htries.hold, hhold]
  have hreports := holdRun_reports htries.record cause detail
  have href := ref_of_run? htries.record
  rw [htry]
  refine ⟨?_, fun k hk => ?_⟩
  · rw [State.run?, hreports.grid]
    refine (run?_setRunState_resting t href (by decide) cause detail 0).trans ?_
    rw [htries.record, Option.map_some, ← hclock]
  · rw [hreports.engine, engine_setRunState_same 6 cause detail 0 htries.length hk]
    exact ⟨rfl, rfl, htries.engine k hk⟩

/-- A start that nothing holds lets its engines forget an earlier cause. -/
theorem tryStart_free {v : HostView} (hhold : s.startHold v r p u.slot = none) :
    ∃ w, t.tryStart v ref = w.launchOrArm v ref ∧ Tries s w ref u p r := by
  obtain ⟨x, hx, hslot⟩ := htries.task
  obtain ⟨w, hw⟩ : ∃ w, w = t.setEngines r.engines fun e : Engine => if e.state = 6 then { e with cause := 0, detail := 0 } else e := ⟨_, rfl⟩
  obtain ⟨gs, hgs⟩ : ∃ gs, w = { t with grid := { t.grid with engines := gs } } := ⟨_, hw.trans (State.setEngines_eq ..)⟩
  refine ⟨w, ?_, ?_⟩
  · unfold State.tryStart
    rw [htries.record]
    dsimp only
    rw [htries.pattern, hx]
    dsimp only
    rw [hslot, htries.hold, hhold, hw]
  · refine ⟨?_, ?_, ⟨x, ?_, hslot⟩, fun v => (?_ : _ = _).trans (htries.hold v), fun k hk => ?_, ?_, ?_, ?_, ?_⟩
    · rw [hgs]
      exact htries.record
    · rw [hgs]
      exact htries.pattern
    · rw [hgs]
      exact hx
    · have hmem : w.mem = t.mem := by rw [hgs]
      have hhost : w.host = t.host := by rw [hgs]
      have hnl : w.nl = t.nl := by rw [hgs]
      have hrng : w.rng = t.rng := by rw [hgs]
      have href := ref_of_run? htries.record
      refine startHold_congr hmem hhost hnl hrng (fun kind => ?_) (by rw [href]; exact hx) (by rw [hgs, href]; exact hx) rfl rfl
      rw [hgs]
      rfl
    · rw [hw, State.engine_setEngines_same htries.length _ hk]
      split
      · exact htries.engine k hk
      · exact htries.engine k hk
    · rw [hw, State.length_setEngines]
      exact htries.length
    · rw [hgs]
      exact htries.mem
    · rw [hgs]
      exact htries.nl
    · rw [hgs]
      exact htries.cnt

/-! ### A start on one device -/

/-- A run that is opened with more to do stands at its boundary once row nine has decided. -/
theorem opened_stands {x : Run} {cores : List Core} (href : x.ref = ref) (hpattern : x.pattern = r.pattern) (hwants : x.wants = [])
    (hqueue : x.queue = []) (hcomplete : x.complete p = false) (v : HostView) :
    ∃ y, ((t.openRun ref p cores x).rowNine v ref).run? ref = some y ∧ y.begun = true ∧ y.tick = x.tick ∧ y.blk = x.blk ∧ y.mask = x.mask := by
  have hopens := openRun_opens htries.record htries.pattern cores href hpattern
  obtain ⟨y, hy, hplace⟩ := (holdsPlace_rowNine (p := { p with cores := cores }) hopens.record hopens.pattern hwants hqueue hcomplete v).record _
    hopens.record
  exact ⟨y, hy, hplace.begun, hplace.tick, hplace.blk, hplace.mask⟩

theorem beginRun_stands_fresh (hresume : r.blk.resume = false) (hrehost : r.blk.rehost = false) (hwants : r.wants = []) (hqueue : r.queue = [])
    (hcomplete : r.complete p = false) (v : HostView) :
    ∃ y, (t.beginRun v ref).run? ref = some y ∧ y.begun = true ∧ y.tick = r.tick ∧ y.blk = r.blk ∧ y.mask = r.mask := by
  have href : r.ref = ref := ref_of_run? htries.record
  have hcomplete' : (t.firstRecord v p r).complete p = false := (complete_firstRecord t v p p r).trans hcomplete
  obtain ⟨x, hx⟩ : ∃ x, x = t.firstRecord v p r := ⟨_, rfl⟩
  obtain ⟨_, _, _, _, _, hrest⟩ := firstRecord_rest t v p r
  rw [beginRun_fresh htries.record htries.pattern hresume hrehost]
  rw [← hx] at hrest hcomplete' ⊢
  obtain ⟨y, hy, hbegun, htick, hblk, hmask⟩ := opened_stands htries (x := x) (cores := p.cores) (by rw [hrest]; exact href)
    (by rw [hrest]) (by rw [hrest]; exact hwants) (by rw [hrest]; exact hqueue) hcomplete' v
  rw [hrest] at htick hblk hmask
  exact ⟨y, hy, hbegun, htick, hblk, hmask⟩

omit htries in
/-- A run that is set back to a boundary keeps what it is, and takes the boundary's tick. -/
theorem restore_keeps {g : Reader} {y : Run} {cores : List Core} (h : r.restore p g = some (y, cores)) :
    y.ref = r.ref ∧ y.pattern = r.pattern ∧ y.wants = r.wants ∧ y.queue = r.queue ∧ y.tick = g 0x90 8 := by
  unfold Run.restore at h
  extract_lets cores' p' area rungOff pendOff repOff reps agree reps' at h
  split at h
  · obtain ⟨hy, -⟩ := Prod.mk.inj (Option.some.inj h)
    obtain ⟨_, _, _, hrest⟩ := startWeir_rest _ p (g 0x90 8)
    rw [← hy]
    refine (congrArg (fun x : Run => x.ref = r.ref ∧ x.pattern = r.pattern ∧ x.wants = r.wants ∧ x.queue = r.queue ∧ x.tick = g 0x90 8)
      hrest).mpr ?_
    exact ⟨rfl, rfl, rfl, rfl, rfl⟩
  · exact absurd h (by simp)

theorem beginRun_stands_resumed {y : Run} {cores : List Core} (himage : r.blk.resume = true ∨ (r.blk.rehost = true ∧ r.blk.resumeAt ≠ 0))
    (hrestore : r.restore p (imageAt s.mem r.blk.resumeAt) = some (y, cores)) (hwants : r.wants = []) (hqueue : r.queue = [])
    (hcomplete : y.complete p = false) (v : HostView) :
    ∃ x, (t.beginRun v ref).run? ref = some x ∧ x.begun = true ∧ x.tick = y.tick ∧ y.tick = imageAt s.mem r.blk.resumeAt 0x90 8 := by
  obtain ⟨href, hpattern, hw, hq, htick⟩ := restore_keeps hrestore
  rw [beginRun_resumed htries.record htries.pattern himage (by rw [htries.mem]; exact hrestore)]
  obtain ⟨x, hx, hbegun, hxtick, -⟩ := opened_stands htries (cores := cores) (href.trans (ref_of_run? htries.record)) hpattern (hw.trans hwants)
    (hq.trans hqueue) hcomplete v
  exact ⟨x, hx, hbegun, hxtick, htick⟩

theorem beginRun_stands_rehosted {y : Run} {cores : List Core} {n : Nat} (hresume : r.blk.resume = false) (hrehost : r.blk.rehost = true)
    (hat : r.blk.resumeAt = 0) (hhems : s.hemTick r.tag p.hosted = some n)
    (hrestore : r.restore p (hemReader s.mem r p (s.hemPlaces r.tag p.hosted n) n) = some (y, cores)) (hwants : r.wants = [])
    (hqueue : r.queue = []) (hcomplete : y.complete p = false) (v : HostView) :
    ∃ x, (t.beginRun v ref).run? ref = some x ∧ x.begun = true ∧ x.tick = y.tick ∧ y.tick = n := by
  obtain ⟨href, hpattern, hw, hq, htick⟩ := restore_keeps hrestore
  have hheld : t.hemsHeld = s.hemsHeld := by
    funext tag k
    rw [State.hemsHeld, htries.nl, htries.mem]
    rfl
  have hhems' : t.hemTick r.tag p.hosted = some n := by
    rw [State.hemTick, hheld]
    exact hhems
  have hplaces : t.hemPlaces r.tag p.hosted n = s.hemPlaces r.tag p.hosted n := by
    rw [State.hemPlaces, hheld]
    rfl
  rw [beginRun_rehosted htries.record htries.pattern hresume hrehost hat hhems' (by rw [htries.mem, hplaces]; exact hrestore)]
  obtain ⟨x, hx, hbegun, hxtick, -⟩ := opened_stands htries (cores := cores) (href.trans (ref_of_run? htries.record)) hpattern (hw.trans hwants)
    (hq.trans hqueue) hcomplete v
  exact ⟨x, hx, hbegun, hxtick, htick⟩

end

/-! ### A start over several devices -/

/-- The outcome of a launch in which this device has not voted: the run is held or waits, armed as it was. -/
theorem decideLaunch_waits {s : State} {ref : TaskRef} {r : Run} (hr : s.run? ref = some r) (hvoted : r.voted = none) (v : HostView) :
    (∃ c, (s.decideLaunch v ref).run? ref = some { r with clock := c }) ∧ (s.decideLaunch v ref).nl = s.nl := by
  have href := ref_of_run? hr
  have hrest (cause detail : Nat) : (s.setRunState r 6 cause detail 0).run? ref = some { r with clock := .start } := by
    rw [run?_setRunState_resting s href (by decide), hr]
    rfl
  have hnl (cause detail : Nat) : (s.setRunState r 6 cause detail 0).nl = s.nl := by
    obtain ⟨_, _, _, hmoves⟩ := setRunState_moves s r 6 cause detail 0
    rw [hmoves]
  unfold State.decideLaunch
  rw [hr]
  dsimp only
  split
  · exact ⟨⟨r.clock, hr⟩, rfl⟩
  · split
    · exact ⟨⟨r.clock, hr⟩, rfl⟩
    · split
      · split
        · exact ⟨⟨_, hrest _ _⟩, hnl _ _⟩
        · refine ⟨⟨.start, ?_⟩, (holdRun_reports hr _ _).nl.trans (hnl _ _)⟩
          rw [State.run?, (holdRun_reports hr _ _).grid]
          exact hrest _ _
      · rw [if_neg (by simp [hvoted])]
        exact ⟨⟨r.clock, hr⟩, rfl⟩

/-- A start over several devices arms: its ARM is held with the others and flooded, and the run waits for its launch. -/
theorem launchOrArm_arms {s : State} {ref : TaskRef} {r : Run} {p : Pattern} (hr : s.run? ref = some r) (hp : s.pattern r.pattern = some p)
    (hvoted : r.voted = none) (hshards : 1 < p.header.shards) (hrehost : r.blk.rehost = false) (hlaunch : s.cnt.stitch < r.blk.launch.toNat)
    (v : HostView) :
    ∃ y, (s.launchOrArm v ref).run? ref = some y ∧ y.armed = true ∧ y.begun = r.begun ∧ armOf s r p ∈ (s.launchOrArm v ref).nl.arms := by
  obtain ⟨w, hw⟩ : ∃ w, w = s.setRun ref fun r => { r with armed := true } := ⟨_, rfl⟩
  obtain ⟨was, hwas⟩ : ∃ was, was = r.engines.filter fun e => (w.engine e).state == 6 := ⟨_, rfl⟩
  obtain ⟨x, hx⟩ : ∃ x, x = w.setEngines was fun e : Engine => { e with state := 2, cause := 0, detail := 0 } := ⟨_, rfl⟩
  obtain ⟨gs, hgs⟩ : ∃ gs, x = { w with grid := { w.grid with engines := gs } } := ⟨_, hx.trans (State.setEngines_eq ..)⟩
  obtain ⟨y, hy⟩ : ∃ y, y = was.foldl (fun s e => s.event 2 3 (sourceOf 1 e) (some r.tick) (toBytesLE 1 6)) x := ⟨_, rfl⟩
  have hreports : Reports x y := hy ▸ .foldl (fun s e => reports_event s _ _ _ _ _) _ _
  obtain ⟨z, hz⟩ : ∃ z : State, z = { y with nl := { y.nl with arms := addNew (armOf s r p) y.nl.arms } } := ⟨_, rfl⟩
  obtain ⟨f, hf⟩ : ∃ f, f = z.flood none (.arm (armOf s r p)) := ⟨_, rfl⟩
  obtain ⟨_, _, _, htells, -⟩ := tells_flood z none (.arm (armOf s r p))
  rw [← hf] at htells
  have hrun : f.run? ref = some { r with armed := true } := by
    have hgrid : f.grid = x.grid := by rw [htells, hz]; exact hreports.grid
    rw [State.run?, hgrid, hgs, hw]
    refine (run?_setRun s (f := fun r => { r with armed := true }) (by exact fun _ h => h)).trans ?_
    rw [hr]
    rfl
  have hcnt : f.cnt = s.cnt := by
    have h : f.cnt = y.cnt := by rw [htells, hz]
    have hevents : ∀ (es : List Nat) (s : State),
        (es.foldl (fun s e => s.event 2 3 (sourceOf 1 e) (some r.tick) (toBytesLE 1 6)) s).cnt = s.cnt := fun es => by
      induction es with
      | nil => exact fun _ => rfl
      | cons e es ih => exact fun s => (ih _).trans (State.event_cnt ..)
    rw [h, hy, hevents, hgs, hw]
    rfl
  have harms : armOf s r p ∈ f.nl.arms := by
    have h : f.nl.arms = addNew (armOf s r p) y.nl.arms := by rw [htells, hz]
    rw [h, mem_addNew_iff]
    exact .inl rfl
  have hlands : s.launchOrArm v ref = f.decideLaunch v ref := by
    unfold State.launchOrArm
    rw [hr]
    dsimp only
    rw [hp]
    dsimp only
    rw [if_neg (Nat.not_le.mpr hshards), hrehost]
    simp only [Bool.false_eq_true, if_false]
    rw [← hw, ← hwas, ← hx, ← hy, ← hz, ← hf, hcnt, if_neg (Nat.not_le.mpr hlaunch)]
  obtain ⟨⟨c, hwaits⟩, hnl⟩ := decideLaunch_waits hrun hvoted v
  rw [hlands]
  exact ⟨_, hwaits, rfl, rfl, hnl ▸ harms⟩

/-! ### RUN -/

/-- The record of a new run has nothing queued or asked for, and is not complete. -/
theorem complete_newRun {ref : TaskRef} {p : Pattern} {mask program : Nat} {k : RunBlock} (h : k.kind = 2 → 0 < p.stepTicks) (hkind : k.kind ≤ 2) :
    (newRun ref p mask program k).complete p = false := by
  have htick : (newRun ref p mask program k).tick = 0 := rfl
  have hscored : (newRun ref p mask program k).results.scored = 0 := rfl
  have hblk : (newRun ref p mask program k).blk = k := rfl
  unfold Run.complete
  rw [htick, hscored, hblk]
  match hk : k.kind, hkind with
  | 0, _ => simp
  | 1, _ => simp
  | 2, _ =>
    have hpos := h hk
    simp
    omega

/-- Settles O50: a start that a rule holds leaves its engines HELD; one on one device is opened at its boundary, where row nine leaves it;
one over several devices floods its ARM and waits for the launch. -/
theorem runsStartOrAreHeld : Obligations.RunsStartOrAreHeld := by
  unfold Obligations.RunsStartOrAreHeld
  intro s v ref u q p b _ h haccepted hnone hlen k r c hc
  have hkind : k.kind ≤ 2 := kind_le_two haccepted
  have hlands := run_lands h haccepted hc
  have htries : Tries s ((s.withBlock ref b).withRecord ref r) ref u p r := tries_dispatched h haccepted hnone hlen rfl rfl
  obtain ⟨t, ht⟩ : ∃ t, t = (s.withBlock ref b).withRecord ref r := ⟨_, rfl⟩
  have hexec : exec c s = .next (s.run fun _ => t.tryStart v ref) := by rw [ht]; exact hlands
  rw [← ht] at htries
  clear hlands ht
  refine ⟨fun cause detail hhold => ?_, fun hfree hshards => ?_, fun hfree hshards hrehost hlaunch => ?_⟩
  · obtain ⟨hrun, hengines⟩ := tryStart_held htries hhold rfl
    exact ⟨_, hexec, by rw [State.run?, State.run_grid]; exact hrun, fun e he => by rw [State.run_engine]; exact hengines e he⟩
  · obtain ⟨w, hw, htries⟩ := tryStart_free htries hfree (t := t)
    rw [hw, launchOrArm_alone htries.record htries.pattern hshards] at hexec
    have hrun : (s.run fun _ => w.beginRun v ref).run? ref = (w.beginRun v ref).run? ref := by rw [State.run?, State.run_grid]; rfl
    refine ⟨fun hresume hrehost hsteps => ?_, fun y cores himage hrestore hcomplete => ?_,
      fun y cores n hresume hrehost hat hhems hrestore hcomplete => ?_⟩
    · have hcomplete : r.complete p = false := complete_newRun hsteps hkind
      by_cases hplain : k.kind = 0 ∧ k.noise = false ∧ k.loose = false ∧ p.plan.samples = false ∧ p.programs = [] ∧ s.nl.votes = []
      · obtain ⟨h0, hnoise, hloose, hsamples, hprograms, hvotes⟩ := hplain
        obtain ⟨x, hx, -, hbegun, htick, hmask, hblk, -, hengines, -⟩ := beginRun_annealing htries.record htries.pattern h0 hresume hrehost hnoise
          hloose hsamples hprograms (by rw [htries.nl]; exact hvotes) rfl rfl rfl hcomplete v
        exact ⟨_, x, hexec, hrun.trans hx, hbegun, htick, hblk, hmask, fun _ _ _ _ _ _ e he => by
          rw [State.run_engine]
          exact hengines htries.length e he⟩
      · obtain ⟨x, hx, hbegun, htick, hblk, hmask⟩ := beginRun_stands_fresh htries hresume hrehost rfl rfl hcomplete v
        exact ⟨_, x, hexec, hrun.trans hx, hbegun, htick, hblk, hmask, fun h0 hnoise hloose hsamples hprograms hvotes =>
          absurd ⟨h0, hnoise, hloose, hsamples, hprograms, hvotes⟩ hplain⟩
    · obtain ⟨x, hx, hbegun, htick, hy⟩ := beginRun_stands_resumed htries himage hrestore rfl rfl hcomplete v
      exact ⟨_, x, hexec, hrun.trans hx, hbegun, htick, htick.trans hy⟩
    · obtain ⟨x, hx, hbegun, htick, hy⟩ := beginRun_stands_rehosted htries hresume hrehost hat hhems hrestore rfl rfl hcomplete v
      exact ⟨_, x, hexec, hrun.trans hx, hbegun, htick, htick.trans hy⟩
  · obtain ⟨w, hw, htries⟩ := tryStart_free htries hfree (t := t)
    rw [hw] at hexec
    obtain ⟨y, hy, harmed, hbegun, harms⟩ := launchOrArm_arms htries.record htries.pattern rfl hshards hrehost
      (by rw [htries.cnt]; exact hlaunch) v
    refine ⟨_, y, hexec, by rw [State.run?, State.run_grid]; exact hy, harmed, hbegun, armOf w r p, ?_, rfl, rfl, ?_⟩
    · rw [State.run_nl]
      exact harms
    · show w.nodeCode = s.nodeCode
      rw [State.nodeCode, htries.nl]
      rfl

end Sys2Proof.Machine
end

section
/-! SUPPORT. COPY and RANDOM_FILL: one line moved or written, and the end of its task. -/

namespace Sys2Proof.Machine

/-! ### The copy engine that takes a task -/

/-- Only the domains of the memory channels move as they wake. -/
theorem domain_wakeChannels {d : Nat} (hd : 105 < d) (s : State) : s.wakeChannels.domain d = s.domain d := by
  have hfold : ∀ (cs : List Nat), (∀ c ∈ cs, c < 8) → ∀ s : State, (cs.foldl (fun s c =>
      if (s.channel c).state = 3 then
        (s.setChannel c fun ch => { ch with state := 2 }).setDomain (98 + c) fun d => { d with state := 2, wakes := (d.wakes + 1) % 2 ^ 32 }
      else s) s).domain d = s.domain d := by
    intro cs hcs
    induction cs with
    | nil => exact fun _ => rfl
    | cons c cs ih =>
      intro s
      have hc : d ≠ 98 + c := by have := hcs c List.mem_cons_self; omega
      rw [List.foldl_cons, ih fun x hx => hcs x (List.mem_cons_of_mem c hx)]
      split
      · exact State.domain_setDomain_ne hc _ _
      · rfl
  exact hfold (List.range 8) (fun c hc => List.mem_range.mp hc) s

theorem freeCopyEngine_withBlock (s : State) (ref : TaskRef) (b : List Byte) : (s.withBlock ref b).freeCopyEngine = s.freeCopyEngine := by
  obtain ⟨w, hw⟩ : ∃ w, w = ({ s with ops := [] } : State).wakeChannels := ⟨_, rfl⟩
  have hwake : w.domain 113 = s.domain 113 := by
    rw [hw, domain_wakeChannels (by decide)]
    rfl
  have hpowered : (s.withBlock ref b).copyPowered = s.copyPowered := by
    have h : (w.setTask ref fun t => { t with block := b }).domain 113 = w.domain 113 := rfl
    rw [State.copyPowered, State.withBlock, ← hw, h, hwake]
    rfl
  unfold State.freeCopyEngine
  simp only [hpowered, State.withBlock_copyEngine]

theorem lt_of_freeCopyEngine {s : State} {c : Nat} (h : s.freeCopyEngine = some c) : c < 4 := List.mem_range.mp (List.mem_of_find?_eq_some h)

theorem linkUp_of_mayDispatch {s : State} {u : Task} (h : s.mayDispatch u = true) : s.host.link = 2 := by
  have hopen := hostOpen_of_admitting (admitting_of_mayDispatch h)
  simp only [State.hostOpen, Bool.and_eq_true, beq_iff_eq] at hopen
  exact hopen.1.2

/-! ### The end of a transfer -/

/-- A transfer on a copy engine is over: its task has moved n lines and ends, and a chain takes its turn. -/
def State.endTransfer (s : State) (ref : TaskRef) (c n : Nat) (whole : Bool) : State :=
  let s := s.setTask ref fun t => { t with progress := n }
  (if whole then s.endTask ref 0 0 else s.endTask ref 0x0201 poisonDetail).takeTurn c

/-- A transfer on a copy engine that runs no chain ends its task, and nothing else moves. -/
theorem endTransfer_ends {y : State} {ref : TaskRef} {x : Task} {c : Nat} (hx : y.task ref = some x) (hphase : x.phase = .waiting)
    (hchain : (y.copyEngine c).chain = none) (n : Nat) (whole : Bool) :
    ends (y.endTransfer ref c n whole) ref (if whole then 0 else 0x0201) (if whole then 0 else poisonDetail)
      ∧ ∃ tasks, y.endTransfer ref c n whole = { y with q := { y.q with tasks := tasks } } := by
  obtain ⟨w, hw⟩ : ∃ w, w = y.setTask ref fun t => { t with progress := n } := ⟨_, rfl⟩
  have hwx : w.task ref = some { x with progress := n } := by
    rw [hw, State.task_setTask (f := fun t : Task => { t with progress := n }) _ _ fun _ => rfl, hx]
    rfl
  have hturn (status detail : Nat) : (w.endTask ref status detail).takeTurn c = w.endTask ref status detail := by
    have h : ((w.endTask ref status detail).copyEngine c).chain = none := by rw [hw]; exact hchain
    unfold State.takeTurn
    dsimp only
    rw [h]
  have hmoves (status detail : Nat) : ∃ tasks, w.endTask ref status detail = { y with q := { y.q with tasks := tasks } } := by
    rw [hw]
    exact ⟨_, rfl⟩
  unfold State.endTransfer
  dsimp only
  rw [← hw]
  cases whole
  · rw [if_neg Bool.false_ne_true, if_neg Bool.false_ne_true, if_neg Bool.false_ne_true, hturn]
    exact ⟨ends_endTask hwx (.inl hphase), hmoves _ _⟩
  · rw [if_pos rfl, if_pos rfl, if_pos rfl, hturn]
    exact ⟨ends_endTask hwx (.inl hphase), hmoves _ _⟩

/-- A line written to device DRAM by a copy engine. -/
def State.copyLine (s : State) (c dst : Nat) (bs : List Byte) : State :=
  (s.wakeChannels.store (.write dst bs)).setCopyEngine c fun e => { e with bytes := e.bytes + 64 }

theorem putLines_one {s : State} (v : HostView) (pasid : Option Nat) (c : Nat) {dst : Nat} (hdst : dst < hostWindow) {bs : List Byte}
    (hlen : bs.length = 64) : s.putLines v pasid c 1 dst bs = (s.copyLine c dst bs, 1, true) := by
  have hne : bs.isEmpty = false := by
    rw [List.isEmpty_eq_false_iff]
    exact fun h => absurd (h ▸ hlen) (by decide)
  have htake : bs.take 64 = bs := List.take_of_length_le hlen.le
  simp only [State.putLines, State.lineTranslates, hdst, decide_true, Bool.true_or, Bool.not_true, Bool.false_eq_true, if_false, if_true,
    State.keepTranslation, State.putLine, State.writeDram, htake, hne, State.write, State.copyLine]

/-- What a line written by a copy engine leaves. -/
theorem copyLine_moves (s : State) (c dst : Nat) (bs : List Byte) : (s.copyLine c dst bs).ops = s.ops ++ [.write dst bs]
    ∧ (s.copyLine c dst bs).grid = s.grid ∧ (s.copyLine c dst bs).out = s.out ∧ (s.copyLine c dst bs).free = s.free
    ∧ (s.copyLine c dst bs).rng = s.rng ∧ (s.copyLine c dst bs).q.tasks = s.q.tasks
    ∧ (c < s.q.engines.length → (s.copyLine c dst bs).copyEngine c = { s.copyEngine c with bytes := (s.copyEngine c).bytes + 64 }) := by
  obtain ⟨w, hw⟩ : ∃ w, w = s.wakeChannels.store (.write dst bs) := ⟨_, rfl⟩
  have hq : w.q = s.q := by simp [hw]
  have hrest : w.ops = s.ops ++ [.write dst bs] ∧ w.grid = s.grid ∧ w.out = s.out ∧ w.free = s.free ∧ w.rng = s.rng := by simp [hw]
  obtain ⟨hops, hgrid, hout, hfree, hrng⟩ := hrest
  unfold State.copyLine
  rw [← hw]
  refine ⟨hops, hgrid, hout, hfree, hrng, congrArg (·.tasks) hq, fun hc => ?_⟩
  rw [State.copyEngine_setCopyEngine_same (by rw [hq]; exact hc), State.copyEngine, hq]
  rfl

/-- The state of a dispatched transfer whose engine knows its owner. -/
structure Owns (s o : State) (ref : TaskRef) (u : Task) (q : Queue) (c : Nat) : Prop where
  task : ∃ x, o.task ref = some x ∧ x.phase = .waiting
  engine : o.copyEngine c = { s.copyEngine c with owner := q.num }
  length : o.q.engines.length = s.q.engines.length
  mem : o.mem = s.mem
  ops : o.ops = []
  grid : o.grid = s.grid
  host : o.host = s.host
  out : o.out = s.out
  free : o.free = s.free
  rng : o.rng = s.rng

theorem owns_withBlock {s : State} {ref : TaskRef} {u : Task} {q : Queue} {opcode n : Nat} {b : List Byte} {c : Nat} (h : dispatched s ref u q opcode n b)
    (hc : c < s.q.engines.length) : Owns s ((s.withBlock ref b).setCopyEngine c fun e => { e with owner := q.num }) ref u q c := by
  obtain ⟨hu, -, hmay, -⟩ := h
  have hlen : (s.withBlock ref b).q.engines.length = s.q.engines.length := by
    obtain ⟨_, _, _, hmoves⟩ := withBlock_moves s ref b
    rw [hmoves]
  have hu' := task_withBlock (b := b) hu
  have hengine := State.withBlock_copyEngine s ref b c
  have hmem := State.withBlock_mem s ref b
  have hops := State.withBlock_ops s ref b
  have hgrid := State.withBlock_grid s ref b
  have hhost := State.withBlock_host s ref b
  have hout := State.withBlock_out s ref b
  have hfree := State.withBlock_free s ref b
  have hrng := State.withBlock_rng s ref b
  generalize s.withBlock ref b = w at *
  obtain ⟨o, ho⟩ : ∃ o, o = w.setCopyEngine c fun e => { e with owner := q.num } := ⟨_, rfl⟩
  have hmoves : ∃ es, o = { w with q := { w.q with engines := es } } := ⟨_, ho⟩
  have hoengine : o.copyEngine c = { s.copyEngine c with owner := q.num } := by
    rw [ho, State.copyEngine_setCopyEngine_same (by rw [hlen]; exact hc), hengine]
  have holength : o.q.engines.length = s.q.engines.length := by
    rw [ho, State.setCopyEngine]
    exact (length_modifyAt _ _ _).trans hlen
  rw [← ho]
  clear ho
  obtain ⟨es, rfl⟩ := hmoves
  exact ⟨⟨_, hu', waiting_of_mayDispatch hmay⟩, hoengine, holength, hmem, hops, hgrid, hhost, hout, hfree, hrng⟩

theorem ends_run {s z : State} {ref : TaskRef} {status detail : Nat} (h : ends z ref status detail) :
    ends (s.run fun _ => z) ref status detail := by
  obtain ⟨y, hy, hphase⟩ := h
  exact ⟨y, by rw [State.run_task]; exact hy, hphase⟩

/-! ### A state vector's bytes -/

theorem chunksFuel_nil {α : Type} (f n : Nat) : chunksFuel f n ([] : List α) = [] := by cases f <;> rfl

theorem length_chunksFuel {α : Type} {n : Nat} (hn : 0 < n) : ∀ (f : Nat) (xs : List α), (chunksFuel f n xs).length * n ≤ xs.length + (n - 1)
  | 0, _ => by simp [chunksFuel]
  | _ + 1, [] => by simp [chunksFuel]
  | f + 1, x :: xs => by
    have hcons : chunksFuel (f + 1) n (x :: xs) = (x :: xs).take n :: chunksFuel f n ((x :: xs).drop n) := rfl
    rw [hcons, List.length_cons, Nat.add_mul, Nat.one_mul]
    by_cases hlen : (x :: xs).length ≤ n
    · rw [List.drop_eq_nil_of_le hlen, chunksFuel_nil, List.length_nil, List.length_cons]
      omega
    · have ih := length_chunksFuel hn f ((x :: xs).drop n)
      rw [List.length_drop] at ih
      omega

/-- A state vector of n variables takes ceil(n / 512) lines (R70). -/
theorem length_packState (spins : List Bool) : (packState spins).length = stateBytes spins.length := by
  have hchunks := length_chunksFuel (show 0 < 8 by decide) spins.length spins
  have hle : ((chunks 8 spins).map packByte).length ≤ stateBytes spins.length := by
    rw [List.length_map, chunks, stateBytes]
    omega
  rw [packState, List.length_append, zeroBytes, List.length_replicate]
  omega

theorem imageFaults_congr {s t : State} (hmem : t.mem = s.mem) (addr : Nat) (h : Header) :
    imageFaults t addr h false = imageFaults s addr h false := by
  unfold imageFaults
  rw [hmem]
  rfl

/-! ### Draws -/

/-- One generate call's draws: the bytes are counted, and the service stands as it was. -/
theorem drawFill_draws (s : State) : ∃ rng, s.drawFill 64
      = ((List.range 64).map fun k => Config.drbgByte 1 (s.free + k), { s with rng := rng, free := s.free + 64 })
    ∧ rng.bytes = s.rng.bytes + 64 := by
  unfold State.drawFill State.drawBytes
  dsimp only
  have hone : List.range (cdiv 64 65536) = [0] := rfl
  rw [hone, List.foldl_cons, List.foldl_nil, State.countCall]
  dsimp only
  split
  · exact ⟨_, rfl, rfl⟩
  · exact ⟨_, rfl, rfl⟩

/-! ### COPY -/

section
variable {s : State} {v : HostView} {ref : TaskRef} {u : Task} {q : Queue} {b : List Byte} {c : Nat} (hfree : s.freeCopyEngine = some c)
  (hengines : s.q.engines.length = 4) (hchain : (s.copyEngine c).chain = none)

section
variable (h : dispatched s ref u q 0x0011 32 b) (hzero : fieldOf b 0x18 8 = 0) (hlen : fieldOf b 0x10 8 = 64) (hsrc : fieldOf b 0 8 % 64 = 0)
  (hdst : fieldOf b 8 8 % 64 = 0) (hne : fieldOf b 0 8 ≠ fieldOf b 8 8)
  (haddr : s.addressFault q u [(0, fieldOf b 0 8, 64, false), (8, fieldOf b 8 8, 64, true)] = none)
include hfree h hzero hlen hsrc hdst hne haddr

/-- A COPY of one line that passes its checks moves the line on the free engine and ends. -/
theorem copy_lands {o : State} (ho : o = (s.withBlock ref b).setCopyEngine c fun e => { e with owner := q.num }) : exec (.copy ref v) s = .next (s.run fun _ =>
    (o.moveLines v (some q.pasid) c 1 (fieldOf b 0 8) (fieldOf b 8 8)).1.endTransfer ref c
      ((((o.moveLines v (some q.pasid) c 1 (fieldOf b 0 8) (fieldOf b 8 8)).1.copyEngine c).bytes - (o.copyEngine c).bytes) / 64)
      (o.moveLines v (some q.pasid) c 1 (fieldOf b 0 8) (fieldOf b 8 8)).2) := by
  refine exec_lands rfl ?_
  rw [dispatchBlock_dispatched h rfl]
  dsimp only
  rw [hlen, hzero, hsrc, hdst]
  have hmeet : (decide (fieldOf b 0 8 < fieldOf b 8 8 + 64) && decide (fieldOf b 8 8 < fieldOf b 0 8 + 64)) = false := by
    rw [Bool.and_eq_false_iff, decide_eq_false_iff_not, decide_eq_false_iff_not]
    omega
  rw [hmeet]
  have hnone : firstBlockFault [(0, (0 : Nat) != 0), (8, (0 : Nat) != 0), (0x10, (64 : Nat) % 64 != 0 || false), (0x18, (0 : Nat) != 0)] = none := rfl
  rw [hnone]
  dsimp only
  rw [State.withBlock_addressFault, haddr, freeCopyEngine_withBlock, hfree, ho]
  rfl

/-- What the transfer leaves but for its task. -/
theorem copy_ends {o y : State} {whole : Bool} (ho : o = (s.withBlock ref b).setCopyEngine c fun e => { e with owner := q.num })
    (howns : Owns s o ref u q c) (hmoved : o.moveLines v (some q.pasid) c 1 (fieldOf b 0 8) (fieldOf b 8 8) = (y, whole))
    (htasks : y.q.tasks = o.q.tasks) (hychain : (y.copyEngine c).chain = none) :
    ∃ z tasks, exec (.copy ref v) s = .next (s.run fun _ => z) ∧ z = { y with q := { y.q with tasks := tasks } }
      ∧ ends z ref (if whole then 0 else 0x0201) (if whole then 0 else poisonDetail) := by
  have hlands := copy_lands (v := v) hfree h hzero hlen hsrc hdst hne haddr ho
  obtain ⟨x, hx, hphase⟩ := howns.task
  rw [hmoved] at hlands
  obtain ⟨hends, tasks, hrest⟩ := endTransfer_ends (c := c) (x := x) (by rw [State.task, htasks]; exact hx) hphase hychain
    (((y.copyEngine c).bytes - (o.copyEngine c).bytes) / 64) whole
  exact ⟨_, tasks, hlands, hrest, hends⟩

include hengines hchain

theorem copy_withinDram (hsrcDram : fieldOf b 0 8 < hostWindow) (hclean : s.mem.linePoisoned (fieldOf b 0 8 / 64) = false)
    (hdstDram : fieldOf b 8 8 < hostWindow) : ∃ t, exec (.copy ref v) s = .next t ∧ ends t ref 0 0
      ∧ t.mem = s.mem.write (fieldOf b 8 8) (s.mem.bytes (fieldOf b 0 8) 64)
      ∧ (t.copyEngine c).bytes = (s.copyEngine c).bytes + 64 ∧ (t.copyEngine c).owner = q.num ∧ t.grid = s.grid ∧ t.out = s.out := by
  have hc : c < s.q.engines.length := hengines.symm ▸ lt_of_freeCopyEngine hfree
  obtain ⟨o, ho⟩ : ∃ o, o = (s.withBlock ref b).setCopyEngine c fun e => { e with owner := q.num } := ⟨_, rfl⟩
  have howns : Owns s o ref u q c := ho ▸ owns_withBlock h hc
  obtain ⟨bs, hbs⟩ : ∃ bs, bs = s.mem.bytes (fieldOf b 0 8) 64 := ⟨_, rfl⟩
  obtain ⟨w, hw⟩ : ∃ w, w = o.wakeChannels.copyLine c (fieldOf b 8 8) bs := ⟨_, rfl⟩
  have hmoved : o.moveLines v (some q.pasid) c 1 (fieldOf b 0 8) (fieldOf b 8 8) = (w, true) := by
    rw [moveLines_one v (some q.pasid) hsrcDram hdstDram (by rw [howns.mem]; exact hclean), hw, hbs, howns.mem]
    rfl
  obtain ⟨hops, hgrid, hout, -, -, htasks, hengine⟩ := copyLine_moves o.wakeChannels c (fieldOf b 8 8) bs
  rw [← hw] at hops hgrid hout htasks hengine
  rw [State.wakeChannels_ops] at hops
  rw [State.wakeChannels_grid] at hgrid
  rw [State.wakeChannels_out] at hout
  rw [State.wakeChannels_q] at htasks hengine
  have hce : w.copyEngine c = { s.copyEngine c with owner := q.num, bytes := (s.copyEngine c).bytes + 64 } := by
    have hwake : o.wakeChannels.copyEngine c = o.copyEngine c := by
      rw [State.copyEngine, State.wakeChannels_q]
      rfl
    rw [hengine (howns.length.symm ▸ hc), hwake, howns.engine]
  obtain ⟨z, _, hexec, hrest, hends⟩ := copy_ends hfree h hzero hlen hsrc hdst hne haddr (v := v) ho howns hmoved htasks (by rw [hce]; exact hchain)
  have hzce : (s.run fun _ => z).copyEngine c = w.copyEngine c := by
    rw [State.run_copyEngine, hrest]
    rfl
  refine ⟨_, hexec, ends_run hends, ?_, ?_, ?_, ?_, ?_⟩
  · rw [← hbs]
    refine (run_mem_one (op := .write (fieldOf b 8 8) bs) ?_).trans rfl
    rw [hrest]
    exact hops.trans (by rw [howns.ops]; rfl)
  · rw [hzce, hce]
  · rw [hzce, hce]
  · rw [State.run_grid, hrest]
    exact hgrid.trans howns.grid
  · rw [State.run_out, hrest]
    exact hout.trans howns.out

theorem copy_toHost (hsrcDram : fieldOf b 0 8 < hostWindow) (hclean : s.mem.linePoisoned (fieldOf b 0 8 / 64) = false)
    (hdstHost : hostWindow ≤ fieldOf b 8 8) (htranslates : s.lineTranslates v (fieldOf b 8 8) = true) :
    ∃ t, exec (.copy ref v) s = .next t ∧ ends t ref 0 0 ∧ t.mem = s.mem ∧ t.grid = s.grid
      ∧ t.out = s.out ++ [.hostWrite (some q.pasid) (fieldOf b 8 8 - hostWindow) (s.mem.bytes (fieldOf b 0 8) 64) false] := by
  have hc : c < s.q.engines.length := hengines.symm ▸ lt_of_freeCopyEngine hfree
  obtain ⟨o, ho⟩ : ∃ o, o = (s.withBlock ref b).setCopyEngine c fun e => { e with owner := q.num } := ⟨_, rfl⟩
  have howns : Owns s o ref u q c := ho ▸ owns_withBlock h hc
  have hlink : s.host.link = 2 := linkUp_of_mayDispatch h.2.2.1
  obtain ⟨e, he⟩ : ∃ e, e = o.wakeChannels := ⟨_, rfl⟩
  obtain ⟨k, hk⟩ : ∃ k : State, k = { e with host := { e.host with
    atsCache := insertAsc ((fieldOf b 8 8 - hostWindow) / 4096) e.host.atsCache } } := ⟨_, rfl⟩
  obtain ⟨y, hy⟩ : ∃ y, y = (k.send (.hostWrite (some q.pasid) (fieldOf b 8 8 - hostWindow) (s.mem.bytes (fieldOf b 0 8) 64) false)).setCopyEngine c
    fun e => { e with bytes := e.bytes + 64 } := ⟨_, rfl⟩
  have hup : k.host.link = 2 := by
    have helink : e.host.link = 2 := by rw [he, State.wakeChannels_host, howns.host, hlink]
    rw [hk]
    exact helink
  have hmoved : o.moveLines v (some q.pasid) c 1 (fieldOf b 0 8) (fieldOf b 8 8) = (y, true) := by
    have hread : readAny s.mem v (fieldOf b 0 8) 64 = s.mem.bytes (fieldOf b 0 8) 64 := if_pos hsrcDram
    have hdstTranslates : o.lineTranslates v (fieldOf b 8 8) = true := by
      rw [State.lineTranslates, howns.host]
      exact htranslates
    have hsrcTranslates : o.lineTranslates v (fieldOf b 0 8) = true := by simp [State.lineTranslates, hsrcDram]
    have hkeep : (e.keepTranslation (fieldOf b 0 8)).keepTranslation (fieldOf b 8 8) = k := by
      rw [State.keepTranslation, if_neg (Nat.not_lt.mpr hdstHost), State.keepTranslation, if_pos hsrcDram, hk]
    unfold State.moveLines
    dsimp only
    rw [hsrcTranslates, hdstTranslates, if_neg (by simp), howns.mem, hread, hclean, Bool.and_false, if_pos hsrcDram, ← he, hkeep, State.putLine,
      if_neg (Nat.not_lt.mpr hdstHost), if_neg Bool.false_ne_true, State.hostWrite, if_pos hup, ← hy, State.moveLines]
  have hmoves : ∃ dram pow host es, y = { o with
      dram := dram, pow := pow, host := host, q := { o.q with engines := es }
      out := o.out ++ [.hostWrite (some q.pasid) (fieldOf b 8 8 - hostWindow) (s.mem.bytes (fieldOf b 0 8) 64) false] } := by
    obtain ⟨_, _, hwake⟩ := wakes_wakeChannels o
    rw [hy, hk, he, hwake]
    exact ⟨_, _, _, _, rfl⟩
  have hce : y.copyEngine c = { o.copyEngine c with bytes := (o.copyEngine c).bytes + 64 } := by
    have heq : e.q = o.q := by rw [he, State.wakeChannels_q]
    have hq : k.q = o.q := by rw [hk]; exact heq
    rw [hy, State.copyEngine_setCopyEngine_same (by rw [State.send, hq, howns.length]; exact hc), State.copyEngine, State.send, hq]
    rfl
  clear he hk hy hup
  obtain ⟨_, _, _, _, hyo⟩ := hmoves
  obtain ⟨z, _, hexec, hrest, hends⟩ := copy_ends hfree h hzero hlen hsrc hdst hne haddr (v := v) ho howns hmoved (by rw [hyo])
    (by rw [hce, howns.engine]; exact hchain)
  refine ⟨_, hexec, ends_run hends, ?_, ?_, ?_⟩
  · refine run_mem_of_no_ops ?_
    rw [hrest, hyo]
    exact howns.ops
  · rw [State.run_grid, hrest, hyo]
    exact howns.grid
  · rw [State.run_out, hrest, hyo, ← howns.out]

omit hengines in
theorem copy_unmapped (hdstHost : s.lineTranslates v (fieldOf b 8 8) = false) (hc : c < s.q.engines.length) :
    ∃ t, exec (.copy ref v) s = .next t ∧ ends t ref 0x0201 0xFFFFFFFF ∧ t.mem = s.mem ∧ t.out = s.out := by
  obtain ⟨o, ho⟩ : ∃ o, o = (s.withBlock ref b).setCopyEngine c fun e => { e with owner := q.num } := ⟨_, rfl⟩
  have howns : Owns s o ref u q c := ho ▸ owns_withBlock h hc
  have hmoved : o.moveLines v (some q.pasid) c 1 (fieldOf b 0 8) (fieldOf b 8 8) = (o, false) := by
    have hdstStays : o.lineTranslates v (fieldOf b 8 8) = false := by
      rw [State.lineTranslates, howns.host]
      exact hdstHost
    unfold State.moveLines
    rw [hdstStays, if_pos (by simp)]
  obtain ⟨z, _, hexec, hrest, hends⟩ := copy_ends hfree h hzero hlen hsrc hdst hne haddr (v := v) ho howns hmoved rfl
    (by rw [howns.engine]; exact hchain)
  refine ⟨_, hexec, ends_run hends, ?_, ?_⟩
  · refine run_mem_of_no_ops ?_
    rw [hrest]
    exact howns.ops
  · rw [State.run_out, hrest]
    exact howns.out

end

/-! ### RANDOM_FILL -/

section
variable (h : dispatched s ref u q 0x0012 64 b)
include h

/-- The form that a RANDOM_FILL's block names. -/
theorem fillForm_dispatched : ({ s with ops := [] } : State).fillForm ref = some (fieldOf b 0 1) := by
  obtain ⟨hu, -, -, -, -, hparam, -, hb⟩ := h
  have hu' : ({ s with ops := [] } : State).task ref = some u := hu
  have hfield : s.mem.field u.param 1 = fieldOf b 0 1 := by
    rw [Mem.field, fieldOf, ← hb, Mem.bytes, Mem.bytes, List.drop_zero, ← List.map_take, List.take_range]
    rfl
  rw [State.fillForm, hu', Option.map_some, if_pos hparam]
  exact congrArg some hfield

omit hfree h in
theorem fill_line {s : State} {q : Queue} {dst : Nat} (hdst : dst < hostWindow) {bs : List Byte} (hlen : bs.length = 64) :
    s.fill v ref q c dst bs = ((s.setCopyEngine c fun e => { e with owner := q.num }).copyLine c dst bs).endTransfer ref c 1 true := by
  unfold State.fill
  rw [hlen, putLines_one v (some q.pasid) c hdst hlen]
  rfl

include hchain

omit hfree h in
/-- What the fill of one line leaves, where draws may have been taken for it. -/
theorem fill_ends {o : State} (howns : Owns s o ref u q c) (hc : c < s.q.engines.length) (dst : Nat) (bs : List Byte) (rng : Rng) (free : Nat) :
    ∃ z, z = (({ o with rng := rng, free := free } : State).copyLine c dst bs).endTransfer ref c 1 true ∧ ends z ref 0 0 ∧ z.ops = [.write dst bs]
      ∧ z.grid = s.grid ∧ z.free = free ∧ z.rng = rng := by
  obtain ⟨x, hx, hphase⟩ := howns.task
  obtain ⟨w, hw⟩ : ∃ w : State, w = { o with rng := rng, free := free } := ⟨_, rfl⟩
  have hops : w.ops = [] := by rw [hw]; exact howns.ops
  have hgrid : w.grid = s.grid := by rw [hw]; exact howns.grid
  have hfree : w.free = free := by rw [hw]
  have hrng : w.rng = rng := by rw [hw]
  have hwx : w.task ref = some x := by rw [hw]; exact hx
  have hwlen : c < w.q.engines.length := by rw [hw]; exact howns.length.symm ▸ hc
  have hwchain : (w.copyEngine c).chain = none := by
    have hengine : w.copyEngine c = o.copyEngine c := by rw [hw]; rfl
    rw [hengine, howns.engine]
    exact hchain
  rw [← hw]
  clear hw
  obtain ⟨hyops, hygrid, -, hyfree, hyrng, hytasks, hyengine⟩ := copyLine_moves w c dst bs
  generalize w.copyLine c dst bs = y at *
  obtain ⟨hends, _, hrest⟩ := endTransfer_ends (y := y) (c := c) (x := x) (by rw [State.task, hytasks]; exact hwx) hphase
    (by rw [hyengine hwlen]; exact hwchain) 1 true
  exact ⟨_, rfl, hends, by rw [hrest]; exact hyops.trans (by rw [hops]; rfl), by rw [hrest]; exact hygrid.trans hgrid,
    by rw [hrest]; exact hyfree.trans hfree, by rw [hrest]; exact hyrng.trans hrng⟩

section
variable (hchecks : firstBlockFault (fillChecks b) = none) (hdst : fieldOf b 0x10 8 < hostWindow) (hform : fieldOf b 0 1 = 1)
  (haddr : s.addressFault q u [(0x10, fieldOf b 0x10 8, fieldOf b 0x20 8, true)] = none)
include hfree hchecks hform haddr

omit hengines hchain in
/-- A fill with DRBG bytes whose checks pass goes by the state of the entropy service. -/
theorem randomFillBytes_lands {o : State} (ho : o = s.withBlock ref b) : exec (.randomFillBytes ref v) s = .next (s.run fun _ =>
    if s.rng.state = 1 then (o.drawFill (fieldOf b 0x20 8)).2.fill v ref q c (fieldOf b 0x10 8) (o.drawFill (fieldOf b 0x20 8)).1
    else if s.rng.state = 0 then
      let w := (o.setCopyEngine c fun e => { e with owner := q.num, state := 1, task := some ref }).setTask ref fun t => { t with phase := .running }
      { w with rng := { w.rng with waiting := w.rng.waiting ++ [.fill ref] } }
    else o.endTask ref 0x0300 0) := by
  refine exec_lands rfl ?_
  rw [fillForm_dispatched h, hform, if_neg (fun hne => hne rfl), dispatchBlock_dispatched h rfl]
  dsimp only
  rw [hchecks]
  dsimp only
  rw [State.withBlock_addressFault, haddr, freeCopyEngine_withBlock, hfree, State.withBlock_rng, ho]

include hengines hchain

include hdst in
theorem randomFillBytes_ready (hready : s.rng.state = 1) (hlen : fieldOf b 0x20 8 = 64) : ∃ t, exec (.randomFillBytes ref v) s = .next t
    ∧ ends t ref 0 0 ∧ t.mem = s.mem.write (fieldOf b 0x10 8) ((List.range 64).map fun k => Config.drbgByte 1 (s.free + k))
    ∧ t.free = s.free + 64 ∧ t.rng.bytes = s.rng.bytes + 64 := by
  obtain ⟨o, ho⟩ : ∃ o, o = s.withBlock ref b := ⟨_, rfl⟩
  have hlands := randomFillBytes_lands (v := v) hfree h hchecks hform haddr ho
  rw [if_pos hready, hlen] at hlands
  have hc : c < s.q.engines.length := hengines.symm ▸ lt_of_freeCopyEngine hfree
  have howns : Owns s (o.setCopyEngine c fun e => { e with owner := q.num }) ref u q c := ho ▸ owns_withBlock h hc
  obtain ⟨rng, hdraw, hbytes⟩ := drawFill_draws o
  have hofree : o.free = s.free := howns.free
  have horng : o.rng = s.rng := howns.rng
  rw [hdraw, fill_line hdst (by simp), hofree] at hlands
  obtain ⟨z, hz, hends, hops, -, hzfree, hzrng⟩ := fill_ends hchain howns hc (fieldOf b 0x10 8)
    ((List.range 64).map fun k => Config.drbgByte 1 (s.free + k)) rng (s.free + 64)
  have hexec : exec (.randomFillBytes ref v) s = .next (s.run fun _ => z) := by rw [hz]; exact hlands
  refine ⟨_, hexec, ends_run hends, (run_mem_one hops).trans rfl, by rw [State.run_free]; exact hzfree, ?_⟩
  rw [State.run_rng, ← horng, ← hbytes]
  exact congrArg Rng.bytes hzrng

omit hchain in
theorem randomFillBytes_waits (hstarting : s.rng.state = 0) : ∃ t, exec (.randomFillBytes ref v) s = .next t
    ∧ t.rng.waiting = s.rng.waiting ++ [.fill ref] ∧ (t.copyEngine c).task = some ref ∧ (t.copyEngine c).state = 1 ∧ t.mem = s.mem := by
  obtain ⟨o, ho⟩ : ∃ o, o = s.withBlock ref b := ⟨_, rfl⟩
  have hlands := randomFillBytes_lands (v := v) hfree h hchecks hform haddr ho
  rw [if_neg (by rw [hstarting]; decide), if_pos hstarting] at hlands
  have hc : c < s.q.engines.length := hengines.symm ▸ lt_of_freeCopyEngine hfree
  have horng : o.rng = s.rng := by rw [ho, State.withBlock_rng]
  have hoops : o.ops = [] := by rw [ho, State.withBlock_ops]
  have holen : c < o.q.engines.length := by
    obtain ⟨_, _, _, hmoves⟩ := withBlock_moves s ref b
    rw [ho, hmoves]
    exact hc
  clear ho
  obtain ⟨w, hw⟩ : ∃ w, w = o.setCopyEngine c fun e => { e with owner := q.num, state := 1, task := some ref } := ⟨_, rfl⟩
  have hwrng : w.rng = s.rng := by rw [hw]; exact horng
  have hwops : w.ops = [] := by rw [hw]; exact hoops
  have hce : w.copyEngine c = { o.copyEngine c with owner := q.num, state := 1, task := some ref } := by
    rw [hw, State.copyEngine_setCopyEngine_same holen]
  rw [← hw] at hlands
  obtain ⟨z, hz⟩ : ∃ z : State, z = { w.setTask ref (fun t => { t with phase := .running }) with
    rng := { w.rng with waiting := w.rng.waiting ++ [.fill ref] } } := ⟨_, rfl⟩
  have hzce : z.copyEngine c = w.copyEngine c := by rw [hz]; rfl
  have hexec : exec (.randomFillBytes ref v) s = .next (s.run fun _ => z) := by rw [hz]; exact hlands
  refine ⟨_, hexec, ?_, ?_, ?_, run_mem_of_no_ops (by rw [hz]; exact hwops)⟩
  · rw [State.run_rng, hz, ← hwrng]
  · rw [State.run_copyEngine]
    exact (congrArg CopyEngine.task hzce).trans (by rw [hce])
  · rw [State.run_copyEngine]
    exact (congrArg CopyEngine.state hzce).trans (by rw [hce])

omit hengines hchain in
theorem randomFillBytes_fails (hfailed : 2 ≤ s.rng.state) : ∃ t, exec (.randomFillBytes ref v) s = .next t ∧ ends t ref 0x0300 0 ∧ t.mem = s.mem
    ∧ t.free = s.free := by
  obtain ⟨o, ho⟩ : ∃ o, o = s.withBlock ref b := ⟨_, rfl⟩
  have hlands := randomFillBytes_lands (v := v) hfree h hchecks hform haddr ho
  rw [if_neg (by omega), if_neg (by omega)] at hlands
  have hends : ends (o.endTask ref 0x0300 0) ref 0x0300 0 := ho ▸ ends_withBlock h 0x0300 0
  have hops : o.ops = [] := by rw [ho, State.withBlock_ops]
  have hofree : o.free = s.free := by rw [ho, State.withBlock_free]
  exact ⟨_, hlands, ends_run hends, run_mem_of_no_ops hops, (State.run_free ..).trans hofree⟩
end

/-! ### State vectors -/

include hfree hengines hchain

/-- A fill with one replica's state vector whose checks pass. -/
theorem randomFillStates_writes (hchecks : firstBlockFault (fillChecks b) = none) (hdst : fieldOf b 0x10 8 < hostWindow)
    (hform : fieldOf b 0 1 = 0) (hcount : fieldOf b 0x1C 4 = 1) {g : Reader} (hg : g = imageAt s.mem u.pattern) {hd : Header} (hhd : hd = readHeader g)
    {dir : List (Nat × Nat × Nat)} (hdir : dir = readDirectory g hd)
    (hbytes : stateBytes hd.nVars = 64) (haddr : s.addressFault q u [(0x10, fieldOf b 0x10 8, 64, true)] = none) (hlen : 256 ≤ u.patternLen)
    (hilen : hd.imageLen ≤ u.patternLen) (hpattern : u.pattern < hostWindow) (hclean : s.mem.poisonIn u.pattern hd.imageLen = false)
    (hfaults : lowestFault (imageFaults s u.pattern hd false ++ (placementChecks g hd dir fun _ => decide (hd.shards ≤ 1)).1) = none) :
    ∃ t, exec (.randomFillStates ref v) s = .next t ∧ ends t ref 0 0
      ∧ t.mem = s.mem.write (fieldOf b 0x10 8) (packState (randomState hd
          (fun n => (placementChecks g hd dir fun _ => decide (hd.shards ≤ 1)).2.any fun x => x.var == n && x.bias)
          (readGroups g hd dir) (fieldOf b 8 8) (fieldOf b 0x18 4)))
      ∧ t.free = s.free ∧ t.grid = s.grid := by
  obtain ⟨o, ho⟩ : ∃ o, o = s.withBlock ref b := ⟨_, rfl⟩
  have hc : c < s.q.engines.length := hengines.symm ▸ lt_of_freeCopyEngine hfree
  have howns : Owns s (o.setCopyEngine c fun e => { e with owner := q.num }) ref u q c := ho ▸ owns_withBlock h hc
  have homem : o.mem = s.mem := howns.mem
  have hoaddr : o.addressFault q u [(0x10, fieldOf b 0x10 8, 64, true)] = none := by rw [ho, State.withBlock_addressFault]; exact haddr
  have hofree : o.freeCopyEngine = some c := by rw [ho, freeCopyEngine_withBlock, hfree]
  have hofaults : imageFaults o u.pattern hd false = imageFaults s u.pattern hd false := imageFaults_congr homem _ _
  obtain ⟨bs, hbs⟩ : ∃ bs, bs = packState (randomState hd
    (fun n => (placementChecks g hd dir fun _ => decide (hd.shards ≤ 1)).2.any fun x => x.var == n && x.bias)
    (readGroups g hd dir) (fieldOf b 8 8) (fieldOf b 0x18 4)) := ⟨_, rfl⟩
  have hbslen : bs.length = 64 := by
    rw [hbs, length_packState, ← hbytes]
    simp [randomState]
  have hlands : exec (.randomFillStates ref v) s = .next (s.run fun _ => o.fill v ref q c (fieldOf b 0x10 8) bs) := by
    refine exec_lands rfl ?_
    rw [fillForm_dispatched h, hform, if_neg (by simp), dispatchBlock_dispatched h rfl, ← ho]
    dsimp only
    rw [hchecks]
    dsimp only
    rw [homem, ← hg, ← hhd, hcount, hbytes, Nat.one_mul, hoaddr, hofree]
    dsimp only
    rw [if_neg (by omega), if_neg (Nat.not_le.mpr hpattern), hclean, if_neg Bool.false_ne_true, hofaults, ← hdir, hfaults]
    dsimp only
    rw [hbs]
    have hone : List.range 1 = [0] := rfl
    rw [hone, List.flatMap_singleton, Nat.add_zero]
  rw [fill_line hdst hbslen] at hlands
  obtain ⟨z, hz, hends, hops, hgrid, hzfree, -⟩ := fill_ends hchain howns hc (fieldOf b 0x10 8) bs o.rng o.free
  have hexec : exec (.randomFillStates ref v) s = .next (s.run fun _ => z) := by rw [hz]; exact hlands
  have hofreeDraws : o.free = s.free := howns.free
  have hmem : (s.run fun _ => z).mem = s.mem.write (fieldOf b 0x10 8) bs := run_mem_one hops
  exact ⟨_, hexec, ends_run hends, by rw [hmem, hbs], by rw [State.run_free, hzfree, hofreeDraws], by rw [State.run_grid]; exact hgrid⟩

end
end

/-- Settles O48: one line through `State.moveLines` or `State.putLines`, or the wait for the entropy service. -/
theorem copiesAndFillsWriteTheirLines : Obligations.CopiesAndFillsWriteTheirLines := by
  unfold Obligations.CopiesAndFillsWriteTheirLines
  intro s v ref u q b c hfree hengines hchain
  have hc : c < s.q.engines.length := hengines.symm ▸ lt_of_freeCopyEngine hfree
  refine ⟨fun h hzero hlen hsrc hdst hne hsrcDram hclean haddr => ⟨fun hdstDram => ?_, fun hdstHost htranslates => ?_, fun _ hunmapped => ?_⟩,
    fun h hchecks hdst => ⟨fun hform haddr => ⟨fun hready hlen => ?_, fun hstarting => ?_, fun hfailed => ?_⟩, ?_⟩⟩
  · exact copy_withinDram hfree hengines hchain h hzero hlen hsrc hdst hne haddr hsrcDram hclean hdstDram
  · exact copy_toHost hfree hengines hchain h hzero hlen hsrc hdst hne haddr hsrcDram hclean hdstHost htranslates
  · exact copy_unmapped hfree hchain h hzero hlen hsrc hdst hne haddr hunmapped hc
  · exact randomFillBytes_ready hfree hengines hchain h hchecks hdst hform haddr hready hlen
  · exact randomFillBytes_waits hfree hengines h hchecks hform haddr hstarting
  · exact randomFillBytes_fails hfree h hchecks hform haddr hfailed
  · intro g hd dir hform hcount hbytes haddr hlen hilen hpattern hclean hfaults
    exact randomFillStates_writes hfree hengines hchain h hchecks hdst hform hcount rfl rfl rfl hbytes haddr hlen hilen hpattern hclean hfaults

end Sys2Proof.Machine
end

section
/-! SUPPORT. LOAD_PATTERN: its check phase, and its array phase where no core is found failed. -/

namespace Sys2Proof.Machine

/-! ### The check phase reads what waking channels leave -/

theorem length_filter_modifyAt {α : Type} {p : α → Bool} {f : α → α} {i : Nat} {xs : List α} (h : ∀ x, xs[i]? = some x → p (f x) = p x) :
    ((modifyAt f i xs).filter p).length = (xs.filter p).length := by
  induction xs generalizing i with
  | nil => cases i <;> rfl
  | cons x xs ih =>
    cases i with
    | zero =>
      rw [modifyAt, List.filter_cons, List.filter_cons, h x rfl]
      split <;> simp
    | succ i =>
      rw [modifyAt, List.filter_cons, List.filter_cons]
      split
      · rw [List.length_cons, List.length_cons, ih h]
      · exact ih h

/-- A channel in self-refresh serves as one that is awake does. -/
theorem channelsServing_wakeChannels (s : State) : s.wakeChannels.channelsServing = s.channelsServing := by
  have hfold : ∀ (cs : List Nat) (s : State), (cs.foldl (fun s c =>
      if (s.channel c).state = 3 then
        (s.setChannel c fun ch => { ch with state := 2 }).setDomain (98 + c) fun d => { d with state := 2, wakes := (d.wakes + 1) % 2 ^ 32 }
      else s) s).channelsServing = s.channelsServing := by
    intro cs
    induction cs with
    | nil => exact fun _ => rfl
    | cons c cs ih =>
      intro s
      rw [List.foldl_cons, ih]
      split
      case isTrue hasleep =>
        refine length_filter_modifyAt (p := fun c : Channel => c.state == 2 || c.state == 3) fun x hx => ?_
        have hstate : x.state = 3 := by
          rw [State.channel, List.getD_eq_getElem?_getD, hx] at hasleep
          exact hasleep
        simp [hstate]
      case isFalse => rfl
  exact hfold _ s

theorem checkPhase_congr {s t : State} (hmem : t.mem = s.mem) (hfw : t.fw = s.fw) (hengine : ∀ e, t.engine e = s.engine e)
    (hfast : t.pow.fastOk = s.pow.fastOk) (hmirrored : t.dram.mirrored = s.dram.mirrored) (hserving : t.channelsServing = s.channelsServing)
    (addr mask : Nat) : checkPhase t addr mask = checkPhase s addr mask := by
  unfold checkPhase imageFaults spoolFault State.fwiMinor
  simp only [hmem, hfw, hengine, hfast, hmirrored, hserving]

theorem checkPhase_withBlock (s : State) (ref : TaskRef) (b : List Byte) (addr mask : Nat) :
    checkPhase (s.withBlock ref b) addr mask = checkPhase s addr mask := by
  have hserving : (s.withBlock ref b).channelsServing = s.channelsServing := by
    have hwake : ({ s with ops := [] } : State).wakeChannels.channelsServing = s.channelsServing := channelsServing_wakeChannels _
    rw [← hwake, State.withBlock]
    generalize ({ s with ops := [] } : State).wakeChannels = w
    rfl
  obtain ⟨_, _, _, hmoves⟩ := withBlock_moves s ref b
  refine checkPhase_congr ?_ ?_ (State.withBlock_engine s ref b) ?_ ?_ hserving addr mask
  · rw [hmoves]
  · rw [hmoves]
  · rw [hmoves]
  · rw [hmoves]

theorem wakeEngines_moves (s : State) (es : List Nat) : ∃ domains, s.wakeEngines es = { s with pow := { s.pow with domains := domains } } := by
  have hfold : ∀ (ds : List Nat) (s : State), ∃ domains, ds.foldl State.wakeDomain s = { s with pow := { s.pow with domains := domains } } := by
    intro ds
    induction ds with
    | nil => exact fun _ => ⟨_, rfl⟩
    | cons d ds ih =>
      intro s
      obtain ⟨domains, h⟩ := ih (s.wakeDomain d)
      exact ⟨domains, h⟩
  exact hfold _ s

/-! ### The end of a load -/

theorem length_reportBytes (code phase detail : Nat) (e0 : Int) (outliers maxRes : Nat) (residues : List Nat) (id : Nat) :
    (reportBytes code phase detail e0 outliers maxRes residues id).isEmpty = false := by
  rw [reportBytes, List.isEmpty_eq_false_iff]
  simp [toBytesLE]

@[simp] theorem State.writeDram_q (s : State) (a : Nat) (bs : List Byte) : (s.writeDram a bs).q = s.q := by
  obtain ⟨_, _, hwake⟩ := wakes_wakeChannels s
  unfold State.writeDram State.write
  rw [hwake]
  split
  · rfl
  · rfl

/-- A load that ends writes its report and retires its task; no engine, pattern or load moves. -/
theorem endLoad_ends {s : State} {ref : TaskRef} {u : Task} (hu : s.task ref = some u) (hphase : u.phase = .waiting ∨ u.phase = .running)
    (report code phase detail id : Nat) :
    ends (s.endLoad ref report code phase detail id) ref (loadStatus code).1 (loadStatus code).2
      ∧ (s.endLoad ref report code phase detail id).grid = s.grid
      ∧ (s.endLoad ref report code phase detail id).ops = s.ops ++ [.write report (reportBytes code phase detail 0 0 0 [] id)] := by
  obtain ⟨w, hw⟩ : ∃ w, w = s.writeDram report (reportBytes code phase detail 0 0 0 [] id) := ⟨_, rfl⟩
  have hops : w.ops = s.ops ++ [.write report (reportBytes code phase detail 0 0 0 [] id)] := by
    rw [hw, writeDram_ops, length_reportBytes]
    rfl
  have hgrid : w.grid = s.grid := by rw [hw, State.writeDram_grid]
  have hwu : w.task ref = some u := by
    have hq : w.q = s.q := by rw [hw, State.writeDram_q]
    rw [State.task, hq]
    exact hu
  unfold State.endLoad
  dsimp only
  rw [← hw]
  exact ⟨ends_endTask hwu hphase, hgrid, hops⟩

/-- A dispatched load that ends has its report written, and its task ends. -/
theorem endLoad_lands {s : State} {ref : TaskRef} {u : Task} {q : Queue} {b : List Byte} {report : Nat} {c : Instr}
    (h : dispatched s ref u q 0x0010 32 b) {code phase detail id : Nat}
    (hexec : exec c s = .next (s.run fun _ => (s.withBlock ref b).endLoad ref report code phase detail id)) :
    ∃ t, exec c s = .next t ∧ ends t ref (loadStatus code).1 (loadStatus code).2 ∧ t.grid = s.grid
      ∧ t.mem = s.mem.write report (reportBytes code phase detail 0 0 0 [] id) := by
  obtain ⟨hu, -, hmay, -⟩ := h
  have hou := task_withBlock (b := b) hu
  obtain ⟨o, ho⟩ : ∃ o, o = s.withBlock ref b := ⟨_, rfl⟩
  have hogrid : o.grid = s.grid := by rw [ho, State.withBlock_grid]
  have hoops : o.ops = [] := by rw [ho, State.withBlock_ops]
  rw [← ho] at hexec hou
  obtain ⟨hends, hgrid, hops⟩ := endLoad_ends hou (.inl (waiting_of_mayDispatch hmay)) report code phase detail id
  rw [hoops, List.nil_append] at hops
  exact ⟨_, hexec, ends_run hends, by rw [State.run_grid]; exact hgrid.trans hogrid, run_mem_one hops⟩

section
variable {s : State} {ref : TaskRef} {u : Task} {q : Queue} {b : List Byte} (hcommit : (s.host.commit.any fun c => c.profile.isSome) = false)
  (h : dispatched s ref u q 0x0010 32 b) {addr report mask : Nat} (haddr : addr = fieldOf b 0 8) (hreport : report = fieldOf b 8 8)
  (hmask : mask = fieldOf b 0x10 8) (haddrLine : addr % 64 = 0) (hreportLine : report % 64 = 0) (hflags : fieldOf b 0x18 1 < 2)
  (hzero : fieldOf b 0x19 7 = 0) (haddrDram : addr < hostWindow) (hreportDram : report < hostWindow)
  (hgranted : s.addressFault q u [(0, addr, 512, false), (8, report, 64, true)] = none) (hregion : regionFault s q u.copy addr report mask = false)
include hcommit h haddr hreport hmask haddrLine hreportLine hflags hzero haddrDram hreportDram hgranted hregion

/-- A load whose parameter block and regions pass goes by its check phase. -/
theorem loadPattern_lands {o : State} (ho : o = s.withBlock ref b) : exec (.loadPattern ref) s = .next (s.run fun _ =>
    match lowestFault (checkPhase s addr mask) with
    | some f => o.endLoad ref report f.1 0 f.2 (bytesLE ((readHeader (imageAt s.mem addr)).hash.take 4))
    | none =>
      if natBit (fieldOf b 0x18 1) 0 then o.endLoad ref report 0x01 0 noDetail (bytesLE ((readHeader (imageAt s.mem addr)).hash.take 4))
      else
        let l : Load := { ref := ref, image := addr, report := report, shards := mask
                          engines := if (readHeader (imageAt s.mem addr)).shards ≤ 1 then bitsOf 8 (readHeader (imageAt s.mem addr)).mask else []
                          hash := (readHeader (imageAt s.mem addr)).hash }
        let w := { o with grid := { o.grid with loads := o.grid.loads ++ [l] } }.wakeEngines l.engines
        w.setTask ref fun t => { t with phase := .running }) := by
  have homem : o.mem = s.mem := by rw [ho, State.withBlock_mem]
  have hochecks : checkPhase o addr mask = checkPhase s addr mask := by rw [ho, checkPhase_withBlock]
  have hoaddr : o.addressFault q u [(0, addr, 512, false), (8, report, 64, true)] = none := by rw [ho, State.withBlock_addressFault]; exact hgranted
  have horegion : regionFault o q u.copy addr report mask = false := by
    rw [← hregion]
    unfold regionFault
    rw [homem]
  refine exec_lands rfl ?_
  have hcommit' : (({ s with ops := [] } : State).host.commit.any fun c => c.profile.isSome) = false := hcommit
  rw [hcommit', if_neg Bool.false_ne_true, dispatchBlock_dispatched h rfl, ← ho]
  dsimp only
  rw [← haddr, ← hreport, ← hmask, haddrLine, hreportLine, hzero]
  have hbit : decide (2 ≤ fieldOf b 0x18 1) = false := decide_eq_false (Nat.not_le.mpr hflags)
  have hnone : firstBlockFault [(0, (0 : Nat) != 0), (8, (0 : Nat) != 0), (0x18, false), (0x19, (0 : Nat) != 0)] = none := rfl
  rw [hbit, hnone]
  dsimp only
  rw [hoaddr]
  dsimp only
  rewrite [if_neg (by simp [Nat.not_le.mpr haddrDram, Nat.not_le.mpr hreportDram]), horegion, if_neg Bool.false_ne_true, hochecks, homem]
  cases lowestFault (checkPhase s addr mask) with
  | some f => rfl
  | none => rfl

theorem loadPattern_refuses {f : Nat × Nat} (hfault : lowestFault (checkPhase s addr mask) = some f) :
    ∃ t, exec (.loadPattern ref) s = .next t ∧ ends t ref (loadStatus f.1).1 (loadStatus f.1).2 ∧ t.grid = s.grid
      ∧ t.mem = s.mem.write report (reportBytes f.1 0 f.2 0 0 0 [] (bytesLE ((readHeader (imageAt s.mem addr)).hash.take 4))) := by
  have hlands := loadPattern_lands hcommit h haddr hreport hmask haddrLine hreportLine hflags hzero haddrDram hreportDram hgranted hregion rfl
  rw [hfault] at hlands
  exact endLoad_lands h hlands

theorem loadPattern_checks (hfault : lowestFault (checkPhase s addr mask) = none) (honly : natBit (fieldOf b 0x18 1) 0 = true) :
    ∃ t, exec (.loadPattern ref) s = .next t ∧ ends t ref 0 0 ∧ t.grid = s.grid
      ∧ t.mem = s.mem.write report (reportBytes 1 0 noDetail 0 0 0 [] (bytesLE ((readHeader (imageAt s.mem addr)).hash.take 4))) := by
  have hlands := loadPattern_lands hcommit h haddr hreport hmask haddrLine hreportLine hflags hzero haddrDram hreportDram hgranted hregion rfl
  rw [hfault] at hlands
  dsimp only at hlands
  rw [if_pos honly] at hlands
  exact endLoad_lands h hlands

theorem loadPattern_waits (hfault : lowestFault (checkPhase s addr mask) = none) (hload : natBit (fieldOf b 0x18 1) 0 = false) :
    ∃ (t : State) (l : Load) (x : Task), exec (.loadPattern ref) s = .next t ∧ t.grid.loads = s.grid.loads ++ [l] ∧ l.ref = ref ∧ l.image = addr
      ∧ l.report = report ∧ l.shards = mask ∧ l.hash = (readHeader (imageAt s.mem addr)).hash ∧ t.task ref = some x ∧ x.phase = .running
      ∧ t.mem = s.mem ∧ t.grid.patterns = s.grid.patterns := by
  obtain ⟨o, ho⟩ : ∃ o, o = s.withBlock ref b := ⟨_, rfl⟩
  have hlands := loadPattern_lands hcommit h haddr hreport hmask haddrLine hreportLine hflags hzero haddrDram hreportDram hgranted hregion ho
  have hou : o.task ref = some { u with block := b } := ho ▸ task_withBlock h.1
  have hogrid : o.grid = s.grid := by rw [ho, State.withBlock_grid]
  have hoops : o.ops = [] := by rw [ho, State.withBlock_ops]
  clear ho
  rw [hfault] at hlands
  dsimp only at hlands
  rw [hload, if_neg Bool.false_ne_true] at hlands
  obtain ⟨es, hes⟩ : ∃ es, es = if (readHeader (imageAt s.mem addr)).shards ≤ 1 then bitsOf 8 (readHeader (imageAt s.mem addr)).mask else [] :=
    ⟨_, rfl⟩
  rw [← hes] at hlands
  obtain ⟨l, hl⟩ : ∃ l : Load, l = { ref := ref, image := addr, report := report, shards := mask, engines := es
                                     hash := (readHeader (imageAt s.mem addr)).hash } := ⟨_, rfl⟩
  obtain ⟨w, hw⟩ : ∃ w : State, w = { o with grid := { o.grid with loads := o.grid.loads ++ [l] } } := ⟨_, rfl⟩
  obtain ⟨domains, hwake⟩ := wakeEngines_moves w es
  rw [← hl, ← hw, hwake] at hlands
  obtain ⟨y, hy⟩ : ∃ y : State, y = { w with pow := { w.pow with domains := domains } } := ⟨_, rfl⟩
  have hyu : y.task ref = some { u with block := b } := by rw [hy, hw]; exact hou
  have hyloads : y.grid.loads = s.grid.loads ++ [l] := by rw [hy, hw, hogrid]
  have hypatterns : y.grid.patterns = s.grid.patterns := by rw [hy, hw, hogrid]
  have hyops : y.ops = [] := by rw [hy, hw]; exact hoops
  rw [← hy] at hlands
  have hx : (y.setTask ref fun t => { t with phase := .running }).task ref = some { u with block := b, phase := .running } := by
    rw [State.task_setTask (f := fun t : Task => { t with phase := .running }) _ _ fun _ => rfl, hyu]
    rfl
  refine ⟨_, l, _, hlands, ?_, by rw [hl], by rw [hl], by rw [hl], by rw [hl], by rw [hl], by rw [State.run_task]; exact hx, rfl,
    run_mem_of_no_ops hyops, ?_⟩
  · rw [State.run_grid]
    exact hyloads
  · rw [State.run_grid]
    exact hypatterns
end

/-! ### The array phase -/

/-- The arrays of engines are made ready or cleared: what engines hold, and what a load reads, stands. -/
structure Lays (s t : State) : Prop where
  mem : t.mem = s.mem
  q : t.q = s.q
  ops : t.ops = s.ops
  loads : t.grid.loads = s.grid.loads
  patterns : t.grid.patterns = s.grid.patterns
  nextPattern : t.grid.nextPattern = s.grid.nextPattern
  length : t.grid.engines.length = s.grid.engines.length
  state : ∀ k, (t.engine k).state = (s.engine k).state
  pattern : ∀ k, (t.engine k).pattern = (s.engine k).pattern
  exhausted : ∀ k, (t.engine k).exhausted = (s.engine k).exhausted

section
variable {s t u : State}

theorem Lays.refl (s : State) : Lays s s := ⟨rfl, rfl, rfl, rfl, rfl, rfl, rfl, fun _ => rfl, fun _ => rfl, fun _ => rfl⟩

theorem Lays.trans (h : Lays s t) (k : Lays t u) : Lays s u :=
  ⟨k.mem.trans h.mem, k.q.trans h.q, k.ops.trans h.ops, k.loads.trans h.loads, k.patterns.trans h.patterns, k.nextPattern.trans h.nextPattern,
    k.length.trans h.length, fun e => (k.state e).trans (h.state e), fun e => (k.pattern e).trans (h.pattern e),
    fun e => (k.exhausted e).trans (h.exhausted e)⟩

theorem Lays.foldl {α : Type} {f : State → α → State} (h : ∀ s x, Lays s (f s x)) (xs : List α) (s : State) : Lays s (xs.foldl f s) := by
  induction xs generalizing s with
  | nil => exact .refl s
  | cons x xs ih => exact (h s x).trans (ih _)

theorem Reports.lays (h : Reports s t) : Lays s t :=
  ⟨h.mem, h.q, h.ops, by rw [h.grid], by rw [h.grid], by rw [h.grid], by rw [h.grid], fun k => by rw [h.engine], fun k => by rw [h.engine],
    fun k => by rw [h.engine]⟩

/-- A change of one engine that leaves its state, its pattern and its exhausted rows. -/
theorem engine_modifyAt_leaves {β : Type} {f : Engine → Engine} {field : Engine → β} (hf : ∀ g, field (f g) = field g) (gs : List Engine)
    (e k : Nat) : field ((modifyAt f e gs).getD k .reset) = field (gs.getD k .reset) := by
  by_cases hk : k = e
  · subst hk
    by_cases hlt : k < gs.length
    · rw [getD_modifyAt_same hlt, hf]
    · rw [List.getD_eq_default _ _ (by rw [length_modifyAt]; exact Nat.not_lt.mp hlt), List.getD_eq_default _ _ (Nat.not_lt.mp hlt)]
  · rw [getD_modifyAt_ne hk]

theorem lays_setEngine (s : State) (e : Nat) {f : Engine → Engine} (hstate : ∀ g, (f g).state = g.state) (hpattern : ∀ g, (f g).pattern = g.pattern)
    (hexhausted : ∀ g, (f g).exhausted = g.exhausted) : Lays s (s.setEngine e f) :=
  ⟨rfl, rfl, rfl, rfl, rfl, rfl, length_modifyAt .., engine_modifyAt_leaves hstate _ e, engine_modifyAt_leaves hpattern _ e,
    engine_modifyAt_leaves hexhausted _ e⟩

theorem lays_endRepair (s : State) (e : Nat) (tick : Option Nat) : Lays s (s.endRepair e tick) :=
  (lays_setEngine s e (f := fun g => { g with repaired := g.repaired ++ (s.engine e).toRepair }) (fun _ => rfl) (fun _ => rfl) fun _ => rfl).trans
    (reports_repairs s e tick).lays

theorem lays_clearCores (s : State) (e : Nat) (which : Nat → Nat → Bool) : Lays s (s.clearCores e which) :=
  ⟨rfl, rfl, rfl, rfl, rfl, rfl, length_modifyAt .., engine_modifyAt_leaves (field := Engine.state) (by exact fun _ => rfl) _ e,
    engine_modifyAt_leaves (field := Engine.pattern) (by exact fun _ => rfl) _ e,
    engine_modifyAt_leaves (field := Engine.exhausted) (by exact fun _ => rfl) _ e⟩

theorem lays_clearPlaces (s : State) (p : Pattern) : Lays s (s.clearPlaces p) := .foldl (fun s _ => lays_clearCores s _ _) _ _

/-- With no core found failed, the array phase begins by taking the engines' pattern. -/
theorem lays_beginArray (s : State) (es : List Nat) : Lays (s.unload es) (s.beginArray es []) :=
  .foldl (fun s e => (lays_endRepair s e none).trans (lays_setEngine _ e (f := fun g => { g with ledger := [[], []] }) (fun _ => rfl)
    (fun _ => rfl) fun _ => rfl)) _ _

theorem exhausted_unload (s : State) (es : List Nat) (k : Nat) : ((s.unload es).engine k).exhausted = (s.engine k).exhausted := by
  unfold State.unload State.engine
  dsimp only
  rw [List.getD_eq_getElem?_getD, List.getD_eq_getElem?_getD, List.getElem?_mapIdx]
  cases s.grid.engines[k]? with
  | none => rfl
  | some g =>
    dsimp only [Option.map_some, Option.getD_some]
    split
    · rfl
    · rfl

theorem exhausted_none (h : ∀ e ∈ s.grid.engines, e.exhausted = []) (k : Nat) : (s.engine k).exhausted = [] := by
  rw [State.engine, List.getD_eq_getElem?_getD]
  cases hk : s.grid.engines[k]? with
  | none => rfl
  | some g => exact h g (List.mem_of_getElem? hk)

/-- Engines that a change names, each once or more, end as the change makes them. -/
theorem engine_setEngines_some {es : List Nat} {f : Engine → Engine} {k : Nat} (hk : k ∈ es) (s : State) (hlt : k < s.grid.engines.length) :
    ∃ g, (s.setEngines es f).engine k = f g := by
  have hkeeps : ∀ (es : List Nat) (s : State), k < s.grid.engines.length → (∃ g, s.engine k = f g) → ∃ g, (s.setEngines es f).engine k = f g := by
    intro es
    induction es with
    | nil => exact fun _ _ h => h
    | cons e es ih =>
      intro s hlt hs
      refine ih (s.setEngine e f) (by rw [State.setEngine_grid]; exact (length_modifyAt ..).symm ▸ hlt) ?_
      by_cases he : k = e
      · exact ⟨_, by rw [he, State.engine_setEngine_same (he ▸ hlt)]⟩
      · rw [State.engine_setEngine_ne he]
        exact hs
  induction es generalizing s with
  | nil => exact absurd hk List.not_mem_nil
  | cons e es ih =>
    have hlt' : k < (s.setEngine e f).grid.engines.length := by rw [State.setEngine_grid]; exact (length_modifyAt ..).symm ▸ hlt
    obtain rfl | hk := List.mem_cons.mp hk
    · exact hkeeps es _ hlt' ⟨_, State.engine_setEngine_same hlt f⟩
    · exact ih hk _ hlt'
end

/-! ### What the array phase finds -/

theorem lowestFault_third {fs : List (Nat × Nat)} {d : Nat} (h : ∀ f ∈ fs, 3 ≤ f.1) : lowestFault ((3, d) :: fs) = some (3, d) := by
  have hmin : fs.foldl (fun m x => min m x.1) 3 = 3 := by
    induction fs with
    | nil => rfl
    | cons f fs ih =>
      have hf := h f List.mem_cons_self
      rw [List.foldl_cons, Nat.min_eq_left hf]
      exact ih fun x hx => h x (List.mem_cons_of_mem f hx)
  unfold lowestFault
  dsimp only
  rw [hmin]
  rfl

theorem chooseGroups_congr {s t : State} (hgrid : t.grid = s.grid) (e : Nat) : ∀ shards used, chooseGroups t e shards used = chooseGroups s e shards used
  | [], _ => rfl
  | shard :: rest, used => by
    have hfree : t.freeForLoad = s.freeForLoad := by
      funext k
      rw [State.freeForLoad, State.engine, hgrid]
      rfl
    unfold chooseGroups
    rw [hfree]
    split
    · rw [chooseGroups_congr hgrid e rest]
    · rfl

theorem loadPlaces_congr {s t : State} (hgrid : t.grid = s.grid) (h : Header) (l : Load) : loadPlaces t h l = loadPlaces s h l := by
  have hfree : t.freeForLoad = s.freeForLoad := by
    funext k
    rw [State.freeForLoad, State.engine, hgrid]
    rfl
  unfold loadPlaces
  rw [hfree, chooseGroups_congr hgrid]

/-- The state in which the array phase, no core having been found failed, has taken its engines. -/
def State.takeArray (s : State) (l : Load) (es : List Nat) (done : Nat) : State :=
  let s := s.beginArray es []
  let s := { s with grid := { s.grid with loads := s.grid.loads.filter fun x => x.ref != l.ref } }
  s.setTask l.ref fun t => { t with progress := done, engines := maskOf 8 es.contains }

/-- What the array phase leaves as it takes its engines. -/
structure Taken (s w : State) (l : Load) (u : Task) (es : List Nat) : Prop where
  loads : w.grid.loads = []
  mem : w.mem = s.mem
  ops : w.ops = []
  next : w.grid.nextPattern = s.grid.nextPattern
  length : w.grid.engines.length = 8
  task : ∃ x, w.task l.ref = some x ∧ x.phase = u.phase
  engine : ∀ e ∈ es, (w.engine e).state = 1 ∧ (w.engine e).pattern = none
  exhausted : ∀ k, (w.engine k).exhausted = (s.engine k).exhausted

theorem taken_takeArray {s : State} {l : Load} {u : Task} {es : List Nat} (hloads : s.grid.loads = [l]) (hu : s.task l.ref = some u)
    (hlen : s.grid.engines.length = 8) (hpowered : ∀ e ∈ es, e < 8 ∧ s.ready e = true) (done : Nat) :
    Taken s (({ s with ops := [] } : State).takeArray l es done) l u es := by
  obtain ⟨o, ho⟩ : ∃ o : State, o = { s with ops := [] } := ⟨_, rfl⟩
  have hogrid : o.grid = s.grid := by rw [ho]
  have homem : o.mem = s.mem := by rw [ho]
  have hoq : o.q = s.q := by rw [ho]
  have hoops : o.ops = [] := by rw [ho]
  have hoengine (k : Nat) : o.engine k = s.engine k := by rw [State.engine, hogrid]; rfl
  rw [← ho]
  unfold State.takeArray
  have hlays := lays_beginArray o es
  obtain ⟨y, hy⟩ : ∃ y, y = o.beginArray es [] := ⟨_, rfl⟩
  rw [← hy] at hlays ⊢
  have hyloads : y.grid.loads = [l] := hlays.loads.trans ((congrArg (·.loads) hogrid).trans hloads)
  have hyq : y.q = s.q := hlays.q.trans hoq
  have hyu : y.task l.ref = some u := by rw [State.task, hyq]; exact hu
  have hylen : y.grid.engines.length = 8 := by rw [hlays.length, length_engines_unload, hogrid, hlen]
  have hyengine : ∀ e ∈ es, (y.engine e).state = 1 ∧ (y.engine e).pattern = none := fun e he => by
    obtain ⟨hlt, hup⟩ := hpowered e he
    have hstate : (s.engine e).state ≠ 0 := by
      simp only [State.ready, Bool.and_eq_true, bne_iff_ne] at hup
      exact hup.1
    obtain ⟨_, hunload⟩ := engine_unload (s := o) he (by rw [hogrid, hlen]; exact hlt)
    rw [hlays.state, hlays.pattern, hunload, hoengine]
    exact ⟨if_neg hstate, rfl⟩
  have hyexhausted (k : Nat) : (y.engine k).exhausted = (s.engine k).exhausted := by rw [hlays.exhausted, exhausted_unload, hoengine]
  have hymem : y.mem = s.mem := hlays.mem.trans homem
  have hyops : y.ops = [] := hlays.ops.trans hoops
  have hynext : y.grid.nextPattern = s.grid.nextPattern := hlays.nextPattern.trans (congrArg (·.nextPattern) hogrid)
  clear hlays hy
  obtain ⟨z, hz⟩ : ∃ z : State, z = { y with grid := { y.grid with loads := y.grid.loads.filter fun x => x.ref != l.ref } } := ⟨_, rfl⟩
  have hzu : z.task l.ref = some u := by rw [hz]; exact hyu
  have hzloads : z.grid.loads = [] := by rw [hz, hyloads]; simp
  dsimp only
  rw [← hz]
  refine ⟨hzloads, ?_, ?_, ?_, ?_, ⟨{ u with progress := done, engines := maskOf 8 es.contains }, ?_, rfl⟩, fun e he => ?_, fun k => ?_⟩
  · rw [hz]
    exact hymem
  · rw [hz]
    exact hyops
  · rw [hz]
    exact hynext
  · rw [hz]
    exact hylen
  · rw [State.task_setTask (f := fun t : Task => { t with progress := done, engines := maskOf 8 es.contains }) _ _ fun _ => rfl, hzu]
    rfl
  · rw [hz]
    exact hyengine e he
  · rw [hz]
    exact hyexhausted k

section
variable {s : State} {l : Load} {u : Task} {places : List (Nat × Nat)} {h : Header} (hh : h = readHeader (imageAt s.mem l.image))
  {es : List Nat} (hes : es = enginesOf h places) (hlive : s.live = true) (hready : s.boot.ready = true) (hloads : s.grid.loads = [l])
  (hplaces : loadPlaces s h l = some places) (hpowered : ∀ e ∈ es, e < 8 ∧ s.ready e = true)
include hh hes hlive hready hloads hplaces hpowered

/-- The array phase of the only load, on engines that are free and ON. -/
theorem loadArrayPhase_lands {w : State} (hw : w = ({ s with ops := [] } : State).takeArray l es (h.imageLen / 64)) :
    exec (.loadArrayPhase l.ref []) s = .next (s.run fun _ =>
      match lowestFault (arrayFaults w l h places).1 with
      | some f => w.endLoad l.ref l.report f.1 1 f.2 (bytesLE (h.hash.take 4))
      | none =>
        let p := (arrayFaults w l h places).2
        let s := (w.clearPlaces p).writeDram l.report (loadedReport p (bytesLE (h.hash.take 4)))
        let s := { s with grid := { s.grid with patterns := s.grid.patterns ++ [p], nextPattern := p.id + 1 } }
        let s := s.setEngines es fun e => { e with pattern := some p.id, state := 2, progress := 0 }
        s.endTask l.ref 0 0) := by
  refine exec_lands_live rfl hlive ?_
  obtain ⟨o, ho⟩ : ∃ o : State, o = { s with ops := [] } := ⟨_, rfl⟩
  have hfind : (o.grid.loads.find? fun x => x.ref == l.ref) = some l := by rw [ho, hloads]; simp
  have hbefore : o.loadsBefore l = [] := by
    have holoads : o.grid.loads = [l] := by rw [ho]; exact hloads
    rw [State.loadsBefore, holoads]
    simp
  have homem : o.mem = s.mem := by rw [ho]
  have hoready : o.boot.ready = true := by rw [ho]; exact hready
  have hoplaces : loadPlaces o h l = some places := (loadPlaces_congr (s := s) (by rw [ho]) h l).trans hplaces
  have hopowered : es.all o.ready = true := by
    rw [List.all_eq_true, ho]
    exact fun e he => (hpowered e he).2
  rw [← ho, hfind]
  dsimp only
  rw [homem, ← hh, hbefore, hoready, if_neg (by simp), hoplaces]
  dsimp only
  rw [← ho] at hw
  unfold State.takeArray at hw
  dsimp only at hw
  rewrite [← hes, hopowered, if_neg (by simp), ← hw]
  cases lowestFault (arrayFaults w l h places).1 with
  | some f => rfl
  | none => rfl
end


/-! ### A load that is refused, and one that is placed -/

section
variable {s : State} {l : Load} {u : Task} {places : List (Nat × Nat)} {h : Header} (hh : h = readHeader (imageAt s.mem l.image))
  {es : List Nat} (hes : es = enginesOf h places) (hlive : s.live = true) (hready : s.boot.ready = true) (hloads : s.grid.loads = [l])
  (hplaces : loadPlaces s h l = some places) (hpowered : ∀ e ∈ es, e < 8 ∧ s.ready e = true) (hu : s.task l.ref = some u)
  (hphase : u.phase = .running) (hlen : s.grid.engines.length = 8) (hclean : s.mem.poisonIn l.image h.imageLen = false)
include hh hes hlive hready hloads hplaces hpowered hu hphase hlen hclean

theorem loadArrayPhase_refuses {here : Nat → Bool} (hhere : here = fun v => decide (h.shards ≤ 1)
      || (placementChecks (imageAt s.mem l.image) h (readDirectory (imageAt s.mem l.image) h) fun _ => true).2.any fun x =>
        x.var == v && places.any fun p => p.1 == x.shard)
    (hhash : imageHash s.mem l.image h.imageLen ≠ h.hash ∨ l.hash ≠ h.hash)
    (hlater : ∀ f ∈ (placeImage (imageAt s.mem l.image) h here).faults
      ++ (placedPlans (imageAt s.mem l.image) h places).flatMap (fun x => x.faults h.hash), 3 ≤ f.1) :
    ∃ t, exec (.loadArrayPhase l.ref []) s = .next t ∧ ends t l.ref 0x0202 3
      ∧ (∀ e ∈ es, (t.engine e).state = 1 ∧ (t.engine e).pattern = none) ∧ t.grid.loads = [] := by
  obtain ⟨w, hw⟩ : ∃ w, w = ({ s with ops := [] } : State).takeArray l es (h.imageLen / 64) := ⟨_, rfl⟩
  have hlands := loadArrayPhase_lands hh hes hlive hready hloads hplaces hpowered hw
  have htaken : Taken s w l u es := hw ▸ taken_takeArray hloads hu hlen hpowered (h.imageLen / 64)
  clear hw
  have hfault : lowestFault (arrayFaults w l h places).1 = some (3, noDetail) := by
    unfold arrayFaults
    dsimp only
    rw [htaken.mem, hclean, ← hhere]
    have hbad : (imageHash s.mem l.image h.imageLen != h.hash || imageHash s.mem l.image h.imageLen != l.hash) = true := by
      by_contra hgood
      simp only [Bool.not_eq_true, Bool.or_eq_false_iff, bne_eq_false_iff_eq] at hgood
      obtain ⟨hsame, hnamed⟩ := hgood
      exact hhash.elim (fun hne => hne hsame) fun hne => hne (hnamed.symm.trans hsame)
    rw [Bool.false_or, hbad, chk, if_pos rfl, List.append_assoc, List.append_assoc, List.singleton_append]
    refine lowestFault_third fun f hf => ?_
    obtain hplaced | hf := List.mem_append.mp hf
    · exact hlater f (List.mem_append_left _ hplaced)
    · obtain hplan | hspent := List.mem_append.mp hf
      · exact hlater f (List.mem_append_right _ hplan)
      · rw [chk] at hspent
        split at hspent
        · rw [List.mem_singleton.mp hspent]
          decide
        · exact absurd hspent List.not_mem_nil
  rw [hfault] at hlands
  obtain ⟨x, hx, hxphase⟩ := htaken.task
  obtain ⟨hends, hgrid, -⟩ := endLoad_ends hx (.inr (hxphase.trans hphase)) l.report 3 1 noDetail (bytesLE (h.hash.take 4))
  refine ⟨_, hlands, ends_run hends, fun e he => ?_, ?_⟩
  · rw [State.run_engine, State.engine, hgrid]
    exact htaken.engine e he
  · rw [State.run_grid]
    exact (congrArg (·.loads) hgrid).trans htaken.loads

theorem loadArrayPhase_places {here : Nat → Bool} (hhere : here = fun v => decide (h.shards ≤ 1)
      || (placementChecks (imageAt s.mem l.image) h (readDirectory (imageAt s.mem l.image) h) fun _ => true).2.any fun x =>
        x.var == v && places.any fun p => p.1 == x.shard)
    (hhash : imageHash s.mem l.image h.imageLen = h.hash) (hnamed : l.hash = h.hash)
    (hfound : (placeImage (imageAt s.mem l.image) h here).faults
      ++ (placedPlans (imageAt s.mem l.image) h places).flatMap (fun x => x.faults h.hash) = [])
    (hexhausted : ∀ e ∈ s.grid.engines, e.exhausted = []) :
    ∃ (t : State) (p : Pattern), exec (.loadArrayPhase l.ref []) s = .next t ∧ ends t l.ref 0 0 ∧ t.grid.loads = []
      ∧ p ∈ t.grid.patterns ∧ p.id = s.grid.nextPattern ∧ p.hash = h.hash ∧ p.cores = (placeImage (imageAt s.mem l.image) h here).cores
      ∧ (∀ e ∈ es, (t.engine e).state = 2 ∧ (t.engine e).pattern = some p.id) ∧ t.grid.nextPattern = s.grid.nextPattern + 1 := by
  obtain ⟨w, hw⟩ : ∃ w, w = ({ s with ops := [] } : State).takeArray l es (h.imageLen / 64) := ⟨_, rfl⟩
  have hlands := loadArrayPhase_lands hh hes hlive hready hloads hplaces hpowered hw
  have htaken : Taken s w l u es := hw ▸ taken_takeArray hloads hu hlen hpowered (h.imageLen / 64)
  clear hw
  obtain ⟨hplaced, hplans⟩ := List.append_eq_nil_iff.mp hfound
  have hfaults : (arrayFaults w l h places).1 = [] := by
    unfold arrayFaults
    dsimp only
    rw [htaken.mem, hclean, ← hhere, hplaced, hplans, hhash, hnamed]
    have hspent (rs : List (Nat × Nat)) : (rs.any fun r => (w.engine r.1).exhausted.contains r.2) = false := by
      rw [List.any_eq_false]
      intro r _
      rw [htaken.exhausted, exhausted_none hexhausted]
      simp
    rw [hspent]
    simp [chk]
  have hpattern : (arrayFaults w l h places).2 = buildPattern s.grid.nextPattern l.image (imageAt s.mem l.image) h places
      (placeImage (imageAt s.mem l.image) h here) := by
    unfold arrayFaults
    dsimp only
    rw [htaken.mem, htaken.next, ← hhere]
  obtain ⟨p, hp⟩ : ∃ p, p = (arrayFaults w l h places).2 := ⟨_, rfl⟩
  have hnone : lowestFault (arrayFaults w l h places).1 = none := by rw [hfaults]; rfl
  rw [hnone, ← hp] at hlands
  have hpid : p.id = s.grid.nextPattern := by rw [hp, hpattern]; rfl
  have hphash : p.hash = h.hash := by rw [hp, hpattern]; rfl
  have hpcores : p.cores = (placeImage (imageAt s.mem l.image) h here).cores := by rw [hp, hpattern]; rfl
  clear hp hpattern hfaults hnone
  have hclears := lays_clearPlaces w p
  obtain ⟨y, hy⟩ : ∃ y, y = (w.clearPlaces p).writeDram l.report (loadedReport p (bytesLE (h.hash.take 4))) := ⟨_, rfl⟩
  have hygrid : y.grid = (w.clearPlaces p).grid := by rw [hy, State.writeDram_grid]
  have hyq : y.q = w.q := by rw [hy, State.writeDram_q, hclears.q]
  dsimp only at hlands
  rw [← hy] at hlands
  clear hy
  obtain ⟨z, hz⟩ : ∃ z : State, z = { y with grid := { y.grid with patterns := y.grid.patterns ++ [p], nextPattern := p.id + 1 } } := ⟨_, rfl⟩
  have hzlen : z.grid.engines.length = 8 := by
    rw [hz]
    exact (congrArg (·.engines.length) hygrid).trans (hclears.length.trans htaken.length)
  have hzloads : z.grid.loads = [] := by
    rw [hz]
    exact (congrArg (·.loads) hygrid).trans (hclears.loads.trans htaken.loads)
  have hzpatterns : p ∈ z.grid.patterns := by rw [hz]; simp
  have hznext : z.grid.nextPattern = p.id + 1 := by rw [hz]
  have hzq : z.q = w.q := by rw [hz]; exact hyq
  obtain ⟨v, hv⟩ : ∃ v, v = z.setEngines es fun e => { e with pattern := some p.id, state := 2, progress := 0 } := ⟨_, rfl⟩
  have hvengine : ∀ e ∈ es, (v.engine e).state = 2 ∧ (v.engine e).pattern = some p.id := fun e he => by
    obtain ⟨g, hg⟩ := engine_setEngines_some (f := fun e : Engine => { e with pattern := some p.id, state := 2, progress := 0 }) he z
      (by rw [hzlen]; exact (hpowered e he).1)
    rw [hv, hg]
    exact ⟨rfl, rfl⟩
  obtain ⟨gs, hgs⟩ : ∃ gs, v = { z with grid := { z.grid with engines := gs } } := ⟨_, hv.trans (State.setEngines_eq ..)⟩
  obtain ⟨x, hx, hxphase⟩ := htaken.task
  have hvx : v.task l.ref = some x := by
    have hvq : v.q = w.q := by rw [hgs]; exact hzq
    rw [State.task, hvq]
    exact hx
  rw [← hz, ← hv] at hlands
  clear hv
  refine ⟨_, p, hlands, ends_run (ends_endTask hvx (.inr (hxphase.trans hphase))), ?_, ?_, hpid, hphash, hpcores, fun e he => ?_, ?_⟩
  · rw [State.run_grid]
    show v.grid.loads = []
    rw [hgs]
    exact hzloads
  · rw [State.run_grid]
    show p ∈ v.grid.patterns
    rw [hgs]
    exact hzpatterns
  · rw [State.run_engine]
    exact hvengine e he
  · rw [State.run_grid, ← hpid, ← hznext]
    show v.grid.nextPattern = _
    rw [hgs]

end

/-- Settles O49: the check phase reads what waking channels leave, so its first fault decides; the array phase of the only load takes its
engines (`State.takeArray`) and goes by the hash. -/
theorem patternsAreCheckedAndLoaded : Obligations.PatternsAreCheckedAndLoaded := by
  unfold Obligations.PatternsAreCheckedAndLoaded
  intro s
  refine ⟨fun ref u q b => ?_, fun l u places => ?_⟩
  · intro addr report mask id hcommit h haddrLine hreportLine hflags hzero haddrDram hreportDram hgranted hregion
    exact ⟨loadPattern_waits hcommit h rfl rfl rfl haddrLine hreportLine hflags hzero haddrDram hreportDram hgranted hregion,
      loadPattern_checks hcommit h rfl rfl rfl haddrLine hreportLine hflags hzero haddrDram hreportDram hgranted hregion,
      fun f => loadPattern_refuses hcommit h rfl rfl rfl haddrLine hreportLine hflags hzero haddrDram hreportDram hgranted hregion⟩
  · intro g h es here found hlive hready hloads hu hphase hlen hplaces hpowered hclean
    exact ⟨loadArrayPhase_refuses rfl rfl hlive hready hloads hplaces hpowered hu hphase hlen hclean rfl,
      loadArrayPhase_places rfl rfl hlive hready hloads hplaces hpowered hu hphase hlen hclean rfl⟩

end Sys2Proof.Machine
end

section
/-! SUPPORT. The device's control under the memory channels, the fault log, the headgate, tasks and loads. -/

namespace Sys2Proof.Machine

theorem control_ite {c : Prop} [Decidable c] {s t u : State} (ht : t.control = s.control) (hu : u.control = s.control) :
    (if c then t else u).control = s.control := by
  split
  · exact ht
  · exact hu

/-! ### Events, alerts and the fault log -/

@[simp] theorem control_occasions (s : State) (evs : List PlatformEvent) : (s.occasions evs).control = s.control := by
  unfold State.occasions
  split <;> rfl

@[simp] theorem control_alert (s : State) (bits : Byte) : (s.alert bits).control = s.control := control_ite rfl rfl

@[simp] theorem Nv.record_fuses (n : Nv) (e : LogEntry) : (n.record e).fuses = n.fuses := by
  have hwrite : ∀ (m : Nv) a bs, (m.write a bs).fuses = m.fuses := fun _ _ _ => rfl
  unfold Nv.record
  dsimp only
  rw [hwrite]
  split
  · rw [hwrite]
  · rfl

@[simp] theorem control_logFault (s : State) (kind source : Nat) (queue : Option Nat) (place : Nat) :
    (s.logFault kind source queue place).control = s.control := by
  unfold State.logFault
  dsimp only
  split
  · rw [control_occasions, control_alert, State.control, Nv.record_fuses]
    rfl
  · rfl

@[simp] theorem control_corrected (s : State) (source structure_ place : Nat) : (s.corrected source structure_ place).control = s.control := by
  unfold State.corrected
  dsimp only
  split
  · exact control_event ..
  · exact control_ite (control_event ..) rfl

/-! ### Reads of DRAM -/

@[simp] theorem control_noteDevice (s : State) (c line : Nat) (l : Location) (device : Nat) : (s.noteDevice c line l device).control = s.control :=
  control_ite ((control_logFault ..).trans (control_event ..)) rfl

@[simp] theorem control_noteErred (s : State) (c line : Nat) : (s.noteErred c line).control = s.control :=
  control_ite (control_ite ((control_logFault ..).trans ((control_event ..).trans (control_ite rfl rfl))) rfl) rfl

@[simp] theorem control_correctLine (s : State) (c line : Nat) (wrong : List Nat) : (s.correctLine c line wrong).control = s.control :=
  (control_noteErred ..).trans ((control_foldl (fun s _ => control_noteDevice s _ _ _ _) _ _).trans (control_corrected ..))

@[simp] theorem control_readLine (s : State) (c line : Nat) (error : LineError) : (s.readLine c line error).control = s.control :=
  control_ite rfl (control_ite (control_correctLine ..) (control_ite
    ((control_corrected ..).trans (control_ite rfl (control_correctLine ..)))
    ((control_logFault ..).trans ((control_event ..).trans (control_ite rfl rfl)))))

/-! ### Engines and their arrays -/

@[simp] theorem control_clearCores (s : State) (k : Nat) (which : Nat → Nat → Bool) : (s.clearCores k which).control = s.control := rfl
@[simp] theorem control_unload (s : State) (es : List Nat) : (s.unload es).control = s.control := rfl
@[simp] theorem control_wakeDomain (s : State) (d : Nat) : (s.wakeDomain d).control = s.control := rfl

@[simp] theorem control_wakeEngines (s : State) (es : List Nat) : (s.wakeEngines es).control = s.control := control_foldl control_wakeDomain _ _

@[simp] theorem control_reloadEngines (s : State) (es : List Nat) : (s.reloadEngines es).control = s.control := by
  unfold State.reloadEngines
  split <;> rfl

@[simp] theorem control_endRepair (s : State) (e : Nat) (tick : Option Nat) : (s.endRepair e tick).control = s.control :=
  control_foldl (fun s _ => control_event s _ _ _ _ _) _ _

@[simp] theorem control_takeBanks (s : State) (banks : List (Nat × Nat)) (e : Nat) : (s.takeBanks banks e).control = s.control := by
  refine control_foldl (fun s d => ?_) _ s
  split <;> rfl

@[simp] theorem control_settleCommit (s : State) : s.settleCommit.control = s.control := by
  unfold State.settleCommit
  split
  · exact control_ite rfl rfl
  · rfl

@[simp] theorem control_commitAtBoundary (s : State) (es : List Nat) : (s.commitAtBoundary es).control = s.control := by
  unfold State.commitAtBoundary
  split
  · exact (control_settleCommit _).trans (control_foldl (fun s _ => control_takeBanks s _ _) _ _)
  · rfl

/-! ### Queues, fences and tasks -/

@[simp] theorem control_setFence (s : State) (n : Nat) (f : Fence → Fence) : (s.setFence n f).control = s.control := rfl

@[simp] theorem control_noteWork (s : State) (n : Nat) : (s.noteWork n).control = s.control := by
  unfold State.noteWork
  split
  · exact control_ite rfl rfl
  · rfl

@[simp] theorem control_releaseSlot (s : State) (slot : Nat) : (s.releaseSlot slot).control = s.control := by
  unfold State.releaseSlot
  split
  · exact control_noteWork ..
  · rfl

theorem control_doorbell {f : Queue → State → State} (h : ∀ q s, (f q s).control = s.control) (s : State) (n : Nat) :
    (s.doorbell n f).control = s.control := by
  unfold State.doorbell
  split
  · split
    · exact h _ s
    · rfl
  · rfl

@[simp] theorem control_breakSignal (s : State) (t : Task) : (s.breakSignal t).control = s.control := by
  unfold State.breakSignal
  split
  · split
    · exact control_ite rfl rfl
    · rfl
  · rfl

@[simp] theorem control_addEnding (s : State) (t : Task) (status : Nat) : (s.addEnding t status).control = s.control := control_breakSignal ..

@[simp] theorem control_writeRecord (s : State) (h : HeldRecord) : (s.writeRecord h).control = s.control := by
  have hwrites : ((s.hostWrite (some h.pasid) (h.addr + 8) (h.bytes.drop 8)).hostWrite (some h.pasid) h.addr (h.bytes.take 8)).control
      = s.control := by simp
  exact control_ite ((control_signal ..).trans hwrites) hwrites

@[simp] theorem control_writeDone (s : State) (old new : Queue) : (s.writeDone old new).control = s.control := by
  unfold State.writeDone
  dsimp only
  split <;> split <;> simp

@[simp] theorem control_retire (s : State) (t : Task) (status detail : Nat) (fenceErr writes : Bool) :
    (s.retire t status detail fenceErr writes).control = s.control := by
  unfold State.retire
  split
  · rfl
  · refine control_ite rfl (control_ite (control_ite ?_ ?_) rfl)
    · simp
    · simp

theorem control_dispatch {f : Task → State → State} (h : ∀ t s, (f t s).control = s.control) (s : State) (ref : TaskRef) (opcode : Nat) :
    (s.dispatch ref opcode f).control = s.control := by
  unfold State.dispatch
  split
  · exact control_ite (h _ s) rfl
  · rfl

theorem control_dispatchBlock {f : Task → Queue → List Byte → State → State} (h : ∀ t q b s, (f t q b s).control = s.control) (s : State)
    (ref : TaskRef) (opcode : Nat) : (s.dispatchBlock ref opcode f).control = s.control := by
  refine control_dispatch (fun t s => ?_) s ref opcode
  split
  · split
    · exact control_endTask ..
    · dsimp only
      split
      · split
        · exact (h _ _ _ _).trans (control_setTask ..)
        · exact control_endTask ..
      · split
        · exact (control_endTask ..).trans (control_wakeChannels s)
        · exact (h _ _ _ _).trans ((control_setTask ..).trans (control_wakeChannels s))
  · rfl

/-! ### Loads and copies -/

@[simp] theorem control_endLoad (s : State) (r : TaskRef) (report code phase detail id : Nat) :
    (s.endLoad r report code phase detail id).control = s.control := by
  unfold State.endLoad
  exact (control_endTask ..).trans (control_writeDram ..)

@[simp] theorem control_fenceInLoad (s : State) (c : CoreAt) : (s.fenceInLoad c).control = s.control := by
  have hfence : ∀ (w : State) f, w.control = s.control → (w.setEngine c.die f).control = s.control := fun _ _ h => h
  have hlogged := (control_logFault (s.event 1 3 (sourceOf 1 c.die) none (zeroBytes 8 ++ toBytesLE 8 (coreNumber c))) 1 (sourceOf 1 c.die) none
    (coreNumber c)).trans (control_event ..)
  unfold State.fenceInLoad
  dsimp only
  generalize (s.event 1 3 (sourceOf 1 c.die) none (zeroBytes 8 ++ toBytesLE 8 (coreNumber c))).logFault 1 (sourceOf 1 c.die) none
    (coreNumber c) = w at *
  split
  · exact hfence _ _ ((control_logFault ..).trans (hfence _ _ hlogged))
  · exact hfence _ _ hlogged

@[simp] theorem control_beginArray (s : State) (es : List Nat) (found : List CoreAt) : (s.beginArray es found).control = s.control :=
  (control_foldl (f := fun s e => (s.endRepair e none).setEngine e fun g => { g with ledger := [[], []] })
    (fun s e => control_endRepair s e none) _ _).trans (control_foldl control_fenceInLoad _ _)

@[simp] theorem control_clearPlaces (s : State) (p : Pattern) : (s.clearPlaces p).control = s.control :=
  control_foldl (fun s _ => control_clearCores s _ _) _ _

@[simp] theorem control_moveLines (v : HostView) (pasid : Option Nat) (c n : Nat) (s : State) (src dst : Nat) :
    (s.moveLines v pasid c n src dst).1.control = s.control := by
  induction n generalizing s src dst with
  | zero => rfl
  | succ n ih =>
    unfold State.moveLines
    split
    · rfl
    · have hwake : (if src < hostWindow then s.wakeChannels else s).control = s.control := control_ite (control_wakeChannels s) rfl
      simp [ih, hwake]

end Sys2Proof.Machine
end

section
/-! SUPPORT. The device's control under runs: their start, their boundary, their end, and the mending of their engines. -/

namespace Sys2Proof.Machine

/-! ### Records, streams and messages -/

@[simp] theorem control_flood (s : State) (except : Option Nat) (m : PeerMsg) : (s.flood except m).control = s.control := (tells_flood s except m).control

@[simp] theorem control_sendFrame (s : State) (port type dest stream count first : Nat) (payload : List Byte) :
    (s.sendFrame port type dest stream count first payload).control = s.control := (serves_sendFrame ..).control

@[simp] theorem control_streamFor (s : State) (r : Run) (node stream dest kind : Nat) (bs : List Byte) :
    (s.streamFor r node stream dest kind bs).control = s.control := (serves_streamFor ..).control

@[simp] theorem control_publish (s : State) (ref : TaskRef) (state : Nat) : (s.publish ref state).control = s.control := (serves_publish ..).control

@[simp] theorem control_writeScores (s : State) (ref : TaskRef) (flush : Bool) : (s.writeScores ref flush).control = s.control :=
  (serves_writeScores ..).control

@[simp] theorem control_advanceInput (s : State) (ref : TaskRef) (n : Nat) : (s.advanceInput ref n).control = s.control :=
  (serves_advanceInput ..).control

@[simp] theorem control_flushRing (s : State) (ref : TaskRef) : (s.flushRing ref).control = s.control := (serves_flushRing ..).control
@[simp] theorem control_ringPut (s : State) (ref : TaskRef) (bs : List Byte) : (s.ringPut ref bs).control = s.control := (serves_ringPut ..).control

@[simp] theorem control_writeCheckpoint (s : State) (ref : TaskRef) (a : Nat) : (s.writeCheckpoint ref a).control = s.control :=
  (serves_writeCheckpoint ..).control

@[simp] theorem control_spoolOut (s : State) (r : Run) (p : Pattern) (k : Nat) : (s.spoolOut r p k).control = s.control := (serves_spoolOut ..).control
@[simp] theorem control_resetRings (s : State) (r : Run) (p : Pattern) : (s.resetRings r p).control = s.control := (serves_resetRings ..).control

@[simp] theorem control_castVote (s : State) (v : VoteMsg) : (s.castVote v).control = s.control := (control_flood ..).trans rfl
@[simp] theorem control_castSum (s : State) (m : SumMsg) : (s.castSum m).control = s.control := control_flood ..
@[simp] theorem control_forgetRun (s : State) (tag : DWord) : (s.forgetRun tag).control = s.control := rfl

@[simp] theorem control_writeSamples (s : State) (ref : TaskRef) : (s.writeSamples ref).control = s.control := by
  unfold State.writeSamples
  split
  · split
    · refine (control_setRun ..).trans (control_foldl (fun s x => ?_) _ _)
      split
      · exact (control_setRun ..).trans (control_ringPut ..)
      · rfl
    · rfl
  · rfl

/-! ### The states of a run -/

@[simp] theorem control_setRunState (s : State) (r : Run) (st cause detail kind : Nat) : (s.setRunState r st cause detail kind).control = s.control := by
  obtain ⟨_, _, _, hmoves⟩ := setRunState_moves s r st cause detail kind
  rw [hmoves]
  rfl

@[simp] theorem control_holdRun (s : State) (ref : TaskRef) (cause detail : Nat) : (s.holdRun ref cause detail).control = s.control := by
  unfold State.holdRun
  split
  · exact (control_foldl (fun s e => control_event s _ _ _ _ _) _ _).trans (control_setRunState ..)
  · rfl

@[simp] theorem control_goRun (s : State) (ref : TaskRef) : (s.goRun ref).control = s.control := by
  unfold State.goRun
  split
  · exact (control_foldl (fun s e => control_event s _ _ _ _ _) _ _).trans ((control_setRun ..).trans (control_setRunState ..))
  · rfl

theorem control_leaveScores (s : State) (r : Run) (ref : TaskRef) : (if r.part.isEmpty then s else s.writeScores ref true).control = s.control :=
  control_ite rfl (control_writeScores ..)

@[simp] theorem control_starveRun (s : State) (ref : TaskRef) (streams : List Nat) : (s.starveRun ref streams).control = s.control := by
  unfold State.starveRun
  split
  · exact (control_foldl (fun s e => control_event s _ _ _ _ _) _ _).trans
      ((control_leaveScores _ _ ref).trans ((control_setRun ..).trans (control_setRunState ..)))
  · rfl

@[simp] theorem control_pauseRun (s : State) (ref : TaskRef) (kind : Nat) : (s.pauseRun ref kind).control = s.control := by
  unfold State.pauseRun
  split
  · exact control_ite (control_setRunState ..) ((control_setRunState ..).trans ((control_publish ..).trans (control_leaveScores s _ ref)))
  · rfl

/-! ### The end of a run -/

@[simp] theorem control_dropCheckpoints (s : State) (r : Run) : (s.dropCheckpoints r).control = s.control := by
  refine control_foldl (fun s w => ?_) _ s
  split <;> rfl

@[simp] theorem control_releaseRun (s : State) (ref : TaskRef) (status detail : Nat) : (s.releaseRun ref status detail).control = s.control := by
  cases hr : s.run? ref with
  | none =>
    unfold State.releaseRun
    rw [hr]
  | some r =>
    obtain ⟨_, _, _, _, _, _, hmoves, -⟩ := releaseRun_moves hr status detail
    rw [hmoves]
    rfl

@[simp] theorem control_finishRun (s : State) (ref : TaskRef) (status detail state : Nat) :
    (s.finishRun ref status detail state).control = s.control := by
  unfold State.finishRun
  split
  · have hpublished (r : Run) : (((if r.part.isEmpty then s else s.writeScores ref true).publish ref state).dropCheckpoints r).control = s.control :=
      (control_dropCheckpoints ..).trans ((control_publish ..).trans (control_leaveScores s r ref))
    exact control_ite ((control_setRun ..).trans ((control_setRun ..).trans (hpublished _)))
      ((control_releaseRun ..).trans ((control_setRun ..).trans (hpublished _)))
  · rfl

@[simp] theorem control_leaveRun (s : State) (ref : TaskRef) : (s.leaveRun ref).control = s.control := by
  unfold State.leaveRun
  split
  · exact control_ite (control_flood ..) rfl
  · rfl

@[simp] theorem control_breakRun (s : State) (ref : TaskRef) (status detail state : Nat) : (s.breakRun ref status detail state).control = s.control :=
  (control_finishRun ..).trans (control_leaveRun ..)

@[simp] theorem control_cannotContinue (s : State) (ref : TaskRef) : (s.cannotContinue ref).control = s.control := by
  unfold State.cannotContinue
  split
  · exact control_ite (control_breakRun ..) (control_releaseRun ..)
  · rfl

/-! ### Row nine -/

@[simp] theorem control_makeSprouts (s : State) (ref : TaskRef) : (s.makeSprouts ref).1.control = s.control := by
  unfold State.makeSprouts
  split
  · rfl
  · split
    · exact (control_setRun ..).trans ((control_noteWork ..).trans (control_setQueue ..))
    · rfl

@[simp] theorem control_turnover (s : State) (ref : TaskRef) (t : Nat) : (s.turnover ref t).control = s.control := by
  unfold State.turnover
  split
  · split
    · exact control_ite ((control_setRun ..).trans (control_spoolOut ..)) rfl
    · rfl
  · rfl

@[simp] theorem control_firstClamps (s : State) (v : HostView) (ref : TaskRef) : (s.firstClamps v ref).control = s.control := by
  unfold State.firstClamps
  split
  · split
    · exact control_ite ((control_advanceInput ..).trans (control_setRun ..)) rfl
    · rfl
  · rfl

@[simp] theorem control_takeCheckpoints (s : State) (ref : TaskRef) : (s.takeCheckpoints ref).1.control = s.control := by
  unfold State.takeCheckpoints
  split
  · dsimp only
    split
    · rfl
    · rw [control_setRun]
      exact (control_foldl (f := fun s (c : TaskRef × Nat × Bool) => (s.writeCheckpoint ref c.2.1).endTask c.1 0 0)
        (fun s c => (control_endTask ..).trans (control_writeCheckpoint ..)) _ _).trans (control_pauseRun ..)
  · rfl

@[simp] theorem control_proceed (s : State) (v : HostView) (ref : TaskRef) : (s.proceed v ref).control = s.control := by
  unfold State.proceed
  split
  · rfl
  · split
    · rfl
    · have hmade := control_makeSprouts s ref
      exact control_ite (control_holdRun ..) (control_ite ((control_holdRun ..).trans hmade) (control_ite ((control_starveRun ..).trans hmade)
        (control_ite ((control_holdRun ..).trans hmade) ((control_goRun ..).trans ((control_firstClamps ..).trans hmade)))))

@[simp] theorem control_rowNine (s : State) (v : HostView) (ref : TaskRef) : (s.rowNine v ref).control = s.control := by
  have hflush := control_flushRing s ref
  unfold State.rowNine
  extract_lets w taken x
  have hw : w.control = s.control := hflush
  have hx : x.control = s.control := (control_takeCheckpoints ..).trans hw
  clear_value x taken w
  have hproceed : (w.proceed v ref).control = s.control := (control_proceed ..).trans hw
  split
  · exact hw
  · split
    · exact hw
    · refine control_ite hproceed ?_
      split
      · exact (control_breakRun ..).trans hw
      · refine control_ite ((control_finishRun ..).trans hw) (control_ite (control_ite ((control_finishRun ..).trans hw)
          ((control_breakRun ..).trans hw)) (control_ite ((control_starveRun ..).trans hw) ?_))
        extract_lets joined wanted audit land addrs
        have hland : ∀ kind as, (land kind as).control = s.control := fun kind as =>
          (control_setRun ..).trans ((control_foldl (fun s a => control_writeCheckpoint s ref a) _ _).trans ((control_pauseRun ..).trans hx))
        clear_value land
        have hproceed' : (x.proceed v ref).control = s.control := (control_proceed ..).trans hx
        split
        · exact control_ite (hland ..) (control_ite hx hproceed')
        · exact control_ite hproceed' (hland ..)
        · exact hland ..

end Sys2Proof.Machine
end

section
/-! SUPPORT. The device's control under the start of runs, hems, and what mends or gives up a run. -/

namespace Sys2Proof.Machine

/-! ### The start of a run -/

@[simp] theorem control_openRun (s : State) (ref : TaskRef) (p : Pattern) (cores : List Core) (r : Run) :
    (s.openRun ref p cores r).control = s.control := by
  unfold State.openRun
  dsimp only
  rw [control_setEngines]
  exact control_ite ((control_foldl (fun s k => control_spoolOut s _ _ k) _ _).trans (control_resetRings ..)) (control_resetRings ..)

@[simp] theorem control_beginRun (s : State) (v : HostView) (ref : TaskRef) : (s.beginRun v ref).control = s.control := by
  unfold State.beginRun
  split
  · rfl
  · split
    · rfl
    · extract_lets go
      have hgo : ∀ r cores s, (go r cores s).control = s.control := fun r cores s =>
        (control_rowNine (s.openRun ref _ cores r) v ref).trans (control_openRun ..)
      clear_value go
      split
      · split
        · exact hgo ..
        · exact control_holdRun ..
      · split
        · split
          · rfl
          · split
            · exact hgo ..
            · exact control_holdRun ..
        · split
          · exact hgo ..
          · exact hgo ..

@[simp] theorem control_castLaunch (s : State) (ref : TaskRef) : (s.castLaunch ref).control = s.control := by
  unfold State.castLaunch
  split
  · rfl
  · split
    · rfl
    · exact (control_castVote ..).trans (control_setRun ..)

@[simp] theorem control_joinRun (s : State) (ref : TaskRef) : (s.joinRun ref).control = s.control := rfl

@[simp] theorem control_decideLaunch (s : State) (v : HostView) (ref : TaskRef) : (s.decideLaunch v ref).control = s.control := by
  unfold State.decideLaunch
  split
  · rfl
  · split
    · rfl
    · exact control_ite rfl (control_ite (control_ite (control_setRunState ..) (control_holdRun ..))
        (control_ite ((control_beginRun ..).trans (control_joinRun ..)) rfl))

@[simp] theorem control_launchOrArm (s : State) (v : HostView) (ref : TaskRef) : (s.launchOrArm v ref).control = s.control := by
  unfold State.launchOrArm
  split
  · rfl
  · split
    · rfl
    · refine control_ite (control_beginRun ..) ?_
      extract_lets a w was x y old l z
      have hy : y.control = s.control := (control_foldl (fun s e => control_event s _ _ _ _ _) _ _).trans
        ((control_setEngines ..).trans (control_setRun ..))
      have hz : z.control = s.control := (control_flood ..).trans hy
      clear_value z
      exact control_ite (control_ite hz ((control_beginRun ..).trans ((control_joinRun ..).trans hz)))
        (control_ite ((control_decideLaunch ..).trans ((control_castLaunch ..).trans hz)) ((control_decideLaunch ..).trans hz))

@[simp] theorem control_tryStart (s : State) (v : HostView) (ref : TaskRef) : (s.tryStart v ref).control = s.control := by
  unfold State.tryStart
  split
  · rfl
  · split
    · split
      · exact control_holdRun ..
      · exact (control_launchOrArm ..).trans (control_setEngines ..)
    · rfl

@[simp] theorem control_withRecord (s : State) (ref : TaskRef) (r : Run) : (s.withRecord ref r).control = s.control :=
  (control_setTask ..).trans ((control_reloadEngines ..).trans ((control_setEngines ..).trans rfl))

@[simp] theorem control_startRun (s : State) (v : HostView) (ref : TaskRef) : (s.startRun v ref).control = s.control := by
  refine control_dispatchBlock (fun t q b s => ?_) s ref 1
  dsimp only
  split
  · exact control_endTask ..
  · split
    · exact control_endTask ..
    · split
      · exact control_endTask ..
      · split
        · exact control_endTask ..
        · split
          · exact control_endTask ..
          · split
            · exact control_endTask ..
            · exact (control_tryStart ..).trans (control_withRecord s ref _)

/-! ### Hems -/

@[simp] theorem control_hemDone (s : State) (r : Run) (p : Pattern) (h : Hem) : (s.hemDone r p h).control = s.control :=
  control_ite (control_event ..) rfl

@[simp] theorem control_takeHem (s : State) (ref : TaskRef) : (s.takeHem ref).control = s.control := by
  unfold State.takeHem
  split
  · rfl
  · split
    · rfl
    · refine control_ite rfl ((control_hemDone ..).trans ((control_foldl (fun s n => ?_) _ _).trans (control_setRun ..)))
      exact (control_streamFor ..).trans ((control_write ..).trans (control_writeDram ..))

@[simp] theorem control_rewindRun (s : State) (ref : TaskRef) (h : Hem) : (s.rewindRun ref h).control = s.control := by
  unfold State.rewindRun
  split
  · rfl
  · split
    · rfl
    · exact control_ite ((control_foldl (fun s k => control_spoolOut s _ _ k) _ _).trans rfl) rfl

@[simp] theorem control_rehostedEvents (s : State) (r : Run) (shards : List Nat) (t : Nat) : (s.rehostedEvents r shards t).control = s.control :=
  control_foldl (fun s _ => control_event s _ _ _ _ _) _ _

@[simp] theorem control_tellRewind (s : State) (r : Run) (t : Nat) : (s.tellRewind r t).control = s.control :=
  control_ite rfl ((control_flood ..).trans (control_forgetRun ..))

/-! ### A run is given up, or its engines are mended -/

@[simp] theorem control_giveUp (s : State) (ref : TaskRef) (core : Option Nat) (usable : Bool) : (s.giveUp ref core usable).control = s.control := by
  unfold State.giveUp
  split
  · rfl
  · split
    · rfl
    · dsimp only
      split
      · exact (control_rehostedEvents ..).trans ((control_rewindRun ..).trans ((control_tellRewind ..).trans (control_logFault ..)))
      · exact (control_cannotContinue ..).trans (control_logFault ..)

@[simp] theorem control_exhaust (s : State) (e : Nat) (rows : List Nat) (core : Option Nat) : (s.exhaust e rows core).control = s.control :=
  (control_unload ..).trans ((control_foldl (fun s _ => control_giveUp s _ _ _) _ _).trans (control_setEngine ..))

@[simp] theorem control_fenceCore (s : State) (ref : TaskRef) (tick core : Nat) (words fieldWords : List Nat) :
    (s.fenceCore ref tick core words fieldWords).control = s.control := by
  unfold State.fenceCore
  split
  · rfl
  · split
    · rfl
    · extract_lets e row spent x y z
      have hx : x.control = s.control := (control_logFault ..).trans (control_event ..)
      have hy : y.control = s.control := (control_setEngine ..).trans hx
      clear_value x y
      refine control_ite rfl (control_ite ((control_exhaust ..).trans ((control_logFault ..).trans hy)) (control_ite ?_ ?_))
      · exact (control_giveUp ..).trans ((control_endRepair ..).trans hy)
      · exact (control_setRun ..).trans ((control_foldl (fun s w => control_logFault s _ _ _ _) _ _).trans hy)

@[simp] theorem control_steer (s : State) (ref : TaskRef) (link : Nat) : (s.steer ref link).control = s.control :=
  control_ite ((control_foldl (fun s k => control_exhaust s k _ _) _ _).trans rfl) ((control_setRun ..).trans ((control_logFault ..).trans rfl))

@[simp] theorem control_correctWord (s : State) (ref : TaskRef) (tick : Nat) (c : Corrected) : (s.correctWord ref tick c).control = s.control := by
  unfold State.correctWord
  extract_lets e place x
  have hx : x.control = s.control := control_corrected ..
  clear_value x
  refine control_ite hx (control_ite (control_ite ((control_fenceCore ..).trans hx) ?_) hx)
  exact (control_logFault ..).trans ((control_event ..).trans hx)

@[simp] theorem control_correctAll (s : State) (ref : TaskRef) (r : Run) (cs : List Corrected) : (s.correctAll ref r cs).control = s.control :=
  control_foldl (fun s c => control_correctWord s _ _ c) _ _

@[simp] theorem control_noteReplay (s : State) (ref : TaskRef) (tick check : Nat) (core : Option Nat) :
    (s.noteReplay ref tick check core).control = s.control := by
  unfold State.noteReplay
  split
  · rfl
  · exact (control_event ..).trans (control_setRun ..)

@[simp] theorem control_noteLinks (s : State) (links : List Nat) : (s.noteLinks links).1.control = s.control := rfl
@[simp] theorem control_setRedo (s : State) (ref : TaskRef) (x : Redo) : (s.setRedo ref x).control = s.control := rfl

@[simp] theorem control_fenceRepeated (s : State) (ref : TaskRef) (tick : Nat) : (s.fenceRepeated ref tick).control = s.control := by
  unfold State.fenceRepeated
  split
  · rfl
  · refine control_foldl (fun s c => ?_) _ _
    exact (control_fenceCore ..).trans rfl

@[simp] theorem control_refuse (s : State) (ref : TaskRef) (tick slot noise : Nat) (faults : List TickFault) :
    (s.refuse ref tick slot noise faults).control = s.control := by
  have hfence (cs : List Nat) (w : State) : (cs.foldl (fun s c => s.fenceCore ref tick c [] []) w).control = w.control :=
    control_foldl (fun s c => control_fenceCore s _ _ _ _ _) _ _
  unfold State.refuse
  split
  · rfl
  · extract_lets faults first core x old next words residues differ links
    have hx : x.control = s.control := control_noteReplay ..
    clear_value x
    generalize hy : x.noteLinks links = y
    have hy : y.1.control = s.control := hy ▸ (control_noteLinks x links).trans hx
    have hredo (z : Redo) : (y.1.setRedo ref z).control = s.control := (control_setRedo ..).trans hy
    obtain ⟨y, again⟩ := y
    refine control_ite ((control_giveUp ..).trans hy) (control_ite ?_ (control_ite ((hfence ..).trans (hredo _)) (control_ite ?_
      (control_ite ((control_setRedo ..).trans hy) (control_ite ((hfence ..).trans (hredo _)) (hredo _))))))
    · exact (control_foldl (fun s w => control_fenceCore s _ _ _ _ _) _ _).trans (hredo _)
    · exact (control_foldl (fun s l => control_steer s _ l) _ _).trans (hredo _)

end Sys2Proof.Machine
end

section
/-! SUPPORT. The device's control under ticks and their boundaries, seal votes, step boundaries and the stopping of tasks. -/

namespace Sys2Proof.Machine

/-! ### Reads that wait, and spreads -/

@[simp] theorem control_answerHeld (s : State) : s.answerHeld.control = s.control := by
  unfold State.answerHeld
  split <;> rfl

@[simp] theorem control_answerRead (s : State) (ref : TaskRef) (slot : Option Nat) : (s.answerRead ref slot).control = s.control := by
  unfold State.answerRead
  split
  · rfl
  · split
    · exact control_ite (control_answerHeld _) rfl
    · exact control_answerHeld _

@[simp] theorem control_clearBanks (s : State) (r : Run) : (s.clearBanks r).control = s.control := control_setEngines ..

@[simp] theorem control_writeLedgers (s : State) (r : Run) (p : Pattern) (moves : List (Nat × Updates)) :
    (s.writeLedgers r p moves).control = s.control :=
  control_foldl (fun s _ => control_foldl (fun s _ => control_setEngine s _ _) _ s) _ _

@[simp] theorem control_sendFlits (s : State) (r : Run) (p : Pattern) (moves : List (Nat × Updates)) :
    (s.sendFlits r p moves).control = s.control := by
  refine control_foldl (fun s n => ?_) _ _
  split
  · rfl
  · split
    · rfl
    · exact control_foldl (fun s f => control_sendFrame s _ _ _ _ _ _ _) _ _

@[simp] theorem control_spread (s : State) (r : Run) (p : Pattern) (w : Work) : (s.spread r p w).control = s.control := by
  have h (m : List (Nat × Updates)) : ((s.clearBanks r).writeLedgers r p m).control = s.control :=
    (control_writeLedgers ..).trans (control_clearBanks ..)
  exact control_ite ((control_sendFlits ..).trans (h _)) (h _)

theorem control_of_takeFlit {s : State} {i : Nat} {y : List Byte × State} (h : s.takeFlit i = some y) : y.2.control = s.control := by
  unfold State.takeFlit at h
  obtain ⟨x, -, rfl⟩ := Option.map_eq_some_iff.mp h
  rfl

@[simp] theorem control_injectFlits (s : State) (r : Run) (p : Pattern) : (s.injectFlits r p).1.control = s.control := by
  unfold State.injectFlits
  split
  · rfl
  · refine List.foldlRecOn _ _ (motive := fun acc : State × Bool => acc.1.control = s.control) rfl fun acc hacc x _ => ?_
    split
    · exact hacc
    · rename_i htake
      have htake := (control_of_takeFlit htake).trans hacc
      split
      · exact (control_setEngine ..).trans htake
      · exact htake

@[simp] theorem control_countChoices (s : State) (ref : TaskRef) (n : Nat) : (s.countChoices ref n).control = s.control := rfl

@[simp] theorem control_takeLoose (s : State) (ref : TaskRef) : (s.takeLoose ref).control = s.control := by
  unfold State.takeLoose
  split
  · rfl
  · split
    · rfl
    · refine control_ite rfl (control_foldl (fun s f => ?_) _ _)
      split
      · extract_lets n t x y k new
        have hx : x.control = s.control := by
          unfold x
          split
          · exact control_of_takeFlit ‹_›
          · rfl
        have hy : y.control = s.control := hx
        clear_value y
        split
        · exact (control_countChoices ..).trans hy
        · exact hy
      · rfl

/-! ### Acting on a run -/

theorem control_withRun {s : State} {e : Nat} {f : Run → Pattern → State} (h : ∀ r p, (f r p).control = s.control) :
    (s.withRun e f).control = s.control := by
  unfold State.withRun
  split
  · split
    · exact h ..
    · rfl
  · rfl

theorem control_onRun {s : State} {ref : TaskRef} {f : Run → Pattern → State} (h : ∀ r p, (f r p).control = s.control) :
    (s.onRun ref f).control = s.control := by
  unfold State.onRun
  split
  · split
    · exact h ..
    · rfl
  · rfl

/-! ### The rows of a boundary -/

@[simp] theorem control_sealWork (s : State) (ref : TaskRef) (w : Work) : (s.sealWork ref w).control = s.control := by
  refine control_onRun fun r p => ?_
  split
  · exact (control_advanceInput ..).trans (control_setRun ..)
  · extract_lets spins x y g z
    have hx : x.control = s.control := (control_setRun ..).trans (control_countChoices ..)
    have hy : y.control = s.control := control_ite ((control_sendFlits ..).trans hx) hx
    have hz : z.control = s.control := hy
    clear_value y z
    exact control_ite hy (control_ite ((control_advanceInput ..).trans hz) hz)

@[simp] theorem control_countTick (s : State) (ref : TaskRef) : (s.countTick ref).control = s.control := by
  unfold State.countTick
  split
  · rfl
  · exact (control_setTask ..).trans ((control_setEngines ..).trans (control_setRun ..))

@[simp] theorem control_forgetVotes (s : State) (r : Run) : (s.forgetVotes r).control = s.control := rfl

@[simp] theorem control_advance (s : State) (ref : TaskRef) (commits : Bool) : (s.advance ref commits).control = s.control := by
  refine control_onRun fun r p => ?_
  extract_lets t settled s1 s2 s3 s4 s5 s6 s7 s8 s9
  have h2 : s2.control = s.control := rfl
  clear_value s2
  have h3 : s3.control = s.control := control_ite ((control_writeSamples ..).trans h2) h2
  clear_value s3
  have h4 : s4.control = s.control := control_ite ((control_writeScores ..).trans h3) h3
  clear_value s4
  have h5 : s5.control = s.control := (control_countTick ..).trans h4
  clear_value s5
  have h6 : s6.control = s.control := control_ite ((control_forgetVotes ..).trans h5) h5
  clear_value s6
  have h7 : s7.control = s.control := control_ite ((control_commitAtBoundary ..).trans h6) h6
  clear_value s7
  have h9 : s9.control = s.control := h7
  clear_value s9
  exact control_ite h9 ((control_takeHem ..).trans h9)

@[simp] theorem control_flushTick (s : State) (ref : TaskRef) (t : Nat) : (s.flushTick ref t).control = s.control :=
  control_onRun fun _ _ => (control_turnover ..).trans (control_ite (control_publish ..) rfl)

@[simp] theorem control_castSeal (s : State) (r : Run) (p : Pattern) (tick slot : Nat) (fail : Bool) (ws : List Work) :
    (s.castSeal r p tick slot fail ws).control = s.control := by
  refine control_ite rfl ((control_castSum ..).trans ((control_castVote ..).trans ?_))
  split
  · exact control_injectFlits ..
  · rfl

@[simp] theorem control_sealVote (s : State) (r : Run) (p : Pattern) (tick slot : Nat) (fail : Bool) (ws : List Work) :
    (s.sealVote r p tick slot fail ws).1.control = s.control := by
  unfold State.sealVote
  split
  · rfl
  · split
    · rfl
    · dsimp only
      split
      · exact control_castSeal ..
      · exact control_castSeal ..

@[simp] theorem control_dropVotes (s : State) (r : Run) (tick slot : Nat) : (s.dropVotes r tick slot).control = s.control := rfl

@[simp] theorem control_atBarrier (s : State) (r : Run) (p : Pattern) : (s.atBarrier r p).1.control = s.control := by
  unfold State.atBarrier
  dsimp only
  split
  · rfl
  · exact control_ite rfl ((control_castSum ..).trans (control_castVote ..))

@[simp] theorem control_noteStretch (s : State) (ref : TaskRef) (b : Bool) : (s.noteStretch ref b).control = s.control := control_ite rfl rfl

@[simp] theorem control_takeNoise (s : State) (r : Run) (slot n : Nat) : (s.takeNoise r slot n).2.control = s.control := by
  unfold State.takeNoise
  split
  · rfl
  · split <;> rfl

@[simp] theorem control_scrubArrays (s : State) (r : Run) : (s.scrubArrays r).control = s.control := control_setEngines ..

@[simp] theorem control_refreshShadow (s : State) (p : Pattern) : (s.refreshShadow p).control = s.control := control_ite rfl rfl

@[simp] theorem control_afterSeal (s : State) (r : Run) (p : Pattern) (env : BoundaryEnv) : (s.afterSeal r p env).control = s.control := by
  have h : (((s.refreshShadow p).correctAll r.ref r env.corrected).fenceRepeated r.ref r.tick).control = s.control :=
    (control_fenceRepeated ..).trans ((control_correctAll ..).trans (control_refreshShadow ..))
  exact control_ite ((control_setRun ..).trans h) ((control_rowNine ..).trans h)

@[simp] theorem control_refuseTick (s : State) (r : Run) (p : Pattern) (noise : Nat) (faults : List TickFault) (stretched : Bool) :
    (s.refuseTick r p noise faults stretched).control = s.control := by
  unfold State.refuseTick
  extract_lets faults x y
  have hx : x.control = s.control := (control_noteStretch ..).trans (control_dropVotes ..)
  have hy : y.control = s.control := (control_setRun ..).trans hx
  clear_value y
  exact control_ite ((control_holdRun ..).trans ((control_noteReplay ..).trans hy)) ((control_refuse ..).trans hy)

@[simp] theorem control_sealTick (s : State) (r : Run) (p : Pattern) (ws : List Work) (stretched : Bool) (env : BoundaryEnv) :
    (s.sealTick r p ws stretched env).control = s.control :=
  (control_afterSeal ..).trans ((control_flushTick ..).trans ((control_advance ..).trans
    ((control_foldl (fun s w => control_sealWork s _ w) _ _).trans (control_noteStretch ..))))

@[simp] theorem control_sealSlot (s : State) (ref : TaskRef) (slot : Nat) (ws : List Work) : (s.sealSlot ref slot ws).control = s.control :=
  (control_setRun ..).trans (control_foldl (fun s w => control_sealWork s _ w) _ _)

@[simp] theorem control_noteSlot (s : State) (r : Run) (slot tick : Nat) (stretched : Bool) :
    (s.noteSlot r slot tick stretched).control = s.control :=
  control_ite rfl (control_ite (control_noteStretch ..) (control_setRun ..))

/-! ### The update interval -/

@[simp] theorem control_learnSaturation (s : State) (r : Run) (u : StepUpdate) (n mask : Nat) :
    (s.learnSaturation r u n mask).control = s.control :=
  control_ite rfl ((control_event ..).trans (control_setRun ..))

@[simp] theorem control_gatherLearned (s : State) (r : Run) (p : Pattern) : (s.gatherLearned r p).control = s.control :=
  control_ite rfl (control_foldl (fun s _ => control_foldl (fun s _ => control_streamFor s _ _ _ _ _ _) _ s) _ _)

@[simp] theorem control_mendUpdate (s : State) (r : Run) (faults : List TickFault) : (s.mendUpdate r faults).control = s.control := by
  refine (control_foldl (fun s c => control_fenceCore s _ _ _ _ _) _ _).trans (control_foldl (fun s f => ?_) _ _)
  split
  · exact control_fenceCore ..
  · rfl

/-! ### Tasks that are stopped -/

@[simp] theorem control_stopRun (s : State) (ref : TaskRef) (status detail : Nat) : (s.stopRun ref status detail).control = s.control := by
  unfold State.stopRun
  split
  · exact control_endTask ..
  · exact control_ite rfl (control_ite (control_releaseRun ..) (control_ite (control_setRun ..) (control_breakRun ..)))

@[simp] theorem control_stopTask (s : State) (t : Task) (status : Nat) : (s.stopTask t status).control = s.control := by
  unfold State.stopTask
  split
  · rfl
  · exact (control_endTask ..).trans (control_breakSignal ..)
  · exact control_ite (control_stopRun ..) ((control_endTask ..).trans rfl)

@[simp] theorem control_dropDraws (s : State) (n : Nat) : (s.dropDraws n).control = s.control := by
  refine (control_foldl (fun s c => ?_) _ _).trans ?_
  · split
    · exact control_ite (control_freeCopy ..) rfl
    · rfl
  · rfl

@[simp] theorem control_purgeChains (s : State) (n : Nat) : (s.purgeChains n).1.control = s.control := rfl

@[simp] theorem control_stopAll (s : State) (n status : Nat) : (s.stopAll n status).control = s.control := by
  unfold State.stopAll
  extract_lets x y
  have hx : x.control = s.control := control_foldl (fun s t => control_stopTask s t status) _ _
  have hy : y.1.control = s.control := (control_purgeChains ..).trans hx
  clear_value y
  exact (control_dropDraws ..).trans ((control_setQueue ..).trans hy)

@[simp] theorem control_makeGuilty (s : State) (n cause : Nat) : (s.makeGuilty n cause).control = s.control := by
  unfold State.makeGuilty
  split
  · rfl
  · exact (control_noteWork ..).trans ((control_stopAll ..).trans (control_setQueue ..))

/-! ### Losses -/

@[simp] theorem control_loseRun (s : State) (ref : TaskRef) : (s.loseRun ref).control = s.control :=
  (control_giveUp ..).trans (control_setRun ..)

@[simp] theorem control_loseDram (s : State) : s.loseDram.control = s.control :=
  (control_unload ..).trans ((control_foldl (fun s (l : Load) => control_endTask s l.ref _ _) _ _).trans
    (control_foldl control_loseRun _ _))

@[simp] theorem control_loseChannel (s : State) (c : Nat) : (s.loseChannel c).control = s.control := by
  unfold State.loseChannel
  split
  · rfl
  · dsimp only
    generalize hy : State.logFault _ 8 _ _ _ = y
    have hy : y.control = s.control := hy ▸ (control_logFault ..).trans (control_setChannel ..)
    exact control_ite rfl (control_ite ((control_event ..).trans ((control_setChannel ..).trans hy))
      ((control_loseDram _).trans ((control_store ..).trans hy)))

@[simp] theorem control_checkLoss (s : State) (c : Nat) : (s.checkLoss c).control = s.control := by
  unfold State.checkLoss
  split
  · exact control_ite (control_loseChannel ..) rfl
  · rfl

@[simp] theorem control_readOrLose (s : State) (c line : Nat) (error : LineError) : (s.readOrLose c line error).control = s.control := by
  unfold State.readOrLose
  extract_lets x other failed u
  have hu : u.control = s.control := control_ite ((control_checkLoss ..).trans (control_readLine ..)) (control_readLine ..)
  clear_value u
  exact control_ite ((control_checkLoss ..).trans hu) hu

@[simp] theorem control_endPass (s : State) (c : Nat) : (s.endPass c).control = s.control := control_setChannel ..

end Sys2Proof.Machine
end

section
/-! SUPPORT. What a command does to the device's control, and O59: the commands that are work leave it as it was. -/

namespace Sys2Proof.Machine

/-- A command's meaning leaves the device's control as it was. -/
def LeavesControl (f : State → Host.Outcome State Fault Refusal) : Prop := ∀ s t, f s = .next t → t.control = s.control

theorem control_run {s : State} {f : State → State} (hf : ∀ s, (f s).control = s.control) : (s.run f).control = s.control := by
  have h : ((f { s with ops := [] }).occasions (stateOccasions s (f { s with ops := [] }))).control = s.control :=
    (control_occasions ..).trans (hf _)
  unfold State.run
  dsimp only
  generalize State.occasions _ _ = r at h ⊢
  simp only [State.control, Control.mk.injEq] at h ⊢
  simp only [h, and_self]

theorem leavesControl_run {f : State → State} (hf : ∀ s, (f s).control = s.control) : LeavesControl fun s => .next (s.run f) := by
  rintro s t ⟨⟩
  exact control_run hf

theorem leavesControl_whenLive {f : State → State} (hf : ∀ s, (f s).control = s.control) :
    LeavesControl fun s => .next (s.whenLive f) :=
  leavesControl_run fun s => control_ite (hf s) rfl

/-- The effect of a command that acts on an engine's run. -/
theorem leavesControl_withRun {e : Nat} {f : State → Run → Pattern → State} (hf : ∀ s r p, (f s r p).control = s.control) :
    LeavesControl fun s => .next (s.whenLive fun s => s.withRun e (f s)) :=
  leavesControl_whenLive fun s => control_withRun (hf s)

/-! ### Doorbells and the headgate -/

theorem leavesControl_tailWrite (queue : Nat) (value : Word) : LeavesControl (execTailWrite queue value) :=
  leavesControl_run fun s => control_doorbell (fun _ _ => control_ite ((control_noteWork ..).trans (control_setQueue ..))
    (control_setQueue ..)) s queue

theorem leavesControl_hswap (queue : Nat) (value : Word) : LeavesControl (execHswap queue value) :=
  leavesControl_run fun s => control_doorbell (fun _ _ => control_ite rfl (control_setQueue ..)) s queue

theorem leavesControl_handleTableSwap (queue : Nat) : LeavesControl (execHandleTableSwap queue) := by
  refine leavesControl_whenLive fun s => ?_
  split
  · split
    · exact control_ite (control_setQueue ..) rfl
    · rfl
  · rfl

theorem leavesControl_sproutAck (queue : Nat) (value : Word) (host : HostView) : LeavesControl (execSproutAck queue value host) :=
  leavesControl_run fun s => control_doorbell (fun _ _ => (control_foldl (fun s (r : Run) => control_rowNine s _ r.ref) _ _).trans
    (control_setQueue ..)) s queue

theorem leavesControl_slotBind (slot queue : Nat) : LeavesControl (execSlotBind slot queue) :=
  leavesControl_run fun _ => control_ite rfl rfl

theorem leavesControl_descriptorFetch (slot : Nat) (line : Option (List Byte)) : LeavesControl (execDescriptorFetch slot line) := by
  refine leavesControl_run fun s => ?_
  split
  · rfl
  · refine control_ite rfl (control_ite (control_ite (control_releaseSlot ..) rfl) ?_)
    split
    · exact (control_releaseSlot ..).trans (control_setQueue ..)
    · rfl

theorem leavesControl_fetchRetry (queue : Nat) : LeavesControl (execFetchRetry queue) :=
  leavesControl_whenLive fun _ => (control_noteWork ..).trans (control_setQueue ..)

theorem leavesControl_slotTimeout (slot : Nat) : LeavesControl (execSlotTimeout slot) :=
  leavesControl_whenLive fun s => control_releaseSlot s slot

theorem leavesControl_taskAdmit (slot : Nat) : LeavesControl (execTaskAdmit slot) := by
  refine leavesControl_run fun s => control_ite rfl ?_
  split
  · rfl
  · split
    · exact control_ite rfl (control_releaseSlot ..)
    · extract_lets seq ref sprouter held a room fits x y q z g w
      have hy : y.control = s.control := (control_setQueue ..).trans (control_ite (control_wakeChannels _) rfl)
      have hz : z.control = s.control := hy
      clear_value z
      have hw : w.control = s.control := by
        unfold w
        split
        · exact control_ite ((control_addEnding ..).trans hz) ((control_retire ..).trans hz)
        · exact hz
      clear_value w
      refine control_ite (control_releaseSlot ..) ?_
      split
      · exact control_ite hw ((control_releaseSlot ..).trans hw)
      · exact hw

theorem leavesControl_taskAgeing (task : TaskRef) : LeavesControl (execTaskAgeing task) := by
  refine leavesControl_whenLive fun s => ?_
  split
  · exact control_ite (control_setTask ..) rfl
  · rfl

/-! ### Tasks -/

theorem leavesControl_nop (task : TaskRef) : LeavesControl (execNop task) :=
  leavesControl_run fun s => control_dispatch (fun _ _ => control_retire ..) s task _

theorem leavesControl_fenceSignal (task : TaskRef) : LeavesControl (execFenceSignal task) :=
  leavesControl_run fun s => control_dispatch (fun _ _ => (control_retire ..).trans (control_setFence ..)) s task _

theorem leavesControl_fenceWait (task : TaskRef) : LeavesControl (execFenceWait task) := by
  refine leavesControl_run fun s => control_dispatch (fun t s => ?_) s task _
  split
  · exact control_ite (control_retire ..) (control_setTask ..)
  · exact control_setTask ..

theorem leavesControl_fenceWaitSatisfied (task : TaskRef) : LeavesControl (execFenceWaitSatisfied task) := by
  refine leavesControl_whenLive fun s => ?_
  split
  · split
    · exact control_ite (control_retire ..) rfl
    · rfl
  · rfl

theorem leavesControl_copy (task : TaskRef) (host : HostView) : LeavesControl (execCopy task host) := by
  refine leavesControl_run fun s => control_dispatchBlock (fun t q b s => ?_) s task _
  extract_lets src dst len meet
  split
  · exact control_endTask ..
  · split
    · exact control_endTask ..
    · rfl
    · extract_lets x before moved y
      have hy : y.control = s.control := (control_setTask ..).trans ((control_moveLines ..).trans (control_setCopyEngine ..))
      clear_value y
      exact (control_takeTurn ..).trans (control_ite ((control_endTask ..).trans hy) ((control_endTask ..).trans hy))

theorem leavesControl_randomFillStates (task : TaskRef) (host : HostView) : LeavesControl (execRandomFillStates task host) := by
  refine leavesControl_run fun s => control_ite rfl (control_dispatchBlock (fun t q b s => ?_) s task _)
  extract_lets g h dst count
  split
  · exact control_endTask ..
  · split
    · exact control_endTask ..
    · rfl
    · refine control_ite (control_endTask ..) (control_ite (control_endTask ..) (control_ite (control_endTask ..) ?_))
      split
      · exact control_endTask ..
      · exact control_fill ..

theorem leavesControl_randomFillBytes (task : TaskRef) (host : HostView) : LeavesControl (execRandomFillBytes task host) := by
  refine leavesControl_run fun s => control_ite rfl (control_dispatchBlock (fun t q b s => ?_) s task _)
  extract_lets dst len
  split
  · exact control_endTask ..
  · split
    · exact control_endTask ..
    · rfl
    · exact control_ite ((control_fill ..).trans (control_drawFill ..))
        (control_ite rfl (control_endTask ..))

theorem leavesControl_loadPattern (task : TaskRef) : LeavesControl (execLoadPattern task) := by
  refine leavesControl_run fun s => control_ite rfl (control_dispatchBlock (fun t q b s => ?_) s task _)
  extract_lets addr report mask
  split
  · exact control_endTask ..
  · split
    · exact control_endTask ..
    · refine control_ite (control_endTask ..) ?_
      refine control_ite (control_endLoad ..) ?_
      split
      · exact control_endLoad ..
      · exact control_ite (control_endLoad ..) ((control_setTask ..).trans (control_wakeEngines ..))

theorem leavesControl_loadArrayPhase (task : TaskRef) (found : List CoreAt) : LeavesControl (execLoadArrayPhase task found) := by
  refine leavesControl_whenLive fun s => ?_
  split
  · rfl
  · extract_lets h
    split
    · rfl
    · extract_lets es x g y z done p u v w
      refine control_ite (control_wakeEngines ..) ?_
      have hz : z.control = s.control := (control_setTask ..).trans (control_beginArray ..)
      have hu : u.control = s.control := (control_writeDram ..).trans ((control_clearPlaces ..).trans hz)
      clear_value u
      have hw : w.control = s.control := hu
      clear_value z w
      split
      · exact (control_endLoad ..).trans hz
      · exact (control_endTask ..).trans ((control_setEngines ..).trans hw)

theorem leavesControl_checkpoint (task : TaskRef) : LeavesControl (execCheckpoint task) := by
  refine leavesControl_run fun s => control_dispatchBlock (fun t q b s => ?_) s task _
  extract_lets target mode dst lines run st usable room
  split
  · exact control_endTask ..
  · split
    · exact control_endTask ..
    · exact control_ite (control_endTask ..) (control_ite ((control_endTask ..).trans (control_writeCheckpoint ..))
        (control_ite ((control_rowNine ..).trans ((control_setRun ..).trans (control_setTask ..)))
          ((control_setRun ..).trans (control_setTask ..))))

/-- A start of a run, whichever kind it is. -/
theorem leavesControl_startRun (task : TaskRef) (host : HostView) (row : Nat) :
    LeavesControl fun s => .next (s.run fun s => if s.runRow task = some row then s.startRun host task else s) :=
  leavesControl_run fun _ => control_ite (control_startRun ..) rfl

/-! ### Ticks and boundaries -/

theorem leavesControl_tickStart (engine late : Nat) : LeavesControl (execTickStart engine late) := by
  refine leavesControl_withRun fun s r p => control_ite rfl ((control_onRun fun r' p' => ?_).trans (control_takeLoose s r.ref))
  exact (control_setRun ..).trans ((control_scrubArrays ..).trans ((control_spread ..).trans ((control_takeNoise ..).trans
    ((control_takeLoose s r'.ref).trans (control_takeLoose s r.ref).symm))))

theorem leavesControl_harvestTick (engine late : Nat) (host : HostView) : LeavesControl (execHarvestTick engine late host) :=
  leavesControl_withRun fun s r _ => control_ite rfl ((control_setRun ..).trans (control_scrubArrays s r))

theorem leavesControl_scoringTick (engine late : Nat) (host : HostView) : LeavesControl (execScoringTick engine late host) :=
  leavesControl_withRun fun s r _ => control_ite rfl ((control_setRun ..).trans (control_scrubArrays s r))

theorem leavesControl_tickBoundary (engine : Nat) (env : BoundaryEnv) : LeavesControl (execTickBoundary engine env) := by
  refine leavesControl_withRun fun s r p => control_ite rfl ((control_onRun fun r' p' => ?_).trans (control_takeLoose s r.ref))
  extract_lets noise vote stretched barrier
  have hvote : vote.1.control = (s.takeLoose r.ref).control := control_sealVote ..
  have hbarrier : barrier.1.control = (s.takeLoose r.ref).control := (control_atBarrier ..).trans hvote
  clear_value barrier vote
  split
  · exact hvote
  · exact (control_answerRead ..).trans ((control_correctAll ..).trans ((control_refuseTick ..).trans hvote))
  · split
    · exact hbarrier
    · exact (control_answerRead ..).trans ((control_sealTick ..).trans ((control_setRun ..).trans hbarrier))

theorem leavesControl_slotIssue (engine slot late : Nat) : LeavesControl (execSlotIssue engine slot late) := by
  refine leavesControl_withRun fun s r p => control_ite rfl ?_
  exact (control_setRun ..).trans (control_ite ((control_scrubArrays ..).trans (control_takeNoise ..)) (control_takeNoise ..))

theorem leavesControl_slotBoundary (engine slot : Nat) (env : BoundaryEnv) : LeavesControl (execSlotBoundary engine slot env) := by
  refine leavesControl_withRun fun s r p => ?_
  extract_lets ws
  clear_value ws
  cases ws with
  | nil => rfl
  | cons w ws =>
    dsimp -zeta only
    extract_lets vote timed a faults b x
    have hvote : vote.1.control = s.control := control_sealVote ..
    have htimed (x : State) (b : Bool) : (timed x b).control = x.control := (control_setRun ..).trans (control_noteSlot ..)
    have hb : b.control = s.control := (control_setRun ..).trans ((htimed ..).trans ((control_dropVotes ..).trans hvote))
    have hx : x.control = s.control := (htimed ..).trans hvote
    clear_value x b
    split
    · exact hvote
    · exact (control_answerRead ..).trans ((control_correctAll ..).trans ((control_refuse ..).trans hb))
    · extract_lets ws y z
      have hy : y.control = s.control := control_ite ((control_sealSlot ..).trans hx) ((control_setRun ..).trans hx)
      have hz : z.control = s.control := (control_setRun ..).trans hy
      clear_value z
      exact (control_answerRead ..).trans ((control_fenceRepeated ..).trans ((control_correctAll ..).trans hz))

theorem leavesControl_runBoundary (engine : Nat) (env : BoundaryEnv) : LeavesControl (execRunBoundary engine env) := by
  refine leavesControl_withRun fun s r p => control_ite rfl ?_
  extract_lets going floor x y z w
  have hx : x.control = s.control := (control_advance ..).trans (control_noteStretch ..)
  have hy : y.control = s.control := (control_setRun ..).trans hx
  clear_value y
  have hz : z.control = s.control := (control_foldl (fun s k => by
    split
    · rfl
    · exact control_sealSlot ..) _ _).trans hy
  have hw : w.control = s.control := (control_flushTick ..).trans hz
  clear_value w
  exact (control_answerRead ..).trans (control_ite ((control_correctAll ..).trans hw) ((control_afterSeal ..).trans hw))

theorem leavesControl_stepBoundary (engine : Nat) (env : BoundaryEnv) : LeavesControl (execStepBoundary engine env) := by
  refine leavesControl_withRun fun s r p => control_ite rfl ?_
  extract_lets steps n a u p' b c x mask y ends emits bytes fits flags z w
  have ha : a.control = s.control := control_foldl (fun s f => control_noteReplay s _ _ _ _) _ _
  have hx : x.control = s.control := ha
  clear_value x
  have hz : z.control = s.control := (control_setRun ..).trans ((control_ringPut ..).trans ((control_learnSaturation ..).trans hx))
  clear_value z
  have hw : w.control = s.control := control_ite ((control_gatherLearned ..).trans hz) hz
  clear_value w
  exact (control_answerRead ..).trans ((control_rowNine ..).trans ((control_mendUpdate ..).trans ((control_correctAll ..).trans
    ((control_takeHem ..).trans hw))))

theorem leavesControl_learnedImageComplete (engine : Nat) : LeavesControl (execLearnedImageComplete engine) := by
  refine leavesControl_withRun fun s r p => ?_
  split
  · rfl
  · extract_lets x
    have hx : x.control = s.control := (control_setRun ..).trans (control_writeDram ..)
    clear_value x
    split
    · exact (control_releaseRun ..).trans hx
    · exact hx

/-! ### Holds, waits and watchdogs -/

theorem leavesControl_ringPoll (engine : Nat) (host : HostView) : LeavesControl (execRingPoll engine host) :=
  leavesControl_withRun fun _ _ _ => control_ite (control_rowNine ..) rfl

theorem leavesControl_spoolLoadComplete (engine replica : Nat) : LeavesControl (execSpoolLoadComplete engine replica) :=
  leavesControl_withRun fun _ _ _ => control_ite rfl (control_ite (control_giveUp ..) (control_setRun ..))

theorem leavesControl_weirRebuildComplete (engine rung : Nat) : LeavesControl (execWeirRebuildComplete engine rung) := by
  refine leavesControl_withRun fun s r _ => ?_
  split
  · exact control_setRun ..
  · rfl

theorem leavesControl_shiftRepairComplete (engine : Nat) : LeavesControl (execShiftRepairComplete engine) := by
  refine leavesControl_whenLive fun s => ?_
  split
  · exact control_ite rfl ((control_setRun ..).trans (control_foldl (fun s e => control_endRepair s e _) _ _))
  · exact control_ite (control_endRepair ..) rfl

theorem leavesControl_wireSteerComplete (engine : Nat) : LeavesControl (execWireSteerComplete engine) :=
  leavesControl_withRun fun s r _ => control_setRun s r.ref _

theorem leavesControl_hangInterval : LeavesControl execHangInterval :=
  leavesControl_whenLive fun _ => control_foldl (fun s n => control_makeGuilty s n 1) _ _

theorem leavesControl_engineResetTimeout (engine : Nat) : LeavesControl (execEngineResetTimeout engine) := by
  refine leavesControl_whenLive fun s => ?_
  split
  · split
    · exact control_ite ((control_unload ..).trans ((control_breakRun ..).trans (control_setRun ..))) rfl
    · rfl
  · rfl

/-! ### The memory channels and the copy engines -/

theorem leavesControl_dramRead (addr : Nat) (error : LineError) : LeavesControl (execDramRead addr error) :=
  leavesControl_whenLive fun s => control_ite ((control_readOrLose ..).trans (control_wakeChannels s)) rfl

theorem leavesControl_dramWrite (addr : Nat) (data : List Byte) : LeavesControl (execDramWrite addr data) :=
  leavesControl_whenLive fun s => control_ite ((control_write ..).trans (control_wakeChannels s)) rfl

theorem leavesControl_mergeDrainTimeout (channel line : Nat) : LeavesControl (execMergeDrainTimeout channel line) := by
  refine leavesControl_whenLive fun s => ?_
  split
  · exact control_ite (control_store ..) rfl
  · rfl

theorem leavesControl_scrubRead (channel : Nat) (error : LineError) : LeavesControl (execScrubRead channel error) := by
  refine leavesControl_whenLive fun s => ?_
  extract_lets ch visit left
  have hvisit (line : Nat) (last : Bool) (x : State) : (visit line last x).control = x.control :=
    (control_readOrLose ..).trans (control_ite ((control_endPass ..).trans (control_setChannel ..)) (control_setChannel ..))
  clear_value visit
  refine control_ite ?_ rfl
  split
  · exact hvisit ..
  · exact (hvisit ..).trans (control_endPass ..)
  · exact control_ite (control_endPass ..) rfl

theorem leavesControl_refresh (channel bank : Nat) : LeavesControl (execRefresh channel bank) :=
  leavesControl_whenLive fun s => control_ite (control_setChannel s ..) rfl

theorem leavesControl_mr4Poll (channel : Nat) (hot : Bool) : LeavesControl (execMr4Poll channel hot) :=
  leavesControl_whenLive fun s => control_ite (control_setChannel s ..) rfl

theorem leavesControl_selfRefreshEntry : LeavesControl execSelfRefreshEntry :=
  leavesControl_whenLive fun _ => control_ite (control_foldl (fun _ _ =>
    control_ite ((control_setDomain ..).trans (control_setChannel ..)) rfl) _ _) rfl

theorem leavesControl_selfRefreshExit : LeavesControl execSelfRefreshExit := leavesControl_whenLive control_wakeChannels

theorem leavesControl_chainLinkComplete (engine : Nat) (host : HostView) : LeavesControl (execChainLinkComplete engine host) := by
  refine leavesControl_run fun s => ?_
  extract_lets e
  split
  · rfl
  · refine control_ite rfl ?_
    extract_lets l pasid moved x y
    have hx : x.control = s.control := control_moveLines ..
    have hy : y.control = s.control := control_ite ((control_signal ..).trans hx) hx
    clear_value y x
    exact control_ite ((control_setCopyEngine ..).trans hx) (control_ite ((control_setCopyEngine ..).trans hy)
      (control_ite ((control_setCopyEngine ..).trans hy) ((control_beginLink ..).trans hy)))

theorem leavesControl_chainWaitSatisfied (engine : Nat) : LeavesControl (execChainWaitSatisfied engine) := by
  refine leavesControl_whenLive fun s => ?_
  extract_lets e
  split
  · exact control_ite (control_setCopyEngine ..) (control_ite rfl (control_takeTurn ..))
  · rfl

/-! ### O59 -/

/-- Settles O59: each command that is work leaves the control as it was. -/
theorem workTouchesNoControl : Obligations.WorkTouchesNoControl := by
  intro c s t _ hwork hexec
  have hcontrol : t.control = s.control := by
    cases c
    case tailWrite q v => exact leavesControl_tailWrite q v s t hexec
    case hswap q v => exact leavesControl_hswap q v s t hexec
    case handleTableSwap q => exact leavesControl_handleTableSwap q s t hexec
    case sproutAck q v h => exact leavesControl_sproutAck q v h s t hexec
    case slotBind k q => exact leavesControl_slotBind k q s t hexec
    case descriptorFetch k l => exact leavesControl_descriptorFetch k l s t hexec
    case fetchRetry q => exact leavesControl_fetchRetry q s t hexec
    case slotTimeout k => exact leavesControl_slotTimeout k s t hexec
    case taskAdmit k => exact leavesControl_taskAdmit k s t hexec
    case taskAgeing r => exact leavesControl_taskAgeing r s t hexec
    case nop r => exact leavesControl_nop r s t hexec
    case fenceSignal r => exact leavesControl_fenceSignal r s t hexec
    case fenceWait r => exact leavesControl_fenceWait r s t hexec
    case fenceWaitSatisfied r => exact leavesControl_fenceWaitSatisfied r s t hexec
    case copy r h => exact leavesControl_copy r h s t hexec
    case randomFillStates r h => exact leavesControl_randomFillStates r h s t hexec
    case randomFillBytes r h => exact leavesControl_randomFillBytes r h s t hexec
    case loadPattern r => exact leavesControl_loadPattern r s t hexec
    case loadArrayPhase r l => exact leavesControl_loadArrayPhase r l s t hexec
    case checkpoint r => exact leavesControl_checkpoint r s t hexec
    case runAnneal r h => exact leavesControl_startRun r h 0 s t hexec
    case runScoring r h => exact leavesControl_startRun r h 1 s t hexec
    case runLearning r h => exact leavesControl_startRun r h 2 s t hexec
    case runFromCheckpoint r h => exact leavesControl_startRun r h 3 s t hexec
    case runRehostStart r h => exact leavesControl_startRun r h 4 s t hexec
    case tickStart e l => exact leavesControl_tickStart e l s t hexec
    case harvestTick e l h => exact leavesControl_harvestTick e l h s t hexec
    case scoringTick e l h => exact leavesControl_scoringTick e l h s t hexec
    case tickBoundary e v => exact leavesControl_tickBoundary e v s t hexec
    case slotIssue e k l => exact leavesControl_slotIssue e k l s t hexec
    case slotBoundary e k v => exact leavesControl_slotBoundary e k v s t hexec
    case runBoundary e v => exact leavesControl_runBoundary e v s t hexec
    case stepBoundary e v => exact leavesControl_stepBoundary e v s t hexec
    case learnedImageComplete e => exact leavesControl_learnedImageComplete e s t hexec
    case ringPoll e h => exact leavesControl_ringPoll e h s t hexec
    case spoolLoadComplete e k => exact leavesControl_spoolLoadComplete e k s t hexec
    case weirRebuildComplete e k => exact leavesControl_weirRebuildComplete e k s t hexec
    case shiftRepairComplete e => exact leavesControl_shiftRepairComplete e s t hexec
    case wireSteerComplete e => exact leavesControl_wireSteerComplete e s t hexec
    case hangInterval => exact leavesControl_hangInterval s t hexec
    case engineResetTimeout e => exact leavesControl_engineResetTimeout e s t hexec
    case dramRead a x => exact leavesControl_dramRead a x s t hexec
    case dramWrite a bs => exact leavesControl_dramWrite a bs s t hexec
    case mergeDrainTimeout c l => exact leavesControl_mergeDrainTimeout c l s t hexec
    case scrubRead c x => exact leavesControl_scrubRead c x s t hexec
    case refresh c b => exact leavesControl_refresh c b s t hexec
    case mr4Poll c b => exact leavesControl_mr4Poll c b s t hexec
    case selfRefreshEntry => exact leavesControl_selfRefreshEntry s t hexec
    case selfRefreshExit => exact leavesControl_selfRefreshExit s t hexec
    case chainLinkComplete e h => exact leavesControl_chainLinkComplete e h s t hexec
    case chainWaitSatisfied e => exact leavesControl_chainWaitSatisfied e s t hexec
    all_goals exact False.elim hwork
  simp only [State.control, Control.mk.injEq] at hcontrol
  simp only [hcontrol, and_self]

end Sys2Proof.Machine
end
